-- ==== Sys2Proof/Word.lean ====
section
/-! DEFINITION. The words of the package: bytes, registers, addresses, and the sparse map that holds memories and tables. -/
namespace Sys2Proof

/-- One byte of a device memory structure (R8: multi-byte fields are little-endian). -/
abbrev Byte := BitVec 8
/-- A control-space register, or an immediate (R542, R229). -/
abbrev W32 := BitVec 32
/-- A scalar register or an instruction word (R210, R229). -/
abbrev W64 := BitVec 64
/-- A tick count or an almanac sequence number, modulo 2^48 (R163 to R165). -/
abbrev W48 := BitVec 48
/-- A string of bytes, lowest address first. -/
abbrev Bytes := List Byte
/-- A table or memory held sparsely: keys strictly rising, no entry at the value an unlisted key reads as. -/
abbrev SMap (α : Type) := List (Nat × α)

/-- Global core id 4 × die + local core (R4). -/
abbrev CoreId := Fin 96
/-- Die code: 0–23 W00–W23, 24 S0, 25 S1, 26 C0, 27 C1, 28–31 O0–O3 (R277). -/
abbrev DieId := Fin 32
/-- Serving die S0 or S1 (R31). -/
abbrev ServeId := Fin 2
/-- Scalar register s0–s31 (R210). -/
abbrev SReg := Fin 32
/-- Descriptor register t0–t15 (R224). -/
abbrev TReg := Fin 16
/-- Predicate register p0–p7 (R211). -/
abbrev PReg := Fin 8

end Sys2Proof
end

