-- ==== Sys2Proof/Types.lean ====
section
/-! DEFINITION. The operand types of the commands: codes of the Aithal fields, and what the surroundings bring with an event. -/
namespace Sys2Proof

/-- Guard of an Aithal instruction: it executes only if p[PRED] XOR PNEG is 1 (R211). -/
structure Guard where
  pred : PReg
  neg : Bool
deriving DecidableEq, Repr

/-- Branch conditions, codes 0–6 of COND (R230). -/
inductive Cond where
  | always | z | nz | lt | ge | gt | le
deriving DecidableEq, Repr

/-- Special values of `rds`, codes 0–6 of SUB (R212, R249). -/
inductive Special where
  | tcnt | seq | slot | epoch | core | cyc | dln
deriving DecidableEq, Repr

/-- Comparisons of `pcmp`, codes 0–5 of SUB (R252). -/
inductive Cmp where
  | eq | ne | lt | ge | ltu | geu
deriving DecidableEq, Repr

/-- Fields of a descriptor register that `dset` writes, codes 0–6 of SUB (R251). -/
inductive DField where
  | base | fmt | banking | len0m1 | len1m1 | stride1 | bstride
deriving DecidableEq, Repr

/-- Readout modes, codes 0–2 of MODE (R230, R60). -/
inductive Mode where
  | reference | standard | brisk
deriving DecidableEq, Repr

/-- Activation widths, codes 0–2 of AW and of ACT_FMT (R230, R123). -/
inductive ActW where
  | int4 | fp4 | int8
deriving DecidableEq, Repr

/-- Row-group policies, codes 0–5 of RGP (R230). -/
inductive Rgp where
  | auto | g16 | g32 | g64 | g128 | g256
deriving DecidableEq, Repr

/-- The tile of an array issue: ABASE, the two spans minus 1, and the row range in 64-row units (R229, R230). -/
structure Tile where
  abase : BitVec 12
  kspanM1 : BitVec 6
  nspanM1 : BitVec 5
  rowlo : BitVec 4
  rowhi : BitVec 4
deriving DecidableEq, Repr

/-- The M-format operands of `mvm` (R229, R253). -/
structure MvmOp where
  tacc : TReg
  tact : TReg
  tile : Tile
  mode : Mode
  aw : ActW
  rgp : Rgp
  sx : SReg
  clr : Bool
deriving DecidableEq, Repr

/-- A row-read that fails its check though the cells are good: array (logical number in an issue, physical number in a holiday or a sweep),
row number as addressed (data 0–1,023, scale 1,024–1,087), and how many consecutive reads fail (R53, R70, R118, R150, R158). -/
structure ReadFault where
  array : Nat
  row : Nat
  times : Nat
deriving DecidableEq, Repr

/-- One converted code that differs from the true count: converter 0–167, slot 0–7 (8–15 in a twin pass), the code (R48 to R50). -/
structure CodeErr where
  conv : Nat
  slot : Nat
  code : Nat
deriving DecidableEq, Repr

/-- The physical column that a converter converts in a slot (R50). -/
def convColumn (conv slot : Nat) : Nat := if slot < 8 then 8 * conv + slot else 8 * ((conv + 84) % 168) + (slot - 8)

/-- The physical column of a reported code (R50). -/
def CodeErr.col (e : CodeErr) : Nat := convColumn e.conv e.slot
/-- The code comes from the second conversion of a twin pass (R50). -/
def CodeErr.second (e : CodeErr) : Bool := decide (8 ≤ e.slot)

/-- Which pass of an issue: logical array, bit-plane, first row, group size, twin, and whether it is the retry of a 16-row pass (R54, R66, R68). -/
structure PassId where
  array : Nat
  plane : Nat
  lo : Nat
  g : Nat
  retry : Bool
deriving DecidableEq, Repr

/-- How a received flit's words stood against their code (R298 to R300). -/
inductive Ecc where
  | clean
  | corrected (words : Nat)
  | badOnce
  | badTwice
deriving DecidableEq, Repr

/-- A word found by the scrubber of a weight die (R302): core-store or accumulator-file byte address, or a reducer. -/
inductive ScrubWord where
  | store (core : CoreId) (addr : Nat)
  | acc (core : CoreId) (addr : Nat)
  | reducer (unit : Nat)
deriving DecidableEq, Repr

/-- Result of training a UCIe link (R15). -/
inductive LinkResult where
  | x64 | x32 | down
deriving DecidableEq, Repr

/-- Result of training a fabric link's optical lanes (R410). -/
inductive LaneResult where
  | lanes8 | lanes4 | down
deriving DecidableEq, Repr

/-- What the far end of a fabric link reports in training: Skeist address, the direction or bundle it answers on, its lane (R412). -/
structure Peer where
  addr : BitVec 16
  dir : Nat
  lane : Nat
deriving DecidableEq, Repr

/-- The access paths of the control space (R543). -/
inductive Path where
  | c0 | c1 | mgmt | firmware
deriving DecidableEq, Repr

/-- The fields of a flit's header word that routing, delivery and combining use (R277). -/
structure Header where
  kind : Nat
  form : Nat
  destMember : Nat
  die : Nat
  destUnit : Nat
  route : Nat
  seq : BitVec 8
  cls : Nat
  vc : Nat
  first : Bool
  last : Bool
  offset : Nat
  opMax : Bool
  srcCore : Nat
  srcMember : Nat
  int : Bool
deriving DecidableEq, Repr

/-- A flit's content: its header, its 64 payload bytes (R276), and how many of them belong to the message: the header of R277 has no field for it (DESIGN CHOICE, log 9). -/
structure FlitBody where
  hdr : Header
  data : Bytes
  used : Nat
deriving DecidableEq, Repr

/-- A Skeist DATA frame: header fields and flits (R418, R420), with the fabric link it arrives on. -/
structure Frame where
  typ : Nat
  fvc : Nat
  dest : BitVec 16
  src : BitVec 16
  tick : BitVec 16
  tag : W32
  hops : Nat
  link : Fin 32
  flits : List FlitBody
deriving DecidableEq, Repr

/-- The straps that the boot samples: position and rack (R411, R573). -/
structure Straps where
  pos : BitVec 6
  rack : BitVec 10
deriving DecidableEq, Repr

/-- A frame that comes in, and what the check of its words finds (R300, R420). -/
structure FrameIn where
  frame : Frame
  ecc : Ecc
deriving DecidableEq, Repr

/-- A loss notice: cause, source member, die (R173, R421). -/
structure Notice where
  cause : Nat
  member : Nat
  die : Nat
deriving DecidableEq, Repr

/-- The payload of a stamp frame (R421). Offsets are signed phase units, `none` for 0x8000. -/
structure Stamp where
  tick : W48
  member : Nat
  stretch : Nat
  leap : Bool
  fault : Bool
  patchVote : Nat
  loadVote : Nat
  changeNak : Bool
  convening : Bool
  ready : Bool
  notices : List Notice
  noticeOvf : Bool
  tTx : W32
  tRx : W32
  eveCount : W32
  offs : List (Option Int)
deriving DecidableEq, Repr

/-- The group record (R427). -/
structure GroupRecord where
  groupId : BitVec 16
  members : Nat
  epoch : W32
  almanacDigest : BitVec 256
  generation : W32
  staged : W32
  fwVersion : W64
  patchEpoch : W32
  memberPos : List (BitVec 16)
  sparePos : List (BitVec 16)
  tickEpoch : W48
deriving DecidableEq, Repr

/-- A CONVENE frame (R420): group, sender, committed record, TICK, LAST_COMMIT, EVE_COUNT, FAULT, HOLDOVER. -/
structure Convene where
  groupId : BitVec 16
  member : Nat
  record : GroupRecord
  tick : W48
  lastCommit : W48
  eveCount : W32
  fault : Bool
  holdover : Bool
deriving DecidableEq, Repr

/-- A RULING frame (R420), with the member it comes from. -/
structure Ruling where
  groupId : BitVec 16
  sender : Nat
  record : GroupRecord
  keep : BitVec 16
  revert : W48
  seq : W48
  round : Nat
  leader : Nat
deriving DecidableEq, Repr

/-- A JOIN frame (R420), with the Skeist address it is sent to. -/
structure Join where
  dest : BitVec 16
  record : GroupRecord
  member : Nat
  n0 : W48
  t0 : W64
  seq : W48
deriving DecidableEq, Repr

/-- The ring set and tag of a host command (R457, R458). -/
structure HostCmd where
  set : Fin 16
  tag : W32
deriving DecidableEq, Repr

/-- The header and address of a management message (R544), with its source address (link-local when flagged). -/
structure MgmtMsg where
  source : BitVec 128
  linkLocal : Bool
  seq : BitVec 16
  serial : W64
  count : Nat
  addr : Nat
deriving DecidableEq, Repr

/-- A housekeeping conversion request: channel, converter, quarter, tag (R521). -/
structure HskReq where
  chan : BitVec 4
  east : Bool
  quarter : BitVec 4
  tag : BitVec 6
deriving DecidableEq, Repr

/-- What a conversion senses: the input and the bandgap, in half LSBs, so that over- and under-range of R509 are exact. -/
structure HskSense where
  input : Int
  bandgap : Nat
deriving DecidableEq, Repr

/-- The firmware processors (R452). -/
inductive Proc where
  | security | power | scheduler
  | control (core : CoreId)
deriving DecidableEq, Repr

/-- Why a firmware processor restarts: the cause codes of FW_RESTART (R465, R479). -/
inductive RestartCause where
  | watchdog | codeError | boundTrap | takeover
deriving DecidableEq, Repr

/-- The rails of the package (R489). -/
inductive Rail where
  | core | arr | opt | aon
deriving DecidableEq, Repr

/-- A margin scan's measured edges: Q1 from 0 to 64, Q0 from −1 to 63 (R130). -/
structure Edges where
  q1 : Nat
  q0 : Int
deriving DecidableEq, Repr

/-- What a margin scan senses in one of its rows (R130): the smallest code at which a one-cell of the row senses 0 (64 for none), and the
largest at which a zero-cell senses 1 (−1 for none). -/
structure RowEdges where
  row : Nat
  q1 : Nat
  q0 : Int
deriving DecidableEq, Repr

/-- What the analogue side shows in one step of a holiday: the edges of the scan that ends it, and the row-reads that fail (R70, R133, R147). -/
structure StepRead where
  edges : List RowEdges
  faults : List ReadFault
deriving DecidableEq, Repr

/-- What the analogue side shows in a sweep: the scan of each physical array, and the row-reads that fail (R70, R155, R158). -/
structure SweepRead where
  edges : List (Nat × List RowEdges)
  faults : List ReadFault
deriving DecidableEq, Repr

/-- A bank to compare, and the row-reads of it that fail (R70, R401). -/
structure BankRead where
  bank : Fin 64
  faults : List ReadFault
deriving DecidableEq, Repr

/-- What a full calibration finds for one column converter (R515): the gain trim that it requires in steps of 0.4 %, the offset trim in
steps of 1/64 unit current, and the distance of the worst transition from its ideal point after trim, in thousandths of a unit. -/
structure ConvCal where
  conv : Nat
  gain : Int
  offset : Int
  worst : Nat
deriving DecidableEq, Repr

/-- A sensor reading: die, sensor, temperature in 0.125 °C; `none` when the sensor gives no reading (R496, R497). -/
structure Reading where
  die : DieId
  sensor : Nat
  temp : Option Int
deriving DecidableEq, Repr

end Sys2Proof
end

