-- ==== Sys2Proof/Config.lean ====
section
/-! DEFINITION. What the manual leaves open: opaque constants without a body, one for each kind of open value, and what an
implementation fixes. Each is named in a row of notes/assumptions. -/
namespace Sys2Proof

/-- Free value: random bits of the device (a request's seed under R342, an attestation draw), applied to the counter
`State.free`. DESIGN CHOICE (log 1). -/
opaque Config.random : Nat → BitVec 256
/-- Free value: sin (`false`) or cos (`true`) of an infinite angle, as FP32; R261 and R262 give no limit. (log 2) -/
opaque Config.trigOfInf : Bool → Bool → BitVec 32
/-- Free value: sign of the larger (`false`) or smaller (`true`) of two zeros of unlike sign, by their order. (log 3) -/
opaque Config.zeroSign : Bool → Bool → Bool
/-- Free value: the signature scheme XMSS-SHAKE256_20_256 (R473, R477): whether `sig` over `msg` verifies under `key`. (log 4) -/
opaque Config.xmssVerify : Bytes → Bytes → Bytes → Bool
/-- Free value: the signature that the device's key makes over a message with a given index (R477, R478). (log 4) -/
opaque Config.xmssSign : Nat → Bytes → Bytes

/-- Free value: the byte that fills a sent row up to a multiple of 64 (R265 gives no value). (log 9) -/
opaque Config.padByte : Byte

/-- Free value: SRC_CORE of a flit that a reducer of a weight die sends (R277 names cores and edge dies alone). (log 9) -/
opaque Config.reducerSrc : Nat → Nat

/-- Free value: slots of a port that went by idle since it last granted one (R284), by the counter `State.free`: the commands carry no port clock. (log 42) -/
opaque Config.idleSlots : Nat → Nat

/-- Free value: FP32 code of ln 0, which R352 meets when the drawn token's weight is 0. (log 12) -/
opaque Config.logOfZero : BitVec 32
/-- Free value: DRAM address of the page directory of a request on a serving die (R322 leaves its place open). (log 13) -/
opaque Config.dirAddr : Nat → Nat → BitVec 64
/-- Free value: 4 KiB unit of the page list of a request and layer on a serving die (R322). (log 13) -/
opaque Config.listUnit : Nat → Nat → Nat → Nat

/-- Free value: first byte and length of the data window that the scheduler core sets for a core from an almanac's bytes (R241 names no
source). (log 19) -/
opaque Config.dataWindow : Bytes → Nat → Nat × Nat
/-- Free value: the almanac that a patch makes of an almanac, both as bytes (R197 gives a patch no layout). (log 20) -/
opaque Config.patchAlmanac : Bytes → Bytes → Bytes
/-- Free value: recipe and program bytes of a patch: core, core-store address, bytes. (log 20) -/
opaque Config.patchWrites : Bytes → List (Nat × Nat × Bytes)
/-- Free value: 1 less than the status, by remainder of 9, with which the reader of a load has ended it, as another member learns it, by tick (R390, R397). (log 28) -/
opaque Config.peerLoadEnd : Nat → Nat
/-- Free value: latency of the stamp path between two Skeist addresses, in phase units (R430). (log 21) -/
opaque Config.pathDelay : Nat → Nat → Nat
/-- Free value: arrival time and departure time stamps of a link's stamp frame, by tick and link (R421). (log 21) -/
opaque Config.linkTime : Nat → Nat → Bool → BitVec 32
/-- Free value: the package at the far end of a trunk bundle (0 for A, 1 for B) of the package with a Skeist address, by the rack wiring (R409). (log 21) -/
opaque Config.trunkEnd : Nat → Nat → Option Nat
/-- Free value: size in bytes of a command die's carve-out in a boot configuration record (R34, R472). (log 22) -/
opaque Config.bootCarve : Bytes → Nat
/-- Free value: first byte of the part of a carve-out in a serving die's DRAM, by boot configuration record and 2 × command die + serving die (R34, R472). (log 22) -/
opaque Config.carveAt : Bytes → Nat → Nat
/-- Free value: image area in GiB (R404), in a boot configuration record. (log 22) -/
opaque Config.bootImage : Bytes → Nat
/-- Free value: management allow-list of a boot configuration record (R544). (log 22) -/
opaque Config.bootAllow : Bytes → List (BitVec 128)
/-- Free value: core-store address of a core's margin table (R159, R162). (log 22) -/
opaque Config.marginBase : Nat → BitVec 32
/-- Free value: first 4 KiB unit of a serving die's request-table entries (R376). (log 22) -/
opaque Config.reqBase : Nat → Nat
/-- Free value: first 4 KiB unit and units of a serving die's KV frame pool, by boot configuration record (R335). (log 22) -/
opaque Config.kvPool : Bytes → Nat → Nat × Nat
/-- Free value: length of a boot configuration record (R472). (log 22) -/
opaque Config.bootLen : Nat
/-- The Vexsor public key in the boot ROM (R470), which an implementation fixes. (log 4) -/
opaque Config.vexsorKey : Bytes
/-- Free value: escrow section that lies at a DRAM address of a serving die, if any (R404). (log 23) -/
opaque Config.escrowAt : Nat → Nat → Option Nat

/-- Free value: whether a spare at a Skeist address qualifies in what only the spare shows: its sweep, firmware version, grade and core map (R438).
(log 28) -/
opaque Config.spareFit : Nat → Nat → Bool
/-- Free value: bytes of a section that another member's arrays hold (R442), by generation and section index. (log 28) -/
opaque Config.peerSection : BitVec 32 → Nat → Bytes

/-- Free value: whether another member has a half in the Critical band in a tick (R183): no frame says so. (log 47) -/
opaque Config.memberCritical : Nat → Nat → Bool
/-- Free value: the almanac that another member holds, by member and PATCH_EPOCH (R195, R199, R589). (log 17) -/
opaque Config.peerAlmanac : Nat → Nat → Bytes
/-- Free value: the 16-byte record of a layer in the attention layer table of another member's serving die (R310, R331). (log 17) -/
opaque Config.peerLayer : Nat → Nat → Nat → Bytes
/-- Free value: ATTN_BUDGET of another member's serving die in 4 KiB units, by tick (R331). (log 17) -/
opaque Config.peerBudget : Nat → Nat → Nat → Nat

/-- Free value: cells of a row after a march test (R516). (log 24) -/
opaque Config.marchRow : Nat → BitVec 1344
/-- Free value: pulse iterations of a row write, which verify decides (R141, R491), by the counter `State.free`. (log 24) -/
opaque Config.rowIterations : Nat → Nat

end Sys2Proof
end

