-- ==== Sys2Proof/Machine/Numeric.lean ====
section
/-! DEFINITION. Numbers: the floating formats of R90, the one rounding of R91, exact arithmetic on decoded values. -/
namespace Sys2Proof.Machine

/-- A decoded number: NaN, an infinity, or (−1)^neg × m × 2^e exactly. -/
inductive Fp where
  | nan
  | inf (neg : Bool)
  | fin (neg : Bool) (m : Nat) (e : Int)
deriving DecidableEq, Repr

/-- A format of R90: mantissa bits, exponent bits, bias, whether it has infinities, the largest finite code, the NaN code. -/
structure FpFmt where
  mb : Nat
  eb : Nat
  bias : Int
  hasInf : Bool
  maxFin : Nat
  nanCode : Nat
deriving DecidableEq, Repr

/-- FP8 E4M3 (R90): no infinities, 448 the largest. -/
def e4m3 : FpFmt := ⟨3, 4, 7, false, 0x7E, 0x7F⟩
/-- FP8 E5M2 (R90). -/
def e5m2 : FpFmt := ⟨2, 5, 15, true, 0x7B, 0x7E⟩
/-- BF16 (R90). -/
def bf16 : FpFmt := ⟨7, 8, 127, true, 0x7F7F, 0x7FC0⟩
/-- FP32 (R90). -/
def fp32 : FpFmt := ⟨23, 8, 127, true, 0x7F7F_FFFF, 0x7FC0_0000⟩
/-- FP4 E2M1 (R90): every code is finite. -/
def e2m1 : FpFmt := ⟨1, 2, 1, false, 0x7, 0x7⟩

/-- 2^k for a rational power: `x × 2^k` for k ≥ 0, else truncation. -/
def shiftInt (x : Int) (k : Int) : Int :=
  if 0 ≤ k then x * (2 : Int) ^ k.toNat else x / (2 : Int) ^ (-k).toNat

/-- The value of a code (R90). -/
def fpDecode (f : FpFmt) (x : Nat) : Fp :=
  let neg := (x >>> (f.mb + f.eb)) % 2 == 1
  let ex := (x >>> f.mb) % 2 ^ f.eb
  let mant := x % 2 ^ f.mb
  let body := x % 2 ^ (f.mb + f.eb)
  if f.hasInf && ex == 2 ^ f.eb - 1 then
    if mant == 0 then .inf neg else .nan
  else if !f.hasInf && f.eb == 4 && body == 0x7F then .nan
  else if ex == 0 then .fin neg mant (1 - f.bias - f.mb)
  else .fin neg (2 ^ f.mb + mant) (ex - f.bias - f.mb)

/-- Round half to even of m × 2^(−sh), with `sticky` for a further part below m. -/
def roundShift (m sh : Nat) (sticky : Bool) : Nat :=
  let q := m >>> sh
  let r := m % 2 ^ sh
  let half := 2 ^ (sh - 1)
  if sh == 0 then q
  else if half < r || (r == half && (sticky || q % 2 == 1)) then q + 1 else q

/-- R91: the code of (−1)^neg × (m + a further part below 1 if `sticky`) × 2^e in format f, rounded to nearest, ties to even;
and whether it overflowed (or, for E4M3, saturated). -/
def roundCode (f : FpFmt) (neg : Bool) (m : Nat) (e : Int) (sticky : Bool) : Nat × Bool :=
  let sgn := if neg then 2 ^ (f.mb + f.eb) else 0
  if m == 0 && !sticky then (sgn, false)
  else
    let m := 4 * m + (if sticky then 1 else 0)
    let e := e - 2
    let qmin : Int := 1 - f.bias - f.mb
    let q : Int := max (e + Nat.log2 m - f.mb) qmin
    let r := if q ≤ e then m <<< (e - q).toNat else roundShift m (q - e).toNat false
    let code := r + (q - qmin).toNat * 2 ^ f.mb
    if code ≤ f.maxFin then (sgn + code, false)
    else (sgn + (if f.hasInf then f.maxFin + 1 else f.maxFin), true)

/-- R91: the code of a value in format f, and whether it overflowed or saturated. -/
def fpEncode (f : FpFmt) : Fp → Nat × Bool
  | .nan => (f.nanCode, false)
  | .inf neg => ((if neg then 2 ^ (f.mb + f.eb) else 0) + (if f.hasInf then f.maxFin + 1 else f.maxFin), !f.hasInf)
  | .fin neg m e => roundCode f neg m e false

/-- One rounding to FP32, as a value. -/
def r32 (v : Fp) : Fp := fpDecode fp32 (fpEncode fp32 v).1

/-- FP32 rounding of the rational num / den × 2^e. -/
def roundRat (f : FpFmt) (neg : Bool) (num den : Nat) (e : Int) : Nat × Bool :=
  let s := f.mb + 6 + Nat.log2 den - Nat.log2 num
  let q := (num <<< s) / den
  roundCode f neg q (e - s) ((num <<< s) % den != 0)

/-- A NaN. -/
def Fp.isNan : Fp → Bool
  | .nan => true
  | _ => false
/-- An infinity. -/
def Fp.isInf : Fp → Bool
  | .inf _ => true
  | _ => false
/-- Finite. -/
def Fp.isFin : Fp → Bool
  | .fin _ _ _ => true
  | _ => false
/-- Sign bit. -/
def Fp.neg? : Fp → Bool
  | .nan => false
  | .inf n => n
  | .fin n _ _ => n
/-- The negative. -/
def Fp.negate : Fp → Fp
  | .nan => .nan
  | .inf n => .inf (!n)
  | .fin n m e => .fin (!n) m e
/-- Zero of either sign. -/
def Fp.isZero : Fp → Bool
  | .fin _ m _ => m == 0
  | _ => false

/-- The signed integer of a finite value at the exponent `q ≤ e`. -/
def fpInt (neg : Bool) (m : Nat) (e q : Int) : Int :=
  let a : Int := (m <<< (e - q).toNat : Nat)
  if neg then -a else a

/-- A finite value from a signed integer at exponent q; a zero takes the sign `zneg`. -/
def fpOfInt (zneg : Bool) (v : Int) (q : Int) : Fp :=
  if v = 0 then .fin zneg 0 q else .fin (decide (v < 0)) v.natAbs q

/-- Exact sum; the sign of an exact zero sum follows IEEE 754 (PRESUMED, log 5). -/
def fpAdd : Fp → Fp → Fp
  | .nan, _ => .nan
  | _, .nan => .nan
  | .inf a, .inf b => if a == b then .inf a else .nan
  | .inf a, _ => .inf a
  | _, .inf b => .inf b
  | .fin a m e, .fin b n k =>
    let q := min e k
    fpOfInt (a && b && m == 0 && n == 0) (fpInt a m e q + fpInt b n k q) q

/-- Exact product. -/
def fpMul : Fp → Fp → Fp
  | .nan, _ => .nan
  | _, .nan => .nan
  | .inf a, .inf b => .inf (a != b)
  | .inf a, .fin b n _ => if n == 0 then .nan else .inf (a != b)
  | .fin a m _, .inf b => if m == 0 then .nan else .inf (a != b)
  | .fin a m e, .fin b n k => .fin (a != b) (m * n) (e + k)

/-- Exact order of two numbers that are not NaN: a < b. -/
def fpLt : Fp → Fp → Bool
  | .nan, _ => false
  | _, .nan => false
  | .inf a, .inf b => a && !b
  | .inf a, _ => a
  | _, .inf b => !b
  | .fin a m e, .fin b n k =>
    let q := min e k
    decide (fpInt a m e q < fpInt b n k q)

/-- The larger (`min` false) or smaller of two numbers, NaN if either is NaN (R259); the sign of the result for two zeros
of unlike sign is free (log 3). -/
def fpMaxMin (mn : Bool) (a b : Fp) : Fp :=
  if a.isNan || b.isNan then .nan
  else if a.isZero && b.isZero && a.neg? != b.neg? then
    .fin (Config.zeroSign mn a.neg?) 0 0
  else if (if mn then fpLt b a else fpLt a b) then b else a

/-- Signed value of the low `w` bits of n. -/
def sext (w n : Nat) : Int :=
  let x := n % 2 ^ w
  if x < 2 ^ (w - 1) then (x : Int) else (x : Int) - (2 ^ w : Nat)

/-- Two's complement code of v in w bits. -/
def toBits (w : Nat) (v : Int) : Nat := (v % (2 ^ w : Nat)).toNat

/-- Bits hi..lo of n. -/
def field (n hi lo : Nat) : Nat := (n >>> lo) % 2 ^ (hi + 1 - lo)

/-- n with bits hi..lo replaced by v. -/
def setField (n hi lo v : Nat) : Nat :=
  n - (field n hi lo) <<< lo + (v % 2 ^ (hi + 1 - lo)) <<< lo

/-- Quotient rounded up. -/
def ceilDiv (a b : Nat) : Nat := (a + b - 1) / b

/-- a rounded up to a multiple of b. -/
def alignUp (a b : Nat) : Nat := ceilDiv a b * b

/-- A little-endian number from bytes (R8). -/
def leNat (bs : Bytes) : Nat := bs.foldr (fun b n => b.toNat + 256 * n) 0

/-- The low k bytes of n, little-endian (R8). -/
def leBytes (k n : Nat) : Bytes := (List.range k).map fun i => BitVec.ofNat 8 (n >>> (8 * i))

/-- Bytes off..off+k−1 of a string, zeros beyond its end. -/
def sliceBytes (bs : Bytes) (off k : Nat) : Bytes :=
  let t := (bs.drop off).take k
  t ++ List.replicate (k - t.length) 0

/-- Little-endian number of k bytes at offset off. -/
def leAt (bs : Bytes) (off k : Nat) : Nat := leNat (sliceBytes bs off k)

/-- Saturating addition under a largest count. -/
def satAdd (mx a b : Nat) : Nat := min mx (a + b)

/-- Serial-number arithmetic of R164: a is later than b modulo 2^48. -/
def laterThan (a b : W48) : Bool :=
  let d := (a - b).toNat
  decide (1 ≤ d ∧ d ≤ 2 ^ 47 - 1)

/-- R164 for the low 16 bits carried in frames. -/
def laterThan16 (a b : BitVec 16) : Bool :=
  let d := (a - b).toNat
  decide (1 ≤ d ∧ d ≤ 2 ^ 15 - 1)

end Sys2Proof.Machine
end

