-- ==== Sys2Proof/Syntax.lean ====
section
/-! DEFINITION. The commands of the block: one constructor for each row of spec/opcode_table.json, in the table's order. -/
namespace Sys2Proof

/-- A command: an Aithal instruction that a core's sequencer fires, a step of one of the package's engines, an event at its
boundary, a host command, or a register access. An operand is what the row names (an address, a value) or what the
surroundings or the analogue parts bring (a code, a temperature, a frame). -/
inductive Instr where
  -- Aithal: control (R249)
  | br (c : CoreId) (g : Guard) (ra : SReg) (cond : Cond) (off : W32)
  | call (c : CoreId) (g : Guard) (off : W32)
  | ret (c : CoreId) (g : Guard)
  | endProg (c : CoreId) (g : Guard)
  | rds (c : CoreId) (g : Guard) (rd : SReg) (sp : Special)
  | wait (c : CoreId) (g : Guard) (mask : BitVec 6)
  | waitd (c : CoreId) (g : Guard) (ta : TReg)
  | nop (c : CoreId) (g : Guard)
  -- Aithal: scalars (R250)
  | add (c : CoreId) (g : Guard) (rd ra rb : SReg) (imm : W32)
  | sub (c : CoreId) (g : Guard) (rd ra rb : SReg) (imm : W32)
  | mul (c : CoreId) (g : Guard) (rd ra rb : SReg) (imm : W32)
  | divu (c : CoreId) (g : Guard) (rd ra rb : SReg) (imm : W32)
  | remu (c : CoreId) (g : Guard) (rd ra rb : SReg) (imm : W32)
  | divs (c : CoreId) (g : Guard) (rd ra rb : SReg) (imm : W32)
  | rems (c : CoreId) (g : Guard) (rd ra rb : SReg) (imm : W32)
  | and (c : CoreId) (g : Guard) (rd ra rb : SReg) (imm : W32)
  | or (c : CoreId) (g : Guard) (rd ra rb : SReg) (imm : W32)
  | xor (c : CoreId) (g : Guard) (rd ra rb : SReg) (imm : W32)
  | shl (c : CoreId) (g : Guard) (rd ra rb : SReg) (imm : W32)
  | shr (c : CoreId) (g : Guard) (rd ra rb : SReg) (imm : W32)
  | sra (c : CoreId) (g : Guard) (rd ra rb : SReg) (imm : W32)
  | min (c : CoreId) (g : Guard) (rd ra rb : SReg) (imm : W32)
  | max (c : CoreId) (g : Guard) (rd ra rb : SReg) (imm : W32)
  | movhi (c : CoreId) (g : Guard) (rd ra : SReg) (imm : W32)
  -- Aithal: loads and stores (R251)
  | ld (c : CoreId) (g : Guard) (rd ra : SReg) (imm : W32)
  | st (c : CoreId) (g : Guard) (rb ra : SReg) (imm : W32)
  | ldw (c : CoreId) (g : Guard) (rd ra : SReg) (imm : W32)
  | stw (c : CoreId) (g : Guard) (rb ra : SReg) (imm : W32)
  | ldd (c : CoreId) (g : Guard) (td : TReg) (ra : SReg) (imm : W32)
  | std (c : CoreId) (g : Guard) (tb : TReg) (ra : SReg) (imm : W32)
  | ldx (c : CoreId) (g : Guard) (rd : SReg) (ta : TReg) (imm : W32)
  | dset (c : CoreId) (g : Guard) (td : TReg) (fld : DField) (ra : SReg) (imm : W32)
  -- Aithal: predicates and status (R252)
  | pcmp (c : CoreId) (g : Guard) (pd : PReg) (cmp : Cmp) (ra rb : SReg) (imm : W32)
  | pand (c : CoreId) (g : Guard) (pd pa pb : PReg)
  | por (c : CoreId) (g : Guard) (pd pa pb : PReg)
  | pxor (c : CoreId) (g : Guard) (pd pa pb : PReg)
  | pnot (c : CoreId) (g : Guard) (pd pa : PReg)
  | pset (c : CoreId) (g : Guard) (pd : PReg) (b : Bool)
  | tst (c : CoreId) (g : Guard) (pd : PReg) (imm : W32)
  | rdst (c : CoreId) (g : Guard) (rd : SReg)
  | clst (c : CoreId) (g : Guard) (imm : W32)
  -- Aithal: array products and accumulators (R253), with the pass verdicts and the re-read ladder (R58, R67)
  | mvm (c : CoreId) (g : Guard) (o : MvmOp) (faults : List ReadFault)
  | passVerdict (c : CoreId) (issue : Nat) (p : PassId) (codes : List CodeErr)
  | rereadPass (c : CoreId) (issue : Nat)
  | mvs (c : CoreId) (g : Guard) (td ta : TReg) (sa : SReg) (tile : Tile)
  | accclr (c : CoreId) (g : Guard) (td : TReg)
  | accrd (c : CoreId) (g : Guard) (td ta : TReg) (rsel : BitVec 4)
  | accst (c : CoreId) (g : Guard) (td ta : TReg)
  | accld (c : CoreId) (g : Guard) (td ta : TReg)
  | accadd (c : CoreId) (g : Guard) (td ta : TReg)
  -- Aithal: quantiser, vector unit (R257 to R262)
  | qnt (c : CoreId) (g : Guard) (td ta : TReg) (sa : SReg) (rsel : BitVec 4)
  | vadd (c : CoreId) (g : Guard) (td ta tb : TReg)
  | vsub (c : CoreId) (g : Guard) (td ta tb : TReg)
  | vmul (c : CoreId) (g : Guard) (td ta tb : TReg)
  | vfma (c : CoreId) (g : Guard) (td ta tb : TReg)
  | vmax (c : CoreId) (g : Guard) (td ta tb : TReg)
  | vmin (c : CoreId) (g : Guard) (td ta tb : TReg)
  | vscl (c : CoreId) (g : Guard) (td ta : TReg) (sa : SReg)
  | vcvt (c : CoreId) (g : Guard) (td ta : TReg)
  | vsum (c : CoreId) (g : Guard) (td ta : TReg)
  | vmaxr (c : CoreId) (g : Guard) (td ta : TReg)
  | vnorm (c : CoreId) (g : Guard) (td ta tb : TReg) (k : BitVec 6)
  | vexp (c : CoreId) (g : Guard) (td ta : TReg)
  | vrcp (c : CoreId) (g : Guard) (td ta : TReg)
  | vrsqrt (c : CoreId) (g : Guard) (td ta : TReg)
  | vsilu (c : CoreId) (g : Guard) (td ta : TReg)
  | vgelu (c : CoreId) (g : Guard) (td ta : TReg)
  | vtanh (c : CoreId) (g : Guard) (td ta : TReg)
  | vsigm (c : CoreId) (g : Guard) (td ta : TReg)
  | vrope (c : CoreId) (g : Guard) (td ta tb : TReg) (sa : SReg)
  -- Aithal: moves, network, serving port (R263 to R270)
  | mov (c : CoreId) (g : Guard) (td ta : TReg)
  | mfill (c : CoreId) (g : Guard) (td : TReg) (sa : SReg)
  | mgath (c : CoreId) (g : Guard) (td ta tb : TReg)
  | send (c : CoreId) (g : Guard) (ta : TReg) (route : BitVec 16) (sa : SReg)
  | red (c : CoreId) (g : Guard) (ta : TReg) (route : BitVec 16) (sa : SReg) (opMax : Bool)
  | attn (c : CoreId) (g : Guard) (ta tb : TReg) (route : BitVec 16) (sa : SReg) (layer : BitVec 10)
  | kvw (c : CoreId) (g : Guard) (ta tb : TReg) (route : BitVec 16) (sa : SReg) (layer : BitVec 10)
  | samp (c : CoreId) (g : Guard) (ta : TReg) (route : BitVec 16) (sa : SReg)
  | gfence (c : CoreId) (g : Guard) (sa : SReg) (pd : PReg)
  | unitInstructionComplete (c : CoreId) (id : Nat)
  -- The tick (R163 to R206)
  | tickStart
  | issueDeadline
  | workDeadline
  | changeReport
  | applyPoint
  | structuralPatchApply
  | patchRollback
  | changeRollback
  | emergencyStretch
  | emergencyStretchEnd
  | repeatLossFault
  | recoveryHoldEnd
  | recoveryHoldTimeout
  -- Network, reducers, scrubbing, in-package links (R273 to R307, R15 to R17)
  | flitHopReceive (flit : Nat) (ecc : Ecc)
  | flitDelivery (flit : Nat)
  | reducerCombine (flit : Nat)
  | reducerDelivery (d : DieId) (unit : Fin 16)
  | scrub (d : DieId) (w : ScrubWord) (uncorrectable : Bool)
  | dramScrub (sv : ServeId) (addr : Nat) (uncorrectable : Bool)
  | linkTraining (d : DieId) (port : Fin 6) (r : LinkResult)
  | linkDegrade (d : DieId) (port : Fin 6) (down : Bool)
  -- The Skeist fabric, timing and groups (R408 to R451)
  | fabricLinkTraining (k : Fin 32) (r : LaneResult) (peer : Option Peer)
  | fabricLaneFail (k : Fin 32) (fourLeft : Bool)
  | eyeSafetyDisable (o : Fin 4) (port : Nat)
  | opticalDieFail (o : Fin 4)
  | dataFrame (f : FrameIn)
  | transitFrame (f : FrameIn)
  | stampFrame (tag : W32) (p : Stamp)
  | conveneFrame (f : Convene)
  | conveningRuling
  | ruling (f : Ruling)
  | rulingApply
  | conveningRoundEnd
  | groupSplit
  | join (f : Join)
  | joinTimeout
  | escrowBankArrival (index : Nat) (content : Bytes)
  | failoverHoldEnd
  | escrowRefill
  | leave (groupId : BitVec 16) (member : Nat)
  | presenceBreak
  | timeMessage (bytes : Bytes)
  | timingLock (within50ns : Bool)
  | holdover
  -- Attention, KV, sampling (R308 to R337, R349 to R353)
  | attentionRequest (sv : ServeId)
  | pageTask (sv : ServeId) (engine : Fin 24) (wordFailsTwice : Bool)
  | attentionAnswer (sv : ServeId) (id : Nat)
  | kvWrite (sv : ServeId)
  | pageAgeing (sv : ServeId) (req layer page : Nat) (wordFailsTwice : Bool)
  | sampling (sv : ServeId)
  | generationFenceQuery (sv : ServeId)
  | refusalReport (sv : ServeId)
  -- Requests (R338 to R379)
  | heldExit (req : Nat)
  | requestFaultEnd (req : Nat)
  | rebuildStart (req : Nat)
  | queueDeparture
  | requestEnd (req : Nat)
  | endingCompletion
  | hideApply (req : Nat)
  | migrate
  | admitReq (h : HostCmd) (recordAddr : W64)
  | cancel (h : HostCmd) (req : BitVec 16) (ticket : W32)
  | draft (h : HostCmd) (req : BitVec 16) (ticket base : W32) (idsAddr : W64)
  | hide (h : HostCmd) (req : BitVec 16) (ticket lo hi : W32)
  -- Image loads (R380 to R407)
  | imgBegin (h : HostCmd) (descAddr : W64) (metaLen drainTicks : W32) (escrowPos : BitVec 16)
  | metadataCheck (member peerStatus : Nat) (image : Bytes) (drainTicks : W32)
  | imgFeed (h : HostCmd) (index : W32) (addr : W64)
  | imgEnd (h : HostCmd)
  | imgAbort (h : HostCmd)
  | escFeed (h : HostCmd) (index : W32) (addr : W64)
  | sectionArrival (index holder : Nat) (content : Bytes) (peerAck : Bool)
  | sectionTimeout (index holder : Nat)
  | bankCompare (c : CoreId) (b : BankRead)
  | loadAbandon
  | draining
  | writing
  | memberWritten
  | committed
  -- Almanac, groups, firmware commands (R197, R241, R429, R452 to R488)
  | almPatch (h : HostCmd) (addr : W64) (len : W32) (target : W48)
  | almLoad (h : HostCmd) (addr : W64) (len : W32)
  | groupForm (h : HostCmd) (recordAddr : W64)
  | groupLeave (h : HostCmd)
  | fwStage (h : HostCmd) (src : Byte) (addr : W64) (len : W32)
  | fwActivate (h : HostCmd) (target : W48) (auto : Byte)
  | autoActivation
  | attest (h : HostCmd) (nonceAddr outAddr : W64)
  | ownerKeyAdd (h : HostCmd) (modelId : BitVec 128) (keyAddr : W64) (require : Byte)
  | ownerKeyDelete (h : HostCmd) (modelId : BitVec 128)
  | bootCfg (h : HostCmd) (cfgAddr : W64)
  | selftest (h : HostCmd) (unit : W32) (kind : BitVec 16)
  | selftestCancel (h : HostCmd) (unit : W32)
  | selftestRun (passed : Bool) (detail : BitVec 16)
  | cmdNop (h : HostCmd)
  -- Rings (R457 to R467)
  | commandTake (set : Fin 16)
  | eventsLost (set : Fin 16)
  | dbCommandTail (set : Fin 16) (index : BitVec 16)
  | dbCompletionConsumed (set : Fin 16) (index : BitVec 16)
  | dbEventConsumed (set : Fin 16) (index : BitVec 16)
  -- Registers (R542 to R567)
  | mgmtRead (m : MgmtMsg)
  | mgmtWrite (m : MgmtMsg) (words : List W32)
  | registerWrite (p : Path) (addr : Nat) (v : W32)
  | lowWordRead (p : Path) (addr : Nat)
  | leapReq (p : Path)
  | hold (p : Path) (on : Bool)
  | arm (p : Path)
  | discard (p : Path)
  | strobe (p : Path) (d : DieId) (groups : BitVec 16)
  | drop (p : Path) (d : DieId) (groups : BitVec 16)
  | checkLock (p : Path) (c : CoreId)
  | ladderExhaustedClear (p : Path) (c : CoreId)
  | exceptionRecordClear (p : Path) (c : CoreId)
  | configFaultClear (p : Path) (d : DieId)
  | fsCountClear (p : Path) (c : CoreId)
  | clampsClear (p : Path) (c : CoreId)
  | qeventClear (p : Path) (c : CoreId)
  | lossesClear (p : Path)
  | correctedClear (p : Path) (d : DieId)
  | retriesClear (p : Path) (d : DieId)
  | draftsClear (p : Path) (sv : ServeId)
  -- Sensors, converters, calibration, power (R489 to R522)
  | readmissionRequest (p : Path) (d : DieId) (sensor : Fin 36)
  | sensorReadmission (d : DieId) (sensor : Fin 36)
  | hskRequest (p : Path) (d : DieId) (r : HskReq)
  | hskUrgentRequest (p : Path) (d : DieId) (r : HskReq)
  | conversionDone (d : DieId) (east : Bool) (sense : HskSense)
  | idleBandgapConversion (d : DieId) (east : Bool) (sense : HskSense)
  | converterRetire (d : DieId) (refWest refEast : Nat)
  | referenceConversion (d : DieId) (east : Bool) (refCode gndCode bandgap : Nat)
  | calibration (d : DieId) (block core index : Nat) (trim : Int)
  | lightCheck (c : CoreId) (array : Nat) (errorMilli : Nat)
  | sensorSample (readings : List Reading)
  | railReading (baseWatts : Nat)
  | pmbusWarn (on : Bool)
  | pmbusFault
  | railShutdown (r : Rail)
  | ceilingTrip
  | limitHoldEmergency
  -- Margin, refresh, holidays, wear (R128 to R162)
  | marginScan (c : CoreId) (array : Nat) (e : List RowEdges)
  | scanLate (c : CoreId) (array : Nat)
  | failureCountLimit (c : CoreId) (array : Nat)
  | failureWindowRestart
  | holidayStart (c : CoreId)
  | holidayCopyDone (c : CoreId) (orig : Nat) (r : StepRead) (unrepairable : Bool)
  | holidayServiceDone (c : CoreId) (orig : Nat) (r : StepRead) (cal : List ConvCal)
  | rowWrite (c : CoreId) (array row : Nat) (content : List Bool) (failing : List Nat)
  | ladderRepeatFault (c : CoreId) (array : Nat)
  | wearWriteback (c : CoreId) (array : Nat)
  | newYearSweep (c : CoreId) (scans : SweepRead) (rescans : List (Nat × List RowEdges)) (time100us : Nat)
  | quarterScan (c : CoreId) (quarter : Fin 4) (scans : SweepRead) (rescans : List (Nat × List RowEdges))
  -- Domains, parity, resets, boot, firmware processors (R23 to R30, R551 to R576, R452 to R488)
  | domainReady (d : DieId) (bit : Fin 26)
  | configParityCheck (p : Path) (addr : Nat)
  | powerOnReset
  | boot (straps : Straps) (fuseError : Bool)
  | orderlyPowerDown
  | solicit
  | offer (object : Byte) (length : W32)
  | data (offset : W32) (bytes : Bytes)
  | readRetry (offset : W32)
  | fetchTimeout
  | watchdog (p : Proc)
  | fwRestart (p : Proc) (cause : RestartCause)
  | takeover (p : Proc)
  | lastGoodBundle
  | unplannedPowerLoss
  | memberAnswerTimeout (member : Nat)
  | commandDieFail (east : Bool)
deriving DecidableEq, Repr

end Sys2Proof
end

