-- ==== Sys2Proof/Decode.lean ====
section
/-! DEFINITION. The Aithal word of R229 to R231 and R246 to R270: the decoder that the sequencer fetches through, and after it the
encoder. The rows of spec/opcode_table.json give no bits, so `decodeTableWord` reads no command from a word. -/
namespace Sys2Proof
open Machine (field)

/-- Scalar register of a 5-bit field. -/
def sreg (n : Nat) : SReg := Fin.ofNat 32 n
/-- Descriptor register of a 4-bit field. -/
def treg (n : Nat) : TReg := Fin.ofNat 16 n
/-- Predicate register of a 3-bit field. -/
def preg (n : Nat) : PReg := Fin.ofNat 8 n

/-- Condition of a COND code (R230); 7 to 15 are illegal. -/
def condOf : Nat → Option Cond
  | 0 => some .always | 1 => some .z | 2 => some .nz | 3 => some .lt | 4 => some .ge | 5 => some .gt | 6 => some .le
  | _ => none
/-- COND code (R230). -/
def condCode : Cond → Nat
  | .always => 0 | .z => 1 | .nz => 2 | .lt => 3 | .ge => 4 | .gt => 5 | .le => 6
/-- Special value of an `rds` SUB code (R249). -/
def specialOf : Nat → Option Special
  | 0 => some .tcnt | 1 => some .seq | 2 => some .slot | 3 => some .epoch | 4 => some .core | 5 => some .cyc | 6 => some .dln
  | _ => none
/-- SUB code of a special value (R249). -/
def specialCode : Special → Nat
  | .tcnt => 0 | .seq => 1 | .slot => 2 | .epoch => 3 | .core => 4 | .cyc => 5 | .dln => 6
/-- Comparison of a `pcmp` SUB code (R252). -/
def cmpOf : Nat → Option Cmp
  | 0 => some .eq | 1 => some .ne | 2 => some .lt | 3 => some .ge | 4 => some .ltu | 5 => some .geu
  | _ => none
/-- SUB code of a comparison (R252). -/
def cmpCode : Cmp → Nat
  | .eq => 0 | .ne => 1 | .lt => 2 | .ge => 3 | .ltu => 4 | .geu => 5
/-- Descriptor field of a `dset` SUB code (R251). -/
def dfieldOf : Nat → Option DField
  | 0 => some .base | 1 => some .fmt | 2 => some .banking | 3 => some .len0m1 | 4 => some .len1m1 | 5 => some .stride1
  | 6 => some .bstride
  | _ => none
/-- SUB code of a descriptor field (R251). -/
def dfieldCode : DField → Nat
  | .base => 0 | .fmt => 1 | .banking => 2 | .len0m1 => 3 | .len1m1 => 4 | .stride1 => 5 | .bstride => 6
/-- Readout mode of a MODE code (R230). -/
def modeOf : Nat → Option Mode
  | 0 => some .reference | 1 => some .standard | 2 => some .brisk
  | _ => none
/-- MODE code (R230). -/
def modeCode : Mode → Nat
  | .reference => 0 | .standard => 1 | .brisk => 2
/-- Activation width of an AW code (R230). -/
def actwOf : Nat → Option ActW
  | 0 => some .int4 | 1 => some .fp4 | 2 => some .int8
  | _ => none
/-- AW code (R230). -/
def actwCode : ActW → Nat
  | .int4 => 0 | .fp4 => 1 | .int8 => 2
/-- Row-group policy of an RGP code (R230). -/
def rgpOf : Nat → Option Rgp
  | 0 => some .auto | 1 => some .g16 | 2 => some .g32 | 3 => some .g64 | 4 => some .g128 | 5 => some .g256
  | _ => none
/-- RGP code (R230). -/
def rgpCode : Rgp → Nat
  | .auto => 0 | .g16 => 1 | .g32 => 2 | .g64 => 3 | .g128 => 4 | .g256 => 5

/-- The tile a word names is one the M format allows: ROWHI ≥ ROWLO and no array beyond 4,095 (R231). -/
def Tile.legal (t : Tile) : Bool :=
  decide (t.rowlo.toNat ≤ t.rowhi.toNat ∧
    t.abase.toNat + (t.kspanM1.toNat + 1) * (t.nspanM1.toNat + 1) ≤ 4096)

/-- Answer `i` if the reserved fields are 0 and the codes legal (R231). -/
def ok (b : Bool) (i : Instr) : Option Instr := if b then some i else none

/-- S format (R229): RD, RA, RB, SUB and IMM. -/
def wRD (w : Nat) : Nat := field w 51 47
/-- RA of format S (format J has its RA where format S has RD). -/
def wRA (w : Nat) : Nat := field w 46 42
/-- RB of format S. -/
def wRB (w : Nat) : Nat := field w 41 37
/-- SUB of format S. -/
def wSUB (w : Nat) : Nat := field w 36 32
/-- IMM of format S, MOD of format T, OFFSET of format J: the low 32 bits. -/
def wIMM (w : Nat) : W32 := BitVec.ofNat 32 (field w 31 0)
/-- First 4-bit register field [51:48] of formats T, M and N. -/
def wT1 (w : Nat) : Nat := field w 51 48
/-- Second 4-bit register field [47:44] of formats T, M and N. -/
def wT2 (w : Nat) : Nat := field w 47 44
/-- TB [43:40] of format T. -/
def wT3 (w : Nat) : Nat := field w 43 40
/-- SA [39:35] of format T. -/
def wSA (w : Nat) : Nat := field w 39 35
/-- PD [34:32] of format T. -/
def wPD (w : Nat) : Nat := field w 34 32
/-- ROUTE [43:28] of format N. -/
def wROUTE (w : Nat) : BitVec 16 := BitVec.ofNat 16 (field w 43 28)
/-- SA [27:23] of format N. -/
def wNSA (w : Nat) : Nat := field w 27 23
/-- SB [22:18] of format N. -/
def wNSB (w : Nat) : Nat := field w 22 18
/-- MOD [17:0] of format N. -/
def wNMOD (w : Nat) : Nat := field w 17 0

/-- The guard of a word: PRED and PNEG (R229, R211). -/
def wGuard (w : Nat) : Guard := ⟨preg (field w 55 53), field w 52 52 == 1⟩

/-- M format (R229): `mvm`. -/
def decodeMvm (c : CoreId) (w : Nat) : Option Instr :=
  match modeOf (field w 20 19), actwOf (field w 18 17), rgpOf (field w 16 14) with
  | some mo, some aw, some rg =>
    let t : Tile := ⟨BitVec.ofNat 12 (field w 43 32), BitVec.ofNat 6 (field w 31 26), BitVec.ofNat 5 (field w 25 21),
      BitVec.ofNat 4 (field w 7 4), BitVec.ofNat 4 (field w 3 0)⟩
    ok t.legal (.mvm c (wGuard w) ⟨treg (wT1 w), treg (wT2 w), t, mo, aw, rg, sreg (field w 13 9), field w 8 8 == 1⟩ [])
  | _, _, _ => none

/-- The tile in MOD of `mvs` (R255). -/
def mvsTile (w : Nat) : Tile :=
  ⟨BitVec.ofNat 12 (field w 11 0), BitVec.ofNat 6 (field w 17 12), BitVec.ofNat 5 (field w 22 18),
    BitVec.ofNat 4 (field w 26 23), BitVec.ofNat 4 (field w 30 27)⟩

/-- Scalar arithmetic (R250): class 0x1 with SUB 0. -/
def decodeAlu (c : CoreId) (w : Nat) (f : CoreId → Guard → SReg → SReg → SReg → W32 → Instr) : Option Instr :=
  ok (wSUB w == 0) (f c (wGuard w) (sreg (wRD w)) (sreg (wRA w)) (sreg (wRB w)) (wIMM w))

/-- The three-descriptor vector form (R259): TB used, SA, PD and MOD reserved. -/
def decodeV3 (c : CoreId) (w : Nat) (f : CoreId → Guard → TReg → TReg → TReg → Instr) : Option Instr :=
  ok (wSA w == 0 && wPD w == 0 && wIMM w == 0) (f c (wGuard w) (treg (wT1 w)) (treg (wT2 w)) (treg (wT3 w)))

/-- The two-descriptor form: TB, SA, PD and MOD reserved. -/
def decodeV2 (c : CoreId) (w : Nat) (f : CoreId → Guard → TReg → TReg → Instr) : Option Instr :=
  ok (wT3 w == 0 && wSA w == 0 && wPD w == 0 && wIMM w == 0) (f c (wGuard w) (treg (wT1 w)) (treg (wT2 w)))

/-- Predicate logic (R252): RD[4:3], SUB and IMM reserved. -/
def decodeP3 (c : CoreId) (w : Nat) (f : CoreId → Guard → PReg → PReg → PReg → Instr) : Option Instr :=
  ok (decide (wRD w < 8) && wSUB w == 0 && wIMM w == 0) (f c (wGuard w) (preg (wRD w)) (preg (wRA w)) (preg (wRB w)))

/-- The instruction a 64-bit word stands for on core c; `none` where the device raises ILLEGAL (R231). -/
def decodeNat (c : CoreId) (w : Nat) : Option Instr :=
  let g := wGuard w
  let rd := sreg (wRD w)
  let ra := sreg (wRA w)
  let rb := sreg (wRB w)
  let imm := wIMM w
  let s0 := wRD w == 0 && wRA w == 0 && wRB w == 0 && wSUB w == 0 && imm == 0
  let ta := treg (wT1 w)
  let tb := treg (wT2 w)
  match field w 63 56 with
  | 0x01 => match condOf (field w 46 43) with
    | some cd => ok (field w 42 32 == 0) (.br c g rd cd imm)
    | none => none
  | 0x02 => ok (field w 51 32 == 0) (.call c g imm)
  | 0x03 => ok s0 (.ret c g)
  | 0x04 => ok s0 (.endProg c g)
  | 0x05 => match specialOf (wSUB w) with
    | some sp => ok (wRA w == 0 && wRB w == 0 && imm == 0) (.rds c g rd sp)
    | none => none
  | 0x06 => ok (wRD w == 0 && wRA w == 0 && wRB w == 0 && wSUB w == 0 && decide (imm.toNat < 64))
      (.wait c g (imm.setWidth 6))
  | 0x07 => ok (wT1 w == 0 && wT3 w == 0 && wSA w == 0 && wPD w == 0 && imm == 0) (.waitd c g tb)
  | 0x08 => ok s0 (.nop c g)
  | 0x10 => decodeAlu c w .add
  | 0x11 => decodeAlu c w .sub
  | 0x12 => decodeAlu c w .mul
  | 0x13 => decodeAlu c w .divu
  | 0x14 => decodeAlu c w .remu
  | 0x15 => decodeAlu c w .divs
  | 0x16 => decodeAlu c w .rems
  | 0x17 => decodeAlu c w .and
  | 0x18 => decodeAlu c w .or
  | 0x19 => decodeAlu c w .xor
  | 0x1A => decodeAlu c w .shl
  | 0x1B => decodeAlu c w .shr
  | 0x1C => decodeAlu c w .sra
  | 0x1D => decodeAlu c w .min
  | 0x1E => decodeAlu c w .max
  | 0x1F => ok (wRB w == 0 && wSUB w == 0) (.movhi c g rd ra imm)
  | 0x20 => ok (wRB w == 0 && wSUB w == 0) (.ld c g rd ra imm)
  | 0x21 => ok (wRD w == 0 && wSUB w == 0) (.st c g rb ra imm)
  | 0x22 => ok (wRB w == 0 && wSUB w == 0) (.ldw c g rd ra imm)
  | 0x23 => ok (wRD w == 0 && wSUB w == 0) (.stw c g rb ra imm)
  | 0x24 => ok (decide (wRD w < 16) && wRB w == 0 && wSUB w == 0) (.ldd c g (treg (wRD w)) ra imm)
  | 0x25 => ok (wRD w == 0 && decide (wRB w < 16) && wSUB w == 0) (.std c g (treg (wRB w)) ra imm)
  | 0x26 => ok (decide (wRA w < 16) && wRB w == 0 && wSUB w == 0) (.ldx c g rd (treg (wRA w)) imm)
  | 0x27 => match dfieldOf (wSUB w) with
    | some f => ok (decide (wRD w < 16) && wRB w == 0) (.dset c g (treg (wRD w)) f ra imm)
    | none => none
  | 0x30 => match cmpOf (wSUB w) with
    | some cm => ok (decide (wRD w < 8)) (.pcmp c g (preg (wRD w)) cm ra rb imm)
    | none => none
  | 0x31 => decodeP3 c w .pand
  | 0x32 => decodeP3 c w .por
  | 0x33 => decodeP3 c w .pxor
  | 0x34 => ok (decide (wRD w < 8) && wRB w == 0 && wSUB w == 0 && imm == 0) (.pnot c g (preg (wRD w)) (preg (wRA w)))
  | 0x35 => ok (decide (wRD w < 8) && wRA w == 0 && wRB w == 0 && wSUB w == 0 && decide (imm.toNat < 2))
      (.pset c g (preg (wRD w)) (imm == 1))
  | 0x40 => decodeMvm c w
  | 0x41 => ok (wT3 w == 0 && wPD w == 0 && decide (imm.toNat < 2 ^ 31)) (.mvs c g ta tb (sreg (wSA w)) (mvsTile w))
  | 0x42 => ok (wT2 w == 0 && wT3 w == 0 && wSA w == 0 && wPD w == 0 && imm == 0) (.accclr c g ta)
  | 0x43 => ok (wT3 w == 0 && wSA w == 0 && wPD w == 0 && decide (imm.toNat < 16)) (.accrd c g ta tb (imm.setWidth 4))
  | 0x44 => decodeV2 c w .accst
  | 0x45 => decodeV2 c w .accld
  | 0x46 => decodeV2 c w .accadd
  | 0x50 => ok (wT3 w == 0 && wPD w == 0 && decide (imm.toNat < 16)) (.qnt c g ta tb (sreg (wSA w)) (imm.setWidth 4))
  | 0x60 => decodeV3 c w .vadd
  | 0x61 => decodeV3 c w .vsub
  | 0x62 => decodeV3 c w .vmul
  | 0x63 => decodeV3 c w .vfma
  | 0x64 => decodeV3 c w .vmax
  | 0x65 => decodeV3 c w .vmin
  | 0x66 => ok (wT3 w == 0 && wPD w == 0 && imm == 0) (.vscl c g ta tb (sreg (wSA w)))
  | 0x67 => decodeV2 c w .vcvt
  | 0x68 => decodeV2 c w .vsum
  | 0x69 => decodeV2 c w .vmaxr
  | 0x6A => ok (wSA w == 0 && wPD w == 0 && decide (imm.toNat < 64)) (.vnorm c g ta tb (treg (wT3 w)) (imm.setWidth 6))
  | 0x70 => decodeV2 c w .vexp
  | 0x71 => decodeV2 c w .vrcp
  | 0x72 => decodeV2 c w .vrsqrt
  | 0x73 => decodeV2 c w .vsilu
  | 0x74 => decodeV2 c w .vgelu
  | 0x75 => decodeV2 c w .vtanh
  | 0x76 => decodeV2 c w .vsigm
  | 0x77 => ok (wPD w == 0 && imm == 0) (.vrope c g ta tb (treg (wT3 w)) (sreg (wSA w)))
  | 0x80 => decodeV2 c w .mov
  | 0x81 => ok (wT2 w == 0 && wT3 w == 0 && wPD w == 0 && imm == 0) (.mfill c g ta (sreg (wSA w)))
  | 0x82 => decodeV3 c w .mgath
  | 0x90 => ok (wT2 w == 0 && wNSB w == 0 && wNMOD w == 0) (.send c g ta (wROUTE w) (sreg (wNSA w)))
  | 0x91 => ok (wT2 w == 0 && wNSB w == 0 && decide (wNMOD w < 2)) (.red c g ta (wROUTE w) (sreg (wNSA w)) (wNMOD w == 1))
  | 0xA0 => ok (wNSB w == 0 && decide (wNMOD w < 1024))
      (.attn c g ta tb (wROUTE w) (sreg (wNSA w)) (BitVec.ofNat 10 (wNMOD w)))
  | 0xB0 => ok (wNSB w == 0 && decide (wNMOD w < 1024))
      (.kvw c g ta tb (wROUTE w) (sreg (wNSA w)) (BitVec.ofNat 10 (wNMOD w)))
  | 0xC0 => ok (wT2 w == 0 && wNSB w == 0 && wNMOD w == 0) (.samp c g ta (wROUTE w) (sreg (wNSA w)))
  | 0xD0 => ok (wT1 w == 0 && wT2 w == 0 && wROUTE w == 0 && wNSB w == 0 && decide (wNMOD w < 8))
      (.gfence c g (sreg (wNSA w)) (preg (wNMOD w)))
  | 0xE0 => ok (decide (wRD w < 8) && wRA w == 0 && wRB w == 0 && wSUB w == 0) (.tst c g (preg (wRD w)) imm)
  | 0xE1 => ok (wRA w == 0 && wRB w == 0 && wSUB w == 0 && imm == 0) (.rdst c g rd)
  | 0xE2 => ok (wRD w == 0 && wRA w == 0 && wRB w == 0 && wSUB w == 0) (.clst c g imm)
  | _ => none

/-- The instruction a 64-bit Aithal word stands for on core c; `none` where the device raises ILLEGAL (R231). -/
def decodeAithal (c : CoreId) (w : W64) : Option Instr := decodeNat c w.toNat

/-- The command a table word spells: the table gives its rows no bits, so none. -/
def decodeTableWord (_nbits _w : Nat) : Option Instr := none

/-- Opcode byte and guard of a word (R229). -/
def encHead (op : Nat) (g : Guard) : Nat :=
  op * 2 ^ 56 + g.pred.val * 2 ^ 53 + (if g.neg then 2 ^ 52 else 0)

/-- Format S (R229). -/
def encS (op : Nat) (g : Guard) (rd ra rb sub imm : Nat) : Nat :=
  encHead op g + rd * 2 ^ 47 + ra * 2 ^ 42 + rb * 2 ^ 37 + sub * 2 ^ 32 + imm

/-- Format T (R229). -/
def encT (op : Nat) (g : Guard) (td ta tb sa pd mod : Nat) : Nat :=
  encHead op g + td * 2 ^ 48 + ta * 2 ^ 44 + tb * 2 ^ 40 + sa * 2 ^ 35 + pd * 2 ^ 32 + mod

/-- Format N (R229). -/
def encN (op : Nat) (g : Guard) (ta tb route sa sb mod : Nat) : Nat :=
  encHead op g + ta * 2 ^ 48 + tb * 2 ^ 44 + route * 2 ^ 28 + sa * 2 ^ 23 + sb * 2 ^ 18 + mod

/-- Format J (R229). -/
def encJ (op : Nat) (g : Guard) (ra cond off : Nat) : Nat :=
  encHead op g + ra * 2 ^ 47 + cond * 2 ^ 43 + off

/-- Format M (R229). -/
def encM (op : Nat) (g : Guard) (o : MvmOp) : Nat :=
  encHead op g + o.tacc.val * 2 ^ 48 + o.tact.val * 2 ^ 44 + o.tile.abase.toNat * 2 ^ 32 + o.tile.kspanM1.toNat * 2 ^ 26
    + o.tile.nspanM1.toNat * 2 ^ 21 + modeCode o.mode * 2 ^ 19 + actwCode o.aw * 2 ^ 17 + rgpCode o.rgp * 2 ^ 14
    + o.sx.val * 2 ^ 9 + (if o.clr then 2 ^ 8 else 0) + o.tile.rowlo.toNat * 2 ^ 4 + o.tile.rowhi.toNat

/-- MOD of `mvs` (R255). -/
def encTile (t : Tile) : Nat :=
  t.abase.toNat + t.kspanM1.toNat * 2 ^ 12 + t.nspanM1.toNat * 2 ^ 18 + t.rowlo.toNat * 2 ^ 23 + t.rowhi.toNat * 2 ^ 27

/-- The word of an Aithal instruction (R229, R246); `none` for a command that is no Aithal instruction. -/
def encodeNat : Instr → Option Nat
  | .br _ g ra cd off => some (encJ 0x01 g ra.val (condCode cd) off.toNat)
  | .call _ g off => some (encJ 0x02 g 0 0 off.toNat)
  | .ret _ g => some (encS 0x03 g 0 0 0 0 0)
  | .endProg _ g => some (encS 0x04 g 0 0 0 0 0)
  | .rds _ g rd sp => some (encS 0x05 g rd.val 0 0 (specialCode sp) 0)
  | .wait _ g m => some (encS 0x06 g 0 0 0 0 m.toNat)
  | .waitd _ g ta => some (encT 0x07 g 0 ta.val 0 0 0 0)
  | .nop _ g => some (encS 0x08 g 0 0 0 0 0)
  | .add _ g rd ra rb imm => some (encS 0x10 g rd.val ra.val rb.val 0 imm.toNat)
  | .sub _ g rd ra rb imm => some (encS 0x11 g rd.val ra.val rb.val 0 imm.toNat)
  | .mul _ g rd ra rb imm => some (encS 0x12 g rd.val ra.val rb.val 0 imm.toNat)
  | .divu _ g rd ra rb imm => some (encS 0x13 g rd.val ra.val rb.val 0 imm.toNat)
  | .remu _ g rd ra rb imm => some (encS 0x14 g rd.val ra.val rb.val 0 imm.toNat)
  | .divs _ g rd ra rb imm => some (encS 0x15 g rd.val ra.val rb.val 0 imm.toNat)
  | .rems _ g rd ra rb imm => some (encS 0x16 g rd.val ra.val rb.val 0 imm.toNat)
  | .and _ g rd ra rb imm => some (encS 0x17 g rd.val ra.val rb.val 0 imm.toNat)
  | .or _ g rd ra rb imm => some (encS 0x18 g rd.val ra.val rb.val 0 imm.toNat)
  | .xor _ g rd ra rb imm => some (encS 0x19 g rd.val ra.val rb.val 0 imm.toNat)
  | .shl _ g rd ra rb imm => some (encS 0x1A g rd.val ra.val rb.val 0 imm.toNat)
  | .shr _ g rd ra rb imm => some (encS 0x1B g rd.val ra.val rb.val 0 imm.toNat)
  | .sra _ g rd ra rb imm => some (encS 0x1C g rd.val ra.val rb.val 0 imm.toNat)
  | .min _ g rd ra rb imm => some (encS 0x1D g rd.val ra.val rb.val 0 imm.toNat)
  | .max _ g rd ra rb imm => some (encS 0x1E g rd.val ra.val rb.val 0 imm.toNat)
  | .movhi _ g rd ra imm => some (encS 0x1F g rd.val ra.val 0 0 imm.toNat)
  | .ld _ g rd ra imm => some (encS 0x20 g rd.val ra.val 0 0 imm.toNat)
  | .st _ g rb ra imm => some (encS 0x21 g 0 ra.val rb.val 0 imm.toNat)
  | .ldw _ g rd ra imm => some (encS 0x22 g rd.val ra.val 0 0 imm.toNat)
  | .stw _ g rb ra imm => some (encS 0x23 g 0 ra.val rb.val 0 imm.toNat)
  | .ldd _ g td ra imm => some (encS 0x24 g td.val ra.val 0 0 imm.toNat)
  | .std _ g tb ra imm => some (encS 0x25 g 0 ra.val tb.val 0 imm.toNat)
  | .ldx _ g rd ta imm => some (encS 0x26 g rd.val ta.val 0 0 imm.toNat)
  | .dset _ g td f ra imm => some (encS 0x27 g td.val ra.val 0 (dfieldCode f) imm.toNat)
  | .pcmp _ g pd cm ra rb imm => some (encS 0x30 g pd.val ra.val rb.val (cmpCode cm) imm.toNat)
  | .pand _ g pd pa pb => some (encS 0x31 g pd.val pa.val pb.val 0 0)
  | .por _ g pd pa pb => some (encS 0x32 g pd.val pa.val pb.val 0 0)
  | .pxor _ g pd pa pb => some (encS 0x33 g pd.val pa.val pb.val 0 0)
  | .pnot _ g pd pa => some (encS 0x34 g pd.val pa.val 0 0 0)
  | .pset _ g pd b => some (encS 0x35 g pd.val 0 0 0 (if b then 1 else 0))
  | .tst _ g pd imm => some (encS 0xE0 g pd.val 0 0 0 imm.toNat)
  | .rdst _ g rd => some (encS 0xE1 g rd.val 0 0 0 0)
  | .clst _ g imm => some (encS 0xE2 g 0 0 0 0 imm.toNat)
  | .mvm _ g o _ => some (encM 0x40 g o)
  | .mvs _ g td ta sa t => some (encT 0x41 g td.val ta.val 0 sa.val 0 (encTile t))
  | .accclr _ g td => some (encT 0x42 g td.val 0 0 0 0 0)
  | .accrd _ g td ta r => some (encT 0x43 g td.val ta.val 0 0 0 r.toNat)
  | .accst _ g td ta => some (encT 0x44 g td.val ta.val 0 0 0 0)
  | .accld _ g td ta => some (encT 0x45 g td.val ta.val 0 0 0 0)
  | .accadd _ g td ta => some (encT 0x46 g td.val ta.val 0 0 0 0)
  | .qnt _ g td ta sa r => some (encT 0x50 g td.val ta.val 0 sa.val 0 r.toNat)
  | .vadd _ g td ta tb => some (encT 0x60 g td.val ta.val tb.val 0 0 0)
  | .vsub _ g td ta tb => some (encT 0x61 g td.val ta.val tb.val 0 0 0)
  | .vmul _ g td ta tb => some (encT 0x62 g td.val ta.val tb.val 0 0 0)
  | .vfma _ g td ta tb => some (encT 0x63 g td.val ta.val tb.val 0 0 0)
  | .vmax _ g td ta tb => some (encT 0x64 g td.val ta.val tb.val 0 0 0)
  | .vmin _ g td ta tb => some (encT 0x65 g td.val ta.val tb.val 0 0 0)
  | .vscl _ g td ta sa => some (encT 0x66 g td.val ta.val 0 sa.val 0 0)
  | .vcvt _ g td ta => some (encT 0x67 g td.val ta.val 0 0 0 0)
  | .vsum _ g td ta => some (encT 0x68 g td.val ta.val 0 0 0 0)
  | .vmaxr _ g td ta => some (encT 0x69 g td.val ta.val 0 0 0 0)
  | .vnorm _ g td ta tb k => some (encT 0x6A g td.val ta.val tb.val 0 0 k.toNat)
  | .vexp _ g td ta => some (encT 0x70 g td.val ta.val 0 0 0 0)
  | .vrcp _ g td ta => some (encT 0x71 g td.val ta.val 0 0 0 0)
  | .vrsqrt _ g td ta => some (encT 0x72 g td.val ta.val 0 0 0 0)
  | .vsilu _ g td ta => some (encT 0x73 g td.val ta.val 0 0 0 0)
  | .vgelu _ g td ta => some (encT 0x74 g td.val ta.val 0 0 0 0)
  | .vtanh _ g td ta => some (encT 0x75 g td.val ta.val 0 0 0 0)
  | .vsigm _ g td ta => some (encT 0x76 g td.val ta.val 0 0 0 0)
  | .vrope _ g td ta tb sa => some (encT 0x77 g td.val ta.val tb.val sa.val 0 0)
  | .mov _ g td ta => some (encT 0x80 g td.val ta.val 0 0 0 0)
  | .mfill _ g td sa => some (encT 0x81 g td.val 0 0 sa.val 0 0)
  | .mgath _ g td ta tb => some (encT 0x82 g td.val ta.val tb.val 0 0 0)
  | .send _ g ta r sa => some (encN 0x90 g ta.val 0 r.toNat sa.val 0 0)
  | .red _ g ta r sa m => some (encN 0x91 g ta.val 0 r.toNat sa.val 0 (if m then 1 else 0))
  | .attn _ g ta tb r sa l => some (encN 0xA0 g ta.val tb.val r.toNat sa.val 0 l.toNat)
  | .kvw _ g ta tb r sa l => some (encN 0xB0 g ta.val tb.val r.toNat sa.val 0 l.toNat)
  | .samp _ g ta r sa => some (encN 0xC0 g ta.val 0 r.toNat sa.val 0 0)
  | .gfence _ g sa pd => some (encN 0xD0 g 0 0 0 sa.val 0 pd.val)
  | _ => none

/-- The word of an Aithal instruction (R229). -/
def encode (i : Instr) : Option W64 := (encodeNat i).map (BitVec.ofNat 64)

/-- The core an Aithal instruction is fired on; `none` for every other command. -/
def coreOf : Instr → Option CoreId
  | .br c _ _ _ _ | .call c _ _ | .ret c _ | .endProg c _ | .rds c _ _ _ | .wait c _ _ | .waitd c _ _ | .nop c _ => some c
  | .add c _ _ _ _ _ | .sub c _ _ _ _ _ | .mul c _ _ _ _ _ | .divu c _ _ _ _ _ | .remu c _ _ _ _ _ => some c
  | .divs c _ _ _ _ _ | .rems c _ _ _ _ _ | .and c _ _ _ _ _ | .or c _ _ _ _ _ | .xor c _ _ _ _ _ => some c
  | .shl c _ _ _ _ _ | .shr c _ _ _ _ _ | .sra c _ _ _ _ _ | .min c _ _ _ _ _ | .max c _ _ _ _ _ | .movhi c _ _ _ _ => some c
  | .ld c _ _ _ _ | .st c _ _ _ _ | .ldw c _ _ _ _ | .stw c _ _ _ _ | .ldd c _ _ _ _ | .std c _ _ _ _ => some c
  | .ldx c _ _ _ _ | .dset c _ _ _ _ _ | .pcmp c _ _ _ _ _ _ | .pand c _ _ _ _ | .por c _ _ _ _ | .pxor c _ _ _ _ => some c
  | .pnot c _ _ _ | .pset c _ _ _ | .tst c _ _ _ | .rdst c _ _ | .clst c _ _ => some c
  | .mvm c _ _ _ | .mvs c _ _ _ _ _ | .accclr c _ _ | .accrd c _ _ _ _ | .accst c _ _ _ | .accld c _ _ _ => some c
  | .accadd c _ _ _ | .qnt c _ _ _ _ _ | .vadd c _ _ _ _ | .vsub c _ _ _ _ | .vmul c _ _ _ _ | .vfma c _ _ _ _ => some c
  | .vmax c _ _ _ _ | .vmin c _ _ _ _ | .vscl c _ _ _ _ | .vcvt c _ _ _ | .vsum c _ _ _ | .vmaxr c _ _ _ => some c
  | .vnorm c _ _ _ _ _ | .vexp c _ _ _ | .vrcp c _ _ _ | .vrsqrt c _ _ _ | .vsilu c _ _ _ | .vgelu c _ _ _ => some c
  | .vtanh c _ _ _ | .vsigm c _ _ _ | .vrope c _ _ _ _ _ | .mov c _ _ _ | .mfill c _ _ _ | .mgath c _ _ _ _ => some c
  | .send c _ _ _ _ | .red c _ _ _ _ _ | .attn c _ _ _ _ _ _ | .kvw c _ _ _ _ _ _ | .samp c _ _ _ _ | .gfence c _ _ _ => some c
  | _ => none

end Sys2Proof
end

