-- ==== Sys2Proof/Machine/State.lean ====
section
/-! DEFINITION. The state of the block: every register, memory, queue, mode and pin the manual gives the package, as plain data. -/
namespace Sys2Proof.Machine

/-! ### The cores (chapters 2 to 7) -/

/-- Margin grades (R133). -/
inductive Grade where
  | a | b | c | d
deriving DecidableEq, Repr

/-- Holiday state of an array (R147, HSTATE of R159). -/
inductive HState where
  | none | copy | service
deriving DecidableEq, Repr

/-- One physical array: what its margin table entry, maps, converters and cells hold (R41, R75 to R78, R130 to R159). -/
structure ArrayInfo where
  /-- Physical row → its 1,344 cells, bit c for column c; sentinel rows and columns follow R129. -/
  rows : SMap (BitVec 1344)
  grade : Grade
  crit : Bool
  hstate : HState
  mLast : Nat
  q1 : Nat
  q0 : Int
  wear : BitVec 24
  failCnt : Nat
  lastScan : W48
  /-- Row map: replaced row and spare row (R75). -/
  rowMap : List (Nat × Nat)
  /-- Column map: replaced column and spare column (R76). -/
  colMap : List (Nat × Nat)
  /-- Converters retired by calibration (R78). -/
  retired : List Nat
  /-- Staged and applied converter trims by converter (R513). -/
  trims : List (Nat × Int)
  /-- Columns of failed row writes, one entry for each failure (R142). -/
  colFails : List Nat
  /-- A repair needed a seventeenth spare row or column (R77). -/
  unrepaired : Bool
  /-- Retired for good: a spare that failed its check (R149). -/
  dead : Bool
  /-- Row and column maps that take effect at the next eve (R77). -/
  rowNext : Option (List (Nat × Nat))
  colNext : Option (List (Nat × Nat))
  /-- Higher grade for which the last scan qualified (R135). -/
  better : Option Grade
  /-- Grade that takes force at the next eve (R135). -/
  nextGrade : Option Grade
  /-- Logical rows written since the last scan, bit r for row r; with all of them the whole array was written (R135). -/
  wrote : BitVec 1088
  /-- Number of scans, which selects the sampled rows (R131). -/
  scans : Nat
  /-- Ticks of ladder exhaustions while recorded under R136 (R137). -/
  exhaust : List W48
  /-- Wear increments since the counter was last written back (R154). -/
  wearSince : Nat
  /-- Elapsed time at the last scan, in 12.5 ns steps (R140). -/
  scanTime : Nat
  /-- Row groups (first row, size) whose scales the current and the next latch bank hold (R53). -/
  latchCur : Option (Nat × Nat)
  latchNext : Option (Nat × Nat)
deriving DecidableEq, Repr

/-- Step of a holiday in progress (R147); `restart` waits for the eve at which another spare is reserved (R149). -/
inductive HStep where
  | reserve | copy | checked | service | regraded | restart
deriving DecidableEq, Repr

/-- A holiday of array `orig` onto `spare` for a reason of R145, with its priority. -/
structure Holiday where
  orig : Nat
  spare : Nat
  prio : Nat
  reason : Nat
  step : HStep
deriving DecidableEq, Repr

/-- A queued holiday: array, priority, reason (R145). -/
structure HolidayReq where
  arr : Nat
  prio : Nat
  reason : Nat
deriving DecidableEq, Repr

/-- The units of a core (R207). -/
inductive UnitKind where
  | array | quant | vector | move | net | serve
deriving DecidableEq, Repr

/-- Bytes lo to hi − 1 of the core store, or of the accumulator file if `acc` (R226, R218). -/
structure Extent where
  acc : Bool
  lo : Nat
  hi : Nat
deriving DecidableEq, Repr

/-- A delivered wrong D value: logical array, 32-row block, weight column, error times the plane's place value (R79, R105). -/
structure ErrTerm where
  array : Nat
  block : Nat
  col : Nat
  delta : Int
deriving DecidableEq, Repr

/-- An array issue in flight (R234, R254). -/
structure Issue where
  tile : Tile
  mode : Mode
  rgp : Rgp
  aw : ActW
  x : Int
  /-- Elements as driven on the rows, after the masks of R94. -/
  acts : List Int
  /-- Activation scale byte of each 32-element block. -/
  scales : List Nat
  /-- Captured outliers: element index and BF16 code, in list order. -/
  outliers : List (Nat × Nat)
  /-- Accumulator entries as they stood when the issue started, after CLR. -/
  undo : List (Nat × BitVec 256)
  errs : List ErrTerm
  /-- The passes of the issue in the order they run, without re-reads (R54). -/
  plan : List PassId
  /-- Passes whose verdict has not arrived: those of one array stand in the order in which they run (R54, R67). -/
  todo : List PassId
  /-- Re-read passes among them that have not begun. -/
  due : List PassId
  /-- Array cycles of each array of the tile so far. -/
  times : List (Nat × Nat)
  fired : Nat
deriving DecidableEq, Repr

/-- A unit instruction in flight (R207, R232, R247). `done` is its completion cycle, `none` while a serving die has not answered. -/
structure UnitInst where
  id : Nat
  unit : UnitKind
  done : Option Nat
  reads : List Extent
  writes : List Extent
  sdest : Option SReg
  pdest : Option PReg
  arrays : List Nat
  pc : W64
  issue : Option Issue
  /-- STATUS bits that the instruction sets once it has completed (R214, R252). -/
  flags : W32
deriving DecidableEq, Repr

/-- A good core: sequencer, core store, accumulator file, arrays and their registers. -/
structure Core where
  -- sequencer (R207 to R215)
  sregs : SMap W64
  tregs : SMap (BitVec 128)
  preds : BitVec 8
  status : W32
  stack : List W64
  pc : W64
  run : Bool
  ended : Bool
  halted : Bool
  idle : Bool
  slot : Nat
  /-- Cycle, from cycle 0 of the tick, at which the next instruction can fire (CYC of R212). -/
  cyc : Nat
  /-- Cycle from which each scalar, descriptor and predicate register is usable (R232, R233). -/
  sReady : SMap Nat
  tReady : SMap Nat
  pReady : SMap Nat
  inflight : List UnitInst
  /-- Bytes that the sequencer's stores have written, and the cycle from which a dependent instruction can use them (R233, R251). -/
  stored : List (Extent × Nat)
  nextId : Nat
  /-- An exception of this slot was already offered to the record (R240). -/
  excSeen : Bool
  exc0 : W32
  exc1 : W32
  -- memories (R216, R218, R221, R223)
  store : List Host.Cell
  acc : SMap (BitVec 256)
  arrival : SMap Bool
  recvMap : List (Nat × Nat)
  /-- 16-byte words of the core store, and of the accumulator file, that fail their code (R239, R303). -/
  badStore : List Nat
  badAcc : List Nat
  -- windows (R245)
  prog0 : W32
  prog1 : W32
  cwin0 : W32
  cwin1 : W32
  dwin0 : W32
  dwin1 : W32
  /-- The windows' safe state of R561 holds: the sequencer stays idle. -/
  seqSafe : Bool
  -- arrays (R21, R22, R41)
  arrays : SMap ArrayInfo
  arrayMap : SMap Nat
  /-- Array map changes that take effect at the next eve (R21). -/
  mapNext : List (Nat × Nat)
  /-- Core-store address of the image's constants section (LOAD_ADDR of R387, R388). -/
  constBase : Nat
  /-- Weight format of a logical array: true for FP4 (R44, R384). -/
  fp4 : SMap Bool
  holidays : List Holiday
  holidayQueue : List HolidayReq
  -- registers (R83 to R87, R125 to R127, R160 to R162)
  checkDis : Bool
  checkLock : Bool
  eventStat : W32
  faultInfo : W32
  rereadCnt : W64
  fsCount : Nat
  numStat : W32
  clamps : Nat
  zeroBlocks : Nat
  outlierOvf : Nat
  scanCtrl : W32
  marginEvt : W32
  /-- Failed passes that the device has reported (R132), by tick and physical array, until the verdict on their tick (R174). -/
  fails : List (W48 × Nat)
  /-- Logical arrays whose layers cannot be read, until the image is loaded again (R151, R158). -/
  lostArrays : List Nat
  sweepDone : Bool
  sweepSlow : Bool
  sweepTime : Nat
  refreshed : Nat
  marginBase : W32
deriving DecidableEq, Repr

/-! ### The tick (chapter 5) -/

/-- Where in the tick the package is (R167): work window, drain, eve before the blocks report, after it, after the apply point. -/
inductive Phase where
  | work | drain | eve | reported | applied
deriving DecidableEq, Repr

/-- A slot record (R192). -/
structure SlotRec where
  entry : Nat
  cycles : Nat
  passes : Nat
  decLanes : Nat
  preLanes : Nat
  stageMask : Nat
  seamFlits : Nat
  routeFirst : Nat
  routeCnt : Nat
  recipe : Nat
  attnReq : Nat
  kvWrites : Nat
deriving DecidableEq, Repr

/-- A route entry (R193). -/
structure RouteEnt where
  kind : Nat
  form : Nat
  destMember : Nat
  destDie : Nat
  destUnit : Nat
  bankBase : Nat
  bankStride : Nat
  partials : Nat
  shareClass : Nat
deriving DecidableEq, Repr

/-- A core table entry (R191) with the core's slot records. -/
structure CoreEnt where
  core : Nat
  entry : Bool
  layers : Nat
  recipeTab : Nat
  progBase : Nat
  progLen : Nat
  slots : List SlotRec
deriving DecidableEq, Repr

/-- An entry of the attention depth table (R589). -/
structure DepthEnt where
  slot : Nat
  layer : Nat
  member : Nat
  die : ServeId
  depth : Nat
deriving DecidableEq, Repr

/-- An almanac (R190) as the scheduler core holds it: its fields, and the bytes they were read from. -/
structure Almanac where
  slots : Nat
  ident : W64
  period : Nat
  guardSteps : Nat
  reserve : Nat
  stages : Nat
  mode : Nat
  member : Nat
  patchEpoch : W32
  cores : List CoreEnt
  routes : List RouteEnt
  depths : List DepthEnt
  raw : Bytes
deriving DecidableEq, Repr

/-! ### The network (chapter 8) -/

/-- A flit in the network: where it is (die and router) and what it carries (R276). A list of flits holds those of one place in the order in which they came there. -/
structure Flit where
  id : Nat
  /-- Its sender: 1,000 × member + core, or 500 and more for a reducer or an edge die. -/
  src : Nat
  body : FlitBody
  die : DieId
  router : Nat
  /-- It lies in the seam's crossing buffer towards its router (R19). -/
  seam : Bool
  /-- It reached its destination's router and awaits delivery or combining. -/
  arrived : Bool
  /-- Cycle of its core in which it is injected, until its first hop (R264, R268). -/
  inj : Option Nat
  /-- The serving-port request that it is part of (R268, R276). -/
  req : Option Nat
  /-- The frame that it crosses this package in, without its flits; its link is the one by which it leaves (R416). -/
  via : Option Frame
deriving DecidableEq, Repr

/-- The slot arbitration of a sending port (R284). -/
structure PortArb where
  slot : Nat
  credit : List Nat
  lastServed : Nat
  lastLent : Nat
  /-- Nothing waited when the port last granted a slot: slots have gone by idle since. -/
  drained : Bool
deriving DecidableEq, Repr

/-- One element held by a reducer (R291): exact sum, sticky bits, anchor, rows, extremes. -/
structure RedElem where
  sum : Int
  nan : Bool
  pinf : Bool
  ninf : Bool
  unf : Bool
  ovf : Bool
  satPos : Bool
  satNeg : Bool
  anchor : Option Int
  anchorMix : Bool
  rows : Nat
  /-- Largest value so far for OP max: an FP32 code, or an INT32. -/
  best : Option Int
deriving DecidableEq, Repr

/-- A reducer (R287 to R290). -/
structure Reducer where
  armed : Bool
  route : Nat
  seq : BitVec 8
  count : Nat
  elems : SMap RedElem
  len : Nat
  ops : List (Bool × Bool)
  failed : Bool
  delivered : Bool
  bad : Bool
deriving DecidableEq, Repr

/-! ### Requests from cores to serving dies (R267 to R272) -/

/-- The serving-port requests (R268). -/
inductive ReqKind where
  | attn | kvw | samp | gfence
deriving DecidableEq, Repr

/-- A request of a core's serving port, as it lies in the serving die's queue. Rows hold element codes of the operand's format. -/
structure ServeReq where
  id : Nat
  core : CoreId
  inst : Nat
  kind : ReqKind
  tag : W64
  layer : Nat
  fmtA : Nat
  rowsA : List (List Nat)
  rowsB : List (List Nat)
  /-- Destination of an answer: format, first byte, row stride. -/
  fmtB : Nat
  dstBase : Nat
  dstStride : Nat
  die : Nat
  route : Nat
  /-- Sequence number of the tick that sent it. -/
  seq : W48
  pd : Option PReg
  /-- Cycle in which its last byte is injected (R268). -/
  sent : Nat
  /-- Flits of the request that have not reached the serving die (R276). -/
  left : Nat
deriving DecidableEq, Repr

/-- The clock, band and settle cycles of a die half (R18, R138). -/
inductive Band where
  | cold | nominal | warm | hot | critical
deriving DecidableEq, Repr

/-- A die half: its clock, the clock its other PLL is locked or locking to, in 25 MHz steps, its band
(R18, R138), and the energy of its array activity in this tick in tenths of a picojoule (R491). -/
structure Half where
  clk : Nat
  nextClk : Option Nat
  band : Band
  energy : Nat
deriving DecidableEq, Repr

/-- A temperature sensor (R496 to R499): last reading in 0.125 °C, the sample that software and throttling use (R500), exclusion,
LONE, consecutive disagreeing samples, a readmission under way with its agreeing samples, consecutive samples at 115 °C or more. -/
structure Sensor where
  temp : Option Int
  shown : Option Int
  excluded : Bool
  lone : Bool
  disagree : Nat
  readmit : Bool
  agree : Nat
  hot : Nat
deriving DecidableEq, Repr

/-- A housekeeping converter (R506 to R511). -/
structure Converter where
  urgent : List HskReq
  queue : List HskReq
  retired : Bool
  /-- Latest bandgap code and last plausible REF code. -/
  bandgap : Nat
  ref : Nat
  /-- Gain trim as the REF code that stands for 3,276.8, and offset trim from channel 9. -/
  gainRef : Nat
  offset : Nat
deriving DecidableEq, Repr

/-- What the manual gives every die: halves, ports, event and counter registers, domains, update groups, sensors, converters. -/
structure Die where
  west : Half
  east : Half
  redEvt : W32
  eccCorr : Nat
  eccRetry : Nat
  portState : List Nat
  /-- PWRG_DOM_CTRL in force; domains switched on; domains ready (R24 to R30). -/
  domCtrl : W32
  domReady : BitVec 26
  /-- Switchable domains that have power; an array-bank domain is ready only after its scan (R24, R28). -/
  domPower : BitVec 26
  /-- Domains that can be used: ready at an eve since they were switched on (R26). -/
  domUse : BitVec 26
  domRefused : Bool
  updMap0 : W32
  updMap1 : W32
  cfgFault : W32
  sensors : SMap Sensor
  /-- T of the west and the east half, or of the die (R138, R499). -/
  hotW : Option Int
  hotE : Option Int
  latch : Bool
  convW : Converter
  convE : Converter
  hskRes : W32
  refFault : Bool
  hskEvt : W32
  /-- Consecutive bandgap comparisons that failed (R508). -/
  misses : Nat
deriving DecidableEq, Repr

/-- What the package keeps of a tick that has started: its sequence number, and whether it was a leap tick, a hold tick (no almanac
work), or made void (R165, R175, R176). -/
structure TickRec where
  tick : W48
  seq : W48
  leap : Bool
  hold : Bool
  void : Bool
deriving DecidableEq, Repr

/-- A recovery hold (R179): first tick, the lagging arrays of this package (core, logical number, physical number that served it), sequence number to replay. -/
structure Recovery where
  since : W48
  arrays : List (Nat × Nat × Nat)
  seq : W48
deriving DecidableEq, Repr

/-- A staged almanac patch (R197 to R200): the patched almanac, writes into core stores (core, address, bytes), target, moves, whether
it is valid, whether it is structural, and whether every member voted READY for it. -/
structure Patch where
  alm : Option Almanac
  writes : List (Nat × Nat × Bytes)
  target : W48
  moves : Nat
  valid : Bool
  structural : Bool
  agreed : Bool
  cmd : HostCmd
deriving DecidableEq, Repr

/-- A buffered register write (R552 to R555): die, block, update group, control address, the table entry selected when it arrived,
value, path. -/
structure BufWrite where
  die : DieId
  block : Nat
  group : Nat
  addr : Nat
  entry : Nat
  value : W32
  path : Path
  /-- It joined the pending change after 0 ns of the eve, and is evaluated at the next one (R555). -/
  late : Bool
deriving DecidableEq, Repr

/-- The change machinery of R533 to R541. -/
structure Change where
  /-- Writes of groups 1 to 15 that wait for a strobe. -/
  waiting : List BufWrite
  /-- The pending change. -/
  pending : List BufWrite
  /-- The armed change: writes, target. -/
  armed : Option (List BufWrite × W48)
  /-- Writes that were strobed and wait in the pending change, by die (ELIGIBLE of R564). -/
  hold : Bool
  group : Bool
  tgt0 : W32
  tgt1 : W32
  /-- Moves of the pending and of the armed change. -/
  pMoves : Nat
  aMoves : Nat
  moves : Nat
  result : Nat
  nakDie : Nat
  nakCause : Nat
  nakMember : Nat
  /-- Reports of this eve: the pending change, and the armed change, cannot be taken. -/
  pNak : Bool
  aNak : Bool
  /-- Strobed writes wait, by die. -/
  eligible : List Nat
deriving DecidableEq, Repr

/-- The tick counters and registers of chapter 5. -/
structure Tick where
  count : W48
  seq : W48
  basePeriod : Nat
  pEff : Nat
  stretch : Nat
  leap : Bool
  phase : Phase
  event : W32
  notices : List Notice
  /-- Arrays (core, logical number, physical number) whose pass was lagging in this tick (R173, R525). -/
  lagging : List (Nat × Nat × Nat)
  /-- Lagging arrays of the previous tick, for the verdict on it. -/
  prevLagging : List (Nat × Nat × Nat)
  /-- The current tick carries no almanac work though it is not a leap tick: hold ticks and ticks of WRITING (R399, R432). -/
  idle : Bool
  /-- The next tick is a leap tick (R182), and the last leap tick that started. -/
  leapNext : Bool
  lastLeap : Option W48
  /-- Pending leap requests of this package (R181): 0 host, 1 late scan, 2 timing correction, 3 self-test, 4 convening. -/
  leapReqs : List Nat
  /-- Requests that were pending at the last apply point: a leap tick scheduled there satisfies them (R182). -/
  leapTaken : List Nat
  hist : List TickRec
  lossInfo : W32
  losses : Nat
  /-- Sequence number lost last and how many times in a row (R178). -/
  streak : Option (W48 × Nat)
  /-- Named as a source in the eighth set of loss notices (R178). -/
  repeatFault : Bool
  /-- Last tick of the emergency stretch in force (R178). -/
  emergUntil : Option W48
  /-- An emergency stretch is called for (R178). -/
  emergCall : Bool
  recovery : Option Recovery
  patch : Option Patch
  /-- Serving dies whose SRV_ATTN_BUDGET a change set at the last apply point (R539). -/
  budgetSet : List Nat
  /-- Elapsed time at the start of this tick, in 12.5 ns steps since reset. -/
  time : Nat
deriving DecidableEq, Repr

/-- The fuse table (R37): serial, grade, core map, test-time replacements (core, array, spare) and maps. -/
structure Fuses where
  serial : W64
  grade : Nat
  coreMap : BitVec 96
  spares : List (Nat × Nat × Nat)
  /-- Row and column maps as fused: core, physical array, replaced row or column, its spare (R77). -/
  rowMaps : List (Nat × Nat × Nat × Nat)
  colMaps : List (Nat × Nat × Nat × Nat)
  /-- The last copy of the fuse table carries an uncorrectable error (R37). -/
  bad : Bool
  /-- VCORE_FUSE in mV (R489). -/
  vcore : Nat
  /-- BASE_MAX in W (R492). -/
  baseMax : Nat
  /-- Energy coefficients in tenths of a picojoule (R491): single pass at g = 16, 32, 64, 128, 256, twin pass at the same, row-read,
  row-write iteration. -/
  coef : List Nat
  /-- Neighbours of sensor 64 × die + sensor (R498). -/
  neighbours : SMap (List Nat)
  /-- Ratio of REF code to bandgap code at test, in millionths (R511). -/
  refRatio : Nat
deriving DecidableEq, Repr

/-! ### Serving (chapters 9 and 10) -/

/-- STATE of a request (R345). -/
inductive RState where
  | free | queued | prefill | decode | held | rebuild | ending
deriving DecidableEq, Repr

/-- An entry of a token ring or of a history (R360, R361). -/
structure TokEnt where
  ids : List Nat
  flags : BitVec 16
  pos : Nat
  tick : W48
  logp : W32
deriving DecidableEq, Repr

/-- Why a request is to end without a final token (R363). -/
inductive EndCause where
  | cancelled | migrated | generation | fault | nonfinite | ceiling | context
deriving DecidableEq, Repr

/-- The verify step of a request in progress: lowest position, candidates, drafts d(1) upward (R355 to R357). -/
structure Step where
  base : Nat
  k : Nat
  entered : Nat
  drafts : List (List Nat)
deriving DecidableEq, Repr

/-- A request-table entry (R344), with what the home die keeps beside it (R339): history, drafts, sampling state. -/
structure Req where
  state : RState
  seeded : Bool
  cancel : Bool
  kMax : Nat
  kCur : Nat
  draftSrc : Nat
  plainRun : Nat
  ringLog2 : Nat
  withdraws : Nat
  gen : W32
  ticket : W32
  promptLen : Nat
  limit : Nat
  next : Nat
  emit : Nat
  seed : W64
  dirS0 : W64
  dirS1 : W64
  histAddr : W64
  ringAddr : W64
  prod : W32
  temp : W32
  topK : Nat
  topP : W32
  minP : W32
  repPen : W32
  presPen : W32
  stops : List W32
  genReq : W32
  /-- Ring set and TAG of the ADMIT (R588). -/
  set : Nat
  tag : W32
  /-- Admission order (R195, R343). -/
  order : Nat
  /-- Tick from which the sampling lane counts as a decode token: the commit of the previous one (R195, R347). -/
  since : W48
  hist : List TokEnt
  /-- Host drafts: base position and ids (R355). -/
  draftBuf : Option (Nat × List (List Nat))
  step : Option Step
  /-- Hidden span that waits, with the HIDE's ring set and tag (R316). -/
  hide : Option (Nat × Nat × Nat × W32)
  /-- The request ends at the first apply point with no lane in flight, for this cause (R365, R370, R372). -/
  finish : Option EndCause
  /-- A migration has been ordered (R400). -/
  migrate : Bool
  /-- The final entry is written; its status (R363). -/
  final : Option Nat
  /-- State to return to from HELD, and the causes that hold the request (R369). -/
  back : RState
  causes : List Nat
  /-- Restart position of the last withdrawal (R370). -/
  restart : Nat
  /-- Rebuild start position, while one is due (R371). -/
  rebuildAt : Option Nat
deriving DecidableEq, Repr

/-! ### The fabric and the group (chapter 12) -/

/-- A message of the weight-load engine, in class 63 (R393 to R397): the metadata region, a member's answer to it, a section, a holder's answer, the end of a load with its status. -/
inductive LoadMsg where
  | metadata (content : Bytes)
  | status (st : Nat)
  | content (index : Nat) (bytes : Bytes)
  | answer (index : Nat) (ack : Bool)
  | ended (st : Nat)
deriving DecidableEq, Repr

/-- A frame that the package hands to its fabric links (R419 to R421, R432, R433, R438, R445), with its destination address; a stamp and a CONVENE hold their tick, of which the low 16 bits stand in the
frame's header, and the others carry those bits (R163, R418). -/
inductive OutFrame where
  | data (f : Frame)
  | transit (f : Frame)
  | stamp (dest : BitVec 16) (p : Stamp)
  | convene (dest : BitVec 16) (f : Convene)
  | ruling (dest : BitVec 16) (f : Ruling) (tick : BitVec 16)
  | join (f : Join) (tick : BitVec 16)
  | leave (dest : BitVec 16) (groupId : BitVec 16) (member : Nat) (tick : BitVec 16)
  /-- Class 63: changed request-table entries for the buddy, or the request escrow for a replacement (R440). -/
  | requests (dest : BitVec 16) (entries : SMap Req)
  /-- Class 63: an escrow section for a replacement (R439). -/
  | escrow (dest : BitVec 16) (index : Nat) (content : Bytes)
  /-- Class 63: a message of a load (R393 to R397). -/
  | load (dest : BitVec 16) (msg : LoadMsg)
deriving DecidableEq, Repr

/-- The Skeist fabric of the package: straps, links, routing tables, shares, timing (R283, R304, R408 to R426, R446 to R451). -/
structure Fabric where
  pos : BitVec 6
  rack : BitVec 10
  /-- State of fabric link k: 0 down, 1 degraded, 2 up, 3 training (R451). -/
  link : SMap Nat
  /-- Skeist address that the far end of fabric link k reported in its last passed check (R412). -/
  peers : SMap Nat
  localRoute : SMap Nat
  rackRoute : SMap Nat
  /-- Share of class c at port p of die d, under (16d + p) × 64 + c (R283). -/
  shares : SMap Nat
  arb : SMap PortArb
  trim : W32
  lock : Bool
  holdover : Bool
  /-- Last skew in phase units (R425). -/
  skew : Int
  /-- Consecutive time messages that were missing or bad (R422). -/
  badMsgs : Nat
  /-- The timing count at the start of the current tick: slots of 12.5 ns (R422, R424). -/
  count : W64
  /-- Frames that left on the links in this tick, in order, with the link (R414). -/
  frames : List (Nat × OutFrame)
  /-- Presence contact mated (R445). -/
  present : Bool
  /-- Optical launch is on (R505, R574). -/
  launch : Bool
  /-- Ports disabled by the eye-safety limit (optical die, port), and failed optical dies (R36). -/
  eyeOff : List (Nat × Nat)
  optFailed : List Nat
  /-- Eve phase against the received slot boundaries, in hundredths of a phase unit (R423, R425). -/
  evePhase : Int
  /-- The regained signal lies more than 50 ns off: step in the next leap tick (R426). -/
  stepDue : Bool
deriving DecidableEq, Repr

/-- STATE of FAB_GRP_STAT (R448). -/
inductive GState where
  | spare | serving | convening | failover
deriving DecidableEq, Repr

/-- What a member holds of its model group (R425 to R445, R448, R450). -/
structure Group where
  record : GroupRecord
  /-- The records in force during the current tick and during the one before it (R420, R428). -/
  tickRecord : GroupRecord
  prevRecord : GroupRecord
  state : GState
  fenced : Bool
  evt : W32
  /-- A package fault that the package has raised (R421, R431). -/
  fault : Bool
  /-- Stamps sent and received, newest last (R169). -/
  stamps : List Stamp
  /-- First tick of the hold in force (R432). -/
  holdFrom : W48
  /-- 12.5 ns steps since the convening hold began (R435). -/
  holdSteps : Nat
  round : Nat
  convenes : List Convene
  /-- Ruling kept for the apply point of R433. -/
  ruling : Option Ruling
  /-- Tick at whose apply point that ruling applies. -/
  rulingAt : W48
  /-- Ruling that this leader sends in the next tick. -/
  rulingOut : Option Ruling
  /-- Last tick whose side effects this member committed (R432). -/
  lastCommit : W48
  /-- Members whose LEAVE frame arrived (R431). -/
  left : List Nat
  /-- Record with which the host started a forming convening (R429). -/
  forming : Option GroupRecord
  /-- SPARE_POS that the host has set for the next ruling (R429). -/
  newSpares : Option (List (BitVec 16))
  /-- JOIN that this spare has taken (R438). -/
  joining : Option Join
  /-- JOINs that this leader has sent since its ruling, and the members for whose place no spare qualified (R438). -/
  sentJoins : List Join
  unfilled : List Nat
  /-- A failover has begun and its hold has not ended, whatever convening came since (R442). -/
  inFailover : Bool
  /-- This package is a replacement whose restore has not ended with the hold (R439). -/
  restoring : Bool
  /-- A restore of this failover has no escrow to draw on: it waits for a load (R442). -/
  escrowMissing : Bool
  /-- Members fenced by the ruling that started the failover hold (R438). -/
  fencedOut : List Nat
  /-- READY of the stamp: this replacement has finished its restore (R439). -/
  ready : Bool
  /-- The request escrow that this package keeps as the buddy of the serving member, and the entries that it has sent as the serving member (R440). -/
  reqEscrow : SMap Req
  reqSent : SMap Req
deriving DecidableEq, Repr

/-! ### Lanes, KV and the serving dies (chapters 9 and 10) -/

/-- A lane tag as the entry stage assigns it (R267). -/
structure LaneTag where
  req : Nat
  pos : Nat
  cls : Nat
  cand : Nat
  last : Bool
deriving DecidableEq, Repr

/-- A lane in flight: its tag, the sequence number it entered with, and whether the home die has withdrawn it (R369). -/
structure Lane where
  tag : LaneTag
  seq : W48
  withdrawn : Bool
deriving DecidableEq, Repr

/-- The lanes of an entry slot, by sequence number; a replay delivers them again (R196). -/
structure Fill where
  seq : W48
  tick : W48
  lanes : List LaneTag
deriving DecidableEq, Repr

/-- A draw staged by the sampling unit (R349 to R353). -/
structure Draw where
  tag : LaneTag
  tick : W48
  ids : List (Option Nat)
  logp : W32
  nan : Bool
  inf : Bool
deriving DecidableEq, Repr

/-- A staged KV write: encoded rows by head, in the layer's NEW_FMT (R323). MXFP4 rows carry a scale byte per block. -/
structure KvStage where
  die : ServeId
  tick : W48
  req : Nat
  layer : Nat
  pos : Nat
  cls : Nat
  keys : List (List Nat)
  keyScales : List (List Nat)
  vals : List (List Nat)
  valScales : List (List Nat)
  /-- A second write of its tick named its position: the write is discarded (R325). -/
  clash : Bool
deriving DecidableEq, Repr

/-- A refusal report (R368): cause 255 stands for a generation fence (R372). -/
structure Report where
  req : Nat
  pos : Nat
  cls : Nat
  cause : Nat
  tick : W48
deriving DecidableEq, Repr

/-- The page state of one head (R313): FP32 codes; `bad` under R314. -/
structure HeadState where
  bad : Bool
  m : Nat
  l : Nat
  o : List Nat
deriving DecidableEq, Repr

/-- An attention request divided into page tasks (R309). -/
structure AttnJob where
  q : ServeReq
  todo : List Nat
  states : List (Nat × List HeadState)
deriving DecidableEq, Repr

/-- The header of a page directory (R322). -/
structure Dir where
  len : Nat
  pend : Nat
  hideLo : Nat
  hideHi : Nat
deriving DecidableEq, Repr

/-- A page table entry (R322), with the positions of the page whose KV is present (R324). -/
structure PageEnt where
  frame : Nat
  fmt : Nat
  valid : Bool
  lost : Bool
  present : BitVec 128
deriving DecidableEq, Repr

/-- A ledger entry: die (2 × member + S), tick, attention bytes (R331). -/
structure LedgerEnt where
  die : Nat
  tick : W48
  bytes : Nat
deriving DecidableEq, Repr

/-- A serving die (R31, R308 to R337, R376 to R379). -/
structure ServeDie where
  budget : Nat
  attnEvt : W32
  serveEvt : W32
  attnCnt : W64
  tokenCnt : W64
  offered : Nat
  accepted : Nat
  /-- First 4 KiB unit of the request-table entries (R376). -/
  reqBase : Nat
  /-- First unit and size of the KV frame pool (R335). -/
  poolLo : Nat
  poolUnits : Nat
  /-- Allocated extents of the pool: first unit and units, rising. -/
  alloc : List (Nat × Nat)
  /-- Frames reserved for a request and not yet taken: first unit and units (R343). -/
  resv : SMap (List (Nat × Nat))
  ticket : W32
  dram : List Host.Cell
  dirs : SMap Dir
  /-- Page table entries under (1024 × REQ + layer) × 512 + page. -/
  pages : SMap PageEnt
  jobs : List AttnJob
  reports : List Report
deriving DecidableEq, Repr

/-- An auxiliary section in force (R387). -/
structure AuxSec where
  kind : Nat
  unit : Nat
  loadAddr : Nat
  content : Bytes
deriving DecidableEq, Repr

/-- What the home dies and the entry engine hold for the requests (R331, R339, R453). -/
structure Serving where
  reqs : SMap Req
  /-- The step of R524 that the home dies have reached at this apply point. -/
  stage : Nat
  /-- Entries that became FREE at the last apply point (R364). -/
  freed : List Nat
  nextOrder : Nat
  lanes : List Lane
  fills : List Fill
  draws : List Draw
  kept : List Draw
  kv : List KvStage
  refusals : List Report
  ledger : List LedgerEnt
  /-- Lanes in flight at the end of each tick, newest first: the lane log (R436). -/
  laneLog : List (W48 × List LaneTag)
deriving DecidableEq, Repr

/-! ### Host rings (chapter 13) -/

/-- A command in a processor's queue (R461). -/
structure QCmd where
  set : Nat
  tag : W32
  opcode : Nat
deriving DecidableEq, Repr

/-- An ending completion that waits for a slot (R588). -/
structure Ending where
  tag : W32
  status : Nat
  result : Bytes
  tick : W48
deriving DecidableEq, Repr

/-- A ring set as the device holds it (R457 to R461, R466, R588). -/
structure RingSet where
  enabled : Bool
  owner : Nat
  cmdBase : Nat
  cplBase : Nat
  evtBase : Nat
  cmdLog2 : Nat
  cplLog2 : Nat
  evtLog2 : Nat
  mask : BitVec 8
  cmdHead : BitVec 16
  cmdTail : BitVec 16
  cplProd : BitVec 16
  cplUsed : BitVec 16
  evtProd : BitVec 16
  evtUsed : BitVec 16
  evtLost : Nat
  /-- Events lost since the last EVENTS_LOST. -/
  lostSince : Nat
  /-- Completion slots reserved by commands taken and not completed. -/
  reserved : Nat
  endings : List Ending
deriving DecidableEq, Repr

/-- The host interface: ring sets, queues by handling processor, carve-outs, FW_* registers (R457 to R467, R485 to R487). -/
structure HostIf where
  sets : SMap RingSet
  /-- Queues of the scheduler, security and power cores and the ring engine, in order 0 to 3. -/
  queues : List (List QCmd)
  /-- Queued commands that their processor has begun and not completed (R461). -/
  begun : List QCmd
  carve0 : List Host.Cell
  carve1 : List Host.Cell
  /-- Size of each carve-out in bytes (R34). -/
  carveSize : Nat
  /-- First byte, in the DRAM of S0 and of S1, of the two halves of C0's carve-out and then of C1's (R34, log 26). -/
  carveAt : List Nat
  ringTab0 : W32
  ringTab1 : W32
  ringAdmin : W32
  fwEvt : W32
  /-- The ring engine is stopped until FW_RING_TAB is written again (R561). -/
  stopped : Bool
deriving DecidableEq, Repr

/-- A firmware processor: 0 running on C0, 1 restarting, 2 running on C1, 3 failed or stopped (R485), with the times of its restarts on the
running copy, newest first, in 12.5 ns steps (R480). -/
structure ProcState where
  state : Nat
  onC1 : Bool
  recent : List Nat
deriving DecidableEq, Repr

/-- A firmware bundle that passed its checks (R470, R471). -/
structure Bundle where
  raw : Bytes
  version : W64
  svn : W32
  raise : Bool
  /-- SHAKE256 of its header and section table (R477). -/
  digest : BitVec 256
deriving DecidableEq, Repr

/-- A staged activation (R482, R484): target tick, AUTO, target moves. -/
structure Activation where
  target : W48
  auto : Bool
  moves : Nat
deriving DecidableEq, Repr

/-- An entry of the owner key registry (R475). -/
structure OwnerKey where
  modelId : BitVec 128
  key : Bytes
  require : Bool
deriving DecidableEq, Repr

/-- An outstanding READ of a bundle fetch: offset, length, failures (R469). -/
structure ReadReq where
  offset : Nat
  len : Nat
  fails : Nat
deriving DecidableEq, Repr

/-- A bundle fetch (R469): object, whether it still solicits, total length, next offset to read, READs outstanding, bytes received. -/
structure Fetch where
  object : Nat
  soliciting : Bool
  length : Nat
  nextOff : Nat
  reads : List ReadReq
  got : Nat
  data : List Host.Cell
  /-- FW_STAGE that the fetch answers, if any (R481). -/
  cmd : Option (Nat × W32)
deriving DecidableEq, Repr

/-- The NV region (R472, R478). -/
structure NvRegion where
  minSvn : W32
  bootCfg : Bytes
  lastGood : Option Bundle
  keys : List OwnerKey
  xmssIdx : Nat
  /-- Wear counters written back: global array key and count (R154). -/
  wear : SMap (BitVec 24)
  /-- The last power-down was orderly (R154). -/
  orderly : Bool
deriving DecidableEq, Repr

/-- A response that the package keeps (R544): source, SEQ, STATUS, INDEX, words. -/
structure Kept where
  source : BitVec 128
  seq : BitVec 16
  status : Nat
  index : Nat
  words : List W32
deriving DecidableEq, Repr

/-- Messages that the device sends on the management network (R469). -/
inductive MgmtOut where
  | solicit (object : Nat)
  | read (object offset len : Nat)
  | done (object result : Nat)
  | response (status index : Nat) (words : List W32)
  | fuseFailure
deriving DecidableEq, Repr

/-- The firmware processors and the security core's state (R452 to R488). -/
structure Firmware where
  sec : ProcState
  pwr : ProcState
  sch : ProcState
  ctrl : SMap ProcState
  restartCnt : List Nat
  active : Option Bundle
  version : W64
  staged : Option Bundle
  act : Option Activation
  pendingAuto : Bool
  /-- Consecutive ticks clear of emergency (R484). -/
  clearTicks : Nat
  emerg : Bool
  emergCause : Nat
  /-- Ticks that the active bundle has run with no restart (R474). -/
  goodTicks : Nat
  saved : Bool
  nv : NvRegion
  custDigest : BitVec 256
  modelId : BitVec 128
  bootStep : Nat
  fallback : Bool
  bootResult : Nat
  fetch : Option Fetch
  out : List MgmtOut
  /-- The boot configuration record in force since boot (R472). -/
  cfg : Bytes
  kept : List Kept
  /-- The links that were degraded or down when the new-year sweep completed, with their state (R16; form and place DESIGN CHOICE, log 66). -/
  linkReport : List (Nat × Nat)
  /-- Cores whose new-year sweep has run since power-up (R154). -/
  swept : BitVec 96
deriving DecidableEq, Repr

/-! ### Registers (chapter 16) -/

/-- Per-path selections and shadows (R552, R557): under 8 × path + number, and under 2^40 × path + address. -/
structure Regs where
  sel : SMap W32
  shadow : SMap W32
deriving DecidableEq, Repr

/-! ### Power, thermal control, calibration (chapter 14) -/

/-- A queued self-test (R516): its command, UNIT, KIND, STATE of R522, and the arrays that it has still to test. -/
structure SelfTest where
  cmd : HostCmd
  unit : W32
  kind : Nat
  state : Nat
  todo : List Nat
deriving DecidableEq, Repr

/-- The governor, the thermal control, the rails and the calibration store (R489 to R522). -/
structure Power where
  limit : Nat
  base : Nat
  throttle : Nat
  slope : Nat
  compat : Bool
  est : Nat
  sPwr : Nat
  sTh : Nat
  evt : W32
  tmonEvt : W32
  /-- E_d of the last 16 ticks, newest first, in tenths of a picojoule. -/
  energies : List Nat
  /-- Ticks that ended in the last 50 µs: end time in 12.5 ns steps, and whether the estimate with BASE_MAX lay above 2.4 kW (R494). -/
  ceiling : List (Nat × Bool)
  /-- The issue gate refuses every array issue of the next tick, or of this one. -/
  refuseNext : Bool
  refuse : Bool
  /-- Consecutive ticks that the governor has held power at the limit (R484). -/
  limitTicks : Nat
  pmbusWarn : Bool
  trip : Bool
  /-- 1 µs samples since the sample that COMPAT mode shows (R500). -/
  sinceShown : Nat
  /-- Setpoints of VDD_CORE, VDD_ARR, VDD_OPT and VDD_AON in mV (R489). -/
  vcore : Nat
  varr : Nat
  vopt : Nat
  vaon : Nat
  /-- Rails that are up. -/
  railsUp : Bool
  tests : List SelfTest
  /-- CAL_CNT and CAL_LAST by the value of CAL_SEL that selects the block. -/
  cals : SMap (Nat × W48)
  trims : SMap Int
  trimsNext : List (Nat × Int)
  /-- Converter trims staged: core, array, converter, trim (R513). -/
  convNext : List (Nat × Nat × Nat × Int)
deriving DecidableEq, Repr

/-! ### Image loads (chapter 11) -/

/-- A fed section on the reader (R394 to R396): its command, index, address, members that answered ACK, failures. -/
structure Feed where
  cmd : HostCmd
  index : Nat
  addr : Nat
  acks : List Nat
  fails : Nat
deriving DecidableEq, Repr

/-- A load in progress, and what a member keeps of loads (R392 to R407). -/
structure Load where
  reader : Bool
  /-- On any other package, the reader's member index (R393). -/
  readerMember : Nat
  /-- This package takes part only as the buddy of a group of one: it keeps the sections as escrow (R403). -/
  escrowOnly : Bool
  lastStatus : Nat
  failures : Nat
  evt : W32
  /-- IMG_BEGIN whose answer is due, and IMG_END. -/
  begin : Option HostCmd
  endCmd : Option HostCmd
  /-- Members that answered the metadata check, with their status. -/
  answers : List (Nat × Nat)
  metadata : Bytes
  drainTicks : Nat
  drainSince : W48
  escrowPos : Nat
  feeds : List Feed
  /-- Indices whose feed has completed. -/
  fed : List Nat
  /-- Sections staged here: own, and escrow of the member served. -/
  own : SMap Bytes
  escrow : SMap Bytes
  /-- Escrow of the generation in force, with its metadata, and its lost sections. -/
  oldMeta : Bytes
  oldEscrow : SMap Bytes
  lost : List Nat
  staged : Bool
  writtenVote : Bool
  /-- Resident and written banks (64 × core + bank). -/
  resident : List Nat
  bankDone : List Nat
  written : Nat
  /-- Image area in GiB (R404). -/
  area : Nat
  /-- The members' almanacs that have been fed so far, on the reader (R338, R385). -/
  almanacs : SMap Bytes
  /-- The load has ended with a status; sections are discarded at the next apply point (R397). -/
  ended : Option Nat
deriving DecidableEq, Repr

structure State where
  pending : List Instr
  fab : Fabric
  grp : Group
  free : Nat
  fuses : Fuses
  cores : SMap Core
  dies : SMap Die
  tick : Tick
  alm : Option Almanac
  member : Nat
  flits : List Flit
  nextFlit : Nat
  reducers : SMap Reducer
  inbox : List ServeReq
  /-- Requests whose flits are on their way to a serving die of this package (R276). -/
  wire : List ServeReq
  /-- Requests sent to a serving die of another member. -/
  outbound : List ServeReq
  nextReq : Nat
  serve : SMap ServeDie
  srv : Serving
  rings : HostIf
  fw : Firmware
  /-- Load phase (R399): 0 idle, 1 STAGING, 2 DRAINING, 3 WRITING. -/
  loadPhase : Nat
  /-- Auxiliary sections of the generation in force (R387). -/
  aux : List AuxSec
  genActive : W32
  genStaged : W32
  chg : Change
  regs : Regs
  pow : Power
  load : Load
  /-- 0 running, 1 the package is shut down or has no power, 2 RST_N held low after an orderly power-down. -/
  power : Nat
deriving DecidableEq, Repr

/-- Value of an unlisted array: unscanned, grade A, nothing mapped or retired, every data cell 0 (DESIGN CHOICE, log 7). -/
def arrayDefault (_ : Nat) : ArrayInfo :=
  { rows := [], grade := .a, crit := false, hstate := .none, mLast := 0, q1 := 0, q0 := 0, wear := 0, failCnt := 0,
    lastScan := 0, rowMap := [], colMap := [], retired := [], trims := [], colFails := [], unrepaired := false,
    dead := false, rowNext := none, colNext := none, better := none, nextGrade := none, wrote := 0, scans := 0, exhaust := [],
    wearSince := 0, scanTime := 0, latchCur := none, latchNext := none }

/-- Value of an unlisted core: as reset leaves it (R243, R160, R245; the rest 0, DESIGN CHOICE, log 7). -/
def coreDefault (_ : Nat) : Core :=
  { sregs := [], tregs := [], preds := 1, status := 0, stack := [], pc := 0, run := false, ended := false, halted := false,
    idle := true, slot := 0, cyc := 0, sReady := [], tReady := [], pReady := [], inflight := [], stored := [], nextId := 0,
    excSeen := false, exc0 := 0, exc1 := 0, store := [], acc := [], arrival := [], recvMap := [], badStore := [],
    badAcc := [], prog0 := 0, prog1 := 0, cwin0 := 0, cwin1 := 0, dwin0 := 0, dwin1 := 0, seqSafe := false, arrays := [],
    arrayMap := [], mapNext := [], constBase := 0, fp4 := [], holidays := [], holidayQueue := [], checkDis := false, checkLock := false,
    eventStat := 0, faultInfo := 0, rereadCnt := 0, fsCount := 0, numStat := 0, clamps := 0, zeroBlocks := 0,
    outlierOvf := 0, scanCtrl := 44, marginEvt := 0, fails := [], lostArrays := [], sweepDone := false, sweepSlow := false, sweepTime := 0,
    refreshed := 0, marginBase := 0 }

/-- A sensor before its first sample. -/
def sensorDefault (_ : Nat) : Sensor := ⟨none, none, false, false, 0, false, 0, 0⟩

/-- A converter with nothing queued, not retired, at the nominal codes of R506. -/
def converterDefault : Converter := ⟨[], [], false, 1966, 3277, 3277, 0⟩

/-- Value of an unlisted die: both halves at 1.6 GHz (DESIGN CHOICE, log 7) in the Cold band (BAND_W and BAND_E reset to 0, R520), every port down (R305); the switchable domains
off (R29). -/
def dieDefault (_ : Nat) : Die :=
  { west := ⟨64, none, .cold, 0⟩, east := ⟨64, none, .cold, 0⟩, redEvt := 0, eccCorr := 0, eccRetry := 0,
    portState := [], domCtrl := 0, domReady := 0, domPower := 0, domUse := 0, domRefused := false, updMap0 := 0, updMap1 := 0, cfgFault := 0, sensors := [],
    hotW := none, hotE := none, latch := false, convW := converterDefault, convE := converterDefault, hskRes := 0,
    refFault := false, hskEvt := 0, misses := 0 }

/-- A request-table entry that nothing has written: FREE. -/
def reqDefault (_ : Nat) : Req :=
  { state := .free, seeded := false, cancel := false, kMax := 0, kCur := 0, draftSrc := 0, plainRun := 0, ringLog2 := 0,
    withdraws := 0, gen := 0, ticket := 0, promptLen := 0, limit := 0, next := 0, emit := 0, seed := 0, dirS0 := 0, dirS1 := 0,
    histAddr := 0, ringAddr := 0, prod := 0, temp := 0, topK := 0, topP := 0, minP := 0, repPen := 0, presPen := 0,
    stops := [], genReq := 0, set := 0, tag := 0, order := 0, since := 0, hist := [], draftBuf := none, step := none,
    hide := none, finish := none, migrate := false, final := none, back := .free, causes := [], restart := 0, rebuildAt := none }

/-- A page directory that nothing has written. -/
def dirDefault (_ : Nat) : Dir := ⟨0, 0, 0, 0⟩

/-- A page table entry that nothing has written. -/
def pageDefault (_ : Nat) : PageEnt := ⟨0, 0, false, false, 0⟩

/-- A serving die after reset: ATTN_BUDGET 3,867 (R334), the boot fills the rest (R335, R376). -/
def serveDefault (_ : Nat) : ServeDie :=
  { budget := 3867, attnEvt := 0, serveEvt := 0, attnCnt := 0, tokenCnt := 0, offered := 0, accepted := 0, reqBase := 0,
    poolLo := 0, poolUnits := 0, alloc := [], resv := [], ticket := 0, dram := [], dirs := [], pages := [], jobs := [], reports := [] }

/-- A control core as it runs (R452). -/
def procDefault (_ : Nat) : ProcState := ⟨0, false, []⟩

/-- A ring set that is not in use. -/
def ringDefault (_ : Nat) : RingSet :=
  { enabled := false, owner := 0, cmdBase := 0, cplBase := 0, evtBase := 0, cmdLog2 := 4, cplLog2 := 4, evtLog2 := 4, mask := 0,
    cmdHead := 0, cmdTail := 0, cplProd := 0, cplUsed := 0, evtProd := 0, evtUsed := 0, evtLost := 0, lostSince := 0,
    reserved := 0, endings := [] }

/-- An element that no partial covers (R293). -/
def elemDefault (_ : Nat) : RedElem := ⟨0, false, false, false, false, false, false, false, none, false, 0, none⟩

/-- A reducer that nothing has armed. -/
def reducerDefault (_ : Nat) : Reducer := ⟨false, 0, 0, 0, [], 0, [], false, false, false⟩

/-- Share of a class at a port that nothing has written: class 0 holds 64 and every other class 0 (R304). -/
def shareDefault (k : Nat) : Nat := if k % 64 = 0 then 64 else 0

/-- A port that has granted nothing: the start of a round, class 63 last served, so that class 0 is first (DESIGN CHOICE, log 7). -/
def arbDefault (_ : Nat) : PortArb := ⟨0, [], 63, 63, false⟩

/-- Neighbours of a sensor where the fuse table lists none: the other three of its aligned group of four on the die (DESIGN CHOICE,
log 7). -/
def neighbourDefault (k : Nat) : List Nat := ((List.range 4).map (k / 4 * 4 + ·)).filter (· != k)

/-- A record of no group: GROUP_ID 0xFFFF, every position unused. -/
def noRecord : GroupRecord :=
  { groupId := 0xFFFF, members := 0, epoch := 0, almanacDigest := 0, generation := 0, staged := 0, fwVersion := 0, patchEpoch := 0,
    memberPos := List.replicate 16 0xFFFF, sparePos := List.replicate 4 0xFFFF, tickEpoch := 0 }

/-- The package right after reset, before its boot: every register at the value of its table; the fuse table of an LX-96, the straps,
an empty NV region and the values that the manual leaves open are DESIGN CHOICE (log 7). -/
def State.reset : State :=
  { pending := []
    fab := { pos := 0, rack := 0, link := [], peers := [], localRoute := [], rackRoute := [], shares := [], arb := [], trim := 0, lock := false,
             holdover := false, skew := 0, badMsgs := 0, count := 0, frames := [], present := true, launch := true, eyeOff := [],
             optFailed := [], evePhase := 0, stepDue := false }
    grp := { record := noRecord, tickRecord := noRecord, prevRecord := noRecord, state := .spare, fenced := false, evt := 0, fault := false, stamps := [],
             holdFrom := 0, holdSteps := 0, round := 0, convenes := [], ruling := none, rulingAt := 0, rulingOut := none, lastCommit := 0, left := [], forming := none,
             newSpares := none, joining := none, sentJoins := [], unfilled := [], inFailover := false, restoring := false, escrowMissing := false
             fencedOut := [], ready := false, reqEscrow := [], reqSent := [] }
    free := 0
    fuses := { serial := 0, grade := 0, coreMap := ~~~(0#96), spares := [], rowMaps := [], colMaps := [], bad := false, vcore := 700, baseMax := 1050
               coef := [250, 400, 650, 1100, 2000, 450, 720, 1170, 1980, 3600, 60, 20000], neighbours := [], refRatio := 1666836 }
    cores := [], dies := []
    tick := { count := 0, seq := 0, basePeriod := 160, pEff := 160, stretch := 0, leap := false, phase := .applied, event := 0,
              notices := [], lagging := [], prevLagging := [], idle := false, leapNext := false, lastLeap := none, leapReqs := [], leapTaken := [],
              hist := [], lossInfo := 0, losses := 0, streak := none, repeatFault := false, emergUntil := none, emergCall := false,
              recovery := none, patch := none, budgetSet := [], time := 0 }
    alm := none, member := 0, flits := [], nextFlit := 0, reducers := [], inbox := [], wire := [], outbound := [], nextReq := 0, serve := []
    srv := { reqs := [], stage := 0, freed := [], nextOrder := 0, lanes := [], fills := [], draws := [], kept := [], kv := [], refusals := [], ledger := [],
             laneLog := [] }
    rings := { sets := [], queues := [[], [], [], []], begun := [], carve0 := [], carve1 := [], carveSize := 2 ^ 34, carveAt := [0, 0, 2 ^ 33, 2 ^ 33], ringTab0 := 0, ringTab1 := 0,
               ringAdmin := 0, fwEvt := 0, stopped := false }
    fw := { sec := procDefault 0, pwr := procDefault 0, sch := procDefault 0, ctrl := [], restartCnt := [0, 0, 0, 0], active := none,
            version := 0, staged := none, act := none, pendingAuto := false, clearTicks := 0, emerg := false, emergCause := 0,
            goodTicks := 0, saved := false
            nv := { minSvn := 0, bootCfg := [], lastGood := none, keys := [], xmssIdx := 0, wear := [], orderly := true }
            custDigest := 0, modelId := 0, bootStep := 0, fallback := false, bootResult := 0, fetch := none, out := [], cfg := [],
            kept := [], linkReport := [], swept := 0 }
    loadPhase := 0, aux := [], genActive := 0, genStaged := 0
    chg := { waiting := [], pending := [], armed := none, hold := false, group := false, tgt0 := 0, tgt1 := 0, pMoves := 0,
             aMoves := 0, moves := 0, result := 0, nakDie := 0, nakCause := 0, nakMember := 0, pNak := false, aNak := false,
             eligible := [] }
    regs := { sel := [], shadow := [] }
    pow := { limit := 2000, base := 1050, throttle := 95, slope := 2, compat := false, est := 0, sPwr := 0, sTh := 0, evt := 0,
             tmonEvt := 0, energies := [], ceiling := [], refuseNext := false, refuse := false, limitTicks := 0, pmbusWarn := false,
             trip := false, sinceShown := 0, vcore := 750, varr := 900, vopt := 1200, vaon := 900, railsUp := true, tests := [], cals := [], trims := [],
             trimsNext := [], convNext := [] }
    load := { reader := false, readerMember := 0, escrowOnly := false, lastStatus := 0, failures := 0, evt := 0, begin := none, endCmd := none, answers := [], metadata := [],
              drainTicks := 0, drainSince := 0, escrowPos := 0xFFFF, feeds := [], fed := [], own := [], escrow := [], oldMeta := [],
              oldEscrow := [], lost := [], staged := false, writtenVote := false, resident := [], bankDone := [], written := 0,
              area := 0, almanacs := [], ended := none }
    power := 0 }

/-- Why the block stops. No command of this block stops in a fault: the manual names no such stop. -/
inductive Fault where
  /-- Raised by no command. Safe. -/
  | never
deriving DecidableEq, Repr

/-- Why a command has no meaning. -/
inductive Refusal where
  /-- Raised by Dispatch.lean for a row without a meaning. Safe. -/
  | notModelled (mnemonic : String)
deriving DecidableEq, Repr

/-- Free value: the lane tags that the home dies of another member assign to an entry slot, by sequence number (R195, R346). (log 17) -/
opaque Config.peerLanes : Nat → List LaneTag

/-- Free value: the request-table entries that the serving member has sent to its buddy by a tick, and that a replacement takes from the buddy (R440). (log 28) -/
opaque Config.peerRequests : Nat → List (Nat × Req)

end Sys2Proof.Machine
end

