-- ==== Sys2Proof/Machine/Ops.lean ====
section
/-! DEFINITION. The named operations over sparse tables, memories and registers that every family shares. -/
namespace Sys2Proof.Machine

/-- Entry k of a sparse table whose unlisted entries read as `d`. -/
def smGet {α : Type} (d : Nat → α) : SMap α → Nat → α
  | [], k => d k
  | (j, v) :: t, k => if k = j then v else smGet d t k

/-- A table without its entry k. -/
def smDel {α : Type} (m : SMap α) (k : Nat) : SMap α := m.filter fun p => p.1 != k

/-- A table with (k, v) put before the first greater key. -/
def smIns {α : Type} : SMap α → Nat → α → SMap α
  | [], k, v => [(k, v)]
  | (j, w) :: t, k, v => if k < j then (k, v) :: (j, w) :: t else (j, w) :: smIns t k v

/-- Entry k set to v; an entry at its unlisted value is not kept, and keys stay strictly rising. -/
def smSet {α : Type} [DecidableEq α] (d : Nat → α) (m : SMap α) (k : Nat) (v : α) : SMap α :=
  if v = d k then smDel m k else smIns (smDel m k) k v

/-- The canonical form: keys strictly rising, no entry at its unlisted value. -/
def smWf {α : Type} [DecidableEq α] (d : Nat → α) : SMap α → Bool
  | [] => true
  | (j, v) :: t => decide (v ≠ d j) && t.all (fun p => decide (j < p.1)) && smWf d t

/-- What an unlisted byte of a memory reads as: 0 (DESIGN CHOICE, log 6). -/
def blank (_ : Nat) : Byte := 0

/-- The canonical form of a memory. -/
def Memory.wf (m : List Host.Cell) : Bool := smWf blank m

/-- The byte at an address. -/
def memGet (m : List Host.Cell) (a : Nat) : Byte := smGet blank m a

/-- One byte written. -/
def memSet (m : List Host.Cell) (a : Nat) (b : Byte) : List Host.Cell := smSet blank m a b

/-- n bytes from an address, lowest first (R8). -/
def readBytes (m : List Host.Cell) (a n : Nat) : Bytes := (List.range n).map fun i => memGet m (a + i)

/-- Bytes written from an address upward (R8). -/
def writeBytes (m : List Host.Cell) (a : Nat) : Bytes → List Host.Cell
  | [] => m
  | b :: bs => writeBytes (memSet m a b) (a + 1) bs

/-- A little-endian number of n bytes (R8). -/
def readNat (m : List Host.Cell) (a n : Nat) : Nat := leNat (readBytes m a n)

/-- Element at an index, or a default. -/
def nth {α : Type} (d : α) (l : List α) (i : Nat) : α := (l[i]?).getD d

/-- Element i of a list replaced. -/
def setNth {α : Type} (l : List α) (i : Nat) (v : α) : List α := l.set i v

/-- A list with an element appended unless it is there. -/
def addNew {α : Type} [DecidableEq α] (l : List α) (x : α) : List α := if x ∈ l then l else l ++ [x]

/-- Core c. -/
def State.core (s : State) (c : CoreId) : Core := smGet coreDefault s.cores c.val

/-- Core c replaced. -/
def State.setCore (s : State) (c : CoreId) (k : Core) : State := { s with cores := smSet coreDefault s.cores c.val k }

/-- Core c changed. -/
def State.modCore (s : State) (c : CoreId) (f : Core → Core) : State := s.setCore c (f (s.core c))

/-- Die d. -/
def State.die (s : State) (d : DieId) : Die := smGet dieDefault s.dies d.val

/-- Die d replaced. -/
def State.setDie (s : State) (d : DieId) (x : Die) : State := { s with dies := smSet dieDefault s.dies d.val x }

/-- Die d changed. -/
def State.modDie (s : State) (d : DieId) (f : Die → Die) : State := s.setDie d (f (s.die d))

/-- The weight die of a core (R4). -/
def dieOf (c : CoreId) : DieId := ⟨c.val / 4, by have := c.isLt; omega⟩

/-- The core lies in the east half of its die (cores 2 and 3). -/
def isEast (c : CoreId) : Bool := decide (2 ≤ c.val % 4)

/-- The half of a core. -/
def State.half (s : State) (c : CoreId) : Half :=
  let d := s.die (dieOf c)
  if isEast c then d.east else d.west

/-- The core is good (R3, R37): the core map marks it, and the fuse table is not lost, which keeps every core in reset. -/
def State.good (s : State) (c : CoreId) : Bool := s.fuses.coreMap.getLsbD c.val && !s.fuses.bad

/-- A bit of an event register set (R10). -/
def setBit (r : W32) (i : Nat) : W32 := r ||| (1#32 <<< i)

/-- Settle cycles e of a band (R139). -/
def settle : Band → Nat
  | .cold => 0 | .nominal => 0 | .warm => 2 | .hot => 4 | .critical => 8

/-- Guard G in 12.5 ns steps (R166): of the almanac in force, 0 with none. -/
def State.guardSteps (s : State) : Nat := match s.alm with
  | some a => a.guardSteps
  | none => 0

/-- W of R166 in tenths of a nanosecond: P′ − 80 ns − G. -/
def State.window (s : State) : Nat := 125 * (s.tick.pEff - s.guardSteps) - 800

/-- Deadline cycle DLN of a half clock (R212): the smallest integer not less than W × f. -/
def State.dln (s : State) (c : CoreId) : Nat := ceilDiv (s.window * (s.half c).clk) 400

/-- Cycles of a half clock from cycle 0 to the work deadline (R166). -/
def State.wdl (s : State) (c : CoreId) : Nat := (125 * s.tick.pEff - 800) * (s.half c).clk / 400

/-- The almanac entry of a core (R191). -/
def State.coreEnt (s : State) (c : CoreId) : Option CoreEnt :=
  match s.alm with
  | some a => a.cores.find? (fun e => e.core == c.val)
  | none => none

/-- The slot record that core c runs in this tick (R192, R208). -/
def State.slotRec (s : State) (c : CoreId) : Option SlotRec :=
  match s.coreEnt c with
  | some e => e.slots[(s.core c).slot]?
  | none => none

/-- The ceiling monitor refuses every array issue of this tick (R494). -/
def State.ceilingOn (s : State) : Bool := s.pow.refuse

/-- A loss notice of this tick for a cause of R173 at a die of this package. -/
def State.lose (s : State) (cause : Nat) (d : Nat) : State :=
  { s with tick := { s.tick with notices := addNew s.tick.notices ⟨cause, s.member, d⟩ } }

end Sys2Proof.Machine
end

