-- ==== Sys2Proof/Machine/Flags.lean ====
section
/-! DEFINITION. The status flags of a core (R214) and the registers that record the same conditions. -/
namespace Sys2Proof.Machine

/-- Bit numbers of STATUS (R214). -/
def stQclamp : Nat := 0
/-- QZERO. -/
def stQzero : Nat := 1
/-- QNONFINITE. -/
def stQnonfinite : Nat := 2
/-- OUTLIER_OVF. -/
def stOutlierOvf : Nat := 3
/-- WINDOW_UNF. -/
def stWindowUnf : Nat := 4
/-- WINDOW_OVF. -/
def stWindowOvf : Nat := 5
/-- OUTPUT_OVF. -/
def stOutputOvf : Nat := 6
/-- SCALE_NAN. -/
def stScaleNan : Nat := 7
/-- SCALE_SPLIT. -/
def stScaleSplit : Nat := 8
/-- K_LIMIT. -/
def stKLimit : Nat := 9
/-- DEMOTED. -/
def stDemoted : Nat := 10
/-- UNCHECKED. -/
def stUnchecked : Nat := 11
/-- REREAD. -/
def stReread : Nat := 12
/-- ARRAY_FAULT. -/
def stArrayFault : Nat := 13
/-- VINVALID. -/
def stVinvalid : Nat := 14
/-- VOVF. -/
def stVovf : Nat := 15
/-- EMPTY_ATTN. -/
def stEmptyAttn : Nat := 16
/-- CTX_LIMIT. -/
def stCtxLimit : Nat := 17
/-- GEN_FENCE. -/
def stGenFence : Nat := 18
/-- SERVE_REFUSED. -/
def stServeRefused : Nat := 19
/-- EXC_CONT. -/
def stExcCont : Nat := 30

/-- ARR_EVENT_STAT bit numbers (R84): RESIDUE_FAIL. -/
def evResidue : Nat := 0
/-- OVER_RANGE. -/
def evOverRange : Nat := 1
/-- TWIN_MISMATCH. -/
def evTwin : Nat := 2
/-- SCALE_PARITY. -/
def evScaleParity : Nat := 3
/-- ROWREAD_FAIL. -/
def evRowread : Nat := 4
/-- LADDER_EXHAUSTED. -/
def evLadder : Nat := 5
/-- DEMOTED. -/
def evDemoted : Nat := 6
/-- UNCHECKED. -/
def evUnchecked : Nat := 7

/-- R214: set STATUS bit i and the bit of the core register that records the same condition. -/
def Core.flag (k : Core) (i : Nat) : Core :=
  let k := { k with status := setBit k.status i }
  if i < 10 then { k with numStat := setBit k.numStat i }
  else if i = stDemoted then { k with eventStat := setBit k.eventStat evDemoted }
  else if i = stUnchecked then { k with eventStat := setBit k.eventStat evUnchecked }
  else k

/-- R214 under a condition. -/
def Core.flagIf (k : Core) (b : Bool) (i : Nat) : Core := if b then k.flag i else k

/-- Set a bit of ARR_EVENT_STAT (R84). -/
def Core.event (k : Core) (i : Nat) : Core := { k with eventStat := setBit k.eventStat i }

/-- Set a bit of ARR_MARGIN_EVT (R161). -/
def Core.marginEvent (k : Core) (i : Nat) : Core := { k with marginEvt := setBit k.marginEvt i }

/-- STATUS AND IMM is not 0 (`tst`, R252). -/
def statusTest (st imm : W32) : Bool := st &&& imm != 0#32

end Sys2Proof.Machine
end

