-- ==== Sys2Proof/Machine/Operands.lean ====
section
/-! DEFINITION. Operand forms: scalar registers, windows of the core store, tensor descriptors, extents, element access. -/
namespace Sys2Proof.Machine

/-- Exception codes (R236). -/
def xKLimit : Nat := 0x01
/-- ILLEGAL. -/
def xIllegal : Nat := 0x10
/-- FETCH. -/
def xFetch : Nat := 0x11
/-- DESC_INVALID. -/
def xDesc : Nat := 0x12
/-- BOUNDS. -/
def xBounds : Nat := 0x13
/-- WRITE_PROTECT. -/
def xWriteProtect : Nat := 0x14
/-- ALIGN. -/
def xAlign : Nat := 0x15
/-- ROUTE. -/
def xRoute : Nat := 0x16
/-- WORD. -/
def xWord : Nat := 0x17
/-- LADDER. -/
def xLadder : Nat := 0x18

/-- s[r]; s0 is 0 at all times (R208, R210). -/
def Core.sreg (k : Core) (r : SReg) : W64 := if r.val = 0 then 0 else smGet (fun _ => 0) k.sregs r.val

/-- s[r] written; a write to s0 is ignored (R210). -/
def Core.setS (k : Core) (r : SReg) (v : W64) : Core :=
  if r.val = 0 then k else { k with sregs := smSet (fun _ => 0) k.sregs r.val v }

/-- t[r] (R224). -/
def Core.treg (k : Core) (r : TReg) : BitVec 128 := smGet (fun _ => 0) k.tregs r.val

/-- t[r] written. -/
def Core.setT (k : Core) (r : TReg) (v : BitVec 128) : Core := { k with tregs := smSet (fun _ => 0) k.tregs r.val v }

/-- p[r]; p0 is 1 at all times (R208, R211). -/
def Core.preg (k : Core) (r : PReg) : Bool := if r.val = 0 then true else k.preds.getLsbD r.val

/-- p[r] written; a write to p0 is ignored (R211). -/
def Core.setP (k : Core) (r : PReg) (b : Bool) : Core :=
  if r.val = 0 then k
  else { k with preds := if b then k.preds ||| (1#8 <<< r.val) else k.preds &&& ~~~(1#8 <<< r.val) }

/-- The guard of an instruction lets it execute: p[PRED] XOR PNEG is 1 (R211). -/
def Core.enabled (k : Core) (g : Guard) : Bool := k.preg g.pred != g.neg

/-- Second scalar operand b = s[RB] + IMM, IMM sign-extended (R250). -/
def Core.opB (k : Core) (rb : SReg) (imm : W32) : W64 := k.sreg rb + imm.signExtend 64

/-- The byte address of a scalar access: s[RA] + IMM (R251). -/
def Core.addr (k : Core) (ra : SReg) (imm : W32) : Nat := (k.sreg ra + imm.signExtend 64).toNat

/-- Bytes of the core store (R216). -/
def storeSize : Nat := 0x200_0000

/-- First byte and end of the program region (R216, R245). -/
def Core.progLo (k : Core) : Nat := field k.prog0.toNat 24 0
/-- End of the program region. -/
def Core.progHi (k : Core) : Nat := min storeSize (k.progLo + field k.prog1.toNat 22 0)
/-- First byte of the constant window. -/
def Core.cLo (k : Core) : Nat := field k.cwin0.toNat 24 0
/-- End of the constant window; a window past the store ends with it (R245). -/
def Core.cHi (k : Core) : Nat := min storeSize (k.cLo + field k.cwin1.toNat 25 0)
/-- First byte of the data window. -/
def Core.dLo (k : Core) : Nat := field k.dwin0.toNat 24 0
/-- End of the data window. -/
def Core.dHi (k : Core) : Nat := min storeSize (k.dLo + field k.dwin1.toNat 25 0)

/-- Bytes lo to hi − 1 lie in the union of the two windows; each step passes one window. -/
def Core.covered (k : Core) : Nat → Nat → Nat → Bool
  | 0, lo, hi => decide (hi ≤ lo)
  | n + 1, lo, hi =>
    if hi ≤ lo then true
    else if k.dLo ≤ lo ∧ lo < k.dHi then k.covered n k.dHi hi
    else if k.cLo ≤ lo ∧ lo < k.cHi then k.covered n k.cHi hi
    else false

/-- Bytes lo to hi − 1 meet bytes lo' to hi' − 1. -/
def meets (lo hi lo' hi' : Nat) : Bool := decide (lo < hi') && decide (lo' < hi) && decide (lo < hi ∧ lo' < hi')

/-- The access check of R217: `none` if allowed, else BOUNDS or WRITE_PROTECT. -/
def Core.access (k : Core) (write : Bool) (lo hi : Nat) : Option Nat :=
  if hi ≤ lo then none
  else if lo < 0x10_0000 || meets k.progLo k.progHi lo hi || !k.covered 4 lo hi then some xBounds
  else if write && meets k.cLo k.cHi lo hi then some xWriteProtect
  else none

/-- A 16-byte word of the core store in the range fails its code (R239). -/
def Core.badRange (k : Core) (lo hi : Nat) : Bool :=
  k.badStore.any fun w => decide (16 * w < hi) && decide (lo < 16 * w + 16)

/-- The descriptor fields of R224. -/
structure Desc where
  base : Nat
  fmt : Nat
  banking : Nat
  len0 : Nat
  len1 : Nat
  stride : Nat
  bstride : Nat
  reservedOk : Bool
deriving DecidableEq, Repr

/-- The descriptor in a 128-bit register (R224). -/
def descOf (v : BitVec 128) : Desc :=
  let n := v.toNat
  { base := field n 24 0, fmt := field n 28 25, banking := field n 30 29, len0 := field n 47 32 + 1,
    len1 := field n 63 48 + 1, stride := field n 88 64, bstride := field n 120 96,
    reservedOk := field n 31 31 == 0 && field n 95 89 == 0 && field n 127 121 == 0 }

/-- Bytes of one element of a plain format (R225); 0 for MX records and invalid formats. -/
def elemBytes : Nat → Nat
  | 1 => 2 | 2 => 4 | 6 => 1 | 7 => 1 | 8 => 4 | 9 => 32 | 10 => 32 | 11 => 1
  | _ => 0

/-- Packed elements of an MX record of n elements, padded (R227). -/
def mxElems (fmt n : Nat) : Nat := alignUp (if fmt = 5 then n else n / 2) 64
/-- Block side array of an MX record, padded (R227). -/
def mxSide (n : Nat) : Nat := alignUp (2 * (n / 32)) 64
/-- Outlier list of an MX record (R227). -/
def mxList (n : Nat) : Nat := 64 * ceilDiv n 1024

/-- Bytes of one row (R226, R227). -/
def Desc.rowBytes (d : Desc) : Nat :=
  if d.fmt = 3 ∨ d.fmt = 4 ∨ d.fmt = 5 then mxElems d.fmt d.len0 + mxSide d.len0 + mxList d.len0
  else d.len0 * elemBytes d.fmt

/-- The bank a banked extent uses in the slot of sequence n (R220). -/
def bankOf (banking : Nat) (n : W48) : Nat :=
  if banking = 1 then (n - 1).toNat % 3 else if banking = 2 then n.toNat % 3 else 0

/-- First byte of the resolved extent (R226). -/
def Desc.lo (d : Desc) (n : W48) : Nat := d.base + bankOf d.banking n * d.bstride

/-- The resolved extent (R226). -/
def Desc.extent (d : Desc) (n : W48) : Extent :=
  ⟨d.fmt = 9, d.lo n, d.lo n + (d.len1 - 1) * d.stride + d.rowBytes⟩

/-- First byte of row j. -/
def Desc.rowAt (d : Desc) (n : W48) (j : Nat) : Nat := d.lo n + j * d.stride

/-- Elements named (rows times elements per row). -/
def Desc.count (d : Desc) : Nat := d.len0 * d.len1

/-- The first access exception over the rows of a descriptor (R217). -/
def Core.rowsAccess (k : Core) (write : Bool) (d : Desc) (n : W48) : Option Nat :=
  (List.range d.len1).findSome? fun j => k.access write (d.rowAt n j) (d.rowAt n j + d.rowBytes)

/-- A word of the accumulator file in the extent fails its code. -/
def Core.badAccRange (k : Core) (lo hi : Nat) : Bool :=
  k.badAcc.any fun w => decide (16 * w < hi) && decide (lo < 16 * w + 16)

/-- The checks of R226 in its order for an operand that accepts `fmts`; BOUNDS and WRITE_PROTECT of R217; WORD for an operand
that is read (R239). `none` if the operand is good. -/
def Core.checkDesc (k : Core) (n : W48) (d : Desc) (fmts : List Nat) (read write : Bool) : Option Nat :=
  let al := if d.fmt = 9 then 32 else 64
  if d.base % al ≠ 0 ∨ d.stride % al ≠ 0 ∨ d.bstride % al ≠ 0 then some xAlign
  else if d.fmt = 0 ∨ 12 ≤ d.fmt ∨ d.banking = 3 ∨ (d.fmt = 9 ∧ d.banking ≠ 0) ∨ (1 < d.len1 ∧ d.stride < d.rowBytes)
      ∨ d.reservedOk = false ∨ d.fmt ∉ fmts ∨ ((d.fmt = 3 ∨ d.fmt = 4 ∨ d.fmt = 5) ∧ d.len0 % 32 ≠ 0) then some xDesc
  else if d.fmt = 9 then
    let e := d.extent n
    if 0x4_0000 < e.hi then some xBounds
    else if read && k.badAccRange e.lo e.hi then some xWord else none
  else
    match k.rowsAccess write d n with
    | some x => some x
    | none =>
      let e := d.extent n
      if read && k.badRange e.lo e.hi then some xWord else none

/-- Every line of bytes lo to hi − 1 has its arrival bit (R222). -/
def Core.arrived (k : Core) (lo hi : Nat) : Bool :=
  (List.range (ceilDiv hi 64 - lo / 64)).all fun i => smGet (fun _ => false) k.arrival (lo / 64 + i)

/-- An operand of BANKING 2 that is read has all its lines (R222); any other never waits. -/
def Core.ready2 (k : Core) (n : W48) (d : Desc) : Bool :=
  d.banking != 2 || d.fmt == 9 || k.arrived (d.extent n).lo (d.extent n).hi

/-- Set or clear the arrival bits of the data-window lines that bytes lo to hi − 1 touch (R221). -/
def Core.markLines (k : Core) (lo hi : Nat) (b : Bool) : Core :=
  { k with arrival := (List.range (ceilDiv hi 64 - lo / 64)).foldl (fun m i =>
      let l := lo / 64 + i
      if k.dLo ≤ 64 * l + 63 ∧ 64 * l < k.dHi then smSet (fun _ => false) m l b else m) k.arrival }

/-- Bytes stored by the sequencer: no arrival bit; a failing word that they cover whole is good again (R303). -/
def Core.storeAt (k : Core) (a : Nat) (bs : Bytes) : Core :=
  { k with
    store := writeBytes k.store a bs
    badStore := k.badStore.filter fun w => !(decide (a ≤ 16 * w) && decide (16 * w + 16 ≤ a + bs.length)) }

/-- Bytes written by a unit, a delivery or a response: they set the arrival bits of their lines (R221). -/
def Core.unitWrite (k : Core) (a : Nat) (bs : Bytes) : Core := (k.storeAt a bs).markLines a (a + bs.length) true

/-- Accumulator entry e (R218). -/
def Core.accGet (k : Core) (e : Nat) : BitVec 256 := smGet (fun _ => 0) k.acc e

/-- Accumulator entry e written whole: its words are good again (R303). -/
def Core.accSet (k : Core) (e : Nat) (v : BitVec 256) : Core :=
  { k with acc := smSet (fun _ => 0) k.acc e v, badAcc := k.badAcc.filter fun w => w / 2 != e }

/-- Codes of the elements of row j of a plain-format extent (R225, R226). -/
def Core.rowElems (k : Core) (n : W48) (d : Desc) (j : Nat) : List Nat :=
  let eb := elemBytes d.fmt
  (List.range d.len0).map fun i => readNat k.store (d.rowAt n j + eb * i) eb

/-- All rows. -/
def Core.rows (k : Core) (n : W48) (d : Desc) : List (List Nat) := (List.range d.len1).map (k.rowElems n d)

/-- Row j written from element codes. -/
def Core.putRow (k : Core) (n : W48) (d : Desc) (j : Nat) (xs : List Nat) : Core :=
  k.unitWrite (d.rowAt n j) (xs.flatMap (leBytes (elemBytes d.fmt)))

/-- Rows written from element codes. -/
def Core.putRows (k : Core) (n : W48) (d : Desc) (rs : List (List Nat)) : Core :=
  (rs.zip (List.range rs.length)).foldl (fun k p => k.putRow n d p.2 p.1) k

/-- The 32-byte accumulator entries an operand of format 9 or 10 names, row by row (R226, R228). -/
def Core.entries (k : Core) (n : W48) (d : Desc) : List (BitVec 256) :=
  (List.range d.len1).flatMap fun j => (List.range d.len0).map fun i =>
    let a := d.rowAt n j + 32 * i
    if d.fmt = 9 then k.accGet (a / 32) else BitVec.ofNat 256 (readNat k.store a 32)

/-- Entry number i of an operand of format 9 or 10 written. -/
def Core.putEntry (k : Core) (n : W48) (d : Desc) (i : Nat) (v : BitVec 256) : Core :=
  let a := d.rowAt n (i / d.len0) + 32 * (i % d.len0)
  if d.fmt = 9 then k.accSet (a / 32) v else k.unitWrite a (leBytes 32 v.toNat)

/-- Entries 0 upward of an operand written. -/
def Core.putEntries (k : Core) (n : W48) (d : Desc) (vs : List (BitVec 256)) : Core :=
  (vs.zip (List.range vs.length)).foldl (fun k p => k.putEntry n d p.2 p.1) k

/-- The format of R225 as numbers: BF16, FP32, E4M3 or E5M2. -/
def fmtOf : Nat → FpFmt
  | 1 => bf16 | 6 => e4m3 | 7 => e5m2
  | _ => fp32

/-- Two extents share a byte of one space. -/
def Extent.overlaps (a b : Extent) : Bool := a.acc == b.acc && decide (a.lo < b.hi) && decide (b.lo < a.hi)

end Sys2Proof.Machine
end

