-- ==== Sys2Proof/Machine/Events.lean ====
section
/-! DEFINITION. The host rings: completions, events, lost events (R457 to R467, R588), and package faults. -/
namespace Sys2Proof.Machine

/-- A ring set (R457). -/
def State.ring (s : State) (i : Nat) : RingSet := smGet ringDefault s.rings.sets i

/-- A ring set replaced. -/
def State.setRing (s : State) (i : Nat) (r : RingSet) : State :=
  { s with rings := { s.rings with sets := smSet ringDefault s.rings.sets i r } }

/-- The carve-out of a command die (R34, R457). -/
def State.carve (s : State) (owner : Nat) : List Host.Cell := if owner = 0 then s.rings.carve0 else s.rings.carve1

/-- Bytes written into a carve-out. -/
def State.writeCarve (s : State) (owner a : Nat) (bs : Bytes) : State :=
  if owner = 0 then { s with rings := { s.rings with carve0 := writeBytes s.rings.carve0 a bs } }
  else { s with rings := { s.rings with carve1 := writeBytes s.rings.carve1 a bs } }

/-- Address of the descriptor of set i in the ring set table (R457, R486). -/
def State.descAddr (s : State) (i : Nat) : Nat := s.rings.ringTab0.toNat + 2 ^ 32 * s.rings.ringTab1.toNat + 64 * i

/-- The fields of a descriptor that the device writes: CMD_HEAD, CPL_PROD, EVT_PROD, EVT_LOST (R457). -/
def State.writeIndices (s : State) (i : Nat) : State :=
  let r := s.ring i
  s.writeCarve 0 (s.descAddr i + 28)
    (leBytes 2 r.cmdHead.toNat ++ leBytes 2 r.cplProd.toNat ++ leBytes 2 r.evtProd.toNat ++ leBytes 2 r.evtLost)

/-- PHASE of entry number c of a ring of 2^log2 entries: 1 on the first pass, 0 on the second, and so on (R361, R458). -/
def phaseOf (c log2 : Nat) : Nat := 1 - c / 2 ^ log2 % 2

/-- Entries written and not consumed, modulo 65,536. -/
def usedSlots (prod used : BitVec 16) : Nat := (prod - used).toNat

/-- An entry of the event ring written (R458). -/
def State.putEvent (s : State) (i code cls die : Nat) (data : Bytes) : State :=
  let r := s.ring i
  let c := r.evtProd.toNat
  let bs := leBytes 2 code ++ leBytes 1 cls ++ leBytes 1 (phaseOf c r.evtLog2) ++ leBytes 6 s.tick.count.toNat
    ++ leBytes 2 (die % 32 + 256 * (s.member % 16)) ++ sliceBytes data 0 20
  let s := s.writeCarve r.owner (r.evtBase + 32 * (c % 2 ^ r.evtLog2)) bs
  s.setRing i { r with evtProd := r.evtProd + 1 }

/-- The event ring of a set has a free entry. -/
def RingSet.evtFree (r : RingSet) : Bool := decide (usedSlots r.evtProd r.evtUsed < 2 ^ r.evtLog2)

/-- EVENTS_LOST is written first when entries are free again (R466). -/
def State.flushLost (s : State) (i : Nat) : State :=
  let r := s.ring i
  if r.enabled && decide (0 < r.lostSince) && r.evtFree then
    let s := s.putEvent i 0x0E 3 26 (leBytes 2 (min r.lostSince 0xFFFF))
    (s.setRing i { s.ring i with lostSince := 0 }).writeIndices i
  else s

/-- An event for one set (R465, R466). -/
def State.postTo (s : State) (code cls die : Nat) (data : Bytes) (i : Nat) : State :=
  let r := s.ring i
  if r.enabled && r.mask.getLsbD cls then
    let s := s.flushLost i
    let r := s.ring i
    if r.evtFree then (s.putEvent i code cls die data).writeIndices i
    else
      let s := s.setRing i { r with evtLost := satAdd 0xFFFF r.evtLost 1, lostSince := r.lostSince + 1 }
      { s with rings := { s.rings with fwEvt := setBit s.rings.fwEvt 4 } }.writeIndices i
  else s

/-- EVENT_POST (R465): the event goes to every enabled set whose mask includes its class. -/
def State.post (s : State) (code cls die : Nat) (data : Bytes) : State :=
  (List.range 16).foldl (fun s i => s.postTo code cls die data i) s

/-- The package raises a package fault: its stamps carry FAULT (R421), and PACKAGE_FAULT is posted with its cause (R465). -/
def State.packageFault (s : State) (cause : Nat) : State :=
  ({ s with grp := { s.grp with fault := true } }).post 0x02 4 26 (leBytes 1 cause)

/-- PATCH_END (R465): 0 applied, 1 refused, 2 rolled back. -/
def State.patchEnd (s : State) (v : Nat) : State :=
  s.post 0x06 1 26 (leBytes 1 v ++ leBytes 4 (match s.alm with | some a => a.patchEpoch.toNat | none => s.grp.record.patchEpoch.toNat))

/-- A staged patch is discarded as refused (R198, R399, R532). -/
def State.refusePatch (s : State) : State :=
  if s.tick.patch.isNone then s
  else ({ s with tick := { s.tick with patch := none, event := setBit s.tick.event 7 } }).patchEnd 1

/-- A bound of R455 was hit (R456). -/
def State.boundHit (s : State) (bound : Nat) : State :=
  ({ s with rings := { s.rings with fwEvt := setBit s.rings.fwEvt 0 } }).post 0x0B 3 26 (leBytes 1 bound)

/-- Free completion slots that no taken command has reserved (R461, R588). -/
def RingSet.cplFree (r : RingSet) : Nat := 2 ^ r.cplLog2 - usedSlots r.cplProd r.cplUsed - r.reserved

/-- A completion entry written (R458). -/
def State.putCompletion (s : State) (i : Nat) (tag : W32) (opcode status : Nat) (result : Bytes) (fin : Bool) (tick : W48) : State :=
  let r := s.ring i
  let c := r.cplProd.toNat
  let bs := leBytes 4 tag.toNat ++ leBytes 2 opcode ++ leBytes 2 status ++ sliceBytes result 0 16 ++ leBytes 6 tick.toNat
    ++ leBytes 2 (phaseOf c r.cplLog2 + if fin then 2 else 0)
  let s := s.writeCarve r.owner (r.cplBase + 32 * (c % 2 ^ r.cplLog2)) bs
  (s.setRing i { r with cplProd := r.cplProd + 1 }).writeIndices i

/-- The queue of a command's handling processor (R463): 0 scheduler, 1 security, 2 power, 3 ring engine. -/
def queueOf (opcode : Nat) : Nat :=
  if opcode = 1 then 3 else if opcode = 0x70 then 2
  else if opcode = 0x50 ∨ opcode = 0x60 ∨ opcode = 0x61 ∨ opcode = 0x62 then 1 else 0

/-- A processor runs its queue in order (R461): a queued command can begin once every command before it has; one that no ring brought waits for none. -/
def State.turn (s : State) (h : HostCmd) (opcode : Nat) : Bool :=
  let q := nth [] s.rings.queues (queueOf opcode)
  let e : QCmd := ⟨h.set.val, h.tag, opcode⟩
  !q.contains e || (q.takeWhile (· != e)).all s.rings.begun.contains

/-- A queued command has begun and completes later. -/
def State.begins (s : State) (h : HostCmd) (opcode : Nat) : State :=
  let e : QCmd := ⟨h.set.val, h.tag, opcode⟩
  if (nth [] s.rings.queues (queueOf opcode)).contains e then { s with rings := { s.rings with begun := s.rings.begun ++ [e] } } else s

/-- A command completes: its queue entry goes, the slot it reserved is used (R461). A command that the ring engine had not taken completes
only into an enabled set with a free slot. -/
def State.completeCmd (s : State) (h : HostCmd) (opcode status : Nat) (result : Bytes) : State :=
  let i := h.set.val
  let q := nth [] s.rings.queues (queueOf opcode)
  let e : QCmd := ⟨i, h.tag, opcode⟩
  let r := s.ring i
  if e ∈ q then
    let s := { s with rings := { s.rings with queues := s.rings.queues.set (queueOf opcode) (q.erase e), begun := s.rings.begun.erase e } }
    (s.setRing i { r with reserved := r.reserved - 1 }).putCompletion i h.tag opcode status result false s.tick.count
  else if r.enabled && decide (0 < r.cplFree) then s.putCompletion i h.tag opcode status result false s.tick.count
  else s

end Sys2Proof.Machine
end

