-- ==== Sys2Proof/Machine/AlmForm.lean ====
section
/-! DEFINITION. The bytes of an almanac (R190 to R193, R589), and the almanacs of a group as a member knows them. -/
namespace Sys2Proof.Machine

/-- A slot record (R192). -/
def slotOf (bs : Bytes) : SlotRec :=
  { entry := leAt bs 0 4, cycles := leAt bs 4 2, passes := leAt bs 6 2, decLanes := leAt bs 8 1 % 16, preLanes := leAt bs 8 1 / 16
    stageMask := leAt bs 9 1, seamFlits := leAt bs 10 2, routeFirst := leAt bs 12 2, routeCnt := leAt bs 14 1, recipe := leAt bs 15 1
    attnReq := leAt bs 16 2, kvWrites := leAt bs 18 2 }

/-- A route entry (R193). -/
def routeOf (bs : Bytes) : RouteEnt :=
  { kind := leAt bs 0 1 % 16, form := leAt bs 0 1 / 16, destMember := leAt bs 1 1 % 16, destDie := leAt bs 2 1, destUnit := leAt bs 3 1
    bankBase := leAt bs 4 4, bankStride := leAt bs 8 4, partials := leAt bs 12 2, shareClass := leAt bs 14 1 % 64 }

/-- A core table entry with its slot records (R191). -/
def coreEntOf (raw bs : Bytes) (slots : Nat) : CoreEnt :=
  { core := leAt bs 0 1 % 128, entry := leAt bs 0 1 / 128 == 1, layers := leAt bs 1 1, recipeTab := leAt bs 2 2
    progBase := leAt bs 8 4, progLen := leAt bs 12 4
    slots := (List.range slots).map fun i => slotOf (sliceBytes raw (leAt bs 4 4 + 32 * i) 32) }

/-- An entry of the attention depth table (R589). -/
def depthOf (bs : Bytes) : DepthEnt :=
  { slot := leAt bs 0 2 % 2 ^ 12, layer := leAt bs 2 2 % 2 ^ 10, member := leAt bs 4 1 % 16
    die := ⟨leAt bs 4 1 / 16 % 2, by omega⟩, depth := leAt bs 5 2 % 2 ^ 10 }

/-- The 16-byte core table entry i. -/
def coreBytes (raw : Bytes) (i : Nat) : Bytes := sliceBytes raw (leAt raw 36 4 + 16 * i) 16

/-- An almanac from its bytes (R190 to R193, R589). -/
def almOf (raw : Bytes) : Almanac :=
  { slots := leAt raw 6 2, ident := BitVec.ofNat 64 (leAt raw 8 8), period := leAt raw 16 2, guardSteps := leAt raw 18 1
    reserve := leAt raw 19 1, stages := leAt raw 20 1 % 16, mode := leAt raw 20 1 / 16 % 4, member := leAt raw 46 1 % 16
    patchEpoch := BitVec.ofNat 32 (leAt raw 48 4)
    cores := (List.range (leAt raw 22 2)).map fun i => coreEntOf raw (coreBytes raw i) (leAt raw 6 2)
    routes := (List.range (leAt raw 44 2)).map fun i => routeOf (sliceBytes raw (leAt raw 40 4 + 16 * i) 16)
    depths := (List.range (leAt raw 56 2)).map fun i => depthOf (sliceBytes raw (leAt raw 52 4 + 8 * i) 8)
    raw := raw }

/-- The almanacs of the group, the own one first: those of the other members are free (log 17). -/
def State.memberAlms (s : State) : List (Nat × Almanac) :=
  match s.alm with
  | none => []
  | some a => (s.member, a) :: (if s.grp.state == .spare then [] else
      ((List.range s.grp.record.members).filter (· != s.member)).map fun m => (m, almOf (Config.peerAlmanac m a.patchEpoch.toNat)))

/-- The almanac that holds the entry core of the group, with its member (R195). -/
def State.entryAlm (s : State) : Option (Nat × Almanac) := s.memberAlms.find? fun x => x.2.cores.any CoreEnt.entry

/-- The serving member: the one that DEST_MEMBER of the group's KIND 3 routes names (R338); this package if there is none. -/
def State.servingMember (s : State) : Nat :=
  (s.memberAlms.findSome? fun x => (x.2.routes.find? fun r => r.kind == 3).map RouteEnt.destMember).getD s.member

end Sys2Proof.Machine
end

