-- ==== Sys2Proof/Machine/Accum.lean ====
section
/-! DEFINITION. Long accumulators: entries (R228), contributions (R109), sums (R256), the final rounding (R119, R122). -/
namespace Sys2Proof.Machine

/-- A long accumulator (R107, R228). -/
structure Acc where
  s : Int
  a : Int
  rows : Nat
  nan : Bool
  unf : Bool
  ovf : Bool
  anchored : Bool
deriving DecidableEq, Repr

/-- The 32 bytes of an entry read as an accumulator; S and A of an unanchored entry read as 0 (R228). -/
def accOf (v : BitVec 256) : Acc :=
  let n := v.toNat
  let anch := field n 171 171 == 1
  { s := if anch then sext 128 (field n 127 0) else 0
    a := if anch then sext 16 (field n 143 128) else 0
    rows := field n 167 144
    nan := field n 168 168 == 1
    unf := field n 169 169 == 1
    ovf := field n 170 170 == 1
    anchored := anch }

/-- The 32 bytes of an accumulator (R228). -/
def Acc.bits (x : Acc) : BitVec 256 :=
  BitVec.ofNat 256 (toBits 128 x.s + toBits 16 x.a * 2 ^ 128 + x.rows % 2 ^ 24 * 2 ^ 144 + (if x.nan then 2 ^ 168 else 0)
    + (if x.unf then 2 ^ 169 else 0) + (if x.ovf then 2 ^ 170 else 0) + (if x.anchored then 2 ^ 171 else 0))

/-- Largest and smallest S (R109). -/
def satS (pos : Bool) : Int := if pos then 2 ^ 127 - 1 else -(2 ^ 127 : Int)

/-- An accumulator without an anchor takes one (R108). -/
def Acc.anchor (x : Acc) (a : Int) : Acc := if x.anchored then x else { x with s := 0, a := a, anchored := true }

/-- S with an amount added; a sum outside 128 bits saturates and sets OVF, as in R256 and R293 (DEDUCED, log 8). -/
def Acc.addS (x : Acc) (d : Int) : Acc :=
  let t := x.s + d
  if t < -(2 ^ 127 : Int) ∨ (2 ^ 127 : Int) ≤ t then { x with s := satS (decide (0 ≤ t)), ovf := true } else { x with s := t }

/-- P × 2^k for k < 0, rounded to the nearest integer, ties to even (R109). -/
def roundScaled (p k : Int) : Int :=
  let r : Int := roundShift p.natAbs (-k).toNat false
  if p < 0 then -r else r

/-- One contribution P × 2^e (R109). -/
def Acc.contrib (x : Acc) (p e : Int) : Acc :=
  if p = 0 then x
  else if x.a < e then
    if x.ovf then (if x.s = satS (decide (0 < p)) then x else { x with nan := true })
    else { x with ovf := true, s := satS (decide (0 < p)) }
  else if e < x.a - 96 then
    let x := { x with unf := true }
    if x.ovf then x else x.addS (roundScaled p (e - (x.a - 96)))
  else if x.ovf then x else x.addS (p * 2 ^ (e - (x.a - 96)).toNat)

/-- R119 and R122: the output code in a format, and whether OUTPUT_OVF occurred. -/
def Acc.output (f : FpFmt) (x : Acc) : Nat × Bool :=
  if x.nan then (f.nanCode, false)
  else if x.ovf then ((if x.s < 0 then 2 ^ (f.mb + f.eb) else 0) + f.maxFin, false)
  else if x.s = 0 then (0, false)
  else roundCode f (decide (x.s < 0)) x.s.natAbs (x.a - 96) false

/-- The sticky bits and the row count of two entries combined (R256). -/
def Acc.merge (x y : Acc) : Acc :=
  { x with nan := x.nan || y.nan, unf := x.unf || y.unf, ovf := x.ovf || y.ovf, rows := x.rows + y.rows }

/-- `accadd` of a source entry y into a destination entry x, under the first row of R256 that applies. -/
def Acc.add (x y : Acc) : Acc :=
  if !y.anchored then x.merge y
  else if !x.anchored then y.merge x
  else if x.ovf && y.ovf then
    let r := x.merge y
    if decide (x.s < 0) = decide (y.s < 0) then r else { r with nan := true }
  else if x.ovf then x.merge y
  else if y.ovf then { x.merge y with s := y.s }
  else if x.a = y.a then (x.merge y).addS y.s
  else if y.a < x.a then (x.merge y).contrib y.s (y.a - 96)
  else ({ x with s := y.s, a := y.a }.merge y).contrib x.s (x.a - 96)

end Sys2Proof.Machine
end

