-- ==== Sys2Proof/Machine/Sequencer.lean ====
section
/-! DEFINITION. The sequencer: fetching, the order rules of R232, the costs of R233, exceptions, and dispatch to the units. -/
namespace Sys2Proof.Machine

/-- What firing an instruction comes to: it is held, it halts with an exception, or it executes with a cost in cycles and, for a
transfer of control, a next PC. -/
inductive Fire where
  | hold
  | halt (code : Nat) (s : State)
  | go (s : State) (cost : Nat) (next : Option W64)
deriving DecidableEq, Repr

/-- The registers an instruction reads or writes besides its guard (R232). -/
structure Deps where
  ss : List SReg
  ts : List TReg
  ps : List PReg
deriving DecidableEq, Repr

/-- Registers of each Aithal instruction (R249 to R270). -/
def depsOf : Instr → Deps
  | .br _ _ ra _ _ => ⟨[ra], [], []⟩
  | .rds _ _ rd _ => ⟨[rd], [], []⟩
  | .waitd _ _ ta => ⟨[], [ta], []⟩
  | .add _ _ rd ra rb _ | .sub _ _ rd ra rb _ | .mul _ _ rd ra rb _ | .divu _ _ rd ra rb _ | .remu _ _ rd ra rb _
  | .divs _ _ rd ra rb _ | .rems _ _ rd ra rb _ | .and _ _ rd ra rb _ | .or _ _ rd ra rb _ | .xor _ _ rd ra rb _
  | .shl _ _ rd ra rb _ | .shr _ _ rd ra rb _ | .sra _ _ rd ra rb _ | .min _ _ rd ra rb _ | .max _ _ rd ra rb _ =>
    ⟨[rd, ra, rb], [], []⟩
  | .movhi _ _ rd ra _ | .ld _ _ rd ra _ | .ldw _ _ rd ra _ => ⟨[rd, ra], [], []⟩
  | .st _ _ rb ra _ | .stw _ _ rb ra _ => ⟨[rb, ra], [], []⟩
  | .ldd _ _ td ra _ => ⟨[ra], [td], []⟩
  | .std _ _ tb ra _ => ⟨[ra], [tb], []⟩
  | .ldx _ _ rd ta _ => ⟨[rd], [ta], []⟩
  | .dset _ _ td _ ra _ => ⟨[ra], [td], []⟩
  | .pcmp _ _ pd _ ra rb _ => ⟨[ra, rb], [], [pd]⟩
  | .pand _ _ pd pa pb | .por _ _ pd pa pb | .pxor _ _ pd pa pb => ⟨[], [], [pd, pa, pb]⟩
  | .pnot _ _ pd pa => ⟨[], [], [pd, pa]⟩
  | .pset _ _ pd _ | .tst _ _ pd _ => ⟨[], [], [pd]⟩
  | .rdst _ _ rd => ⟨[rd], [], []⟩
  | .mvm _ _ o _ => ⟨[o.sx], [o.tacc, o.tact], []⟩
  | .mvs _ _ td ta sa _ => ⟨[sa], [td, ta], []⟩
  | .accclr _ _ td => ⟨[], [td], []⟩
  | .accrd _ _ td ta _ | .accst _ _ td ta | .accld _ _ td ta | .accadd _ _ td ta => ⟨[], [td, ta], []⟩
  | .qnt _ _ td ta sa _ | .vscl _ _ td ta sa => ⟨[sa], [td, ta], []⟩
  | .vadd _ _ td ta tb | .vsub _ _ td ta tb | .vmul _ _ td ta tb | .vfma _ _ td ta tb | .vmax _ _ td ta tb
  | .vmin _ _ td ta tb | .mgath _ _ td ta tb => ⟨[], [td, ta, tb], []⟩
  | .vnorm _ _ td ta tb _ => ⟨[], [td, ta, tb], []⟩
  | .vrope _ _ td ta tb sa => ⟨[sa], [td, ta, tb], []⟩
  | .vcvt _ _ td ta | .vsum _ _ td ta | .vmaxr _ _ td ta | .vexp _ _ td ta | .vrcp _ _ td ta | .vrsqrt _ _ td ta
  | .vsilu _ _ td ta | .vgelu _ _ td ta | .vtanh _ _ td ta | .vsigm _ _ td ta | .mov _ _ td ta => ⟨[], [td, ta], []⟩
  | .mfill _ _ td sa => ⟨[sa], [td], []⟩
  | .send _ _ ta _ sa | .red _ _ ta _ sa _ | .samp _ _ ta _ sa => ⟨[sa], [ta], []⟩
  | .attn _ _ ta tb _ sa _ | .kvw _ _ ta tb _ sa _ => ⟨[sa], [ta, tb], []⟩
  | .gfence _ _ sa pd => ⟨[sa], [], [pd]⟩
  | _ => ⟨[], [], []⟩

/-- The command as the word gives it: an `mvm` without the row-read faults that the surroundings bring. -/
def asWord : Instr → Instr
  | .mvm c g o _ => .mvm c g o []
  | i => i

/-- The PC names an instruction of the program region (R229, R236). -/
def Core.inProgram (k : Core) (pc : W64) : Bool :=
  decide (k.progLo ≤ pc.toNat ∧ pc.toNat + 8 ≤ k.progHi ∧ pc.toNat % 8 = 0)

/-- The word at the PC (R229). -/
def Core.fetch (k : Core) : W64 := BitVec.ofNat 64 (readNat k.store k.pc.toNat 8)

/-- The core forms its one exception record of a slot (R240, R244). -/
def Core.record (k : Core) (code : Nat) (pc : W64) (tick : W48) : Core :=
  if k.exc0.getLsbD 31 then { k with exc0 := setBit k.exc0 30, excSeen := true }
  else if k.excSeen then k
  else { k with
    excSeen := true
    exc0 := BitVec.ofNat 32 (2 ^ 31 + code * 2 ^ 19 + ((pc.toNat - k.progLo) / 8) % 2 ^ 19)
    exc1 := BitVec.ofNat 32 (tick.toNat % 2 ^ 16 + k.slot % 2 ^ 12 * 2 ^ 16) }

/-- Loss cause of a halting exception (R236). -/
def haltCause (code : Nat) : Nat := if code = xWord then 5 else if code = xLadder then 3 else 2

/-- The core sends nothing further (R172, R238): its flits that are not injected by the cycle it has reached stay unsent; those already injected go on (R272). -/
def State.quiet (s : State) (c : CoreId) : State :=
  let t := (s.core c).cyc
  { s with flits := s.flits.filter fun f => !(f.src == 1000 * s.member + c.val && match f.inj with | some i => decide (t < i) | none => false) }

/-- R238: the halt response. The slot program stops, the core sends nothing further, the exception is recorded, a loss notice
formed and HALT posted. -/
def haltCore (c : CoreId) (code : Nat) (pc : W64) (s : State) : State :=
  let s := s.modCore c fun k =>
    { (k.record code pc s.tick.count) with run := false, halted := true }
  let s := (s.quiet c).lose (haltCause code) (dieOf c).val
  s.post 0x01 4 (dieOf c).val
    (leBytes 1 c.val ++ leBytes 1 code ++ leBytes 2 (s.core c).slot ++ leBytes 2 (s.tick.count.toNat % 2 ^ 16))

/-- R172: the core overruns with a loss cause. -/
def overrun (c : CoreId) (cause : Nat) (s : State) : State :=
  let s := (s.modCore c fun k => { k with run := false }).quiet c
  let s := { s with tick := { s.tick with event := setBit s.tick.event 0 } }
  s.lose cause (dieOf c).val

/-- R237: the continue response, for K_LIMIT: EXC_CONT and the STATUS bit, and the record. -/
def continueExc (c : CoreId) (s : State) : State :=
  s.modCore c fun k => ((k.flag stKLimit).flag stExcCont).record xKLimit k.pc s.tick.count

/-- A register is the destination of an instruction in flight (R232). -/
def Core.pendingReg (k : Core) (d : Deps) : Bool :=
  k.inflight.any fun u =>
    (match u.sdest with | some r => d.ss.contains r && r.val != 0 | none => false) ||
    (match u.pdest with | some r => d.ps.contains r && r.val != 0 | none => false)

/-- The first cycle at which the registers are all usable (R233). -/
def Core.regsReady (k : Core) (d : Deps) : Nat :=
  let f (m : SMap Nat) (t : Nat) (r : Nat) := max t (smGet (fun _ => 0) m r)
  let t := d.ss.foldl (fun t r => f k.sReady t r.val) k.cyc
  let t := d.ts.foldl (fun t r => f k.tReady t r.val) t
  d.ps.foldl (fun t r => f k.pReady t r.val) t

/-- A scalar result usable from cycle n. -/
def Core.readyS (k : Core) (r : SReg) (n : Nat) : Core := { k with sReady := smSet (fun _ => 0) k.sReady r.val n }
/-- A descriptor result usable from cycle n. -/
def Core.readyT (k : Core) (r : TReg) (n : Nat) : Core := { k with tReady := smSet (fun _ => 0) k.tReady r.val n }
/-- A predicate result usable from cycle n. -/
def Core.readyP (k : Core) (r : PReg) (n : Nat) : Core := { k with pReady := smSet (fun _ => 0) k.pReady r.val n }

/-- The PC and the cycle after an instruction that fired in cycle t. -/
def Core.advance (k : Core) (next : W64) (n : Nat) : Core := { k with pc := next, cyc := n }

/-- The extents of memory that an instruction reads or writes (R226, R232, R251). -/
def Core.memExtents (k : Core) (n : W48) : Instr → List Extent
  | .ld _ _ _ ra imm | .st _ _ _ ra imm => [⟨false, k.addr ra imm, k.addr ra imm + 8⟩]
  | .ldw _ _ _ ra imm | .stw _ _ _ ra imm => [⟨false, k.addr ra imm, k.addr ra imm + 4⟩]
  | .ldd _ _ _ ra imm | .std _ _ _ ra imm => [⟨false, k.addr ra imm, k.addr ra imm + 16⟩]
  | .ldx _ _ _ ta imm => let a := (descOf (k.treg ta)).lo n + imm.toNat; [⟨false, a, a + 8⟩]
  | .dset .. => []
  | i => (depsOf i).ts.map fun r => (descOf (k.treg r)).extent n

/-- The first cycle, from t on, at which the stores before an instruction are usable to it (R232, R233). -/
def Core.memReady (k : Core) (n : W48) (i : Instr) (t : Nat) : Nat :=
  (k.stored.filter fun e => (k.memExtents n i).any e.1.overlaps).foldl (fun t e => max t e.2) t

/-- The cycle in which an instruction with a guard can fire, as far as registers and stores go (R232, R233). -/
def Core.fireCycle (k : Core) (n : W48) (i : Instr) (g : Guard) : Nat :=
  k.memReady n i (max (k.regsReady ⟨[], [], [g.pred]⟩) (k.regsReady (depsOf i)))

/-- The sequencer fires instruction i on core c (R207 to R211, R232, R233). It acts only while the core's slot program runs and the
word at the PC is this instruction; an instruction that must wait, or that would fire at or after DLN (R209), changes nothing. DESIGN CHOICE (log 38):
a FETCH record of R240 holds the PC that has left the region, its word index counted from PROG_BASE and 0 below it; R244 does not say. -/
def fire (c : CoreId) (i : Instr) (g : Guard) (body : Nat → State → Fire) (s : State) : State :=
  let k := s.core c
  if !k.run || s.tick.phase != .work then s
  else if !k.inProgram k.pc then haltCore c xFetch k.pc s
  else if k.badRange k.pc.toNat (k.pc.toNat + 8) then haltCore c xWord k.pc s
  else match decodeAithal c k.fetch with
    | none => haltCore c xIllegal k.pc s
    | some j =>
      if j ≠ asWord i then s
      else
        let gd : Deps := ⟨[], [], [g.pred]⟩
        let t := k.regsReady gd
        if k.pendingReg gd || decide (s.dln c ≤ t) then s
        else if !k.enabled g then s.modCore c fun k => k.advance (k.pc + 8) (t + 1)
        else
          let t := k.fireCycle s.tick.seq i g
          if k.pendingReg (depsOf i) || decide (s.dln c ≤ t) then s
          else match body t s with
            | .hold => s
            | .halt code s' => haltCore c code k.pc (s'.modCore c fun k' => k'.advance k'.pc t)
            | .go s' cost next => s'.modCore c fun k' => k'.advance (next.getD (k.pc + 8)) (t + cost)

/-- A body that changes the core alone: cost 1, next instruction follows. -/
def onCore (c : CoreId) (f : Core → Core) (s : State) : Fire := .go (s.modCore c f) 1 none

/-- In-flight limit of a unit (R207). -/
def unitLimit : UnitKind → Nat
  | .array => 8 | .quant => 1 | .vector => 2 | .move => 2 | .net => 8 | .serve => 16

/-- A unit cannot take a further instruction, or one of the extents or arrays must wait for one in flight (R207, R232). -/
def Core.busy (k : Core) (u : UnitKind) (reads writes : List Extent) (arrs : List Nat) : Bool :=
  decide (unitLimit u ≤ (k.inflight.filter fun e => e.unit = u).length) ||
  k.inflight.any fun e =>
    (e.writes.any fun x => (reads ++ writes).any x.overlaps) || (e.reads.any fun x => writes.any x.overlaps) ||
    e.arrays.any arrs.contains

/-- An instruction handed to a unit (R207). -/
def Core.dispatch (k : Core) (u : UnitKind) (done : Option Nat) (reads writes : List Extent) (sd : Option SReg)
    (pd : Option PReg) (arrs : List Nat) (iss : Option Issue) (fl : W32) : Core :=
  { k with
    nextId := k.nextId + 1
    inflight := k.inflight ++ [⟨k.nextId, u, done, reads, writes, sd, pd, arrs, k.pc, iss, fl⟩] }

/-- `act` on a core, with the STATUS bits that it sets kept apart: they become visible when the instruction completes (R214, R252). -/
def Core.collect (k : Core) (act : Core → Core) : Core × W32 :=
  let r := act { k with status := 0 }
  ({ r with status := k.status, numStat := k.numStat }, r.status)

/-- STATUS bits of a completed instruction, and the same conditions in ARR_NUM_STAT (R214). -/
def Core.showFlags (k : Core) (fl : W32) : Core := { k with status := k.status ||| fl, numStat := k.numStat ||| (fl &&& 0x3FF#32) }

/-- An instruction in flight sets a STATUS bit, visible when it completes (R214). -/
def Core.pend (k : Core) (id i : Nat) : Core :=
  { k with inflight := k.inflight.map fun u => if u.id = id then { u with flags := setBit u.flags i } else u }

/-- `pend` under a condition. -/
def Core.pendIf (k : Core) (b : Bool) (id i : Nat) : Core := if b then k.pend id i else k

/-- The extents of operands that are read and of operands that are written. -/
def extentsOf (n : W48) (ds : List Desc) : List Extent := ds.map fun d => d.extent n

/-- The first exception over a list of operand checks. -/
def firstExc (l : List (Option Nat)) : Option Nat := l.findSome? id

/-- A unit instruction whose operands are read (`rd`, with the formats they accept) and written (`wr`): the checks of R226 in the order
given, then a further check of the instruction, the waits of R207, R222 and R232, and `act` with the cycle it fires in. DESIGN CHOICE (log 38): an
operand exception of R236, WORD among them, is raised as soon as the operands are known, before those waits end. -/
def unitOp (c : CoreId) (u : UnitKind) (rd wr : List (Desc × List Nat)) (bad : Option Nat) (t ut : Nat) (sd : Option SReg)
    (act : Core → Core) (s : State) : Fire :=
  let k := s.core c
  let n := s.tick.seq
  let errs := rd.map (fun p => k.checkDesc n p.1 p.2 true false) ++ wr.map (fun p => k.checkDesc n p.1 p.2 false true)
  match firstExc (errs ++ [bad]) with
  | some x => .halt x s
  | none =>
    let re := extentsOf n (rd.map Prod.fst)
    let we := extentsOf n (wr.map Prod.fst)
    if k.busy u re we [] || !(rd.all fun p => k.ready2 n p.1) then .hold
    else
      let r := k.collect act
      .go (s.setCore c (r.1.dispatch u (some (t + ut - 1)) re we sd none [] none r.2)) 1 none

/-- A unit instruction completes at the end of its cycle (R247): its place is free, its STATUS bits are visible, and the sequencer goes on after it at
the earliest. -/
def Core.complete (k : Core) (u : UnitInst) (d : Nat) : Core :=
  { k.showFlags u.flags with inflight := k.inflight.filter (fun e => e.id != u.id), cyc := max k.cyc (d + 1) }

end Sys2Proof.Machine
end

