-- ==== Sys2Proof/Machine/Arrays.lean ====
section
/-! DEFINITION. Arrays and exact readout: cells and maps, scales, passes and their plan, contributions, verdicts (chapters 2 and 3). -/
namespace Sys2Proof

/-- Rows of a row range (R230). -/
def Tile.rows (t : Tile) : Nat := 64 * (t.rowhi.toNat + 1 - t.rowlo.toNat)
/-- First row of a row range (R230). -/
def Tile.first (t : Tile) : Nat := 64 * t.rowlo.toNat
/-- Arrays along K. -/
def Tile.kspan (t : Tile) : Nat := t.kspanM1.toNat + 1
/-- Arrays along the output columns. -/
def Tile.nspan (t : Tile) : Nat := t.nspanM1.toNat + 1
/-- Logical array of tile position (k, c) (R230). -/
def Tile.array (t : Tile) (k c : Nat) : Nat := t.abase.toNat + c * t.kspan + k
/-- All logical arrays of a tile. -/
def Tile.arrays (t : Tile) : List Nat := (List.range (t.kspan * t.nspan)).map (t.abase.toNat + ·)
/-- K position of a logical array of the tile. -/
def Tile.kOf (t : Tile) (a : Nat) : Nat := (a - t.abase.toNat) % t.kspan

/-- Index of the activation element that drives row r of K-array k (R230). -/
def Tile.elem (t : Tile) (k r : Nat) : Nat := k * t.rows + (r - t.first)

/-- Row r lies in the row range. -/
def Tile.inRange (t : Tile) (r : Nat) : Bool := decide (t.first ≤ r ∧ r < t.first + t.rows)

/-- Block b of K-array k lies in the row range and holds activation elements (n in all) (R103, R105). -/
def Tile.active (t : Tile) (n k b : Nat) : Bool := t.inRange (32 * b) && decide (t.elem k (32 * b) < n)

end Sys2Proof

namespace Sys2Proof.Machine

/-- Array info of physical array p of a core. -/
def Core.arr (k : Core) (p : Nat) : ArrayInfo := smGet arrayDefault k.arrays p
/-- Array info replaced. -/
def Core.setArr (k : Core) (p : Nat) (x : ArrayInfo) : Core := { k with arrays := smSet arrayDefault k.arrays p x }
/-- Array info changed. -/
def Core.modArr (k : Core) (p : Nat) (f : ArrayInfo → ArrayInfo) : Core := k.setArr p (f (k.arr p))

/-- The array map as the fuse table gives it (R23): a logical number maps to itself or to its fused replacement. -/
def State.fusedMap (s : State) (c : CoreId) (a : Nat) : Nat :=
  match s.fuses.spares.find? (fun r => r.1 == c.val && r.2.1 == a) with
  | some r => r.2.2
  | none => a

/-- The physical array that serves logical array a (R21). -/
def State.phys (s : State) (c : CoreId) (a : Nat) : Nat := smGet (s.fusedMap c) (s.core c).arrayMap a

/-- The logical array that physical array p serves, if any (LOGICAL of R159). -/
def State.logicalOf (s : State) (c : CoreId) (p : Nat) : Option Nat :=
  match (s.core c).arrayMap.find? (fun e => e.2 == p) with
  | some e => some e.1
  | none =>
    match s.fuses.spares.find? (fun r => r.1 == c.val && r.2.2 == p) with
    | some r => if s.phys c r.2.1 = p then some r.2.1 else none
    | none => if p < 4096 ∧ s.phys c p = p then some p else none

/-- The array quarter of a physical array (R21, R22). -/
def quarterOf (p : Nat) : Nat := if p < 4096 then p / 1024 else (p - 4096) / 32

/-- A fused-out array: replaced at test (R23). -/
def State.fusedOut (s : State) (c : CoreId) (p : Nat) : Bool :=
  s.fuses.spares.any fun r => r.1 == c.val && r.2.1 == p

/-- The grade recorded for an array: the one that takes force at the next eve, else the one in force (R135). -/
def ArrayInfo.recorded (x : ArrayInfo) : Grade := x.nextGrade.getD x.grade

/-- Physical array p is a free spare (FREE of R159): it serves nothing, takes part in no holiday, is neither retired nor defective. -/
def State.isFree (s : State) (c : CoreId) (p : Nat) : Bool :=
  let k := s.core c
  decide (p < 4224) && (s.logicalOf c p).isNone && !s.fusedOut c p && (k.arr p).recorded != .d && !(k.arr p).dead &&
  !(k.holidays.any fun h => h.orig == p || h.spare == p) && !(k.mapNext.any fun m => m.2 == p)

/-- The free spare of a quarter with the lowest number (DESIGN CHOICE, log 66: R146 says a spare, not which). -/
def State.freeSpare (s : State) (c : CoreId) (q : Nat) : Option Nat :=
  (List.range 4224).find? fun p => quarterOf p == q && s.isFree c p

/-- The physical row of a data or scale row under the row map (R75). -/
def ArrayInfo.physRow (x : ArrayInfo) (r : Nat) : Nat :=
  match x.rowMap.find? (fun e => e.1 == r) with
  | some e => e.2
  | none => r

/-- The physical column of a data or check column under the column map (R76). -/
def ArrayInfo.physCol (x : ArrayInfo) (c : Nat) : Nat :=
  match x.colMap.find? (fun e => e.1 == c) with
  | some e => e.2
  | none => c

/-- The 1,344 cells of a physical row, with the sentinel patterns of R129. The check columns of the ones rows follow R129's all 1 and not the
0 of R45 (DESIGN CHOICE, log 66). -/
def ArrayInfo.cells (x : ArrayInfo) (row : Nat) : BitVec 1344 :=
  let ones := ~~~(0#1344)
  let sentCols : BitVec 1344 := (0xF#1344) <<< 1336
  if 1104 ≤ row ∧ row < 1112 then ones &&& ~~~((0xF0#1344) <<< 1336)
  else if 1112 ≤ row then sentCols
  else (smGet (fun _ => 0) x.rows row &&& ~~~((0xFF#1344) <<< 1336)) ||| sentCols

/-- The cell of a logical row (data 0–1,023, scale 1,024–1,087) and a logical column, through both maps. -/
def ArrayInfo.cell (x : ArrayInfo) (row col : Nat) : Bool := (x.cells (x.physRow row)).getLsbD (x.physCol col)

/-- A weight of n bits from slice 0 upward at 5-column group g of a logical row. -/
def ArrayInfo.slices (x : ArrayInfo) (row g n : Nat) : Nat :=
  (List.range n).foldl (fun a i => a + if x.cell row (5 * g + i) then 2 ^ i else 0) 0

/-- Slices converted for a weight column (R44, R51). -/
def slicesOf (fp4 : Bool) : Nat := if fp4 then 5 else 4

/-- The stored value W′ of a weight (R44). -/
def ArrayInfo.stored (x : ArrayInfo) (fp4 : Bool) (row c : Nat) : Nat := x.slices row c (slicesOf fp4)

/-- The weight offset o (R105): 8 for INT4, 12 for FP4. -/
def offsetOf (fp4 : Bool) : Int := if fp4 then 12 else 8

/-- The E8M0 scale of block b, weight column c (R46). -/
def ArrayInfo.scale (x : ArrayInfo) (b c : Nat) : Nat :=
  x.slices (1024 + 2 * b) c 4 + 16 * x.slices (1025 + 2 * b) c 4

/-- The five bits of every weight column of a scale row have even parity (R46). -/
def ArrayInfo.parityOk (x : ArrayInfo) (row : Nat) : Bool :=
  (List.range 256).all fun c =>
    (List.range 5).foldl (fun (a : Bool) i => a != x.cell row (5 * c + i)) false == false

/-- Residue of check group h over one data row, as an integer: the 32 stored weights less the check word (R45, R57). -/
def ArrayInfo.rowResidue (x : ArrayInfo) (fp4 : Bool) (row h : Nat) : Int :=
  ((List.range 32).foldl (fun a i => a + x.stored fp4 row (32 * h + i)) 0 : Nat) - (x.slices row (256 + h) 5 : Nat)

/-- A row-read of a data row passes its check (R71). -/
def ArrayInfo.rowOk (x : ArrayInfo) (fp4 : Bool) (row : Nat) : Bool :=
  (List.range 8).all fun h => x.rowResidue fp4 row h % 31 == 0

/-- Rank of an effective mode (R525). -/
def modeRank : Mode → Nat
  | .reference => 0 | .standard => 2 | .brisk => 3

/-- The effective mode of a pass (R61): its rank, its largest row group, and whether it is twin. An array graded D that still serves until
its holiday hands over runs as one of grade C (DESIGN CHOICE, log 66: the table has no column for D). -/
def effective (m : Mode) (g : Grade) : Nat × Nat × Bool :=
  match m, g with
  | .reference, _ => (0, 32, true)
  | .standard, .a => (2, 128, false)
  | .standard, .b => (2, 128, false)
  | .brisk, .a => (3, 256, false)
  | .brisk, .b => (2, 128, false)
  | _, _ => (1, 32, false)

/-- The fixed size of a row-group policy (R230); `none` for auto. -/
def rgpSize : Rgp → Option Nat
  | .auto => none | .g16 => some 16 | .g32 => some 32 | .g64 => some 64 | .g128 => some 128 | .g256 => some 256

/-- The row-group size under R63. -/
def groupSize (m : Mode) (gr : Grade) (p : Rgp) : Nat :=
  let mx := (effective m gr).2.1
  match rgpSize p with
  | some g => if g ≤ mx then g else mx
  | none => mx

/-- Converter resolution b (R49): ceil(log2(g + 1)), for g a power of two. -/
def resolution (g : Nat) : Nat := Nat.log2 g + 1

/-- Cycles of a pass (R52), with `extra` settle cycles for the last retry (R68). -/
def passCycles (g e : Nat) (twin : Bool) (extra : Nat) : Nat := (if twin then 16 else 8) * (resolution g + 1) + 4 + e + extra

/-- Bit-planes of an activation width (R54). -/
def planes : ActW → Nat
  | .int4 => 4 | .fp4 => 5 | .int8 => 8

/-- Place value of plane p (R93). -/
def placeValue (aw : ActW) (p : Nat) : Int := if p + 1 = planes aw then -(2 ^ p : Int) else 2 ^ p

/-- f of R92 for an activation width. -/
def actF : ActW → Int
  | .int4 => 2 | .fp4 => 1 | .int8 => 6

/-- f of R92 for a weight. -/
def wgtF (fp4 : Bool) : Int := if fp4 then 1 else 2

/-- Unit exponent of a scale byte (R92). -/
def unitExp (e : Nat) (f : Int) : Int := (e : Int) - 127 - f

/-- The integer of an MX element code (R92). -/
def mxInt (aw : ActW) (code : Nat) : Int :=
  match aw with
  | .int4 => sext 4 code
  | .int8 => sext 8 code
  | .fp4 => match fpDecode e2m1 code with
    | .fin neg m e => fpInt neg m (e + 1) 0
    | _ => 0

/-- A layer directory entry (R388): first array, arrays along K, static channels, list offset, rows offset, columns. -/
structure LayerDir where
  abase : Nat
  kspan : Nat
  scnt : Nat
  slist : Nat
  srows : Nat
  cols : Nat
deriving DecidableEq, Repr

/-- Layer directory entry i of a core (R388). -/
def Core.layerDir (k : Core) (i : Nat) : LayerDir :=
  let b := k.constBase + 0x20_0000 + 16 * i
  { abase := field (readNat k.store b 2) 11 0, kspan := field (readNat k.store (b + 2) 1) 6 0,
    scnt := field (readNat k.store (b + 3) 1) 6 0, slist := readNat k.store (b + 4) 4,
    srows := readNat k.store (b + 8) 4, cols := readNat k.store (b + 12) 2 }

/-- The layer, by its recipe number, that owns a logical array (R388). -/
def Core.layerOf (k : Core) (layers a : Nat) : Option Nat :=
  (List.range layers).find? fun i =>
    let d := k.layerDir i
    decide (d.abase ≤ a ∧ a < d.abase + d.kspan * (d.cols / 256))

/-- Wtop of column j of a logical array, from the column top table (R108, R388). -/
def Core.wtop (k : Core) (a j : Nat) : Int := sext 16 (readNat k.store (k.constBase + 512 * a + 2 * j) 2)

/-- The fields of a recipe (R123). -/
structure Recipe where
  actFmt : Nat
  roundUp : Bool
  span : Nat
  dynEn : Bool
  fp32Out : Bool
  dynT : Nat
  mask : Nat
deriving DecidableEq, Repr

/-- Recipe i of a core, from its recipe table in the core store (R123, R191). -/
def Core.recipe (k : Core) (tab i : Nat) : Recipe :=
  let b := 16 * tab + 16 * i
  let b0 := readNat k.store b 1
  { actFmt := field b0 1 0, roundUp := field b0 2 2 == 1, span := 32 * 2 ^ field b0 4 3, dynEn := field b0 5 5 == 1,
    fp32Out := field b0 6 6 == 1, dynT := field (readNat k.store (b + 1) 1) 3 0, mask := readNat k.store (b + 8) 8 }

/-- Recipe RECIPE + RSEL of the slot record; `none` at or beyond LAYERS (R256, R258). -/
def State.slotRecipe (s : State) (c : CoreId) (rsel : Nat) : Option Recipe :=
  match s.coreEnt c, s.slotRec c with
  | some e, some r => if r.recipe + rsel < e.layers then some ((s.core c).recipe e.recipeTab (r.recipe + rsel)) else none
  | _, _ => none

/-- Static channel j of a layer: data row and K-array position (R388). -/
def Core.staticChan (k : Core) (d : LayerDir) (j : Nat) : Nat × Nat :=
  let b := k.constBase + d.slist + 4 * j
  (readNat k.store b 2, readNat k.store (b + 2) 1)

/-- The static channels that the recipe of the layer that owns a logical array enables: (j, row, K position in the layer), with the layer. -/
def State.staticOf (s : State) (c : CoreId) (a : Nat) : Option (LayerDir × List (Nat × Nat × Nat)) :=
  match s.coreEnt c with
  | none => none
  | some e =>
    let k := s.core c
    match k.layerOf e.layers a with
    | none => none
    | some i =>
      let d := k.layerDir i
      let rc := k.recipe e.recipeTab i
      some (d, ((List.range d.scnt).filter fun j => rc.mask.testBit j).map fun j =>
        let ch := k.staticChan d j
        (j, ch.1, ch.2))

/-- The K position in its layer of a logical array (R388). -/
def LayerDir.kpos (d : LayerDir) (a : Nat) : Nat := if d.kspan = 0 then 0 else (a - d.abase) % d.kspan

/-- The integer and exponent of a BF16 input (R115): signed significand and ex; `none` for NaN and infinities. -/
def bf16Parts (code : Nat) : Option (Int × Int) :=
  match fpDecode bf16 code with
  | .fin neg m e => some ((if neg then -(m : Int) else m), e)
  | _ => none

/-- The three parts of an MX record of row 0 of an operand (R227): elements, block scales, outlier list. -/
structure MxRow where
  codes : List Nat
  scales : List Nat
  status : List Nat
  outliers : List (Nat × Nat)
deriving DecidableEq, Repr

/-- The used entries of an outlier list of 16 (R96): those before the first whose value is ±0. -/
def usedOutliers (l : List (Nat × Nat)) : List (Nat × Nat) := l.takeWhile fun p => p.2 % 2 ^ 15 != 0

/-- Row j of an operand of format 3, 4 or 5, read from the core store (R96, R227). -/
def Core.mxRow (k : Core) (n : W48) (d : Desc) (j : Nat) : MxRow :=
  let a := d.rowAt n j
  let side := a + mxElems d.fmt d.len0
  let lst := side + mxSide d.len0
  { codes := (List.range d.len0).map fun i =>
      if d.fmt = 5 then readNat k.store (a + i) 1
      else (readNat k.store (a + i / 2) 1 >>> (4 * (i % 2))) % 16
    scales := (List.range (d.len0 / 32)).map fun b => readNat k.store (side + 2 * b) 1
    status := (List.range (d.len0 / 32)).map fun b => readNat k.store (side + 2 * b + 1) 1
    outliers := (List.range (ceilDiv d.len0 1024)).flatMap fun g =>
      usedOutliers ((List.range 16).map fun e =>
        (readNat k.store (lst + 64 * g + 4 * e) 2, readNat k.store (lst + 64 * g + 4 * e + 2) 2)) }

/-- What the planning of an issue needs of one array of its tile. -/
structure ArrPlan where
  array : Nat
  phys : Nat
  info : ArrayInfo
  fp4 : Bool
  g : Nat
  twin : Bool
  rank : Nat
deriving DecidableEq, Repr

/-- The array of a tile as it stands in this tick (R61 to R63). -/
def State.arrPlan (s : State) (c : CoreId) (m : Mode) (p : Rgp) (a : Nat) : ArrPlan :=
  let k := s.core c
  let ph := s.phys c a
  let x := k.arr ph
  let ef := effective m x.grade
  ⟨a, ph, x, smGet (fun _ => false) k.fp4 a, groupSize m x.grade p, ef.2.2, ef.1⟩

/-- Row groups of size g that meet the row range: their first rows (R47). -/
def groupsOf (t : Tile) (g : Nat) : List Nat :=
  ((List.range (1024 / g)).map (· * g)).filter fun lo => decide (lo < t.first + t.rows ∧ t.first < lo + g)

/-- Blocks of the rows lo to lo + g − 1. -/
def blocksOf (lo g : Nat) : List Nat := (List.range (ceilDiv g 32)).map (lo / 32 + ·)

/-- All elements of a list are equal. -/
def allSame {α : Type} [DecidableEq α] (l : List α) : Bool := match l with
  | [] => true
  | x :: t => t.all fun y => decide (y = x)

/-- Rows lo to lo + g − 1 are scale-uniform (R103). -/
def uniform (t : Tile) (n : Nat) (scales : List Nat) (p : ArrPlan) (lo g : Nat) : Bool :=
  let k := t.kOf p.array
  let bs := (blocksOf lo g).filter (t.active n k)
  allSame (bs.map fun b => nth 0 scales (t.elem k (32 * b) / 32)) &&
  ((List.range 256).all fun c => allSame (bs.map fun b => p.info.scale b c))

/-- A block's combined exponent for some column lies outside that column's window, or is NaN (R104). -/
def outside (t : Tile) (aw : ActW) (n : Nat) (scales : List Nat) (anchors : Nat → Int) (p : ArrPlan) (lo g : Nat) : Bool :=
  let k := t.kOf p.array
  ((blocksOf lo g).filter (t.active n k)).any fun b =>
    let sa := nth 0 scales (t.elem k (32 * b) / 32)
    (List.range 256).any fun c =>
      let sw := p.info.scale b c
      let e := unitExp sa (actF aw) + unitExp sw (wgtF p.fp4)
      sa == 255 || sw == 255 || decide (anchors c < e) || decide (e < anchors c - 96)

/-- Sub-group size of a row group (R103, R104): g itself, or the largest size down to 32 for which every sub-group is uniform. -/
def subSize (t : Tile) (aw : ActW) (n : Nat) (scales : List Nat) (anchors : Nat → Int) (p : ArrPlan) (lo : Nat) : Nat :=
  if p.g ≤ 32 then p.g
  else if outside t aw n scales anchors p lo p.g then 32
  else if uniform t n scales p lo p.g then p.g
  else match ([128, 64].filter (· < p.g)).find? (fun h =>
      (List.range (p.g / h)).all fun i => uniform t n scales p (lo + i * h) h) with
    | some h => h
    | none => 32

/-- The passes of one array in order (R54, R103): sub-groups that hold a row of the range, planes in order. -/
def planOf (t : Tile) (aw : ActW) (n : Nat) (scales : List Nat) (anchors : Nat → Int) (p : ArrPlan) : List PassId :=
  (groupsOf t p.g).flatMap fun lo =>
    let h := subSize t aw n scales anchors p lo
    ((List.range (p.g / h)).filter fun i => decide (lo + i * h < t.first + t.rows ∧ t.first < lo + i * h + h)).flatMap fun i =>
      (List.range (planes aw)).map fun pl => ⟨p.array, pl, lo + i * h, h, false⟩

/-- Row-reads that the captured outliers need in K-array k: data rows, and two scale rows of each block (R116, R117, R234). -/
def outlierReads (t : Tile) (outs : List (Nat × Nat)) (k : Nat) : List Nat × List Nat :=
  let rows := (outs.filter fun o => o.1 / t.rows == k).map fun o => t.first + o.1 % t.rows
  (rows, rows.foldl (fun l r => addNew l (r / 32)) [])

/-- O(a) of R234. -/
def outlierCycles (t : Tile) (outs : List (Nat × Nat)) (k : Nat) : Nat :=
  let r := outlierReads t outs k
  let m := r.1.length + 2 * r.2.length
  if m = 0 then 0 else m + 1

/-- T(a) of R234, with no splits. -/
def nominalTime (t : Tile) (aw : ActW) (e : Nat) (outs : List (Nat × Nat)) (p : ArrPlan) : Nat :=
  2 * ceilDiv p.g 32 + (groupsOf t p.g).length * planes aw * passCycles p.g e p.twin 0 + outlierCycles t outs (t.kOf p.array)

/-- Reads of an array's rows that fail this time: the transient faults of the command for rows in a range. -/
def transient (faults : List ReadFault) (a lo hi : Nat) : Nat :=
  (faults.filter fun f => f.array == a && decide (lo ≤ f.row ∧ f.row < hi)).foldl (fun m f => max m f.times) 0

/-- A scale row of blocks `bs` reads with bad parity for good (R46). -/
def ArrPlan.badScales (p : ArrPlan) (bs : List Nat) : Bool :=
  bs.any fun b => !(p.info.parityOk (1024 + 2 * b) && p.info.parityOk (1025 + 2 * b))

/-- How often the scale rows of blocks `bs` fail at a stretch when they are read: 0, 1, or 2 for a second failure (R53, R70). -/
def ArrPlan.blockFails (p : ArrPlan) (faults : List ReadFault) (bs : List Nat) : Nat :=
  if p.badScales bs then 2
  else bs.foldl (fun m b => max m (min 2 (transient faults p.array (1024 + 2 * b) (1026 + 2 * b)))) 0

/-- How often the scale reads of an array fail at a stretch: those of its row groups, and those of its captured outliers (R53, R70, R117). -/
def scaleFails (t : Tile) (faults : List ReadFault) (outs : List (Nat × Nat)) (p : ArrPlan) : Nat :=
  p.blockFails faults ((groupsOf t p.g).flatMap (blocksOf · p.g) ++ (outlierReads t outs (t.kOf p.array)).2)

/-- Re-read time of the scales of an array whose passes are `plan` (R53): a second read of the first row group's scale rows, one row per cycle; for
a later group, what the second read needs beyond the free cycles (b in each pass, R52) of the group before it. -/
def scaleAgain (t : Tile) (faults : List ReadFault) (p : ArrPlan) (plan : List PassId) : Nat :=
  let rows := 2 * ceilDiv p.g 32
  match groupsOf t p.g with
  | [] => 0
  | lo :: rest =>
    let first := if p.blockFails faults (blocksOf lo p.g) = 0 then 0 else rows
    rest.foldl (fun a l => if p.blockFails faults (blocksOf l p.g) = 0 then a
      else
        let free := (plan.filter fun q => decide (l - p.g ≤ q.lo ∧ q.lo < l)).foldl (fun f q => f + resolution q.g) 0
        a + (2 * rows - free)) first

/-- Repeated row-reads of the captured outliers in one array (R53, R70): a failing data row is read once more, the scale rows of a failing block both. -/
def outlierAgain (t : Tile) (faults : List ReadFault) (outs : List (Nat × Nat)) (p : ArrPlan) : Nat :=
  let r := outlierReads t outs (t.kOf p.array)
  (r.1.filter fun x => decide (0 < transient faults p.array x (x + 1))).length
    + 2 * (r.2.filter fun b => decide (p.blockFails faults [b] ≠ 0)).length

/-- How often an outlier's data row-read of an array fails at a stretch (R71, R118). -/
def rowFails (t : Tile) (faults : List ReadFault) (outs : List (Nat × Nat)) (p : ArrPlan) : Nat :=
  let rs := (outlierReads t outs (t.kOf p.array)).1
  if rs.any fun r => !p.info.rowOk p.fp4 r then 2
  else rs.foldl (fun m r => max m (min 2 (transient faults p.array r (r + 1)))) 0

/-- The contribution terms of one output column (R105, R106, R116): (P, e), or `none` for a NaN exponent. Delivered wrong counts add
their terms to the block they belong to. -/
def columnTerms (t : Tile) (aw : ActW) (acts : List Int) (scales : List Nat) (outs : List (Nat × Nat)) (errs : List ErrTerm)
    (arrs : List ArrPlan) (j : Nat) : List (Option (Int × Int)) :=
  arrs.flatMap fun p =>
    let k := t.kOf p.array
    let o := offsetOf p.fp4
    let blocks := (List.range 32).filter (t.active acts.length k)
    let main := blocks.map fun b =>
      let sa := nth 0 scales (t.elem k (32 * b) / 32)
      let sw := p.info.scale b j
      if sa == 255 || sw == 255 then none
      else
        let P := (List.range 32).foldl (fun (a : Int) i =>
          let r := 32 * b + i
          let n := nth 0 acts (t.elem k r)
          if n = 0 then a else a + n * ((p.info.stored p.fp4 r j : Int) - o)) 0
        let P := errs.foldl (fun (a : Int) x => if x.array = p.array ∧ x.block = b ∧ x.col = j then a + x.delta else a) P
        some (P, unitExp sa (actF aw) + unitExp sw (wgtF p.fp4))
    let dyn := (outs.filter fun o => o.1 / t.rows == k).map fun oe =>
      let r := t.first + oe.1 % t.rows
      let sw := p.info.scale (r / 32) j
      match bf16Parts oe.2 with
      | some (m, ex) => if sw == 255 then none
          else some (m * ((p.info.stored p.fp4 r j : Int) - o), ex + unitExp sw (wgtF p.fp4))
      | none => none
    main ++ dyn

/-- Terms added to an anchored accumulator (R109); a NaN term sets NAN. -/
def addTerms (x : Acc) (ts : List (Option (Int × Int))) : Acc :=
  ts.foldl (fun x t => match t with
    | some (p, e) => x.contrib p e
    | none => { x with nan := true }) x

/-- The arrays of tile column c. -/
def columnArrays (t : Tile) (arrs : List ArrPlan) (c : Nat) : List ArrPlan :=
  arrs.filter fun p => (p.array - t.abase.toNat) / t.kspan == c

/-- The accumulator entry number of output column 256 c + j in an operand of shape (base, entries per row, stride). -/
def entryIndex (sh : Nat × Nat × Nat) (i : Nat) : Nat := (sh.1 + (i / sh.2.1) * sh.2.2) / 32 + i % sh.2.1

/-- All entries of an issue, from the entries as they stood at its start: anchored under R108, every term added, rows counted. -/
def issueEntries (k : Core) (t : Tile) (aw : ActW) (x : Int) (acts : List Int) (scales : List Nat) (outs : List (Nat × Nat))
    (errs : List ErrTerm) (arrs : List ArrPlan) (undo : List (Nat × BitVec 256)) : List (Nat × Acc) :=
  (undo.zip (List.range undo.length)).map fun p =>
    let c := p.2 / 256
    let j := p.2 % 256
    let a0 := (accOf p.1.2).anchor (x + k.wtop (t.array 0 c) j)
    let a1 := addTerms a0 (columnTerms t aw acts scales outs errs (columnArrays t arrs c) j)
    (p.1.1, { a1 with rows := a1.rows + t.kspan * t.rows })

/-- Entries written into the accumulator file. -/
def Core.putAccs (k : Core) (es : List (Nat × BitVec 256)) : Core := es.foldl (fun k e => k.accSet e.1 e.2) k

/-- A column's window was left by some term: below it, above it (R109, R121). -/
def windowHits (a : Int) (ts : List (Option (Int × Int))) : Bool × Bool :=
  ts.foldl (fun h t => match t with
    | some (p, e) => (h.1 || (p != 0 && decide (e < a - 96)), h.2 || (p != 0 && decide (a < e)))
    | none => h) (false, false)

/-- Reasons 1 to 4 of R145 end in one refresh holiday; the reasons of tests and calibrations are kept apart (log 66). -/
def sameHoliday (r r' : Nat) : Bool := r == r' || (decide (r ≤ 4) && decide (r' ≤ 4))

/-- The holiday queue of a core takes a request for a physical array (R145, R152): a holiday or a queued request of the same kind is raised, and
keeps its place among those of its new priority (DESIGN CHOICE, log 66: the text does not say whether it counts as queued anew). -/
def Core.queueHoliday (k : Core) (p prio reason : Nat) : Core :=
  if k.holidays.any (fun h => h.orig == p && sameHoliday h.reason reason) then
    { k with holidays := k.holidays.map fun h => if h.orig == p && decide (prio < h.prio) then { h with prio := prio } else h }
  else if k.holidayQueue.any (fun q => q.arr == p && sameHoliday q.reason reason) then
    { k with holidayQueue := k.holidayQueue.map fun q =>
        if q.arr == p && sameHoliday q.reason reason && decide (prio < q.prio) then ⟨p, prio, reason⟩ else q }
  else { k with holidayQueue := k.holidayQueue ++ [⟨p, prio, reason⟩] }

/-- Energy of array activity counted in the core's half, in tenths of a picojoule (R491). -/
def State.spend (s : State) (c : CoreId) (n : Nat) : State :=
  s.modDie (dieOf c) fun d => if isEast c then { d with east := { d.east with energy := d.east.energy + n } }
    else { d with west := { d.west with energy := d.west.energy + n } }

/-- Energy of a pass with row groups of g rows (R491). -/
def State.passEnergy (s : State) (g : Nat) (twin : Bool) : Nat := nth 0 s.fuses.coef (Nat.log2 g - 4 + if twin then 5 else 0)

/-- R68: the record of an exhausted ladder: event, fault information, ARRAY_FAULT and the priority-1 holiday. -/
def Core.exhausted (k : Core) (phys reason : Nat) (tick : W48) : Core :=
  let k := if k.eventStat.getLsbD evLadder then k
    else { k with faultInfo := BitVec.ofNat 32 (phys + reason * 2 ^ 13 + tick.toNat % 2 ^ 16 * 2 ^ 16) }
  let k := (k.event evLadder).flag stArrayFault
  let k := k.modArr phys fun x => if x.crit then { x with exhaust := x.exhaust ++ [tick] } else x
  k.queueHoliday phys 1 1

/-- Failed row-reads of an array outside an issue (R70, R71, R84): a failing scale row sets SCALE_PARITY, a failing data row ROWREAD_FAIL. -/
def Core.noteReads (k : Core) (x : ArrayInfo) (fp4 : Bool) (p : Nat) (rows : List Nat) (faults : List ReadFault) : Core :=
  let bad (r : Nat) : Bool := decide (1 ≤ transient faults p r (r + 1)) || !(if r < 1024 then x.rowOk fp4 r else x.parityOk r)
  let k := if (rows.filter fun r => decide (1024 ≤ r)).any bad then k.event evScaleParity else k
  if (rows.filter fun r => decide (r < 1024)).any bad then k.event evRowread else k

/-- A row-read that is repeated once succeeds (R70, R71): the row is good, and its fault, if any, does not last for two reads. -/
def ArrayInfo.readable (x : ArrayInfo) (fp4 : Bool) (faults : List ReadFault) (p r : Nat) : Bool :=
  (if r < 1024 then x.rowOk fp4 r else x.parityOk r) && decide (transient faults p r (r + 1) < 2)

/-- R68: an issue in flight is discarded: its accumulator entries stand as at its start, its place is free, and the core halts with
LADDER. -/
def discardIssue (c : CoreId) (u : UnitInst) (undo : List (Nat × BitVec 256)) (phys reason : Nat) (s : State) : State :=
  let s := s.modCore c fun k =>
    ((k.putAccs undo).exhausted phys reason s.tick.count |> fun k => { k with inflight := k.inflight.filter (·.id != u.id) })
  haltCore c xLadder u.pc s

/-- The completion cycle of an issue from the times of its arrays (R234). -/
def issueEnd (fired : Nat) (times : List (Nat × Nat)) : Nat :=
  fired + 1 + times.foldl (fun m x => max m x.2) 0 + 10

end Sys2Proof.Machine
end

