-- ==== Sys2Proof/Machine/Control.lean ====
section
/-! DEFINITION. Aithal classes 0x0: control, waiting, special reads (R249). -/
namespace Sys2Proof.Machine

/-- The outcome type of every meaning. -/
abbrev Out := Host.Outcome State Fault Refusal

/-- COND holds for a value (R230). -/
def condHolds (cd : Cond) (v : W64) : Bool :=
  match cd with
  | .always => true
  | .z => v == 0
  | .nz => v != 0
  | .lt => v.slt 0
  | .ge => !v.slt 0
  | .gt => (0 : W64).slt v
  | .le => !(0 : W64).slt v

/-- A branch target: PC + 8 × OFFSET, OFFSET signed (R229). -/
def target (pc : W64) (off : W32) : W64 := pc + 8 * off.signExtend 64

/-- `br` (R249): taken costs 3 cycles, not taken 1 (R233). -/
def execBr (c : CoreId) (g : Guard) (ra : SReg) (cond : Cond) (off : W32) (s : State) : Out :=
  .next (fire c (.br c g ra cond off) g (fun _ s =>
    let k := s.core c
    if condHolds cond (k.sreg ra) then .go s 3 (some (target k.pc off)) else .go s 1 none) s)

/-- `call` (R249, R215): a full return stack raises FETCH. -/
def execCall (c : CoreId) (g : Guard) (off : W32) (s : State) : Out :=
  .next (fire c (.call c g off) g (fun _ s =>
    let k := s.core c
    if 8 ≤ k.stack.length then .halt xFetch s
    else .go (s.setCore c { k with stack := (k.pc + 8) :: k.stack }) 3 (some (target k.pc off))) s)

/-- `ret` (R249, R215): an empty return stack raises FETCH. -/
def execRet (c : CoreId) (g : Guard) (s : State) : Out :=
  .next (fire c (.ret c g) g (fun _ s =>
    let k := s.core c
    match k.stack with
    | [] => .halt xFetch s
    | a :: rest => .go (s.setCore c { k with stack := rest }) 3 (some a)) s)

/-- `end` (R249, R209): the slot program completes; the sequencer fires nothing more in the tick. -/
def execEndProg (c : CoreId) (g : Guard) (s : State) : Out :=
  .next (fire c (.endProg c g) g (fun _ s =>
    .go (s.modCore c fun k => { k with run := false, ended := true }) 1 none) s)

/-- The special values of R212, read in cycle t. -/
def specialValue (s : State) (c : CoreId) (t : Nat) : Special → W64
  | .tcnt => s.tick.count.setWidth 64
  | .seq => s.tick.seq.setWidth 64
  | .slot => BitVec.ofNat 64 (s.core c).slot
  | .epoch => match s.alm with
    | some a => a.patchEpoch.setWidth 64
    | none => 0
  | .core => BitVec.ofNat 64 c.val
  | .cyc => BitVec.ofNat 64 (t % 2 ^ 16)
  | .dln => BitVec.ofNat 64 (s.dln c % 2 ^ 16)

/-- `rds` (R249). -/
def execRds (c : CoreId) (g : Guard) (rd : SReg) (sp : Special) (s : State) : Out :=
  .next (fire c (.rds c g rd sp) g (fun t s =>
    onCore c (fun k => (k.setS rd (specialValue s c t sp)).readyS rd (t + 1)) s) s)

/-- The unit that bit i of a `wait` mask selects (R249). -/
def unitBit : UnitKind → Nat
  | .array => 0 | .quant => 1 | .vector => 2 | .move => 3 | .net => 4 | .serve => 5

/-- `wait` (R249): holds while an instruction is in flight on a selected unit; mask 0 selects all. -/
def execWait (c : CoreId) (g : Guard) (mask : BitVec 6) (s : State) : Out :=
  .next (fire c (.wait c g mask) g (fun _ s =>
    if (s.core c).inflight.any (fun u => mask == 0 || mask.getLsbD (unitBit u.unit)) then .hold else .go s 1 none) s)

/-- `waitd` (R249): holds until every line of the extent has its arrival bit, and until every instruction that writes it has completed (R232). -/
def execWaitd (c : CoreId) (g : Guard) (ta : TReg) (s : State) : Out :=
  .next (fire c (.waitd c g ta) g (fun _ s =>
    let k := s.core c
    let d := descOf (k.treg ta)
    match k.checkDesc s.tick.seq d [1, 2, 3, 4, 5, 6, 7, 8, 10, 11] false false with
    | some x => .halt x s
    | none =>
      let e := d.extent s.tick.seq
      if k.inflight.any (fun u => u.writes.any e.overlaps) then .hold
      else if k.arrived e.lo e.hi then .go s 1 none else .hold) s)

/-- `nop` (R249). -/
def execNop (c : CoreId) (g : Guard) (s : State) : Out :=
  .next (fire c (.nop c g) g (fun _ s => .go s 1 none) s)

end Sys2Proof.Machine
end

