-- ==== Sys2Proof/Machine/ArrayOps.lean ====
section
/-! DEFINITION. Aithal class 0x4 (R253 to R256), the verdicts of passes and the re-read ladder (R58, R66 to R70). -/
namespace Sys2Proof.Machine

/-- X of an issue is a signed value from −1,024 to 1,023 (R254). -/
def anchorOk (v : W64) : Bool := decide (-1024 ≤ v.toInt ∧ v.toInt ≤ 1023)

/-- Rank of the almanac's compiled mode (R190, R525). -/
def State.compiledRank (s : State) : Nat := match s.alm with
  | some a => if a.mode = 1 then 2 else if a.mode = 2 then 3 else 0
  | none => 0

/-- The shape of a format-9 operand: base, entries per row, stride. -/
def Desc.shape (d : Desc) : Nat × Nat × Nat := (d.base, d.len0, d.stride)

/-- Element indices that R94 drives with 0: captured outliers and enabled static channels of the tile. -/
def State.maskedElems (s : State) (c : CoreId) (t : Tile) (outs : List (Nat × Nat)) : List Nat :=
  let st := match s.staticOf c t.abase.toNat with
    | none => []
    | some (d, chans) => chans.flatMap fun ch =>
      ((List.range t.kspan).filter fun k => d.kpos (t.array k 0) == ch.2.2 && t.inRange ch.2.1).map fun k => t.elem k ch.2.1
  outs.map Prod.fst ++ st

/-- Which columns' windows the terms of an issue leave, below and above (R109, R121). -/
def issueHits (tl : Tile) (aw : ActW) (acts : List Int) (scales : List Nat) (outs : List (Nat × Nat)) (errs : List ErrTerm)
    (arrs : List ArrPlan) (ents : List (Nat × Acc)) : Bool × Bool :=
  let hits := (List.range (256 * tl.nspan)).map fun i =>
    windowHits (nth (0, accOf 0) ents i).2.a (columnTerms tl aw acts scales outs errs (columnArrays tl arrs (i / 256)) (i % 256))
  (hits.any Prod.fst, hits.any Prod.snd)

/-- The cycles of each array of an issue (R53, R234): first scale read, second reads, outlier row-reads, and the passes. -/
def issueTimes (tl : Tile) (faults : List ReadFault) (outs : List (Nat × Nat)) (e : Nat) (plans : List (ArrPlan × List PassId)) : List (Nat × Nat) :=
  plans.map fun p =>
    (p.1.array, 2 * ceilDiv p.1.g 32 + scaleAgain tl faults p.1 p.2 + outlierAgain tl faults outs p.1
      + outlierCycles tl outs (tl.kOf p.1.array) + p.2.foldl (fun a q => a + passCycles q.g e p.1.twin 0) 0)

/-- Energy of the row-reads and passes of an issue (R491). -/
def State.issueEnergy (s : State) (tl : Tile) (outs : List (Nat × Nat)) (plans : List (ArrPlan × List PassId)) : Nat :=
  let reads := plans.foldl (fun a p => a + 2 * ceilDiv p.1.g 32 + (outlierReads tl outs (tl.kOf p.1.array)).1.length
    + 2 * (outlierReads tl outs (tl.kOf p.1.array)).2.length) 0
  plans.foldl (fun a p => p.2.foldl (fun a q => a + s.passEnergy q.g p.1.twin) a) (reads * nth 0 s.fuses.coef 10)

/-- Arrays whose passes run below the requested and the compiled mode: the tick is lost with cause 7 (R173, R525). -/
def State.laggards (s : State) (c : CoreId) (lag : List ArrPlan) : State :=
  if lag.isEmpty then s
  else
    let t := s.lose 7 (dieOf c).val
    { t with tick := { t.tick with lagging := s.tick.lagging ++ lag.map fun p => (c.val, p.array, p.phys) } }

/-- The issue of an `mvm` as it starts (R234, R254): its record, its accumulator entries before it, its arrays, and what rests on them. -/
structure IssueSetup where
  recd : MxRow
  outs : List (Nat × Nat)
  undo : List (Nat × BitVec 256)
  arrs : List ArrPlan
deriving DecidableEq, Repr

/-- The set-up of an `mvm` (R61 to R63, R116, R254). -/
def issueSetup (c : CoreId) (o : MvmOp) (s : State) : IssueSetup :=
  let k := s.core c
  let tl := o.tile
  let recd := k.mxRow s.tick.seq (descOf (k.treg o.tact)) 0
  let sh := (descOf (k.treg o.tacc)).shape
  { recd := recd, outs := recd.outliers.filter fun x => decide (x.1 / tl.rows < tl.kspan)
    undo := (List.range (256 * tl.nspan)).map fun i => (entryIndex sh i, if o.clr then 0 else k.accGet (entryIndex sh i))
    arrs := tl.arrays.map (s.arrPlan c o.mode o.rgp) }

/-- The passes of an issue run (R54, R103 to R109, R254): the contributions, and the issue in flight. -/
def runIssue (c : CoreId) (o : MvmOp) (faults : List ReadFault) (t : Nat) (u : IssueSetup) (s : State) : Fire :=
  let k := s.core c
  let n := s.tick.seq
  let da := descOf (k.treg o.tacc)
  let dx := descOf (k.treg o.tact)
  let tl := o.tile
  let e := settle (s.half c).band
  let masked := s.maskedElems c tl u.outs
  let acts := (u.recd.codes.zip (List.range u.recd.codes.length)).map fun p => if p.2 ∈ masked then 0 else mxInt o.aw p.1
  let x := (k.sreg o.sx).toInt
  let anchorsOf (p : ArrPlan) (j : Nat) : Int :=
    let cc := (p.array - tl.abase.toNat) / tl.kspan
    ((accOf (nth (0, 0) u.undo (256 * cc + j)).2).anchor (x + k.wtop (tl.array 0 cc) j)).a
  let plans := u.arrs.map fun p => (p, planOf tl o.aw dx.len0 u.recd.scales (anchorsOf p) p)
  let ents := issueEntries k tl o.aw x acts u.recd.scales u.outs [] u.arrs u.undo
  let hits := issueHits tl o.aw acts u.recd.scales u.outs [] u.arrs ents
  let r := k.collect fun k =>
    let k := k.flagIf (u.arrs.any fun p => decide (p.rank < modeRank o.mode)) stDemoted
    let k := k.flagIf hits.1 stWindowUnf
    let k := k.flagIf hits.2 stWindowOvf
    let k := k.flagIf (u.arrs.any fun p => (groupsOf tl p.g).any fun lo => (blocksOf lo p.g).any fun b =>
      (List.range 256).any fun j => p.info.scale b j == 255) stScaleNan
    let k := k.flagIf (plans.any fun p => p.2.any fun q => q.g != p.1.g) stScaleSplit
    let k := u.arrs.foldl (fun k p => k.modArr p.phys fun x =>
      { x with latchCur := (groupsOf tl p.g).head?.map (·, p.g), latchNext := none }) k
    k.putAccs (ents.map fun p => (p.1, p.2.bits))
  let times := issueTimes tl faults u.outs e plans
  let plan := plans.flatMap Prod.snd
  let iss : Issue := ⟨tl, o.mode, o.rgp, o.aw, x, acts, u.recd.scales, u.outs, u.undo, [], plan, plan, [], times, t⟩
  let lag := u.arrs.filter fun p => decide (p.rank < modeRank o.mode) && decide (p.rank < s.compiledRank)
  let s := (s.laggards c lag).spend c (s.issueEnergy tl u.outs plans)
  .go (s.setCore c (r.1.dispatch .array (some (issueEnd t times)) [dx.extent n] [da.extent n] none none tl.arrays (some iss) r.2)) 1 none

/-- An issue would take an accumulator entry above 65,536 rows (R117, R254). -/
def tooManyRows (o : MvmOp) (u : IssueSetup) : Bool := u.undo.any fun x => decide (65536 < (accOf x.2).rows + o.tile.kspan * o.tile.rows)

/-- The issue gate refuses an issue that would start in cycle t (R172, R494): its nominal end lies after the issue deadline, or the ceiling monitor refuses every issue. -/
def State.gateRefuses (s : State) (c : CoreId) (o : MvmOp) (t : Nat) (u : IssueSetup) : Bool :=
  decide (s.dln c < issueEnd t (u.arrs.map fun p => (p.array, nominalTime o.tile o.aw (settle (s.half c).band) u.outs p))) || s.ceilingOn

/-- `mvm` once it may fire in cycle t (R254): the row limit, the gate of R172, the reads of R53 and R116, then the passes. A latched 0xFF scale that meets
no activation element sets SCALE_NAN alone (DESIGN CHOICE, log 66: R95 against R105). Of several arrays whose second reads fail together the lowest logical one is recorded,
scale parity before a data row (DESIGN CHOICE, log 66: R85 gives no order). -/
def issueMvm (c : CoreId) (o : MvmOp) (faults : List ReadFault) (t : Nat) (s : State) : Fire :=
  let u := issueSetup c o s
  let tl := o.tile
  if tooManyRows o u then .go (continueExc c s) 1 none
  else if s.gateRefuses c o t u then .go (overrun c 0 s) 0 (some (s.core c).pc)
  else
    let s := s.modCore c fun k =>
      let k := k.putAccs u.undo
      let k := if u.arrs.any fun p => decide (1 ≤ scaleFails tl faults u.outs p) then k.event evScaleParity else k
      if u.arrs.any fun p => decide (1 ≤ rowFails tl faults u.outs p) then k.event evRowread else k
    match u.arrs.find? (fun p => scaleFails tl faults u.outs p == 2), u.arrs.find? (fun p => rowFails tl faults u.outs p == 2) with
    | some p, _ => .halt xLadder (s.modCore c fun k => k.exhausted p.phys 3 s.tick.count)
    | none, some p => .halt xLadder (s.modCore c fun k => k.exhausted p.phys 4 s.tick.count)
    | none, none => runIssue c o faults t u s

/-- The banks of an issue's arrays can be used (R24, R26, R28), and the core has been swept (R156). -/
def State.banksReady (s : State) (c : CoreId) (arrs : List Nat) : Bool :=
  (s.core c).sweepDone && arrs.all fun a => (s.die (dieOf c)).domUse.getLsbD (4 * (c.val % 4) + quarterOf (s.phys c a))

/-- The first exception of an `mvm`'s operands (R226, R254). -/
def State.mvmExc (s : State) (c : CoreId) (o : MvmOp) : Option Nat :=
  let k := s.core c
  let n := s.tick.seq
  let da := descOf (k.treg o.tacc)
  let dx := descOf (k.treg o.tact)
  firstExc [k.checkDesc n da [9] true true, k.checkDesc n dx [3, 4, 5] true false,
    if dx.len1 ≠ 1 ∨ dx.fmt ≠ 3 + actwCode o.aw ∨ da.count < 256 * o.tile.nspan ∨
        o.tile.kspan * o.tile.rows < dx.len0 ∨ anchorOk (k.sreg o.sx) = false then some xDesc else none]

/-- An `mvm` waits for its unit, an extent, an arrival or a bank (R207, R222, R232, R156, R28). -/
def State.mvmWaits (s : State) (c : CoreId) (o : MvmOp) : Bool :=
  let k := s.core c
  let n := s.tick.seq
  let dx := descOf (k.treg o.tact)
  k.busy .array [dx.extent n] [(descOf (k.treg o.tacc)).extent n] o.tile.arrays || !k.ready2 n dx || !s.banksReady c o.tile.arrays

/-- `mvm` (R254): operand checks, the waits of R232, R156 and R28, then the issue. -/
def execMvm (c : CoreId) (g : Guard) (o : MvmOp) (faults : List ReadFault) (s : State) : Out :=
  .next (fire c (.mvm c g o faults) g (fun t s =>
    match s.mvmExc c o with
    | some x => .halt x s
    | none => if s.mvmWaits c o then .hold else issueMvm c o faults t s) s)

/-- Plane p of a driven element (R93). -/
def planeBit (aw : ActW) (n : Int) (p : Nat) : Bool := (toBits (planes aw) n).testBit p

/-- Rows of a pass whose input bit is 1 (R47, R48, R94). -/
def activeRows (iss : Issue) (p : PassId) : List Nat :=
  let k := iss.tile.kOf p.array
  ((List.range p.g).map (p.lo + ·)).filter fun r =>
    iss.tile.inRange r && planeBit iss.aw (nth 0 iss.acts (iss.tile.elem k r)) p.plane

/-- The count of a logical column over the active rows (R48). -/
def trueCount (x : ArrayInfo) (rows : List Nat) (col : Nat) : Nat := (rows.filter fun r => x.cell r col).length

/-- The logical column that a physical column stands for in a pass (R51, R76): every spare column in use is converted, a slice-4 data column of INT4
weights is not; `none` if it is not converted. -/
def convertedCol (x : ArrayInfo) (fp4 : Bool) (col : Nat) : Option Nat :=
  (List.range 1320).find? fun lc =>
    x.physCol lc == col && (decide (1280 ≤ lc ∨ 1320 ≤ col) || decide (lc % 5 < slicesOf fp4))

/-- A logical column enters D or E (R55): a slice that the weight format does not use contributes 0. -/
def counts (fp4 : Bool) (lc : Nat) : Bool := decide (1280 ≤ lc) || decide (lc % 5 < slicesOf fp4)

/-- One converted column that a verdict reports: logical column, true count, the code used, the second converter's code. -/
structure ColRead where
  lc : Nat
  count : Nat
  code1 : Nat
  code2 : Nat
deriving DecidableEq, Repr

/-- The columns whose codes differ from the true count, from the codes that the converters returned (R50): slots 8 to 15 exist in a twin pass alone. -/
def colReads (x : ArrayInfo) (fp4 twin : Bool) (rows : List Nat) (codes : List CodeErr) : List ColRead :=
  let codes := codes.filter fun e => decide (e.conv < 168) && decide (e.slot < if twin then 16 else 8)
  let cols := codes.foldl (fun l e => addNew l e.col) []
  cols.filterMap fun col => match convertedCol x fp4 col with
    | none => none
    | some lc =>
      let n := trueCount x rows lc
      let pick (second : Bool) := match codes.find? (fun e => e.col == col && e.second == second) with
        | some e => e.code
        | none => n
      some ⟨lc, n, pick false, pick true⟩

/-- Residue of check group h of a pass (R57), the reported deviations included. -/
def passResidue (x : ArrayInfo) (fp4 : Bool) (rows : List Nat) (cs : List ColRead) (h : Nat) : Int :=
  let base := rows.foldl (fun (a : Int) r => a + x.rowResidue fp4 r h) 0
  (cs.filter fun q => counts fp4 q.lc).foldl (fun (a : Int) q =>
    let d := ((q.code1 : Int) - q.count) * 2 ^ (q.lc % 5)
    if q.lc < 1280 then (if q.lc / 160 = h then a + d else a)
    else (if (q.lc - 1280) / 5 = h then a - d else a)) base

/-- What the checks of R56 to R58 found in a pass: over-range, twin mismatch, residue. -/
structure PassFail where
  tooBig : Bool
  twin : Bool
  residue : Bool
deriving DecidableEq, Repr

/-- A pass fails if some check fails (R58). -/
def PassFail.any (f : PassFail) : Bool := f.tooBig || f.twin || f.residue

/-- REASON of R85 for a failed retry: the first of over-range, twin mismatch and residue. -/
def PassFail.reason (f : PassFail) : Nat := if f.tooBig then 1 else if f.twin then 2 else 0

/-- The passes that a failed pass makes due (R66). -/
def ladder (p : PassId) : List PassId :=
  if p.g ≤ 16 then [⟨p.array, p.plane, p.lo, 16, true⟩]
  else [⟨p.array, p.plane, p.lo, p.g / 2, false⟩, ⟨p.array, p.plane, p.lo + p.g / 2, p.g / 2, false⟩]

/-- Place in the issue's plan of the original pass that a pass descends from (R67). -/
def originOf (iss : Issue) (p : PassId) : Nat :=
  iss.plan.findIdx fun q => q.array == p.array && q.plane == p.plane && decide (q.lo ≤ p.lo ∧ p.lo < q.lo + q.g)

/-- The passes of one array behind a failed pass p (R67): the one that runs in the cycle of the verdict, then the re-read passes due, by their original
pass, p's ladder behind those of an earlier or the same one, then the later passes of the issue. -/
def afterFail (iss : Issue) (p : PassId) (rest : List PassId) : List PassId :=
  let o := originOf iss p
  let run := rest.take 1
  let dues := (rest.drop 1).filter fun q => q ∈ iss.due
  let later := (rest.drop 1).filter fun q => q ∉ iss.due
  run ++ dues.filter (fun q => decide (originOf iss q ≤ o)) ++ ladder p ++ dues.filter (fun q => ¬ originOf iss q ≤ o) ++ later

/-- An issue after the verdict of pass p of an array, the first of its array in `todo` (R66, R67): with no pass running at the verdict, six cycles go by before
the first re-read pass. -/
def Issue.failed (iss : Issue) (p : PassId) : Issue :=
  let rest := (iss.todo.filter fun q => q.array == p.array).drop 1
  { iss with
    todo := (iss.todo.filter fun q => q.array != p.array) ++ afterFail iss p rest
    due := iss.due ++ ladder p
    times := if rest.isEmpty then iss.times.map fun x => if x.1 = p.array then (x.1, x.2 + 6) else x else iss.times }

/-- The pass whose verdict comes next for its array (R58, R67), if it has run. -/
def Issue.nextOf (iss : Issue) (array : Nat) : Option PassId :=
  ((iss.todo.find? fun q => q.array == array).filter fun q => q ∉ iss.due)

/-- The terms that delivered wrong counts add (R79, R80, R105): to the first block of the group that holds activation elements. -/
def errTerms (iss : Issue) (fp4 : Bool) (p : PassId) (cs : List ColRead) : List ErrTerm :=
  match (blocksOf p.lo p.g).find? (iss.tile.active iss.acts.length (iss.tile.kOf p.array)) with
  | none => []
  | some b => (cs.filter fun q => decide (q.lc < 1280) && counts fp4 q.lc && q.code1 != q.count).map fun q =>
      ⟨p.array, b, q.lc / 5, ((q.code1 : Int) - q.count) * 2 ^ (q.lc % 5) * placeValue iss.aw p.plane⟩

/-- The latch banks of an array while pass p of an issue runs (R53): the scales of its row group, and those of the next one, which were read in its free cycles. -/
def ArrayInfo.latched (x : ArrayInfo) (iss : Issue) (g : Nat) (p : PassId) : ArrayInfo :=
  let lo := p.lo / g * g
  { x with
    latchCur := some (lo, g)
    latchNext := ((groupsOf iss.tile g).find? fun l => decide (lo < l)).map (·, g) }

/-- An issue in flight replaced. -/
def Core.setIssue (k : Core) (id : Nat) (done : Nat) (iss : Issue) : Core :=
  { k with inflight := k.inflight.map fun u => if u.id = id then { u with done := some done, issue := some iss } else u }

/-- The issue in flight with an id. -/
def Core.findIssue (k : Core) (id : Nat) : Option (UnitInst × Issue) :=
  match k.inflight.find? (fun u => u.id == id) with
  | some u => match u.issue with
    | some iss => some (u, iss)
    | none => none
  | none => none

/-- What the checks found in pass p (R56 to R59), and its conversions at full scale (R87). -/
def passFail (pl : ArrPlan) (checked : Bool) (p : PassId) (rows : List Nat) (cs : List ColRead) : PassFail × Nat :=
  let full := 2 ^ resolution p.g - 1
  let tooBig := cs.any fun q => decide (p.g < q.code1) || (pl.twin && decide (p.g < q.code2))
  let fs := (cs.filter fun q => q.code1 == full).length + (if pl.twin then (cs.filter fun q => q.code2 == full).length else 0)
  (⟨tooBig, pl.twin && cs.any (fun q => q.code1 != q.code2),
    checked && (List.range 8).any fun h => passResidue pl.info pl.fp4 rows cs h % 31 != 0⟩, fs)

/-- The events of the checks that a pass failed (R58, R84), and its report for the array's failure count (R132), a fault record tied to service, which counts when its tick commits (R174; that
these reports are such records, and no other register is, is DEDUCED, log 66). -/
def Core.failedPass (k : Core) (t : W48) (phys : Nat) (f : PassFail) : Core :=
  let k := if f.residue then k.event evResidue else k
  let k := if f.tooBig then k.event evOverRange else k
  let k := if f.twin then k.event evTwin else k
  { k with fails := k.fails ++ [(t, phys)] }

/-- The reports of tick t taken out (R174). -/
def Core.dropFails (k : Core) (t : W48) : Core := { k with fails := k.fails.filter fun x => x.1 != t }

/-- The reports of tick t counted, unless a new window has begun since (R132, R174). -/
def Core.countFails (k : Core) (t now : W48) : Core :=
  (k.fails.filter fun x => x.1 == t && decide (t.toNat / 65536 = now.toNat / 65536)).foldl
    (fun k x => k.modArr x.2 fun y => { y with failCnt := satAdd 255 y.failCnt 1 }) (k.dropFails t)

/-- A pass releases its counts (R55, R58): wrong ones that no check found reach the accumulators with their conditions (R79, R121). -/
def releasePass (k : Core) (id done : Nat) (iss : Issue) (arrs : List ArrPlan) (ts : List ErrTerm) : Core :=
  let iss := { iss with errs := iss.errs ++ ts }
  let k := k.setIssue id done iss
  if ts = [] then k
  else
    let ents := issueEntries k iss.tile iss.aw iss.x iss.acts iss.scales iss.outliers iss.errs arrs iss.undo
    let h := issueHits iss.tile iss.aw iss.acts iss.scales iss.outliers iss.errs arrs ents
    ((k.pendIf h.1 id stWindowUnf).pendIf h.2 id stWindowOvf).putAccs (ents.map fun p => (p.1, p.2.bits))

/-- PASS_VERDICT (R58): the verdict of a pass of an issue in flight; the verdicts of one array come in the order in which its passes ran. `codes` are the converted
codes that differ from the true counts. A passed pass releases its counts; a failed one starts or continues its ladder (R66), and a failed retry exhausts it (R68). -/
def passVerdict (c : CoreId) (id : Nat) (p : PassId) (codes : List CodeErr) (s : State) : State :=
  let k := s.core c
  match k.findIssue id with
  | none => s
  | some (u, iss) =>
    if iss.nextOf p.array ≠ some p then s
    else
      let pl := s.arrPlan c iss.mode iss.rgp p.array
      let rows := activeRows iss p
      let cs := colReads pl.info pl.fp4 pl.twin rows codes
      let checked := !(k.checkDis && iss.mode != .reference)
      let f := passFail pl checked p rows cs
      let k := { k with fsCount := satAdd 0x7FFF_FFFF k.fsCount f.2 }.modArr pl.phys fun x => x.latched iss pl.g p
      if f.1.any then
        let k := k.failedPass s.tick.count pl.phys f.1
        if p.retry then discardIssue c u iss.undo pl.phys f.1.reason (s.setCore c k)
        else
          let iss := iss.failed p
          s.setCore c (k.setIssue id (issueEnd iss.fired iss.times) iss)
      else
        let iss := { iss with todo := iss.todo.erase p }
        let k := if checked then k else (k.event evUnchecked).pend id stUnchecked
        s.setCore c (releasePass k id (issueEnd iss.fired iss.times) iss (iss.tile.arrays.map (s.arrPlan c iss.mode iss.rgp))
          (errTerms iss pl.fp4 p cs))

/-- PASS_VERDICT (R58). -/
def execPassVerdict (c : CoreId) (issue : Nat) (p : PassId) (codes : List CodeErr) (s : State) : Out :=
  .next (passVerdict c issue p codes s)

/-- The first due re-read pass that can begin (R67): at most one pass of its array stands before it, the one whose verdict is pending. -/
def Issue.nextDue (iss : Issue) : Option PassId :=
  iss.due.find? fun p => p ∈ ((iss.todo.filter fun q => q.array == p.array).take 2)
    && ((iss.todo.filter fun q => q.array == p.array).takeWhile (· != p)).all fun q => q ∉ iss.due

/-- REREAD_PASS (R67): the first due re-read pass of an issue runs, adds its time and awaits its verdict (R66, R68, R86). -/
def rereadPass (c : CoreId) (id : Nat) (s : State) : State :=
  let k := s.core c
  match k.findIssue id with
  | none => s
  | some (_, iss) =>
    match iss.nextDue with
    | none => s
    | some p =>
      let pl := s.arrPlan c iss.mode iss.rgp p.array
      let cyc := passCycles p.g (settle (s.half c).band) pl.twin (if p.retry then 4 else 0)
      let times := iss.times.map fun x => if x.1 = p.array then (x.1, x.2 + cyc) else x
      let iss := { iss with due := iss.due.erase p, times := times }
      let k := { (k.pend id stReread) with rereadCnt := k.rereadCnt + 1 }
      (s.spend c (s.passEnergy p.g pl.twin)).setCore c (k.setIssue id (issueEnd iss.fired times) iss)

/-- REREAD_PASS (R67). -/
def execRereadPass (c : CoreId) (issue : Nat) (s : State) : Out := .next (rereadPass c issue s)

/-- The enabled static channels of a tile: (channel, row, K-array of the tile) (R255). -/
def tileStatics (t : Tile) (d : LayerDir) (chans : List (Nat × Nat × Nat)) : List (Nat × Nat × Nat) :=
  chans.filterMap fun ch =>
    match (List.range t.kspan).find? (fun k => d.kpos (t.array k 0) == ch.2.2) with
    | some k => if t.inRange ch.2.1 then some (ch.1, ch.2.1, k) else none
    | none => none

/-- The terms of the static channels for column j of tile column cc (R115, R255): `none` for a NaN. -/
def staticTerms (k : Core) (t : Tile) (d : LayerDir) (chans : List (Nat × Nat × Nat)) (xs : List Nat) (cc j : Nat) :
    List (Option (Int × Int)) :=
  let lc := 256 * ((t.array 0 cc - d.abase) / (if d.kspan = 0 then 1 else d.kspan)) + j
  let rb := alignUp (d.cols + d.cols / 32) 64
  chans.map fun ch =>
    let base := k.constBase + d.srows + ch.1 * rb
    let w := sext 8 (readNat k.store (base + lc) 1)
    let es := readNat k.store (base + d.cols + lc / 32) 1
    match bf16Parts (nth 0 xs (t.elem ch.2.2 ch.2.1)) with
    | some (m, ex) => if es = 255 then none else some (m * w, ex + es - 133)
    | none => none

/-- An accumulator takes the terms of `mvs`: finite terms anchor it; a NaN input sets NAN alone (R228, R255). -/
def addStatic (x : Acc) (a : Int) (ts : List (Option (Int × Int))) : Acc :=
  ts.foldl (fun x t => match t with
    | some (p, e) => (x.anchor a).contrib p e
    | none => { x with nan := true }) x

/-- `mvs` (R255). DESIGN CHOICE (log 66): an anchor s[SA] outside −1,024 to 1,023 raises DESC_INVALID, as R254 says of `mvm`; R255 is silent. -/
def execMvs (c : CoreId) (g : Guard) (td ta : TReg) (sa : SReg) (tile : Tile) (s : State) : Out :=
  .next (fire c (.mvs c g td ta sa tile) g (fun t s =>
    let k := s.core c
    let dd := descOf (k.treg td)
    let da := descOf (k.treg ta)
    let st := match s.staticOf c tile.abase.toNat with
      | some (d, ch) => (d, tileStatics tile d ch)
      | none => (k.layerDir 0, [])
    let bad := if dd.count < 256 * tile.nspan ∨ tile.kspan * tile.rows < da.len0 ∨ anchorOk (k.sreg sa) = false then some xDesc
      else none
    let xs := (k.rows s.tick.seq da).flatten
    let x := (k.sreg sa).toInt
    unitOp c .array [(da, [1]), (dd, [9])] [(dd, [9])] bad t (8 + ceilDiv (st.2.length * 256 * tile.nspan) 512) none (fun k =>
      (List.range (256 * tile.nspan)).foldl (fun k i =>
        let cc := i / 256
        let ts := staticTerms k tile st.1 st.2 xs cc (i % 256)
        let e := entryIndex dd.shape i
        let a0 := accOf (k.accGet e)
        let a1 := addStatic a0 (x + k.wtop (tile.array 0 cc) (i % 256)) ts
        let h := windowHits a1.a ts
        if ts = [] then k else ((k.flagIf h.1 stWindowUnf).flagIf h.2 stWindowOvf).accSet e a1.bits) k) s) s)

/-- `accclr` (R256): 32 zero bytes to each entry. -/
def execAccclr (c : CoreId) (g : Guard) (td : TReg) (s : State) : Out :=
  .next (fire c (.accclr c g td) g (fun t s =>
    let d := descOf ((s.core c).treg td)
    unitOp c .array [] [(d, [9, 10])] none t (4 + ceilDiv d.count 64) none
      (fun k => k.putEntries s.tick.seq d (List.replicate d.count 0)) s) s)

/-- A list cut into rows of n. -/
def chunk {α : Type} (n : Nat) (rows : Nat) (l : List α) : List (List α) := (List.range rows).map fun j => (l.drop (j * n)).take n

/-- `accrd` (R256): each entry converted under R119 and R122. -/
def execAccrd (c : CoreId) (g : Guard) (td ta : TReg) (rsel : BitVec 4) (s : State) : Out :=
  .next (fire c (.accrd c g td ta rsel) g (fun t s =>
    let k := s.core c
    let n := s.tick.seq
    let dd := descOf (k.treg td)
    let da := descOf (k.treg ta)
    let bad := match s.slotRecipe c rsel.toNat with
      | some r => if dd.fmt ≠ (if r.fp32Out then 2 else 1) ∨ dd.count ≠ da.count then some xDesc else none
      | none => some xDesc
    unitOp c .array [(da, [9, 10])] [(dd, [1, 2])] bad t (6 + ceilDiv da.count 64) none (fun k =>
      let outs := (k.entries n da).map fun v => (accOf v).output (fmtOf dd.fmt)
      (k.flagIf (outs.any Prod.snd) stOutputOvf).putRows n dd (chunk dd.len0 dd.len1 (outs.map Prod.fst))) s) s)

/-- `accst` and `accld` copy each entry's 32 bytes unchanged (R256). -/
def copyEntries (c : CoreId) (dd da : Desc) (fd fa : List Nat) (t : Nat) (s : State) : Fire :=
  unitOp c .array [(da, fa)] [(dd, fd)] (if dd.count ≠ da.count then some xDesc else none) t (4 + ceilDiv da.count 64) none
    (fun k => k.putEntries s.tick.seq dd (k.entries s.tick.seq da)) s

/-- `accst` (R256). -/
def execAccst (c : CoreId) (g : Guard) (td ta : TReg) (s : State) : Out :=
  .next (fire c (.accst c g td ta) g (fun t s =>
    copyEntries c (descOf ((s.core c).treg td)) (descOf ((s.core c).treg ta)) [10] [9] t s) s)

/-- `accld` (R256). -/
def execAccld (c : CoreId) (g : Guard) (td ta : TReg) (s : State) : Out :=
  .next (fire c (.accld c g td ta) g (fun t s =>
    copyEntries c (descOf ((s.core c).treg td)) (descOf ((s.core c).treg ta)) [9] [10] t s) s)

/-- `accadd` of y into x adds the entry of the lower anchor below the window of the other (R256, last row). -/
def addRounds (x y : Acc) : Bool :=
  x.anchored && y.anchored && !x.ovf && !y.ovf && decide (x.a ≠ y.a) && decide ((if y.a < x.a then y.s else x.s) ≠ 0)

/-- `accadd` (R256): a sum of ROWS above 65,536 changes nothing and raises K_LIMIT with the continue response. -/
def execAccadd (c : CoreId) (g : Guard) (td ta : TReg) (s : State) : Out :=
  .next (fire c (.accadd c g td ta) g (fun t s =>
    let k := s.core c
    let n := s.tick.seq
    let dd := descOf (k.treg td)
    let da := descOf (k.treg ta)
    let pairs := (k.entries n dd).zip (k.entries n da)
    let tooMany := pairs.any fun p => decide (65536 < (accOf p.1).rows + (accOf p.2).rows)
    let sums := pairs.map fun p => (accOf p.1).add (accOf p.2)
    let unf := pairs.any fun p => addRounds (accOf p.1) (accOf p.2)
    let ovf := (pairs.zip sums).any fun q => q.2.ovf && !(accOf q.1.1).ovf && !(accOf q.1.2).ovf
    match unitOp c .array [(dd, [9]), (da, [10])] [(dd, [9])] (if dd.count ≠ da.count then some xDesc else none) t
        (6 + ceilDiv da.count 32) none
        (fun k => ((k.flagIf unf stWindowUnf).flagIf ovf stWindowOvf).putEntries n dd (sums.map Acc.bits)) s with
    | .go s' cost next => if tooMany then .go (continueExc c s) 1 none else .go s' cost next
    | r => r) s)

end Sys2Proof.Machine
end

