-- ==== Sys2Proof/Machine/Special.lean ====
section
/-! DEFINITION. The special functions of R261 and R262, correctly rounded to FP32. Each is enclosed between two rational bounds at a
working precision of N bits; the first precision at which both bounds round to one code gives the result. -/
namespace Sys2Proof.Machine

/-- Bounds, scaled by 2^N, of e^(num/den) for num/den ≥ 0. -/
def expBounds (num den N : Nat) : Nat × Nat :=
  let j := Nat.log2 (num / den + 1) + 9
  let ylo := (num <<< N) / (den <<< j)
  let yhi := ylo + 1
  let s := (List.range (N / 8 + 4)).foldl
    (fun (a : Nat × Nat × Nat × Nat) k =>
      let tlo := ((a.1 * ylo) >>> N) / (k + 1)
      let thi := (((a.2.1 * yhi) >>> N) + 1) / (k + 1) + 1
      (tlo, thi, a.2.2.1 + tlo, a.2.2.2 + thi))
    (1 <<< N, 1 <<< N, 1 <<< N, 1 <<< N)
  (List.range j).foldl (fun (p : Nat × Nat) _ => ((p.1 * p.1) >>> N, ((p.2 * p.2) >>> N) + 1)) (s.2.2.1, s.2.2.2 + s.2.1 + 1)

/-- Bounds, scaled by 2^N, of e^(±num/den). -/
def expSigned (neg : Bool) (num den N : Nat) : Nat × Nat :=
  let b := expBounds num den N
  if neg then ((1 <<< (2 * N)) / b.2, (1 <<< (2 * N)) / b.1 + 1) else b

/-- Bounds, scaled by 2^N, of 1 / (1 + t) from bounds of t. -/
def logisticOf (t : Nat × Nat) (N : Nat) : Nat × Nat :=
  ((1 <<< (2 * N)) / ((1 <<< N) + t.2), (1 <<< (2 * N)) / ((1 <<< N) + t.1) + 1)

/-- The working precisions, in bits, tried in order. -/
def precisions : List Nat := [320, 640, 1280, 2560, 5120]

/-- The FP32 code on which the bounds `b N`, scaled by 2^(e − N), agree. -/
def roundBounds (neg : Bool) (e : Int) (b : Nat → Nat × Nat) : Nat × Bool :=
  let tries := precisions.map fun N =>
    let p := b N
    (roundCode fp32 neg p.1 (e - N) true, roundCode fp32 neg p.2 (e - N) false)
  match tries.find? (fun t => t.1 == t.2) with
  | some t => t.1
  | none => roundCode fp32 neg (b 5120).1 (e - 5120) true

/-- |x| = m × 2^e as a fraction num / den. -/
def fracOf (m : Nat) (e : Int) : Nat × Nat :=
  if 0 ≤ e then (m <<< e.toNat, 1) else (m, 1 <<< (-e).toNat)

/-- e^x (R261). -/
def fpExp : Fp → Nat × Bool
  | .nan => (fp32.nanCode, false)
  | .inf neg => if neg then (0, false) else (0x7F80_0000, false)
  | .fin neg m e =>
    let p := fracOf m e
    if m == 0 then (0x3F80_0000, false)
    else if 200 * p.2 ≤ p.1 then (if neg then (0, false) else (0x7F80_0000, true))
    else roundBounds false 0 (expSigned neg p.1 p.2)

/-- 1 / (1 + e^−x) (R261). -/
def fpSigmoid : Fp → Nat × Bool
  | .nan => (fp32.nanCode, false)
  | .inf neg => if neg then (0, false) else (0x3F80_0000, false)
  | .fin neg m e =>
    let p := fracOf m e
    if m == 0 then (0x3F00_0000, false)
    else if 200 * p.2 ≤ p.1 then (if neg then (0, false) else (0x3F80_0000, false))
    else roundBounds false 0 (fun N => logisticOf (expSigned (!neg) p.1 p.2 N) N)

/-- tanh x (R261). -/
def fpTanh : Fp → Nat × Bool
  | .nan => (fp32.nanCode, false)
  | .inf neg => (if neg then 0xBF80_0000 else 0x3F80_0000, false)
  | .fin neg m e =>
    let p := fracOf m e
    if m == 0 then fpEncode fp32 (.fin neg 0 0)
    else if 100 * p.2 ≤ p.1 then (if neg then 0xBF80_0000 else 0x3F80_0000, false)
    else roundBounds neg 0 (fun N =>
      let b := expBounds (2 * p.1) p.2 N
      let one := 1 <<< N
      (((b.1 - one) <<< N) / (b.1 + one), ((b.2 - one) <<< N) / (b.2 + one) + 1))

/-- x × 1/(1 + e^−t) for |x| = m × 2^e and t = ±num/den (R261). -/
def fpGated (neg : Bool) (m : Nat) (e : Int) (tneg : Bool) (num den : Nat) : Nat × Bool :=
  if m == 0 then fpEncode fp32 (.fin neg 0 0)
  else if 400 * den ≤ num then
    (if tneg then fpEncode fp32 (.fin neg 0 0) else fpEncode fp32 (.fin neg m e))
  else roundBounds neg e (fun N =>
    let b := logisticOf (expSigned (!tneg) num den N) N
    (b.1 * m, b.2 * m))

/-- x / (1 + e^−x) (R261). -/
def fpSilu : Fp → Nat × Bool
  | .nan => (fp32.nanCode, false)
  | .inf neg => if neg then (0x8000_0000, false) else (0x7F80_0000, false)
  | .fin neg m e => let p := fracOf m e; fpGated neg m e neg p.1 p.2

/-- 0.5x(1 + tanh u) = x / (1 + e^−2u) with u = 0.79788456 (x + 0.044715 x³), the constants exact (R261). -/
def fpGelu : Fp → Nat × Bool
  | .nan => (fp32.nanCode, false)
  | .inf neg => if neg then (0x8000_0000, false) else (0x7F80_0000, false)
  | .fin neg m e =>
    let p := fracOf m e
    -- 2u = 2 × 79788456/10^8 × (x + 44715/10^6 × x³)
    let num := 2 * 79788456 * (p.1 * p.2 * p.2 * 1000000 + 44715 * p.1 * p.1 * p.1)
    let den := 100000000 * 1000000 * p.2 * p.2 * p.2
    fpGated neg m e neg num den

/-- 1/x (R261): the result, whether VINVALID, whether VOVF. -/
def fpRcp : Fp → Nat × Bool × Bool
  | .nan => (fp32.nanCode, false, false)
  | .inf neg => (if neg then 0x8000_0000 else 0, false, false)
  | .fin neg m e =>
    if m == 0 then (if neg then 0xFF80_0000 else 0x7F80_0000, false, true)
    else let r := roundRat fp32 neg 1 m (-e); (r.1, false, r.2)

/-- Greatest r with r × r ≤ n, by bits from the top. -/
def isqrt (n : Nat) : Nat :=
  let top := Nat.log2 n / 2 + 1
  (List.range (top + 1)).foldl (fun r i =>
    let c := r + 1 <<< (top - i)
    if c * c ≤ n then c else r) 0

/-- 1/√x (R261): the result, whether VINVALID, whether VOVF. -/
def fpRsqrt : Fp → Nat × Bool × Bool
  | .nan => (fp32.nanCode, false, false)
  | .inf neg => if neg then (fp32.nanCode, true, false) else (0, false, false)
  | .fin neg m e =>
    if m == 0 then (if neg then 0xFF80_0000 else 0x7F80_0000, false, true)
    else if neg then (fp32.nanCode, true, false)
    else
      let odd := e % 2 != 0
      let m' := if odd then 2 * m else m
      let e' := if odd then e - 1 else e
      let k := Nat.log2 m' + 64
      let q := (1 <<< (2 * k)) / m'
      let r := isqrt q
      ((roundCode fp32 false r (-(e' / 2) - k) (r * r * m' != 1 <<< (2 * k))).1, false, false)

/-- arctan(1/x) scaled by 2^P, within x-independent 2^12 units for P ≤ 8192. -/
def atanInv (x P : Nat) : Int :=
  ((List.range (P / 4 + 4)).foldl (fun (a : Nat × Int) k =>
    let t := a.1 / (2 * k + 1)
    (a.1 / (x * x), if k % 2 == 0 then a.2 + t else a.2 - t)) ((1 <<< P) / x, (0 : Int))).2

/-- π scaled by 2^P, by Machin's formula. -/
def piScaled (P : Nat) : Int := 16 * atanInv 5 P - 4 * atanInv 239 P

/-- sin and cos of ±m × 2^e, each scaled by 2^N and within 2^16 units. -/
def sinCosScaled (neg : Bool) (m : Nat) (e : Int) (N : Nat) : Int × Int :=
  let P := N + 160
  let th := shiftInt (m : Int) (e + P)
  let hp := piScaled P / 2
  let q := (2 * th + hp) / (2 * hp)
  let r := shiftInt (th - q * hp) (-160)
  let r2 := shiftInt (r * r) (-(N : Int))
  let s := (List.range (N / 4 + 8)).foldl (fun (a : Int × Int × Int × Int) (k : Nat) =>
    let c' := -(shiftInt (a.2.1 * r2) (-(N : Int))) / ((2 * k + 1) * (2 * k + 2))
    let s' := -(shiftInt (a.1 * r2) (-(N : Int))) / ((2 * k + 2) * (2 * k + 3))
    (s', c', a.2.2.1 + s', a.2.2.2 + c')) (r, (1 : Int) <<< N, r, (1 : Int) <<< N)
  let sc : Int × Int := match (q % 4).toNat with
    | 0 => (s.2.2.1, s.2.2.2)
    | 1 => (s.2.2.2, -s.2.2.1)
    | 2 => (-s.2.2.1, -s.2.2.2)
    | _ => (-s.2.2.2, s.2.2.1)
  (if neg then -sc.1 else sc.1, sc.2)

/-- The FP32 code on which the bounds v N ± 2^16, scaled by 2^−N, agree. -/
def roundSigned (v : Nat → Int) : Nat :=
  let code (x : Int) (N : Nat) (st : Bool) := (roundCode fp32 (decide (x < 0)) x.natAbs (-(N : Int)) st).1
  let tries := precisions.map fun N => (code (v N - 65536) N false, code (v N + 65536) N false)
  match tries.find? (fun t => t.1 == t.2) with
  | some t => t.1
  | none => code (v 5120) 5120 false

/-- sin θ (`false`) or cos θ (`true`), correctly rounded (R262); free at an infinite θ (log 2). -/
def fpTrig (cos : Bool) : Fp → Nat
  | .nan => fp32.nanCode
  | .inf neg => (Config.trigOfInf cos neg).toNat
  | .fin neg m e =>
    if m == 0 then (if cos then 0x3F80_0000 else (fpEncode fp32 (.fin neg 0 0)).1)
    else roundSigned (fun N => let p := sinCosScaled neg m e N; if cos then p.2 else p.1)

end Sys2Proof.Machine
end

