-- ==== Sys2Proof/Machine/Vector.lean ====
section
/-! DEFINITION. Aithal classes 0x6 and 0x7: vector arithmetic and special functions (R259 to R262). -/
namespace Sys2Proof.Machine

/-- The formats a vector operand accepts (R259). -/
def vfmts : List Nat := [1, 2, 6, 7]

/-- One result: the code in the destination's format, and whether VINVALID and VOVF occurred (R214, R259). `v` is the FP32 code. -/
def vresult (f : FpFmt) (ops : List Fp) (v : Nat) : Nat × Bool × Bool :=
  let x := fpDecode fp32 v
  let r := (fpEncode f x).1
  (r, x.isNan && ops.all (fun o => !o.isNan), (x.isInf || (fpDecode f r).isInf) && ops.all Fp.isFin)

/-- An exact value rounded once to FP32, as a result (R259). -/
def vround (f : FpFmt) (ops : List Fp) (x : Fp) : Nat × Bool × Bool := vresult f ops (fpEncode fp32 x).1

/-- Element i of row j of the second operand, broadcast under R259. -/
def bcast (b : List (List Fp)) (j i : Nat) : Fp :=
  match b with
  | [[x]] => x
  | [r] => nth .nan r i
  | _ => nth .nan (nth [] b j) i

/-- Shapes of R259: TD as TA; TB as TA, one row, or one element. -/
def shapeOk3 (dd da db : Desc) : Bool :=
  dd.len0 == da.len0 && dd.len1 == da.len1 &&
  ((db.len0 == da.len0 && db.len1 == da.len1) || (db.len0 == da.len0 && db.len1 == 1) || (db.len0 == 1 && db.len1 == 1))

/-- Rows of an operand as numbers. -/
def Core.frows (k : Core) (n : W48) (d : Desc) : List (List Fp) := (k.rows n d).map fun r => r.map (fpDecode (fmtOf d.fmt))

/-- Results written to the destination, and their flags set (R214). -/
def Core.putResults (k : Core) (n : W48) (d : Desc) (rs : List (List (Nat × Bool × Bool))) : Core :=
  let k := k.flagIf (rs.any fun r => r.any fun x => x.2.1) stVinvalid
  let k := k.flagIf (rs.any fun r => r.any fun x => x.2.2) stVovf
  k.putRows n d (rs.map fun r => r.map Prod.fst)

/-- Indices paired with a list's elements. -/
def enum {α : Type} (l : List α) : List (Nat × α) := (List.range l.length).zip l

/-- The cycles of class 0x6 per element (R259). -/
def vtime (d : Desc) : Nat := 6 + ceilDiv d.count 512
/-- The cycles of the row reductions (R259). -/
def rtime (d : Desc) : Nat := 12 + 2 * ceilDiv d.count 512
/-- The cycles of class 0x7 (R261). -/
def stime (d : Desc) : Nat := 10 + ceilDiv d.count 256

/-- A two-operand element-wise instruction (R259): f on the decoded operands gives the exact value. -/
def vbin (c : CoreId) (td ta tb : TReg) (f : Fp → Fp → Fp) (t : Nat) (s : State) : Fire :=
  let k := s.core c
  let n := s.tick.seq
  let dd := descOf (k.treg td)
  let da := descOf (k.treg ta)
  let db := descOf (k.treg tb)
  unitOp c .vector [(da, vfmts), (db, vfmts)] [(dd, vfmts)] (if shapeOk3 dd da db then none else some xDesc) t (vtime da) none
    (fun k =>
      let b := k.frows n db
      k.putResults n dd ((enum (k.frows n da)).map fun p => (enum p.2).map fun q =>
        let y := bcast b p.1 q.1
        vround (fmtOf dd.fmt) [q.2, y] (f q.2 y))) s

/-- A one-operand element-wise instruction: f gives the FP32 code. -/
def vun (c : CoreId) (td ta : TReg) (ut : Desc → Nat) (f : Fp → Nat) (more : List Fp) (t : Nat) (s : State) : Fire :=
  let k := s.core c
  let n := s.tick.seq
  let dd := descOf (k.treg td)
  let da := descOf (k.treg ta)
  unitOp c .vector [(da, vfmts)] [(dd, vfmts)] (if dd.len0 = da.len0 ∧ dd.len1 = da.len1 then none else some xDesc) t (ut da) none
    (fun k => k.putResults n dd ((k.frows n da).map fun r => r.map fun x => vresult (fmtOf dd.fmt) (x :: more) (f x))) s

/-- One level of the reduction tree: neighbours combined, an odd last one passed on (R260). -/
def pairUp (f : Fp → Fp → Fp) : List Fp → List Fp
  | a :: b :: t => f a b :: pairUp f t
  | l => l

/-- The fixed binary tree over a row by lane index (R260). -/
def tree (f : Fp → Fp → Fp) (l : List Fp) : Fp :=
  nth (.fin false 0 0) ((List.range (Nat.log2 l.length + 1)).foldl (fun l _ => pairUp f l) l) 0

/-- A row reduction to one element (R259, R260). -/
def vred (c : CoreId) (td ta : TReg) (f : List Fp → Fp) (t : Nat) (s : State) : Fire :=
  let k := s.core c
  let n := s.tick.seq
  let dd := descOf (k.treg td)
  let da := descOf (k.treg ta)
  unitOp c .vector [(da, vfmts)] [(dd, vfmts)] (if dd.len0 = 1 ∧ dd.len1 = da.len1 then none else some xDesc) t (rtime da) none
    (fun k => k.putResults n dd ((k.frows n da).map fun r => [vround (fmtOf dd.fmt) r (f r)])) s

/-- `vadd` (R259). -/
def execVadd (c : CoreId) (g : Guard) (td ta tb : TReg) (s : State) : Out :=
  .next (fire c (.vadd c g td ta tb) g (vbin c td ta tb fpAdd) s)
/-- `vsub` (R259). -/
def execVsub (c : CoreId) (g : Guard) (td ta tb : TReg) (s : State) : Out :=
  .next (fire c (.vsub c g td ta tb) g (vbin c td ta tb fun a b => fpAdd a b.negate) s)
/-- `vmul` (R259). -/
def execVmul (c : CoreId) (g : Guard) (td ta tb : TReg) (s : State) : Out :=
  .next (fire c (.vmul c g td ta tb) g (vbin c td ta tb fpMul) s)
/-- `vmax` (R259). -/
def execVmax (c : CoreId) (g : Guard) (td ta tb : TReg) (s : State) : Out :=
  .next (fire c (.vmax c g td ta tb) g (vbin c td ta tb (fpMaxMin false)) s)
/-- `vmin` (R259). -/
def execVmin (c : CoreId) (g : Guard) (td ta tb : TReg) (s : State) : Out :=
  .next (fire c (.vmin c g td ta tb) g (vbin c td ta tb (fpMaxMin true)) s)

/-- `vfma` (R259): the product and the sum rounded once, together. -/
def execVfma (c : CoreId) (g : Guard) (td ta tb : TReg) (s : State) : Out :=
  .next (fire c (.vfma c g td ta tb) g (fun t s =>
    let k := s.core c
    let n := s.tick.seq
    let dd := descOf (k.treg td)
    let da := descOf (k.treg ta)
    let db := descOf (k.treg tb)
    unitOp c .vector [(da, vfmts), (db, vfmts), (dd, vfmts)] [(dd, vfmts)]
      (if shapeOk3 dd da db then none else some xDesc) t (vtime da) none (fun k =>
        let b := k.frows n db
        let d := k.frows n dd
        k.putResults n dd ((enum (k.frows n da)).map fun p => (enum p.2).map fun q =>
          let y := bcast b p.1 q.1
          let z := nth .nan (nth [] d p.1) q.1
          vround (fmtOf dd.fmt) [q.2, y, z] (fpAdd (fpMul q.2 y) z))) s) s)

/-- `vscl` (R259): TA × the FP32 value in the low 32 bits of s[SA]. -/
def execVscl (c : CoreId) (g : Guard) (td ta : TReg) (sa : SReg) (s : State) : Out :=
  .next (fire c (.vscl c g td ta sa) g (fun t s =>
    let y := fpDecode fp32 (((s.core c).sreg sa).toNat % 2 ^ 32)
    vun c td ta vtime (fun x => (fpEncode fp32 (fpMul x y)).1) [y] t s) s)
/-- `vcvt` (R259). -/
def execVcvt (c : CoreId) (g : Guard) (td ta : TReg) (s : State) : Out :=
  .next (fire c (.vcvt c g td ta) g (vun c td ta vtime (fun x => (fpEncode fp32 x).1) []) s)
/-- `vsum` (R259, R260). -/
def execVsum (c : CoreId) (g : Guard) (td ta : TReg) (s : State) : Out :=
  .next (fire c (.vsum c g td ta) g (vred c td ta (tree fun a b => r32 (fpAdd a b))) s)
/-- `vmaxr` (R259, R260). -/
def execVmaxr (c : CoreId) (g : Guard) (td ta : TReg) (s : State) : Out :=
  .next (fire c (.vmaxr c g td ta) g (vred c td ta (tree (fpMaxMin false))) s)

/-- mean of n values with FP32 sum s, plus 2^−k, rounded once to FP32 (R259; the intermediate roundings DEDUCED, log 10). -/
def meanEps (sum : Fp) (n k : Nat) : Fp :=
  match sum with
  | .fin false m e =>
    let x := e + k
    let nd := if 0 ≤ x then (m <<< x.toNat + n, n <<< k) else (m + n <<< (-x).toNat, n <<< (-e).toNat)
    fpDecode fp32 (roundRat fp32 false nd.1 nd.2 0).1
  | v => v

/-- `vnorm` (R259, R260): TA × rsqrt(mean of TA² over the row + 2^−k) × TB. -/
def execVnorm (c : CoreId) (g : Guard) (td ta tb : TReg) (k6 : BitVec 6) (s : State) : Out :=
  .next (fire c (.vnorm c g td ta tb k6) g (fun t s =>
    let k := s.core c
    let n := s.tick.seq
    let dd := descOf (k.treg td)
    let da := descOf (k.treg ta)
    let db := descOf (k.treg tb)
    let bad := if dd.len0 = da.len0 ∧ dd.len1 = da.len1 ∧ db.len0 = da.len0 ∧ db.len1 = 1 then none else some xDesc
    unitOp c .vector [(da, vfmts), (db, vfmts)] [(dd, vfmts)] bad t (rtime da) none (fun k =>
      let gain := nth [] (k.frows n db) 0
      k.putResults n dd ((k.frows n da).map fun row =>
        let sum := tree (fun a b => r32 (fpAdd a b)) (row.map fun x => r32 (fpMul x x))
        let r := fpDecode fp32 (fpRsqrt (meanEps sum row.length k6.toNat)).1
        (enum row).map fun q =>
          let y := nth .nan gain q.1
          vround (fmtOf dd.fmt) (y :: row) (fpMul (fpMul q.2 r) y))) s) s)

/-- `vexp` (R261). -/
def execVexp (c : CoreId) (g : Guard) (td ta : TReg) (s : State) : Out :=
  .next (fire c (.vexp c g td ta) g (vun c td ta stime (fun x => (fpExp x).1) []) s)
/-- `vrcp` (R261). -/
def execVrcp (c : CoreId) (g : Guard) (td ta : TReg) (s : State) : Out :=
  .next (fire c (.vrcp c g td ta) g (vun c td ta stime (fun x => (fpRcp x).1) []) s)
/-- `vrsqrt` (R261). -/
def execVrsqrt (c : CoreId) (g : Guard) (td ta : TReg) (s : State) : Out :=
  .next (fire c (.vrsqrt c g td ta) g (vun c td ta stime (fun x => (fpRsqrt x).1) []) s)
/-- `vsilu` (R261). -/
def execVsilu (c : CoreId) (g : Guard) (td ta : TReg) (s : State) : Out :=
  .next (fire c (.vsilu c g td ta) g (vun c td ta stime (fun x => (fpSilu x).1) []) s)
/-- `vgelu` (R261). -/
def execVgelu (c : CoreId) (g : Guard) (td ta : TReg) (s : State) : Out :=
  .next (fire c (.vgelu c g td ta) g (vun c td ta stime (fun x => (fpGelu x).1) []) s)
/-- `vtanh` (R261). -/
def execVtanh (c : CoreId) (g : Guard) (td ta : TReg) (s : State) : Out :=
  .next (fire c (.vtanh c g td ta) g (vun c td ta stime (fun x => (fpTanh x).1) []) s)
/-- `vsigm` (R261). -/
def execVsigm (c : CoreId) (g : Guard) (td ta : TReg) (s : State) : Out :=
  .next (fire c (.vsigm c g td ta) g (vun c td ta stime (fun x => (fpSigmoid x).1) []) s)

/-- One pair of `vrope` (R262): x cos θ − y sin θ and x sin θ + y cos θ with θ = p × f rounded once. -/
def ropePair (f : FpFmt) (p : Nat) (x y fr : Fp) : (Nat × Bool × Bool) × (Nat × Bool × Bool) :=
  let th := r32 (fpMul (.fin false p 0) fr)
  let cs := fpDecode fp32 (fpTrig true th)
  let sn := fpDecode fp32 (fpTrig false th)
  (vround f [x, y, fr] (fpAdd (fpMul x cs) (fpMul y sn).negate), vround f [x, y, fr] (fpAdd (fpMul x sn) (fpMul y cs)))

/-- `vrope` (R262). -/
def execVrope (c : CoreId) (g : Guard) (td ta tb : TReg) (sa : SReg) (s : State) : Out :=
  .next (fire c (.vrope c g td ta tb sa) g (fun t s =>
    let k := s.core c
    let n := s.tick.seq
    let dd := descOf (k.treg td)
    let da := descOf (k.treg ta)
    let db := descOf (k.treg tb)
    let h := da.len0 / 2
    let p := (k.sreg sa).toNat % 2 ^ 32
    let bad := if dd.len0 = da.len0 ∧ dd.len1 = da.len1 ∧ da.len0 % 2 = 0 ∧ db.len0 = h ∧ db.len1 = 1 then none else some xDesc
    unitOp c .vector [(da, vfmts), (db, vfmts)] [(dd, vfmts)] bad t (stime da) none (fun k =>
      let fr := nth [] (k.frows n db) 0
      k.putResults n dd ((k.frows n da).map fun row =>
        let ps := (List.range h).map fun i => ropePair (fmtOf dd.fmt) p (nth .nan row i) (nth .nan row (i + h)) (nth .nan fr i)
        ps.map Prod.fst ++ ps.map Prod.snd)) s) s)

end Sys2Proof.Machine
end

