-- ==== Sys2Proof/Machine/Moves.lean ====
section
/-! DEFINITION. Aithal class 0x8: the move engine (R263). -/
namespace Sys2Proof.Machine

/-- Formats of `mov`: any but 9 (R263). -/
def movFmts : List Nat := [1, 2, 3, 4, 5, 6, 7, 8, 10, 11]
/-- Formats of `mgath`: any but 3, 4, 5 and 9 (R263). -/
def gathFmts : List Nat := [1, 2, 6, 7, 8, 10, 11]

/-- Bytes of row j of an extent. -/
def Core.rowRaw (k : Core) (n : W48) (d : Desc) (j : Nat) : Bytes := readBytes k.store (d.rowAt n j) d.rowBytes

/-- Row j written byte for byte. -/
def Core.putRaw (k : Core) (n : W48) (d : Desc) (j : Nat) (bs : Bytes) : Core := k.unitWrite (d.rowAt n j) bs

/-- Rows written byte for byte, from row 0. -/
def Core.putRaws (k : Core) (n : W48) (d : Desc) (rs : List Bytes) : Core :=
  (enum rs).foldl (fun k p => k.putRaw n d p.1 p.2) k

/-- Unit time of `mov` and `mfill` on B written bytes (R263). -/
def mtime (b : Nat) : Nat := 4 + ceilDiv b 128

/-- `mov` (R263): each row of TA copied to the same row of TD, byte for byte. -/
def execMov (c : CoreId) (g : Guard) (td ta : TReg) (s : State) : Out :=
  .next (fire c (.mov c g td ta) g (fun t s =>
    let k := s.core c
    let n := s.tick.seq
    let dd := descOf (k.treg td)
    let da := descOf (k.treg ta)
    let bad := if dd.fmt = da.fmt ∧ dd.len0 = da.len0 ∧ dd.len1 = da.len1 then none else some xDesc
    unitOp c .move [(da, movFmts)] [(dd, movFmts)] bad t (mtime (dd.len1 * dd.rowBytes)) none
      (fun k => k.putRaws n dd ((List.range da.len1).map (k.rowRaw n da))) s) s)

/-- `mfill` (R263): every element of TD set to the low bits of s[SA]. -/
def execMfill (c : CoreId) (g : Guard) (td : TReg) (sa : SReg) (s : State) : Out :=
  .next (fire c (.mfill c g td sa) g (fun t s =>
    let k := s.core c
    let n := s.tick.seq
    let dd := descOf (k.treg td)
    let row := List.replicate dd.len0 ((k.sreg sa).toNat)
    unitOp c .move [] [(dd, [1, 2, 6, 7, 8, 11])] none t (mtime (dd.len1 * dd.rowBytes)) none
      (fun k => k.putRows n dd (List.replicate dd.len1 row)) s) s)

/-- The row indices of `mgath`: the elements of TB, signed 32 bits. -/
def Core.gathIdx (k : Core) (n : W48) (db : Desc) : List Int := (k.rows n db).flatten.map (sext 32)

/-- `mgath` (R263): row i of TD becomes row TB[i] of TA; an index outside TA raises BOUNDS. -/
def execMgath (c : CoreId) (g : Guard) (td ta tb : TReg) (s : State) : Out :=
  .next (fire c (.mgath c g td ta tb) g (fun t s =>
    let k := s.core c
    let n := s.tick.seq
    let dd := descOf (k.treg td)
    let da := descOf (k.treg ta)
    let db := descOf (k.treg tb)
    let idx := k.gathIdx n db
    let bad :=
      if ¬(dd.fmt = da.fmt ∧ dd.len0 = da.len0 ∧ db.count = dd.len1) then some xDesc
      else if !k.ready2 n db then none
      else if idx.any (fun i => decide (i < 0 ∨ (da.len1 : Int) ≤ i)) then some xBounds else none
    unitOp c .move [(da, gathFmts), (db, [8])] [(dd, gathFmts)] bad t (8 + dd.len1 * ceilDiv dd.rowBytes 128) none
      (fun k => k.putRaws n dd (idx.map fun i => k.rowRaw n da i.toNat)) s) s)

end Sys2Proof.Machine
end

