-- ==== Sys2Proof/Machine/NetPort.lean ====
section
/-! DEFINITION. Aithal class 0x9: the network port (R264 to R266). -/
namespace Sys2Proof.Machine

/-- Route entry i of the almanac in force (R193). -/
def State.route (s : State) (i : Nat) : Option RouteEnt :=
  match s.alm with
  | some a => a.routes[i]?
  | none => none

/-- The index lies in the route range of the slot that core c runs (R236). -/
def State.routeInSlot (s : State) (c : CoreId) (i : Nat) : Bool :=
  match s.slotRec c with
  | some r => decide (r.routeFirst ≤ i ∧ i < r.routeFirst + r.routeCnt)
  | none => false

/-- The entry of a route that core c names, if it is in range and of a kind; else ROUTE or DESC_INVALID (R248). -/
def State.routeFor (s : State) (c : CoreId) (i kind : Nat) : Except Nat RouteEnt :=
  if !s.routeInSlot c i then .error xRoute
  else match s.route i with
    | none => .error xRoute
    | some r => if r.kind = kind then .ok r else .error xDesc

/-- Bytes in pieces of n, the last one short; the number of pieces is bounded by the fuel. -/
def piecesOf (n : Nat) : Nat → Bytes → List Bytes
  | 0, _ => []
  | f + 1, bs => if bs.isEmpty then [] else bs.take n :: piecesOf n f (bs.drop n)

/-- A string padded to a multiple of 64 bytes with the free byte (R265, log 9). -/
def pad64 (bs : Bytes) : Bytes := bs ++ List.replicate (alignUp bs.length 64 - bs.length) Config.padByte

/-- The flits of one message: FIRST on the first, LAST on the last, offsets rising by `step` per flit (R276, R277). -/
def messageOf (h : Header) (step : Nat) (ps : List Bytes) : List FlitBody :=
  (enum ps).map fun p =>
    ⟨{ h with first := p.1 == 0, last := p.1 + 1 == ps.length, offset := h.offset + step * p.1 }, pad64 p.2, p.2.length⟩

/-- Flits put into the network at a router by a sender (R586: injection), one per cycle from cycle `inj` on where a core sends them (R264, R268). -/
def State.inject (s : State) (src : Nat) (die : DieId) (router : Nat) (inj : Option Nat) (req : Option Nat) (fs : List FlitBody) : State :=
  { s with
    nextFlit := s.nextFlit + fs.length
    flits := s.flits ++ (enum fs).map fun p => ⟨s.nextFlit + p.1, src, p.2, die, router, false, false, inj.map (· + p.1), req, none⟩ }

/-- Flits of a frame in transit at an edge die's router (R416). -/
def State.injectVia (s : State) (src : Nat) (die : DieId) (fs : List FlitBody) (g : Frame) : State :=
  { s with
    nextFlit := s.nextFlit + fs.length
    flits := s.flits ++ (enum fs).map fun p => ⟨s.nextFlit + p.1, src, p.2, die, 0, false, false, none, none, some g⟩ }

/-- The header of a message of core c on route i (R277). -/
def headerFor (s : State) (c : CoreId) (i : Nat) (r : RouteEnt) (offset : Nat) (opMax int : Bool) : Header :=
  { kind := r.kind, form := r.form, destMember := r.destMember, die := r.destDie, destUnit := r.destUnit, route := i,
    seq := s.tick.seq.setWidth 8, cls := r.shareClass, vc := 1, first := false, last := false, offset := offset, opMax := opMax,
    srcCore := c.val, srcMember := s.member, int := int }

/-- A core's message put into the network at its router from cycle t on: the first flit after the two cycles of R264. -/
def State.sendFrom (s : State) (c : CoreId) (t : Nat) (req : Option Nat) (fs : List FlitBody) : State :=
  s.inject (1000 * s.member + c.val) (dieOf c) (c.val % 4) (some (t + 2)) req fs

/-- A body that goes on by injecting a message at the core's router, having fired in cycle t. -/
def thenInject (c : CoreId) (t : Nat) (fs : List FlitBody) : Fire → Fire
  | .go s cost next => .go (s.sendFrom c t none fs) cost next
  | f => f

/-- Unit time of the network port on B bytes (R264). -/
def ntime (b : Nat) : Nat := 2 + ceilDiv b 64

/-- `send` (R264, R265). -/
def execSend (c : CoreId) (g : Guard) (ta : TReg) (route : BitVec 16) (sa : SReg) (s : State) : Out :=
  .next (fire c (.send c g ta route sa) g (fun t s =>
    let k := s.core c
    let n := s.tick.seq
    let da := descOf (k.treg ta)
    let off := (k.sreg sa).toNat
    let len := da.len1 * alignUp da.rowBytes 64
    match s.routeFor c route.toNat 0 with
    | .error x => unitOp c .net [(da, movFmts)] [] (some x) t 0 none id s
    | .ok r =>
      let bad := if off % 64 ≠ 0 then some xAlign else if r.bankStride < off + len then some xBounds else none
      let bs := (List.range da.len1).flatMap fun j => pad64 (k.rowRaw n da j)
      thenInject c t (messageOf (headerFor s c route.toNat r off false false) 64 (piecesOf 64 bs.length bs))
        (unitOp c .net [(da, movFmts)] [] bad t (ntime len) none id s)) s)

/-- Bytes of an element on the wire by the form of the reduction (R291). -/
def formBytes (form : Nat) : Nat := if form = 2 then 32 else 4

/-- The formats of R266. -/
def redFmtOk (form fmt : Nat) (opMax : Bool) : Bool :=
  if form = 1 then fmt == 2 || (opMax && fmt == 8) else if form = 2 then !opMax && (fmt == 9 || fmt == 10) else false

/-- Elements that a reducer's operand holds (R287, R297). -/
def redCap (form : Nat) : Nat := if form = 2 then 512 else 4096

/-- The bytes of a partial, its elements in row order. -/
def Core.partialBytes (k : Core) (n : W48) (d : Desc) : Bytes :=
  if d.fmt = 9 ∨ d.fmt = 10 then (k.entries n d).flatMap fun v => leBytes 32 v.toNat
  else (List.range d.len1).flatMap (k.rowRaw n d)

/-- `red` (R264, R266, R297). -/
def execRed (c : CoreId) (g : Guard) (ta : TReg) (route : BitVec 16) (sa : SReg) (opMax : Bool) (s : State) : Out :=
  .next (fire c (.red c g ta route sa opMax) g (fun t s =>
    let k := s.core c
    let n := s.tick.seq
    let da := descOf (k.treg ta)
    let off := (k.sreg sa).toNat
    match s.routeFor c route.toNat 1 with
    | .error x => unitOp c .net [(da, [2, 8, 9, 10])] [] (some x) t 0 none id s
    | .ok r =>
      let eb := formBytes r.form
      let bad := if redFmtOk r.form da.fmt opMax = false then some xDesc
        else if redCap r.form < off + da.count then some xBounds else none
      let bs := k.partialBytes n da
      thenInject c t (messageOf (headerFor s c route.toNat r off opMax (da.fmt == 8)) (64 / eb) (piecesOf 64 bs.length bs))
        (unitOp c .net [(da, [2, 8, 9, 10])] [] bad t (ntime (da.count * eb)) none id s)) s)

end Sys2Proof.Machine
end

