-- ==== Sys2Proof/Machine/ServePort.lean ====
section
/-! DEFINITION. Aithal classes 0xA to 0xD: requests to the serving dies (R267 to R272), and the completion of unit instructions (R247). -/
namespace Sys2Proof.Machine

/-- REQ of a lane tag (R267). -/
def tagReq (v : W64) : Nat := field v.toNat 11 0
/-- POS of a lane tag. -/
def tagPos (v : W64) : Nat := field v.toNat 27 12
/-- LCLASS of a lane tag. -/
def tagClass (v : W64) : Nat := field v.toNat 29 28
/-- CAND of a lane tag. -/
def tagCand (v : W64) : Nat := field v.toNat 32 30
/-- LAST of a lane tag. -/
def tagLast (v : W64) : Bool := field v.toNat 33 33 == 1

/-- A request without a route, which goes to a serving die as it is: into its queue, or out of the package (DESIGN CHOICE, log 43: a `gfence` names no route, from which a flit's header
could be formed). -/
def State.request (s : State) (member : Nat) (r : ServeReq) : State :=
  let s := { s with nextReq := s.nextReq + 1 }
  if member = s.member then { s with inbox := s.inbox ++ [r] } else { s with outbound := s.outbound ++ [r] }

/-- A request of a core as the flits of one message (R268, R276): it reaches the queue of its serving die with the last of them. A request to another member leaves the package (log 43). -/
def State.requestBy (s : State) (c : CoreId) (t : Nat) (e : RouteEnt) (r : ServeReq) (bs : Bytes) : State :=
  let fs := messageOf (headerFor s c r.route e 0 false false) 0 (piecesOf 64 bs.length bs)
  let s := ({ s with nextReq := s.nextReq + 1 }).sendFrom c t (some r.id) fs
  if e.destMember = s.member then { s with wire := s.wire ++ [{ r with left := fs.length }] } else { s with outbound := s.outbound ++ [r] }

/-- Last cycle of the injection, from cycle t, of the operands that a serving-port instruction sends (R268). -/
def sentBy (t : Nat) (ds : List Desc) : Nat := t + ntime (ds.foldl (fun a d => a + d.len1 * d.rowBytes) 0) - 1

/-- A serving-port instruction: the checks of R226 and `bad`, the waits, and then `act` on the core with the completion cycle. It is in flight until
the serving die answers, or for its injection time alone on an idle lane (R268, R270). -/
def serveOp (c : CoreId) (rd wr : List (Desc × List Nat)) (bad : Option Nat) (t : Nat) (idle : Bool) (pd : Option PReg)
    (act : Core → Core) (after : State → State) (s : State) : Fire :=
  let k := s.core c
  let n := s.tick.seq
  let errs := rd.map (fun p => k.checkDesc n p.1 p.2 true false) ++ wr.map (fun p => k.checkDesc n p.1 p.2 false true)
  match firstExc (errs ++ [bad]) with
  | some x => .halt x s
  | none =>
    let re := extentsOf n (rd.map Prod.fst)
    let we := extentsOf n (wr.map Prod.fst)
    if k.busy .serve re we [] || !(rd.all fun p => k.ready2 n p.1) then .hold
    else .go (after (s.setCore c ((act k).dispatch .serve (if idle then some (sentBy t (rd.map Prod.fst)) else none) re we none pd [] none 0))) 1 none

/-- ROUTE or DESC_INVALID of the route that a serving-port instruction names, then a further check. -/
def routeBad (r : Except Nat RouteEnt) (more : Option Nat) : Option Nat :=
  match r with
  | .error x => some x
  | .ok _ => more

/-- The request of core c on a route (R268). -/
def requestOf (s : State) (c : CoreId) (kind : ReqKind) (tag : W64) (layer die route sent : Nat) : ServeReq :=
  { id := s.nextReq, core := c, inst := (s.core c).nextId, kind := kind, tag := tag, layer := layer, fmtA := 0, rowsA := [],
    rowsB := [], fmtB := 0, dstBase := 0, dstStride := 0, die := die, route := route, seq := s.tick.seq, pd := none, sent := sent, left := 0 }

/-- The request goes out, with the bytes of its operands, unless the lane is idle (R270). -/
def sendRequest (c : CoreId) (t : Nat) (r : Except Nat RouteEnt) (idle : Bool) (q : RouteEnt → ServeReq) (bs : Bytes) (s : State) : State :=
  match r with
  | .ok e => if idle then s else s.requestBy c t e (q e) bs
  | .error _ => s

/-- The bytes of an operand's rows, one after another. -/
def Core.operandBytes (k : Core) (n : W48) (d : Desc) : Bytes := (List.range d.len1).flatMap (k.rowRaw n d)

/-- `attn` (R268 to R270). -/
def execAttn (c : CoreId) (g : Guard) (ta tb : TReg) (route : BitVec 16) (sa : SReg) (layer : BitVec 10) (s : State) : Out :=
  .next (fire c (.attn c g ta tb route sa layer) g (fun t s =>
    let k := s.core c
    let n := s.tick.seq
    let da := descOf (k.treg ta)
    let db := descOf (k.treg tb)
    let tag := k.sreg sa
    let idle := tagClass tag == 0
    let r := s.routeFor c route.toNat 2
    let bad := routeBad r (if da.len0 = db.len0 ∧ da.len1 = db.len1 then none else some xDesc)
    let q (e : RouteEnt) : ServeReq :=
      { requestOf s c .attn tag layer.toNat e.destDie route.toNat (sentBy t [da]) with
        fmtA := da.fmt, rowsA := k.rows n da, fmtB := db.fmt, dstBase := db.lo n, dstStride := db.stride }
    serveOp c [(da, [1])] [(db, [1, 2])] bad t idle none
      (fun k =>
        let k := k.markLines (db.extent n).lo (db.extent n).hi false
        if idle then k.putRows n db (List.replicate db.len1 (List.replicate db.len0 0)) else k)
      (sendRequest c t r idle q (k.operandBytes n da)) s) s)

/-- `kvw` (R268 to R270). -/
def execKvw (c : CoreId) (g : Guard) (ta tb : TReg) (route : BitVec 16) (sa : SReg) (layer : BitVec 10) (s : State) : Out :=
  .next (fire c (.kvw c g ta tb route sa layer) g (fun t s =>
    let k := s.core c
    let n := s.tick.seq
    let da := descOf (k.treg ta)
    let db := descOf (k.treg tb)
    let tag := k.sreg sa
    let idle := tagClass tag == 0
    let r := s.routeFor c route.toNat 4
    let q (e : RouteEnt) : ServeReq :=
      { requestOf s c .kvw tag layer.toNat e.destDie route.toNat (sentBy t [da, db]) with
        fmtA := da.fmt, rowsA := k.rows n da, rowsB := k.rows n db }
    serveOp c [(da, [1]), (db, [1])] [] (routeBad r none) t idle none id (sendRequest c t r idle q (k.operandBytes n da ++ k.operandBytes n db)) s) s)

/-- `samp` (R268 to R270): at most 8 rows of at most 262,144 logits. -/
def execSamp (c : CoreId) (g : Guard) (ta : TReg) (route : BitVec 16) (sa : SReg) (s : State) : Out :=
  .next (fire c (.samp c g ta route sa) g (fun t s =>
    let k := s.core c
    let n := s.tick.seq
    let da := descOf (k.treg ta)
    let tag := k.sreg sa
    let idle := tagClass tag == 0
    let r := s.routeFor c route.toNat 3
    let bad := routeBad r (if 8 < da.len1 ∨ 262144 < da.len0 then some xDesc else none)
    let q (e : RouteEnt) : ServeReq :=
      { requestOf s c .samp tag 0 e.destDie route.toNat (sentBy t [da]) with fmtA := da.fmt, rowsA := k.rows n da }
    serveOp c [(da, [1, 2])] [] bad t idle none id (sendRequest c t r idle q (k.operandBytes n da)) s) s)

/-- `gfence` (R268 to R270): asks the home serving die S(REQ mod 2) of the serving member (R339). -/
def execGfence (c : CoreId) (g : Guard) (sa : SReg) (pd : PReg) (s : State) : Out :=
  .next (fire c (.gfence c g sa pd) g (fun t s =>
    let k := s.core c
    let tag := k.sreg sa
    let idle := tagClass tag == 0
    let q : ServeReq := { requestOf s c .gfence tag 0 (24 + tagReq tag % 2) 0 (sentBy t []) with pd := some pd }
    serveOp c [] [] none t idle (some pd) (fun k => if idle then k.setP pd false else k)
      (fun s' => if idle then s' else s'.request s.servingMember q) s) s)

/-- An array issue whose passes all have a verdict (R58), or an instruction that is no issue. -/
def UnitInst.settled (u : UnitInst) : Bool :=
  match u.issue with
  | some i => i.todo.isEmpty && i.due.isEmpty
  | none => true

/-- The last cycle by which a unit instruction may complete: DLN for an array issue (R172), else the work deadline (R171). -/
def State.lastCycle (s : State) (c : CoreId) (u : UnitInst) : Nat :=
  match u.issue with
  | some _ => s.dln c
  | none => s.wdl c

/-- UNIT_INSTRUCTION_COMPLETE (R247): the instruction leaves its unit; its scalar and predicate results are usable from the next cycle. -/
def execUnitInstructionComplete (c : CoreId) (id : Nat) (s : State) : Out :=
  let k := s.core c
  match k.inflight.find? (fun u => u.id == id) with
  | none => .next s
  | some u => match u.done with
    | none => .next s
    | some d =>
      if u.settled && decide (d ≤ s.lastCycle c u) && (s.tick.phase == .work || s.tick.phase == .drain)
      then .next (s.setCore c (k.complete u d)) else .next s

end Sys2Proof.Machine
end

