-- ==== Sys2Proof/Machine/Network.lean ====
section
/-! DEFINITION. The routers (R273 to R286), flits (R276, R298 to R300), deliveries (R221), reducers (R287 to R296). -/
namespace Sys2Proof.Machine

/-! ### Paths -/

/-- The ring of edge dies, clockwise (R279). -/
def edgeRing : List Nat := [28, 26, 29, 25, 31, 27, 30, 24]

/-- Weight dies linked to an edge die on the north or south edge (R13). -/
def edgeDies (e : Nat) : List Nat :=
  if e = 26 then [2, 3] else if e = 27 then [20, 21] else if e = 28 then [0, 1] else if e = 29 then [4, 5]
  else if e = 30 then [18, 19] else if e = 31 then [22, 23] else []

/-- Distance of two numbers. -/
def gapOf (a b : Nat) : Nat := (a - b) + (b - a)

/-- The attach die between edge die e and weight die w (R279). -/
def attach (e w : Nat) : Nat :=
  if e = 24 then w / 6 * 6 else if e = 25 then w / 6 * 6 + 5
  else match edgeDies e with
    | [a, b] => if gapOf (b % 6) (w % 6) < gapOf (a % 6) (w % 6) then b else a
    | _ => w

/-- The next weight die from w to v along the row, then the column (R278); w itself when there. -/
def meshNext (w v : Nat) : Nat :=
  if w % 6 < v % 6 then w + 1 else if v % 6 < w % 6 then w - 1
  else if w / 6 < v / 6 then w + 6 else if v / 6 < w / 6 then w - 6 else w

/-- The next edge die around the ring (R279). -/
def ringNext (a b : Nat) : Nat :=
  let i := edgeRing.findIdx (· == a)
  let j := edgeRing.findIdx (· == b)
  let cw := (j + 8 - i) % 8
  if cw = 0 then a else if cw ≤ 4 then nth a edgeRing ((i + 1) % 8) else nth a edgeRing ((i + 7) % 8)

/-- The next die on the way from one die to another (R278, R279). -/
def dieNext (a b : Nat) : Nat :=
  if a < 24 then
    if b < 24 then meshNext a b else if attach b a = a then b else meshNext a (attach b a)
  else if b < 24 then attach a b else ringNext a b

/-- Neighbours of a die in the order of its UCIe ports (R274); 32 stands for none. -/
def portDies (d : Nat) : List Nat :=
  if d < 24 then
    let x := d % 6
    let y := d / 6
    [ if 0 < y then d - 6 else if x < 2 then 28 else if x < 4 then 26 else 29
    , if x < 5 then d + 1 else 25
    , if y < 3 then d + 6 else if x < 2 then 30 else if x < 4 then 27 else 31
    , if 0 < x then d - 1 else 24 ]
  else if d = 24 then [0, 6, 12, 18, 28, 30]
  else if d = 25 then [5, 11, 17, 23, 29, 31]
  else if d = 26 then [2, 3, 28, 29]
  else if d = 27 then [20, 21, 30, 31]
  else if d = 28 then [0, 1, 26, 24]
  else if d = 29 then [4, 5, 26, 25]
  else if d = 30 then [18, 19, 27, 24]
  else [22, 23, 27, 25]

/-- The port of die a that leads to die b. -/
def portTo (a b : Nat) : Nat := (portDies a).findIdx (· == b)

/-- The router that serves a UCIe port (R273); edge dies have one router (R275). -/
def portRouter (d p : Nat) : Nat := if 24 ≤ d then 0 else if p = 0 then 0 else if p = 1 then 2 else if p = 2 then 3 else 1

/-- The router of a destination unit of a route kind (R273, R287). -/
def unitRouter (kind die destUnit : Nat) : Nat := if 24 ≤ die then 0 else if kind = 1 then destUnit % 16 / 4 else destUnit % 4

/-- The next router inside a die: across the seam in the router's own row first (R278). -/
def routerNext (r q : Nat) : Nat := if r / 2 ≠ q / 2 then (r + 2) % 4 else q

/-- A die code as a die. -/
def asDie (n : Nat) : DieId := ⟨n % 32, by omega⟩

/-- What a flit does next: it is at its destination, it takes an on-die lane, a UCIe link, a fabric link, or it has no way on. -/
inductive Hop where
  | here
  | lane (router : Nat)
  | link (port : Nat) (die router : Nat)
  | fabric (k : Nat)
  | nowhere
deriving DecidableEq, Repr

/-- Exit codes at reset by dimension order: the shorter way round, + on a tie (R413). -/
def localDefault (pos p : Nat) : Nat :=
  let step (s : Nat) := let d := (p / s + 4 - pos / s % 4) % 4
    if d = 0 then 2 else if d ≤ 2 then 0 else 1
  if step 1 ≠ 2 then step 1 else if step 4 ≠ 2 then 2 + step 4 else if step 16 ≠ 2 then 4 + step 16 else 8

/-- The package's Skeist address (R411). -/
def State.addr (s : State) : BitVec 16 := BitVec.ofNat 16 (64 * s.fab.rack.toNat + s.fab.pos.toNat)

/-- Exit code for an address (R413). -/
def State.exitCode (s : State) (a : BitVec 16) : Nat :=
  if a.toNat / 64 = s.fab.rack.toNat then smGet (localDefault s.fab.pos.toNat) s.fab.localRoute (a.toNat % 64)
  else smGet (fun _ => 15) s.fab.rackRoute (a.toNat / 64)

/-- The fabric link of a lane for an exit code (R408, R409). -/
def exitLink (code lane : Nat) : Nat := 4 * code + lane

/-- State of fabric link k (R451). -/
def State.flink (s : State) (k : Nat) : Nat := smGet (fun _ => 0) s.fab.link k

/-- The address of a member in the group record (R417). -/
def State.memberAddr (s : State) (m : Nat) : BitVec 16 := nth 0xFFFF s.grp.record.memberPos m

/-- The other members of the record in force. -/
def State.others (s : State) : List Nat :=
  if s.grp.state == .spare then [] else (List.range s.grp.record.members).filter (· != s.member)

/-- The way on inside the package from a router to the router `dr` of die `dst` (R278, R279). -/
def hopTo (d r dst dr : Nat) : Hop :=
  if d = dst then (if r = dr ∨ 24 ≤ d then .here else .lane (routerNext r dr))
  else
    let nx := dieNext d dst
    let p := portTo d nx
    let q := portRouter d p
    if r ≠ q ∧ d < 24 then .lane (routerNext r q) else .link p nx (portRouter nx (portTo nx d))

/-- The places of a way inside the package, at most `fuel` of them: die, router, and the UCIe port by which it leaves the place, if by one (R278 to R280, R282). -/
def wayFrom : Nat → Nat → Nat → Nat → Nat → List (Nat × Nat × Option Nat)
  | 0, _, _, _, _ => []
  | fuel + 1, d, r, dst, dr => match hopTo d r dst dr with
    | .lane q => (d, r, none) :: wayFrom fuel d q dst dr
    | .link p nx q => (d, r, some p) :: wayFrom fuel nx q dst dr
    | _ => [(d, r, none)]

/-- The longest way inside the package: eight weight dies of three routers each, and the ring of edge dies. -/
def wayFuel : Nat := 40

/-- The optical die and the fabric link by which traffic of route i leaves for another member (R280, R414). -/
def State.fabricExit (s : State) (member i : Nat) : Option Nat :=
  let code := s.exitCode (s.memberAddr member)
  if code < 8 then some (exitLink code (i % 4)) else none

/-- Fabric link k as a hop, unless it is down (R414), or the package sends nothing since presence broke (R445). -/
def State.fabricOut (s : State) (k : Nat) : Hop := if s.fab.present ∧ s.flink k ∈ [1, 2] then .fabric k else .nowhere

/-- The next hop of a flit (R278 to R280, R414); a flit in transit leaves by the link of its frame (R416). -/
def State.hop (s : State) (f : Flit) : Hop :=
  let h := f.body.hdr
  if let some g := f.via then s.fabricOut g.link.val
  else if h.destMember ≠ s.member then
    match hopTo f.die.val f.router (28 + h.route % 4) 0 with
    | .here => match s.fabricExit h.destMember h.route with
      | some k => s.fabricOut k
      | none => .nowhere
    | x => x
  else hopTo f.die.val f.router h.die (unitRouter h.kind h.die h.destUnit)

/-- The sending port of a hop (R274). -/
def Hop.port : Hop → Option Nat
  | .lane _ => some 4
  | .link p _ _ => some p
  | .fabric k => some (4 + k / 4)
  | _ => none

/-! ### Shares and grants -/

/-- Key of class c at port p of a die. -/
def shareKey (d p c : Nat) : Nat := (16 * d + p) * 64 + c

/-- Share of a class (R283). -/
def State.share (s : State) (d p c : Nat) : Nat := smGet shareDefault s.fab.shares (shareKey d p c)

/-- The first class after `last`, in class order, for which `ok` holds (R284). -/
def classAfter (last : Nat) (ok : Nat → Bool) : Option Nat :=
  (List.range 64).findSome? fun i => let c := (last + 1 + i) % 64; if ok c then some c else none

/-- What a port grants next, and its arbitration after it (R284): `none` for a control flit, else a class. In the first and the 34th slot of a round a waiting control flit is served; data
slots that only control flits wait for go by idle. -/
def grant (share : Nat → Nat) (ctl : Bool) (waiting : Nat → Bool) : Nat → PortArb → Option (Option Nat × PortArb)
  | 0, _ => none
  | fuel + 1, a =>
    let credit := if a.slot = 0 then (List.range 64).map share else a.credit
    let slot := (a.slot + 1) % 66
    if ctl && (a.slot == 0 || a.slot == 33) then some (none, { a with slot := slot, credit := credit })
    else match classAfter a.lastServed (fun c => waiting c && decide (0 < nth 0 credit c)) with
      | some c => some (some c, { a with slot := slot, credit := credit.set c (nth 0 credit c - 1), lastServed := c })
      | none => match classAfter a.lastLent waiting with
        | some c => some (some c, { a with slot := slot, credit := credit, lastLent := c })
        | none => if ctl then grant share ctl waiting fuel { a with slot := slot, credit := credit } else none

/-- The arbitration of a port after n idle slots (R284): credits are renewed at the start of each round. -/
def PortArb.idle (a : PortArb) (share : Nat → Nat) (n : Nat) : PortArb :=
  if n = 0 then a
  else { a with slot := (a.slot + n) % 66, credit := if a.slot = 0 ∨ 66 < a.slot + n then (List.range 64).map share else a.credit }

/-- The flits that wait at a port of a die, oldest first. -/
def State.waitingAt (s : State) (d : DieId) (p : Nat) : List Flit :=
  s.flits.filter fun f => f.die = d && !f.arrived && !f.seam && (s.hop f).port == some p

/-- The UCIe port of a die is up, at x64 or x32 (R305). -/
def State.portUp (s : State) (d p : Nat) : Bool := nth 0 (s.die (asDie d)).portState p == 1 || nth 0 (s.die (asDie d)).portState p == 2

/-- The flit has the next slot of its port: it is the first of the granted class, or of the control flits; with the state after the grant. A port at which nothing waited has let an unknown number
of slots go by (log 42). -/
def State.granted (s : State) (f : Flit) (p : Nat) : Option State :=
  let key := 16 * f.die.val + p
  let ws := s.waitingAt f.die p
  let data := ws.filter fun x => x.body.hdr.vc != 0
  let ctl := ws.filter fun x => x.body.hdr.vc == 0
  let a := smGet arbDefault s.fab.arb key
  let a := if a.drained then a.idle (s.share f.die.val p) (Config.idleSlots s.free) else a
  match grant (s.share f.die.val p) (!ctl.isEmpty) (fun c => data.any fun x => x.body.hdr.cls == c) 67 a with
  | some (w, a) =>
    let next : Option Flit := match w with
      | some c => data.find? fun (x : Flit) => x.body.hdr.cls == c
      | none => ctl.head?
    if next.map Flit.id = some f.id then
      some { s with
        free := s.free + 1
        fab := { s.fab with arb := smSet arbDefault s.fab.arb key { a with drained := decide (ws.length ≤ 1) } } }
    else none
  | none => none

/-! ### Hops -/

/-- A flit taken out of the network. -/
def State.dropFlit (s : State) (id : Nat) : State := { s with flits := s.flits.filter fun f => f.id != id }

/-- A flit replaced in place. -/
def State.setFlit (s : State) (f : Flit) : State := { s with flits := s.flits.map fun x => if x.id == f.id then f else x }

/-- A flit come to another place, behind those that are there (R19, R281). -/
def State.moveFlit (s : State) (f : Flit) : State := { s.dropFlit f.id with flits := (s.dropFlit f.id).flits ++ [{ f with inj := none }] }

/-- No earlier flit of its sender on the same route and sequence is left in the network (R281). -/
def State.firstOf (s : State) (f : Flit) : Bool :=
  !s.flits.any fun g => g.src == f.src && g.body.hdr.route == f.body.hdr.route && g.body.hdr.seq == f.body.hdr.seq && decide (g.id < f.id)

/-- The network half of a router can be used (R24, R26); edge dies have no switchable network. -/
def State.netOn (s : State) (d r : Nat) : Bool := decide (24 ≤ d) || (s.die (asDie d)).domUse.getLsbD (20 + r % 4 / 2)

/-- The flits in a crossing buffer of a die's seam, towards a router, oldest first (R19). -/
def State.seamBuffer (s : State) (d : DieId) (r : Nat) : List Flit := s.flits.filter fun f => f.seam && f.die = d && f.router == r

/-- Words corrected by a die (R299, R307). -/
def Die.corrected (d : Die) (n : Nat) : Die := { d with eccCorr := satAdd 0x7FFF_FFFF d.eccCorr n }

/-- A resend asked for by a die (R300, R307). -/
def Die.retried (d : Die) : Die := { d with eccRetry := satAdd 0x7FFF_FFFF d.eccRetry 1 }

/-- A bit of FAB_RED_EVT (R306). -/
def Die.red (d : Die) (i : Nat) : Die := { d with redEvt := setBit d.redEvt i }

/-- The tag of the record in force (R428) goes into frames; frames hold the record's GROUP_ID and EPOCH through it. -/
def extendFrames (fs : List (Nat × OutFrame)) (f : Frame) : List (Nat × OutFrame) :=
  match fs.reverse with
  | (k, .data g) :: rest =>
    if g.link = f.link ∧ g.dest = f.dest ∧ g.fvc = f.fvc ∧ g.tick = f.tick ∧ g.tag = f.tag ∧ g.flits.length < 8
    then ((k, .data { g with flits := g.flits ++ f.flits }) :: rest).reverse else fs ++ [(f.link.val, .data f)]
  | _ => fs ++ [(f.link.val, .data f)]

/-- A granted flit of a frame in transit joins that frame on its exit link, or begins it there (R416, R419). -/
def extendTransit (fs : List (Nat × OutFrame)) (f : Frame) : List (Nat × OutFrame) :=
  match fs.reverse with
  | (k, .transit g) :: rest =>
    if { g with flits := [] } = { f with flits := [] } ∧ g.flits.length < 8
    then ((k, .transit { g with flits := g.flits ++ f.flits }) :: rest).reverse else fs ++ [(f.link.val, .transit f)]
  | _ => fs ++ [(f.link.val, .transit f)]

/-- Destination address of a frame. -/
def OutFrame.dest : OutFrame → BitVec 16
  | .data f | .transit f => f.dest
  | .join f _ => f.dest
  | .stamp d _ | .convene d _ | .ruling d _ _ | .leave d _ _ _ | .requests d _ | .escrow d _ _ | .load d _ => d

/-- The lowest lane of the exit towards an address whose link is up carries the package's own frames (R413, R414; DESIGN CHOICE for the transfers of class 63, log 57): its link. -/
def State.ownLink (s : State) (a : BitVec 16) : Option Nat :=
  let code := s.exitCode a
  if 8 ≤ code then none else ((List.range 4).map (exitLink code)).find? fun k => decide (s.flink k ∈ [1, 2])

/-- Frames sent by this package, each on its link: none once presence has broken (R445), and none where no link is up (R414). -/
def State.sendFrames (s : State) (l : List OutFrame) : State :=
  if s.fab.present then { s with fab := { s.fab with frames := s.fab.frames ++ l.filterMap fun f => (s.ownLink f.dest).map fun k => (k, f) } } else s

/-- The first hop from coordinate x in the direction crosses the dateline of its ring (R415). -/
def crossesDateline (pos code : Nat) : Bool :=
  let x := if code < 2 then pos % 4 else if code < 4 then pos / 4 % 4 else pos / 16 % 4
  decide (code < 6) && (if code % 2 = 0 then x == 3 else x == 0)

/-- VC of a frame that leaves its source by an exit: D0, or D1 past a dateline (R415, R418). -/
def firstVc (pos code : Nat) : Nat := if crossesDateline pos code then 2 else 1

/-- A link number. -/
def asLink (k : Nat) : Fin 32 := ⟨k % 32, by omega⟩

/-- What a receiving die does with the words of a flit or a frame (R299, R300, R420): it is kept, or discarded after a second failure. -/
def checkWords (s : State) (dst : DieId) (e : Ecc) (keep : State → State) : State :=
  match e with
  | .clean => keep s
  | .corrected n => keep (s.modDie dst fun d => d.corrected n)
  | .badOnce => keep (s.modDie dst Die.retried)
  | .badTwice => (s.modDie dst fun d => d.retried.red 7).lose 5 dst.val

/-- What the receiving hop does with a flit of this package (R299, R300). -/
def receiveWords (s : State) (dst : DieId) (e : Ecc) (id : Nat) (keep : State → State) : State :=
  if e = .badTwice then checkWords (s.dropFlit id) dst e keep else checkWords s dst e keep

/-- The network runs in the work window and the drain (R167). -/
def State.running (s : State) : Bool := s.tick.phase == .work || s.tick.phase == .drain

end Sys2Proof.Machine
end

