-- ==== Sys2Proof/Machine/Hash.lean ====
section
/-! DEFINITION. SHAKE256 with a 256-bit output, the digest of the manual (R199, R384, R428), and CRC-32 (R422). -/
namespace Sys2Proof.Machine

/-- Rotation offsets of the lanes x + 5y. -/
def keccakRot : List Nat := [0, 1, 62, 28, 27, 36, 44, 6, 55, 20, 3, 10, 43, 25, 39, 41, 45, 15, 21, 8, 18, 2, 61, 56, 14]

/-- Round constants. -/
def keccakRc : List W64 :=
  [0x1, 0x8082, 0x800000000000808A, 0x8000000080008000, 0x808B, 0x80000001, 0x8000000080008081, 0x8000000000008009, 0x8A, 0x88,
   0x80008009, 0x8000000A] ++
  [0x8000808B, 0x800000000000008B, 0x8000000000008089, 0x8000000000008003, 0x8000000000008002, 0x8000000000000080, 0x800A,
   0x800000008000000A, 0x8000000080008081, 0x8000000000008080, 0x80000001, 0x8000000080008008]

/-- One round of Keccak-f[1600] on 25 lanes. -/
def keccakRound (a : List W64) (rc : W64) : List W64 :=
  let c := (List.range 5).map fun x => nth 0 a x ^^^ nth 0 a (x + 5) ^^^ nth 0 a (x + 10) ^^^ nth 0 a (x + 15) ^^^ nth 0 a (x + 20)
  let d := (List.range 5).map fun x => nth 0 c ((x + 4) % 5) ^^^ (nth 0 c ((x + 1) % 5)).rotateLeft 1
  let a := (List.range 25).map fun i => nth 0 a i ^^^ nth 0 d (i % 5)
  let b := (List.range 25).map fun i =>
    let j := (i % 5 + 3 * (i / 5)) % 5 + 5 * (i % 5)
    (nth 0 a j).rotateLeft (nth 0 keccakRot j)
  (List.range 25).map fun i =>
    let y := i / 5 * 5
    let v := nth 0 b i ^^^ (~~~(nth 0 b (y + (i + 1) % 5)) &&& nth 0 b (y + (i + 2) % 5))
    if i = 0 then v ^^^ rc else v

/-- The permutation. -/
def keccakF (a : List W64) : List W64 := keccakRc.foldl keccakRound a

/-- A 64-bit lane of a block of bytes. -/
def laneAt (bs : Bytes) (i : Nat) : W64 := BitVec.ofNat 64 (leAt bs (8 * i) 8)

/-- Blocks of 136 bytes absorbed; one block for each step of the fuel. -/
def absorb : Nat → List W64 → Bytes → List W64
  | 0, a, _ => a
  | n + 1, a, bs =>
    absorb n (keccakF ((List.range 25).map fun i => if i < 17 then nth 0 a i ^^^ laneAt bs i else nth 0 a i)) (bs.drop 136)

/-- SHAKE256 padding to a multiple of 136 bytes. -/
def shakePad (bs : Bytes) : Bytes :=
  let q := 136 - bs.length % 136
  if q = 1 then bs ++ [0x9F] else bs ++ [0x1F] ++ List.replicate (q - 2) 0 ++ [0x80]

/-- The 256-bit SHAKE256 output over a string. -/
def shake256 (bs : Bytes) : Bytes :=
  let p := shakePad bs
  let a := absorb (p.length / 136) (List.replicate 25 0) p
  ((List.range 4).flatMap fun i => leBytes 8 (nth 0 a i).toNat)

/-- A digest as a number, little-endian (R8). -/
def digest (bs : Bytes) : BitVec 256 := BitVec.ofNat 256 (leNat (shake256 bs))

/-- CRC-32 of IEEE 802.3, reflected, one byte. -/
def crcByte (c : W32) (b : Byte) : W32 :=
  (List.range 8).foldl (fun c _ => if c.getLsbD 0 then (c >>> 1) ^^^ 0xEDB88320 else c >>> 1) (c ^^^ b.setWidth 32)

/-- CRC-32 of IEEE 802.3 over a string (R422). -/
def crc32 (bs : Bytes) : W32 := ~~~(bs.foldl crcByte 0xFFFFFFFF)

/-- Addresses of a record list, 2 bytes each. -/
def addrBytes (n : Nat) (l : List (BitVec 16)) : Bytes := (List.range n).flatMap fun i => leBytes 2 (nth 0xFFFF l i).toNat

/-- The 128 bytes of a group record (R427). -/
def recordBytes (r : GroupRecord) : Bytes :=
  leBytes 2 r.groupId.toNat ++ leBytes 1 r.members ++ [0] ++ leBytes 4 r.epoch.toNat ++ leBytes 32 r.almanacDigest.toNat
  ++ leBytes 4 r.generation.toNat ++ leBytes 4 r.staged.toNat ++ leBytes 8 r.fwVersion.toNat ++ leBytes 4 r.patchEpoch.toNat
  ++ List.replicate 4 0 ++ addrBytes 16 r.memberPos ++ addrBytes 4 r.sparePos ++ leBytes 6 r.tickEpoch.toNat
  ++ List.replicate 18 0

/-- A group record from its 128 bytes (R427). -/
def recordOf (bs : Bytes) : GroupRecord :=
  { groupId := BitVec.ofNat 16 (leAt bs 0 2), members := leAt bs 2 1, epoch := BitVec.ofNat 32 (leAt bs 4 4)
    almanacDigest := BitVec.ofNat 256 (leAt bs 8 32), generation := BitVec.ofNat 32 (leAt bs 40 4)
    staged := BitVec.ofNat 32 (leAt bs 44 4), fwVersion := BitVec.ofNat 64 (leAt bs 48 8)
    patchEpoch := BitVec.ofNat 32 (leAt bs 56 4)
    memberPos := (List.range 16).map fun i => BitVec.ofNat 16 (leAt bs (64 + 2 * i) 2)
    sparePos := (List.range 4).map fun i => BitVec.ofNat 16 (leAt bs (96 + 2 * i) 2)
    tickEpoch := BitVec.ofNat 48 (leAt bs 104 6) }

/-- The group tag: bytes 0–3 of the digest over the record (R428). -/
def recordTag (r : GroupRecord) : W32 := BitVec.ofNat 32 (leAt (shake256 (recordBytes r)) 0 4)

end Sys2Proof.Machine
end

