-- ==== Sys2Proof/Machine/Reducers.lean ====
section
/-! DEFINITION. Flit hops and deliveries (R298 to R301), reducers (R287 to R296), scrubbing (R302, R303), in-package links (R15 to R17). -/
namespace Sys2Proof.Machine

/-- The frame that a flit leaves in by fabric link k (R418, R419). -/
def State.frameOf (s : State) (f : Flit) (k : Nat) : Frame :=
  let dest := s.memberAddr f.body.hdr.destMember
  { typ := 0, fvc := firstVc s.fab.pos.toNat (s.exitCode dest), dest := dest, src := s.addr, tick := s.tick.count.setWidth 16,
    tag := recordTag s.grp.record, hops := 0, link := asLink k, flits := [f.body] }

/-- A granted flit goes over a lane of a die (R19, R278): across the seam it enters the crossing buffer, which the grant needs to have room; its words are checked where it leaves it. -/
def State.laneHop (s : State) (f : Flit) (r p : Nat) (e : Ecc) : State :=
  if !s.netOn f.die.val r then s
  else if r / 2 ≠ f.router / 2 then
    if 64 ≤ (s.seamBuffer f.die r).length then s
    else match s.granted f p with
      | none => s
      | some s1 => s1.moveFlit { f with router := r, seam := true }
  else match s.granted f p with
    | none => s
    | some s1 => receiveWords s1 f.die e f.id fun s => s.moveFlit { f with router := r }

/-- A granted flit goes over a UCIe link that is up (R278 to R280, R300). -/
def State.linkHop (s : State) (f : Flit) (p d r : Nat) (e : Ecc) : State :=
  if !s.portUp f.die.val p || !s.netOn d r then s
  else match s.granted f p with
    | none => s
    | some s1 => receiveWords s1 (asDie d) e f.id fun s => s.moveFlit { f with die := asDie d, router := r }

/-- A granted flit leaves by a fabric link; the far package checks its words (R420). -/
def State.fabricHop (s : State) (f : Flit) (k p : Nat) : State :=
  match s.granted f p with
  | none => s
  | some s1 =>
    let fs := match f.via with
      | some g => extendTransit s1.fab.frames { g with flits := [f.body] }
      | none => extendFrames s1.fab.frames (s.frameOf f k)
    { s1.dropFlit f.id with fab := { s1.fab with frames := fs } }

/-- FLIT_HOP_RECEIVE (R19, R278 to R281, R284, R298 to R300): the flit takes its next hop when its port grants it a slot, and the receiving hop checks its words; a flit in the seam's crossing
buffer leaves it in order. A flit whose exit is unreachable is discarded (R413, R414). -/
def execFlitHopReceive (id : Nat) (e : Ecc) (s : State) : Out :=
  match s.flits.find? (fun f => f.id == id) with
  | none => .next s
  | some f =>
    if (!s.running && f.via.isNone) || f.arrived || !s.netOn f.die.val f.router then .next s
    else if f.seam then
      if (s.seamBuffer f.die f.router).head?.map Flit.id = some id then .next (receiveWords s f.die e id fun s => s.moveFlit { f with seam := false })
      else .next s
    else match s.hop f with
      | .here => .next (if s.firstOf f then s.setFlit { f with arrived := true, inj := none } else s)
      | .nowhere => .next (s.dropFlit id)
      | .lane r => .next (s.laneHop f r 4 e)
      | .link p d r => .next (s.linkHop f p d r e)
      | .fabric k => .next (s.fabricHop f k (4 + k / 4))

/-- Core number of a die's local core. -/
def coreAt (d : DieId) (u : Nat) : Option CoreId :=
  if h : d.val < 24 then some ⟨4 * d.val + u % 4, by have := Nat.mod_lt u (show 0 < 4 by omega); omega⟩ else none

/-- The sequence number of a flit from the low 8 bits it carries: this tick's or, one ahead, the next (R165, R290). -/
def fullSeq (n : W48) (b : BitVec 8) : W48 := if b = n.setWidth 8 then n else if b = (n + 1).setWidth 8 then n + 1 else n - 1

/-- A flit of a serving-port request reaches the serving die (R268, R276): with the last one the request stands in its queue. -/
def State.requestFlit (s : State) (f : Flit) : State :=
  let s := s.dropFlit f.id
  match f.req.bind fun i => s.wire.find? fun q => q.id == i with
  | none => s
  | some q =>
    if q.left ≤ 1 then { s with wire := s.wire.filter (fun x => x.id != q.id), inbox := s.inbox ++ [{ q with left := 0 }] }
    else { s with wire := s.wire.map fun x => if x.id = q.id then { x with left := x.left - 1 } else x }

/-- FLIT_DELIVERY (R221, R265, R268, R281, R294): the flits of a message in order. The line is written at BANK_BASE + (n mod 3) × BANK_STRIDE + OFFSET, and its arrival bit set; a flit of a request is
taken by the serving die. -/
def execFlitDelivery (id : Nat) (s : State) : Out :=
  match s.flits.find? (fun f => f.id == id) with
  | none => .next s
  | some f =>
    let h := f.body.hdr
    let here := f.arrived || (!f.seam && s.hop f == .here)
    if !s.running || !here || !s.firstOf f || !s.netOn f.die.val f.router || h.kind = 1 then .next s
    else if h.kind ≠ 0 then .next (s.requestFlit f)
    else if s.tick.leap then .next s
    else match coreAt f.die h.destUnit, s.route h.route with
      | some c, some r =>
        let n := fullSeq s.tick.seq h.seq
        .next ((s.modCore c fun k => k.unitWrite (r.bankBase + n.toNat % 3 * r.bankStride + h.offset) f.body.data).dropFlit id)
      | _, _ => .next (s.dropFlit id)

/-! ### Reducers -/

/-- Key of reducer u of a die. -/
def redKey (d u : Nat) : Nat := 16 * d + u % 16

/-- A reducer (R287). -/
def State.reducer (s : State) (d u : Nat) : Reducer := smGet reducerDefault s.reducers (redKey d u)

/-- A reducer replaced. -/
def State.setReducer (s : State) (d u : Nat) (r : Reducer) : State :=
  { s with reducers := smSet reducerDefault s.reducers (redKey d u) r }

/-- Order of FP32 codes with +0 above −0 (R291). -/
def fp32Key (c : Nat) : Int := if c < 2 ^ 31 then c else (2 ^ 31 : Int) - 1 - c

/-- One FP32 value combined for add: exact at 2^−149 (R291). -/
def RedElem.addFp (x : RedElem) (c : Nat) : RedElem :=
  match fpDecode fp32 c with
  | .nan => { x with nan := true }
  | .inf true => { x with ninf := true }
  | .inf false => { x with pinf := true }
  | .fin n m e => { x with sum := x.sum + fpInt n m e (-149) }

/-- One FP32 value combined for max (R291). -/
def RedElem.maxFp (x : RedElem) (c : Nat) : RedElem :=
  if (fpDecode fp32 c).isNan then { x with nan := true }
  else match x.best with
    | none => { x with best := some c }
    | some b => if fp32Key b.toNat < fp32Key c then { x with best := some c } else x

/-- One INT32 value combined for max (R291). -/
def RedElem.maxInt (x : RedElem) (c : Nat) : RedElem :=
  match x.best with
  | none => { x with best := some (sext 32 c) }
  | some b => if b < sext 32 c then { x with best := some (sext 32 c) } else x

/-- One accumulator entry combined (R291). -/
def RedElem.addAcc (x : RedElem) (y : Acc) : RedElem :=
  let x := { x with nan := x.nan || y.nan, unf := x.unf || y.unf, ovf := x.ovf || y.ovf, rows := x.rows + y.rows }
  if !y.anchored then x
  else
    let x := { x with anchorMix := x.anchorMix || (x.anchor.isSome && x.anchor != some y.a), anchor := some (x.anchor.getD y.a) }
    if y.ovf then (if y.s < 0 then { x with satNeg := true } else { x with satPos := true }) else { x with sum := x.sum + y.s }

/-- One element of a partial combined (R291). -/
def RedElem.combine (x : RedElem) (form : Nat) (opMax int : Bool) (v : Nat) : RedElem :=
  if form = 2 then x.addAcc (accOf (BitVec.ofNat 256 v))
  else if int then x.maxInt v else if opMax then x.maxFp v else x.addFp v

/-- A flit of a partial combined (R290 to R292). -/
def Reducer.take (r : Reducer) (h : Header) (data : Bytes) (used : Nat) : Reducer :=
  let eb := formBytes h.form
  let n := used / eb
  let elems := (List.range n).foldl (fun m i =>
    smSet elemDefault m (h.offset + i) ((smGet elemDefault m (h.offset + i)).combine h.form h.opMax h.int (leAt data (eb * i) eb))) r.elems
  let ops := addNew r.ops (h.opMax, h.int)
  { r with
    elems := elems, len := max r.len (h.offset + n), ops := ops, count := r.count + (if h.last then 1 else 0),
    failed := r.failed || decide (1 < ops.length) || elems.any (fun p => p.2.anchorMix) }

/-- FAB_RED_EVT bits of a failed reduction (R292, R306). -/
def Die.redFail (d : Die) (r : Reducer) : Die :=
  let d := if 1 < r.ops.length then d.red 1 else d
  if r.elems.any (fun p => p.2.anchorMix) then d.red 2 else d

/-- REDUCER_COMBINE (R290 to R292). A flit of the next sequence waits; one of any other sequence is discarded as STALE. -/
def execReducerCombine (id : Nat) (s : State) : Out :=
  match s.flits.find? (fun f => f.id == id) with
  | none => .next s
  | some f =>
    let h := f.body.hdr
    let u := h.destUnit % 16
    let here := f.arrived || (!f.seam && s.hop f == .here)
    if !s.running || !here || !s.firstOf f || !s.netOn f.die.val (u / 4) || h.kind ≠ 1 || 24 ≤ f.die.val then .next s
    else
      let r := s.reducer f.die.val u
      let armed := if r.armed then r.seq else s.tick.seq.setWidth 8
      if h.seq = armed + 1 then .next s
      else if h.seq ≠ armed then .next ((s.modDie f.die fun d => d.red 3).dropFlit id)
      else if !r.armed || h.route ≠ r.route then .next s
      else
        let r := r.take h f.body.data f.body.used
        .next (((s.setReducer f.die.val u r).modDie f.die fun d => if r.failed then d.redFail r else d).dropFlit id)

/-- The long-accumulator entry of a reduced element, and whether its rows exceed 65,536 (R293). -/
def RedElem.entry (x : RedElem) : Acc × Bool :=
  let out := decide (x.sum < -(2 ^ 127 : Int) ∨ (2 ^ 127 : Int) ≤ x.sum)
  let sv : Int := if x.satPos then satS true else if x.satNeg then satS false
    else if out then satS (decide (0 < x.sum)) else x.sum
  let k := decide (65536 < x.rows)
  (⟨if x.anchor.isSome then sv else 0, x.anchor.getD 0, x.rows, x.nan || (x.satPos && x.satNeg) || k, x.unf,
    x.ovf || out, x.anchor.isSome⟩, k)

/-- The delivered bytes of an element by the input form, the operation and the onward form; OUTPUT_OVF and K_LIMIT (R293). -/
def RedElem.deliver (x : RedElem) (form onward : Nat) (opMax int : Bool) : Bytes × Bool × Bool :=
  let f := if onward = 0 then bf16 else fp32
  let eb := if onward = 0 then 2 else 4
  if form = 2 then
    let e := x.entry
    if onward = 2 then (leBytes 32 e.1.bits.toNat, false, e.2)
    else let o := e.1.output f; (leBytes eb o.1, o.2, e.2)
  else if int then (leBytes 4 (toBits 32 (x.best.getD (-(2 ^ 31 : Int)))), false, false)
  else
    let v : Fp := if opMax then (if x.nan then .nan else match x.best with
        | some b => fpDecode fp32 b.toNat
        | none => .inf true)
      else if x.nan || (x.pinf && x.ninf) then .nan
      else if x.pinf then .inf false else if x.ninf then .inf true
      else fpOfInt false x.sum (-149)
    let o := fpEncode f v
    (leBytes eb o.1, v.isFin && o.2, false)

/-- REDUCER_DELIVERY (R293, R294): at exactly PARTIALS counted partials the result leaves along the onward route. -/
def execReducerDelivery (d : DieId) (unit : Fin 16) (s : State) : Out :=
  let r := s.reducer d.val unit.val
  match s.route r.route, s.route (r.route + 1) with
  | some rt, some on =>
    if !s.running || !s.netOn d.val (unit.val / 4) || !r.armed || r.failed || r.delivered || r.bad || r.count ≠ rt.partials then .next s
    else
      let op := nth (false, false) r.ops 0
      let es := (List.range r.len).map fun i => (smGet elemDefault r.elems i).deliver rt.form on.form op.1 op.2
      let bs := es.flatMap Prod.fst
      let h : Header :=
        { kind := on.kind, form := on.form, destMember := on.destMember, die := on.destDie, destUnit := on.destUnit,
          route := r.route + 1, seq := r.seq, cls := on.shareClass, vc := 1, first := false, last := false, offset := 0,
          opMax := on.kind == 1 && op.1, srcCore := Config.reducerSrc d.val, srcMember := s.member,
          int := on.kind == 1 && on.form == 1 && op.2 }
      let fs := if on.kind = 0 then messageOf h 64 (piecesOf 64 (bs.length + 64) (pad64 bs))
        else messageOf h (64 / formBytes on.form) (piecesOf 64 bs.length bs)
      let s1 := s.modDie d fun x =>
        let x := if es.any (fun e => e.2.1) then x.red 5 else x
        if es.any (fun e => e.2.2) then x.red 4 else x
      .next ((s1.setReducer d.val unit.val { r with delivered := true }).inject (1000 * s.member + 500 + redKey d.val unit.val) d (unit.val / 4) none none fs)
  | _, _ => .next s

/-! ### Scrubbing and links -/

/-- A byte lies in the program region or the constant window (R303). -/
def Core.rewritable (k : Core) (a : Nat) : Bool :=
  decide (k.progLo ≤ a ∧ a < k.progHi) || decide (k.cLo ≤ a ∧ a < k.cHi)

/-- The failing lines of the program region and the constant window rewritten from the carve-out copy (R239, R303). -/
def Core.rewrite (k : Core) : Core := { k with badStore := k.badStore.filter fun w => !k.rewritable (16 * w) }

/-- SCRUB (R299, R302, R303): a corrected word is counted; an uncorrectable word stays bad until a write replaces it, or until the scheduler core rewrites its line before the
core's next slot (`Core.rewrite`); a reducer's word is discarded with its reduction (R301). -/
def execScrub (d : DieId) (w : ScrubWord) (uncorrectable : Bool) (s : State) : Out :=
  if !uncorrectable then .next (s.modDie d fun x => x.corrected 1)
  else match w with
    | .store c a =>
      if dieOf c ≠ d ∨ !s.good c then .next s
      else .next (s.modCore c fun k => { k with badStore := addNew k.badStore (a / 16) })
    | .acc c a => if dieOf c ≠ d ∨ !s.good c then .next s
      else .next (s.modCore c fun k => { k with badAcc := addNew k.badAcc (a / 16) })
    | .reducer u =>
      let r := s.reducer d.val u
      if r.armed && s.running then .next ((s.setReducer d.val u { r with bad := true }).lose 5 d.val) else .next s

/-- State of both ends of a UCIe link set (R305): 0 down, 1 degraded to x32, 2 at x64, 3 training. -/
def State.setPort (s : State) (d : DieId) (p v : Nat) : State :=
  let e := asDie (nth d.val (portDies d.val) p)
  let put (x : Die) (i : Nat) : Die := { x with portState := ((List.range 6).map fun j => nth 0 x.portState j).set i v }
  (s.modDie d fun x => put x p).modDie e fun x => put x (portTo e.val d.val)

/-- The PHY domains of both ends of a UCIe link are switched on (R24): bits 22 to 25 of a weight die for its ports N, E, S, W; edge dies have no such switch. -/
def State.phyOn (s : State) (d p : Nat) : Bool :=
  let on (d p : Nat) : Bool := decide (24 ≤ d) || (s.die (asDie d)).domCtrl.getLsbD (22 + p)
  let e := nth d (portDies d) p
  on d p && on e (portTo e d)

/-- Every UCIe link of a die with PHY power at both ends starts its training (R15, R305). -/
def State.startTraining (s : State) (d : Nat) (ps : List Nat) : State :=
  ps.foldl (fun s p => if decide (p < (portDies d).length) && s.phyOn d p then s.setPort (asDie d) p 3 else s) s

/-- Keys of the links of a way: 16 × die + port, from its sending end (R282). -/
def wayLinks (w : List (Nat × Nat × Option Nat)) : List Nat := w.filterMap fun x => x.2.2.map fun p => 16 * x.1 + p

/-- The ways of the traffic on route i of an almanac from a router: to the route's destination and, for a request, back with its answer; then those of the onward route of a reduction (R278 to R282, R288). -/
def routeWays (a : Almanac) : Nat → Nat → Nat → Nat → List (List (Nat × Nat × Option Nat))
  | 0, _, _, _ => []
  | fuel + 1, d, r, i => match a.routes[i]? with
    | none => []
    | some e =>
      if e.destMember ≠ a.member then [wayFrom wayFuel d r (28 + i % 4) 0]
      else
        let q := unitRouter e.kind e.destDie e.destUnit
        wayFrom wayFuel d r e.destDie q ::
          (if 2 ≤ e.kind then [wayFrom wayFuel e.destDie q d r]
            else if e.kind = 1 then routeWays a fuel e.destDie q (i + 1) else [])

/-- The routes that an almanac's slots name, with the core that sends on them. -/
def Almanac.sends (a : Almanac) : List (Nat × Nat) :=
  a.cores.flatMap fun e => e.slots.foldl (fun l r => if r.entry = 0xFFFF_FFFF then l
    else (List.range r.routeCnt).foldl (fun l j => addNew l (e.core, r.routeFirst + j)) l) []

/-- Every way that an almanac uses in this package (R282). -/
def Almanac.ways (a : Almanac) : List (List (Nat × Nat × Option Nat)) :=
  a.sends.flatMap fun x => routeWays a 64 (x.1 / 4) (x.1 % 4) x.2

/-- The fabric links that an almanac's routes leave the package by (R280, R414). -/
def State.fabricUses (s : State) (a : Almanac) : List Nat :=
  a.sends.filterMap fun x => match a.routes[x.2]? with
    | some e => if e.destMember ≠ a.member then s.fabricExit e.destMember x.2 else none
    | none => none

/-- The almanac in force uses a UCIe link, in either direction, or fabric link k as 1,024 + k (R16, R17, R410): its routes and R278 to R282 say so. -/
def State.usesLink (s : State) (k : Nat) : Bool :=
  match s.alm with
  | none => false
  | some a =>
    if 1024 ≤ k then (s.fabricUses a).contains (k - 1024)
    else
      let e := nth (k / 16) (portDies (k / 16)) (k % 16)
      a.ways.any fun w => (wayLinks w).any fun x => x == k || x == 16 * e + portTo e (k / 16)

/-- LINK_TRAINING (R15, R24): a link with PHY power at both ends comes up at x64 or x32, or is down. -/
def execLinkTraining (d : DieId) (port : Fin 6) (r : LinkResult) (s : State) : Out :=
  if s.power = 0 ∧ port.val < (portDies d.val).length ∧ s.phyOn d.val port.val then
    .next (s.setPort d port.val (match r with | .x64 => 2 | .x32 => 1 | .down => 0))
  else .next s

/-- LINK_DEGRADE (R17): the link degrades or goes down; a link that the running almanac uses raises a package fault. -/
def execLinkDegrade (d : DieId) (port : Fin 6) (down : Bool) (s : State) : Out :=
  if s.power = 0 ∧ port.val < (portDies d.val).length ∧ s.portUp d.val port.val ∧ (down ∨ nth 0 (s.die d).portState port.val = 2) then
    let s1 := s.setPort d port.val (if down then 0 else 1)
    .next (if s.usesLink (16 * d.val + port.val) then s1.packageFault 0 else s1)
  else .next s

end Sys2Proof.Machine
end

