-- ==== Sys2Proof/Machine/KvStore.lean ====
section
/-! DEFINITION. The KV store of the serving dies: layer records (R310), page formats (R319, R320), frames (R319, R322), presence (R323, R324). -/
namespace Sys2Proof.Machine

/-- A serving die. -/
def State.sd (s : State) (d : Nat) : ServeDie := smGet serveDefault s.serve d
/-- A serving die replaced. -/
def State.setSd (s : State) (d : Nat) (x : ServeDie) : State := { s with serve := smSet serveDefault s.serve d x }
/-- A serving die changed. -/
def State.modSd (s : State) (d : Nat) (f : ServeDie → ServeDie) : State := s.setSd d (f (s.sd d))
/-- A request-table entry. -/
def State.req (s : State) (r : Nat) : Req := smGet reqDefault s.srv.reqs r
/-- A request-table entry replaced. -/
def State.setReq (s : State) (r : Nat) (x : Req) : State := { s with srv := { s.srv with reqs := smSet reqDefault s.srv.reqs r x } }
/-- A request-table entry changed. -/
def State.modReq (s : State) (r : Nat) (f : Req → Req) : State := s.setReq r (f (s.req r))

/-- A bit of SRV_ATTN_EVT (R336). -/
def ServeDie.attnBit (d : ServeDie) (i : Nat) : ServeDie := { d with attnEvt := setBit d.attnEvt i }
/-- A bit of SRV_SERVE_EVT (R378). -/
def ServeDie.serveBit (d : ServeDie) (i : Nat) : ServeDie := { d with serveEvt := setBit d.serveEvt i }

/-- An attention layer record (R310). -/
structure LayerRec where
  layer : Nat
  hq : Nat
  hkv : Nat
  d : Nat
  newFmt : Nat
  agedFmt : Nat
  age : Nat
  window : Nat
  sinks : Nat
  scale : Nat
deriving DecidableEq, Repr

/-- A record from its 16 bytes (R310). -/
def layerRecOf (bs : Bytes) : LayerRec :=
  { layer := leAt bs 0 2 % 1024, hq := leAt bs 2 1, hkv := leAt bs 3 1 % 64, d := 32 * (leAt bs 4 1 % 8 + 1),
    newFmt := leAt bs 5 1 % 4, agedFmt := leAt bs 5 1 / 4 % 4, age := leAt bs 6 2 % 1024, window := leAt bs 8 2,
    sinks := leAt bs 10 2, scale := leAt bs 12 4 }

/-- Content of an auxiliary section in force. -/
def State.auxContent (s : State) (kind unit : Nat) : Option Bytes :=
  (s.aux.find? fun a => a.kind == kind && a.unit == unit).map AuxSec.content

/-- All records of an attention layer table. -/
def layerRecs (bs : Bytes) : List LayerRec := (List.range (bs.length / 16)).map fun i => layerRecOf (sliceBytes bs (16 * i) 16)

/-- The record of a layer in the attention layer table of a serving die (R310, R387). -/
def State.layerRec (s : State) (d layer : Nat) : Option LayerRec :=
  match s.auxContent 3 (24 + d) with
  | some bs => (layerRecs bs).find? fun r => r.layer == layer
  | none => none

/-- Bytes of a key or value part of a page (R319). -/
def partBytes (l : LayerRec) (fmt : Nat) : Nat :=
  if fmt = 0 then 256 * l.hkv * l.d else if fmt = 1 then 128 * l.hkv * l.d else alignUp (68 * l.hkv * l.d) 64

/-- 4 KiB units of a frame (R319). -/
def frameUnits (l : LayerRec) (fmt : Nat) : Nat := ceilDiv (2 * alignUp (partBytes l fmt) 64) 4096

/-- Bytes per position by the read format (R329). -/
def posBytes (l : LayerRec) (fmt : Nat) : Nat :=
  if fmt = 0 then 4 * l.hkv * l.d else if fmt = 1 then 2 * l.hkv * l.d else 17 * l.hkv * l.d / 16

/-- A magnitude. -/
def Fp.abs : Fp → Fp
  | .nan => .nan
  | .inf _ => .inf false
  | .fin _ m e => .fin false m e

/-- One element into E4M3 and whether it saturated: a finite value whose rounded magnitude would exceed 448, or an infinity (R91, R320). -/
def toE4m3 (v : Fp) : Nat × Bool := fpEncode e4m3 v

/-- amax ≤ 6 × 2^E. -/
def fits (amax : Fp) (e : Int) : Bool := !fpLt (.fin false 6 e) amax

/-- The scale exponent of a block: the smallest E from −127 to 127 with amax ≤ 6 × 2^E (R320). -/
def blockExp (amax : Fp) : Int :=
  if amax.isZero then -127
  else match (List.range 255).find? (fun (i : Nat) => fits amax ((i : Int) - 127)) with
    | some i => (i : Int) - 127
    | none => 127

/-- One block of 32 elements into MXFP4: codes, the scale byte, and whether an element was clamped or is not finite (R320). -/
def toMx4 (xs : List Fp) : List Nat × Nat × Bool :=
  if xs.any (fun x => !x.isFin) then (xs.map fun _ => 0, 0xFF, true)
  else
    let amax := xs.foldl (fun a x => if fpLt a x.abs then x.abs else a) (.fin false 0 0)
    let e := blockExp amax
    let cs := xs.map fun x => match x with
      | .fin n m k => let c := roundCode e2m1 n m (k - e) false; (if c.1 % 8 = 0 then 0 else c.1, c.2)
      | _ => (0, false)
    (cs.map Prod.fst, (e + 127).toNat, cs.any Prod.snd)

/-- A list in pieces of n; one piece for each step of the fuel. -/
def chunks {α : Type} (n : Nat) : Nat → List α → List (List α)
  | 0, _ => []
  | f + 1, l => if l.isEmpty then [] else l.take n :: chunks n f (l.drop n)

/-- A row encoded into a page format: element codes, block scales, KV_SAT (R320). -/
def encodeRow (fmt : Nat) (xs : List Fp) : List Nat × List Nat × Bool :=
  if fmt = 0 then (xs.map fun x => (fpEncode bf16 x).1, [], false)
  else if fmt = 1 then
    let cs := xs.map toE4m3
    (cs.map Prod.fst, [], cs.any Prod.snd)
  else
    let bs := (chunks 32 (xs.length + 1) xs).map toMx4
    (bs.flatMap Prod.fst, bs.map fun b => b.2.1, bs.any fun b => b.2.2)

/-- The exact values of a stored row (R311). -/
def decodeRow (fmt : Nat) (codes scales : List Nat) : List Fp :=
  if fmt = 0 then codes.map (fpDecode bf16)
  else if fmt = 1 then codes.map (fpDecode e4m3)
  else (enum codes).map fun p =>
    let sc := nth 0xFF scales (p.1 / 32)
    if sc = 0xFF then .nan else fpMul (fpDecode e2m1 p.2) (.fin false 1 ((sc : Int) - 127))

/-- Byte offset of element (h, s, d) in a part, and of the scale of its block (R319). -/
def elemOff (l : LayerRec) (fmt h sl d : Nat) : Nat :=
  let i := (128 * h + sl) * l.d + d
  if fmt = 0 then 2 * i else if fmt = 1 then i else i / 2

/-- Byte offset of the scales of row (h, s) in an MXFP4 part (R319). -/
def scaleOff (l : LayerRec) (h sl : Nat) : Nat := 64 * l.hkv * l.d + (128 * h + sl) * (l.d / 32)

/-- The bytes of a row of codes. -/
def rowBytesOf (fmt : Nat) (codes : List Nat) : Bytes :=
  if fmt = 0 then codes.flatMap (leBytes 2) else if fmt = 1 then codes.flatMap (leBytes 1)
  else (chunks 2 (codes.length + 1) codes).map fun p => BitVec.ofNat 8 (nth 0 p 0 + 16 * nth 0 p 1)

/-- Address of the key part (`v` false) or value part of a frame (R319). -/
def partAt (l : LayerRec) (fmt frame : Nat) (v : Bool) : Nat := 4096 * frame + if v then alignUp (partBytes l fmt) 64 else 0

/-- One head's row written into a frame. -/
def putKvRow (m : List Host.Cell) (l : LayerRec) (fmt frame : Nat) (v : Bool) (h sl : Nat) (codes scales : List Nat) : List Host.Cell :=
  let a := partAt l fmt frame v
  let m := writeBytes m (a + elemOff l fmt h sl 0) (rowBytesOf fmt codes)
  if fmt = 2 then writeBytes m (a + scaleOff l h sl) (scales.map (BitVec.ofNat 8)) else m

/-- One head's row read from a frame: codes and scales. -/
def getKvRow (m : List Host.Cell) (l : LayerRec) (fmt frame : Nat) (v : Bool) (h sl : Nat) : List Nat × List Nat :=
  let a := partAt l fmt frame v
  let at' (d : Nat) := a + elemOff l fmt h sl d
  ((List.range l.d).map fun d =>
      if fmt = 0 then readNat m (at' d) 2 else if fmt = 1 then readNat m (at' d) 1
      else readNat m (at' d) 1 / 16 ^ (d % 2) % 16,
    if fmt = 2 then (List.range (l.d / 32)).map fun b => readNat m (a + scaleOff l h sl + b) 1 else [])

/-! ### Frames -/

/-- The lowest gap of n units in a pool, with the extents allocated in it in rising order (R319; which free frame, DESIGN CHOICE, log 14). -/
def findGap (lo hi n : Nat) : List (Nat × Nat) → Option Nat
  | [] => if lo + n ≤ hi then some lo else none
  | (a, k) :: t => if lo + n ≤ a then some lo else findGap (max lo (a + k)) hi n t

/-- An extent inserted in rising order. -/
def insertExt (x : Nat × Nat) : List (Nat × Nat) → List (Nat × Nat)
  | [] => [x]
  | y :: t => if x.1 < y.1 then x :: y :: t else y :: insertExt x t

/-- Units of the pool that are not allocated (R335). -/
def ServeDie.freeUnits (d : ServeDie) : Nat := d.poolUnits - d.alloc.foldl (fun a e => a + e.2) 0

/-- The frames reserved for a request and not taken (R343). -/
def ServeDie.own (d : ServeDie) (r : Nat) : List (Nat × Nat) := smGet (fun _ => []) d.resv r

/-- The frames reserved for a request replaced. -/
def ServeDie.setOwn (d : ServeDie) (r : Nat) (l : List (Nat × Nat)) : ServeDie := { d with resv := smSet (fun _ => []) d.resv r l }

/-- Units reserved for requests and not taken. -/
def ServeDie.reservedUnits (d : ServeDie) : Nat := d.resv.foldl (fun a e => e.2.foldl (fun a x => a + x.2) a) 0

/-- Extents of the pool that are allocated or reserved, rising. -/
def ServeDie.occupied (d : ServeDie) : List (Nat × Nat) := d.resv.foldl (fun l e => e.2.foldl (fun l x => insertExt x l) l) d.alloc

/-- The lowest free gap of n units that is neither allocated nor reserved. -/
def ServeDie.gap (d : ServeDie) (n : Nat) : Option Nat := findGap d.poolLo (d.poolLo + d.poolUnits) n d.occupied

/-- A frame of n units taken for request r: from a frame of u units that is reserved for it, else from a free gap; with whether the reservation gave it (R319, R343). -/
def ServeDie.take (d : ServeDie) (r n u : Nat) : Option (Nat × ServeDie × Bool) :=
  match (d.own r).find? fun e => e.2 == u with
  | some e =>
    let rest := if n < u then [(e.1 + n, u - n)] else []
    some (e.1, { d.setOwn r ((d.own r).erase e ++ rest) with alloc := insertExt (e.1, n) d.alloc }, true)
  | none => (d.gap n).map fun a => (a, { d with alloc := insertExt (a, n) d.alloc }, false)

/-- A frame of request r freed; `back` gives it to the request's reservation, in place of the one that was taken from it. -/
def ServeDie.release (d : ServeDie) (r a : Nat) (back : Bool) : ServeDie :=
  let d1 := { d with alloc := d.alloc.filter fun e => e.1 != a }
  if back then d1.setOwn r (d1.own r ++ d.alloc.filter fun e => e.1 == a) else d1

/-- Key of a page table entry. -/
def pageKey (r layer i : Nat) : Nat := (1024 * r + layer) * 512 + i

/-- A page table entry (R322). -/
def ServeDie.page (d : ServeDie) (r layer i : Nat) : PageEnt := smGet pageDefault d.pages (pageKey r layer i)

/-- A page table entry replaced. -/
def ServeDie.setPage (d : ServeDie) (r layer i : Nat) (p : PageEnt) : ServeDie :=
  { d with pages := smSet pageDefault d.pages (pageKey r layer i) p }

/-- A page directory header (R322). -/
def ServeDie.dir (d : ServeDie) (r : Nat) : Dir := smGet dirDefault d.dirs r

/-- A page directory header changed. -/
def ServeDie.modDir (d : ServeDie) (r : Nat) (f : Dir → Dir) : ServeDie := { d with dirs := smSet dirDefault d.dirs r (f (d.dir r)) }

/-- Pages of a request on a die, with their layer and index. -/
def ServeDie.pagesOf (d : ServeDie) (r : Nat) : List (Nat × Nat × PageEnt) :=
  (d.pages.filter fun e => e.1 / (1024 * 512) == r).map fun e => (e.1 / 512 % 1024, e.1 % 512, e.2)

/-- Page i of a layer is aged for a query at position p (R321). -/
def agedFor (l : LayerRec) (i p : Nat) : Bool := decide (l.age ≠ 0 ∧ l.sinks ≤ 128 * i ∧ i + l.age ≤ p / 128)

/-- Position j is attended by a query at p, presence apart (R315). -/
def attends (l : LayerRec) (dr : Dir) (p j : Nat) : Bool :=
  decide (j ≤ p) && (l.window == 0 || decide (p < j + l.window) || decide (j < l.sinks))
  && !(decide (dr.hideLo ≤ j) && decide (j < dr.hideHi))

/-- The newest staged write of a position that ran before tick u (R323, R324). -/
def State.stagedKv (s : State) (d r layer j : Nat) (u : W48) : Option KvStage :=
  s.srv.kv.reverse.find? fun w => w.die.val == d && w.req == r && w.layer == layer && w.pos == j && w.tick != u && !w.clash

/-- Position j is present for a request of tick u (R324). -/
def State.isPresent (s : State) (d r layer j : Nat) (u : W48) : Bool :=
  decide (j < 65535) && (((s.sd d).page r layer (j / 128)).present.getLsbD (j % 128) || (s.stagedKv d r layer j u).isSome)

/-- The decoded key and value rows of KV head h at position j, and KV_SAT of an encode made while reading (R311, R321). -/
def State.kvAt (s : State) (d : Nat) (l : LayerRec) (r j h p : Nat) (u : W48) : List Fp × List Fp × Bool :=
  let pg := (s.sd d).page r l.layer (j / 128)
  let fmt := match s.stagedKv d r l.layer j u with
    | some _ => l.newFmt
    | none => pg.fmt
  let rows := match s.stagedKv d r l.layer j u with
    | some w => ((nth [] w.keys h, nth [] w.keyScales h), (nth [] w.vals h, nth [] w.valScales h))
    | none => (getKvRow (s.sd d).dram l fmt pg.frame false h (j % 128), getKvRow (s.sd d).dram l fmt pg.frame true h (j % 128))
  let k := decodeRow fmt rows.1.1 rows.1.2
  let v := decodeRow fmt rows.2.1 rows.2.2
  if agedFor l (j / 128) p && fmt != l.agedFmt then
    let ke := encodeRow l.agedFmt k
    let ve := encodeRow l.agedFmt v
    (decodeRow l.agedFmt ke.1 ke.2.1, decodeRow l.agedFmt ve.1 ve.2.1, ke.2.2 || ve.2.2)
  else (k, v, false)

/-- The read format of page i for a query at p (R321). -/
def readFmt (l : LayerRec) (i p : Nat) : Nat := if agedFor l i p then l.agedFmt else l.newFmt

/-- The pages, ascending, that hold a position attended by a query at p (R309). -/
def attendedPages (l : LayerRec) (dr : Dir) (p : Nat) : List Nat :=
  (List.range (p / 128 + 1)).filter fun i => (List.range 128).any fun t => attends l dr p (128 * i + t)

/-- The positions of page i that a query at p attends. -/
def attendedIn (l : LayerRec) (dr : Dir) (p i : Nat) : List Nat :=
  ((List.range 128).map fun t => 128 * i + t).filter (attends l dr p)

/-- Bytes of the attention request of a query at p (R329). -/
def attnBytes (l : LayerRec) (dr : Dir) (p : Nat) : Nat :=
  (attendedPages l dr p).foldl (fun a i => a + (attendedIn l dr p i).length * posBytes l (readFmt l i p)) 0

end Sys2Proof.Machine
end

