-- ==== Sys2Proof/Machine/Attention.lean ====
section
/-! DEFINITION. Attention requests, page tasks and answers (R308 to R318), KV writes (R323 to R325, R328), ageing (R321), scrubbing of DRAM (R302, R333). -/
namespace Sys2Proof.Machine

/-! ### Answers to a core -/

/-- The core's instruction gets its answer: STATUS bits, an action on the core, and the completion at the cycle the core has reached, after its injection (R268, R269). -/
def State.answer (s : State) (q : ServeReq) (flags : List Nat) (act : Core → Core) : State :=
  s.modCore q.core fun k =>
    let k := act (flags.foldl (fun k f => k.pend q.inst f) k)
    { k with inflight := k.inflight.map fun u => if u.id == q.inst && u.unit == .serve then { u with done := some (max k.cyc q.sent) } else u }

/-- Rows written into the destination of an `attn` (R269). -/
def writeAnswer (q : ServeReq) (rows : List (List Nat)) (k : Core) : Core :=
  (enum rows).foldl (fun k p => k.unitWrite (q.dstBase + p.1 * q.dstStride) (p.2.flatMap (leBytes (elemBytes q.fmtB)))) k

/-- Zeros in the shape of the query (R270, R271). -/
def zerosFor (q : ServeReq) : List (List Nat) := q.rowsA.map fun r => r.map fun _ => 0

/-- A refusal (R271, R368): SERVE_REFUSED, zeros for an `attn`, and a report to the home die. -/
def State.refuse (s : State) (d : Nat) (q : ServeReq) (cause : Nat) (flags : List Nat) : State :=
  let s := s.answer q (stServeRefused :: flags) (if q.kind = .attn then writeAnswer q (zerosFor q) else id)
  s.modSd d fun x => { x with reports := x.reports ++ [⟨tagReq q.tag, tagPos q.tag, tagClass q.tag, cause, s.tick.count⟩] }

/-- The first waiting request of a kind at a serving die. -/
def State.nextServe (s : State) (d : Nat) (k : ReqKind) : Option ServeReq :=
  s.inbox.find? fun q => q.die == 24 + d && q.kind == k

/-- A request taken out of the queue. -/
def State.takeServe (s : State) (id : Nat) : State := { s with inbox := s.inbox.filter fun q => q.id != id }

/-- A page of the request on this die is LOST (R333). -/
def ServeDie.lostReq (d : ServeDie) (r : Nat) : Bool := (d.pagesOf r).any fun p => p.2.2.lost

/-- The refusal cause of an attention request, if any (R310, R324, R328, R333). -/
def State.attnRefusal (s : State) (d : Nat) (q : ServeReq) : Option Nat :=
  let r := tagReq q.tag
  let p := tagPos q.tag
  match s.layerRec d q.layer with
  | none => some 5
  | some l =>
    if q.rowsA.length ≠ l.hq ∨ q.rowsA.any (fun x => x.length != l.d) then some 4
    else if p = 65535 then some 3
    else if (s.sd d).lostReq r then some 6
    else if (attendedPages l ((s.sd d).dir r) p).any fun i =>
        (attendedIn l ((s.sd d).dir r) p i).any fun j => !s.isPresent d r q.layer j s.tick.count then some 0
    else none

/-- Event bit of a refusal cause (R336). -/
def causeBit (c : Nat) : Option Nat :=
  if c = 0 then some 2 else if c = 1 then some 3 else if c = 2 then some 4 else if c = 3 then some 7 else if c = 6 then some 6 else none

/-- The event bit of a cause set at a die. -/
def ServeDie.causeEvt (d : ServeDie) (c : Nat) : ServeDie :=
  if c = 6 then d else match causeBit c with
    | some i => d.attnBit i
    | none => d

/-- ATTENTION_REQUEST (R308, R309): the die takes its next request, refuses it, or divides it into page tasks. -/
def execAttentionRequest (sv : ServeId) (s : State) : Out :=
  let d := sv.val
  match s.nextServe d .attn with
  | none => .next s
  | some q =>
    if !s.running then .next s
    else
      let s := s.takeServe q.id
      match s.attnRefusal d q, s.layerRec d q.layer with
      | some c, _ => .next ((s.refuse d q c (if c = 3 then [stCtxLimit] else [])).modSd d fun x => x.causeEvt c)
      | none, some l =>
        let pages := attendedPages l ((s.sd d).dir (tagReq q.tag)) (tagPos q.tag)
        .next (s.modSd d fun x => { x with jobs := x.jobs ++ [⟨q, pages, []⟩] })
      | none, none => .next s

/-! ### Arithmetic of a page (R312 to R314) -/

/-- Exact sum of a list, +0 when empty. -/
def fpSum (l : List Fp) : Fp := l.foldl fpAdd (.fin false 0 0)

/-- FP32 code of an exact value. -/
def code32 (v : Fp) : Nat := (fpEncode fp32 v).1

/-- The value of an FP32 code. -/
def val32 (c : Nat) : Fp := fpDecode fp32 c

/-- EXP of R313 on the difference of two FP32 values, rounded once. -/
def expDiff (a b : Fp) : Fp := val32 (fpExp (r32 (fpAdd a b.negate))).1

/-- The page state of one head from its query, score scale, and the attended keys and values (R312, R313). -/
def pageState (q : List Fp) (scale : Fp) (kv : List (List Fp × List Fp)) : HeadState :=
  let t := kv.map fun x => r32 (fpMul scale (fpSum ((q.zip x.1).map fun p => fpMul p.1 p.2)))
  let bad := t.any (fun x => !x.isFin) || kv.any fun x => x.1.any (fun y => !y.isFin) || x.2.any (fun y => !y.isFin)
  let m := t.foldl (fun a x => if fpLt a x then x else a) (nth .nan t 0)
  let w := t.map fun x => expDiff x m
  { bad := bad, m := code32 m, l := code32 (fpSum w),
    o := (List.range (q.length)).map fun d => code32 (fpSum ((w.zip kv).map fun p => fpMul p.1 (nth .nan p.2.2 d))) }

/-- Two page states merged (R313). -/
def mergeStates (a b : HeadState) : HeadState :=
  let ma := val32 a.m
  let mb := val32 b.m
  let m := if fpLt ma mb then mb else ma
  let ca := expDiff ma m
  let cb := expDiff mb m
  let f (x y : Nat) := code32 (fpAdd (fpMul ca (val32 x)) (fpMul cb (val32 y)))
  { bad := a.bad || b.bad, m := code32 m, l := f a.l b.l, o := (a.o.zip b.o).map fun p => f p.1 p.2 }

/-- One level of the merge tree: neighbours merged, an odd last state passed on (R313). -/
def mergeLevel : List HeadState → List HeadState
  | a :: b :: t => mergeStates a b :: mergeLevel t
  | l => l

/-- The states of the pages, ascending, merged (R313). -/
def mergeAll (l : List HeadState) : HeadState :=
  nth ⟨true, 0, 0, []⟩ ((List.range (Nat.log2 l.length + 1)).foldl (fun l _ => mergeLevel l) l) 0

/-- o / l correctly rounded to FP32 (R313); an o that overflowed stays an infinity (R91). -/
def quotient32 (o l : Fp) : Nat :=
  match o, l with
  | .fin n m e, .fin _ m2 e2 => if m = 0 then code32 (.fin n 0 0) else (roundRat fp32 n m m2 (e - e2)).1
  | .inf n, .fin _ _ _ => code32 (.inf n)
  | _, _ => fp32.nanCode

/-- The page state of every head of a request on page i (R309 to R314), and KV_SAT of the reads. -/
def State.pageHeads (s : State) (d : Nat) (l : LayerRec) (q : ServeReq) (i : Nat) : List HeadState × Bool :=
  let r := tagReq q.tag
  let p := tagPos q.tag
  let js := attendedIn l ((s.sd d).dir r) p i
  let kvs := (List.range l.hkv).map fun h => js.map fun j => s.kvAt d l r j h p s.tick.count
  ((enum q.rowsA).map fun x =>
      pageState (x.2.map (fpDecode bf16)) (val32 l.scale) ((nth [] kvs (x.1 / (l.hq / l.hkv))).map fun y => (y.1, y.2.1)),
    kvs.any fun x => x.any fun y => y.2.2)

/-- A page is marked LOST (R333). -/
def State.losePage (s : State) (d r layer i : Nat) : State :=
  s.modSd d fun x => (x.setPage r layer i { x.page r layer i with lost := true }).attnBit 6

/-- PAGE_TASK (R309): a free engine takes the next page task, in the order of the requests and by ascending page, and forms its page state. A word that fails twice marks the
page LOST and refuses the request, and a page that is LOST already is not read (R333). -/
def execPageTask (sv : ServeId) (_engine : Fin 24) (wordFailsTwice : Bool) (s : State) : Out :=
  let d := sv.val
  match (s.sd d).jobs.find? fun j => !j.todo.isEmpty with
  | none => .next s
  | some j => match j.todo, s.layerRec d j.q.layer with
    | i :: rest, some l =>
      if !s.running then .next s
      else if wordFailsTwice || ((s.sd d).page (tagReq j.q.tag) j.q.layer i).lost then
        let s := s.modSd d fun x => { x with jobs := x.jobs.filter fun y => y.q.id != j.q.id }
        .next ((s.losePage d (tagReq j.q.tag) j.q.layer i).refuse d j.q 6 [])
      else
        let hs := s.pageHeads d l j.q i
        .next (s.modSd d fun x =>
          let x := { x with jobs := x.jobs.map fun y =>
            if y.q.id == j.q.id then { y with todo := rest, states := y.states ++ [(i, hs.1)] } else y }
          if hs.2 then x.attnBit 5 else x)
    | _, _ => .next s

/-- The output of one head in the format of t[TB] (R313, R314). -/
def headOut (fmt : Nat) (h : HeadState) (n : Nat) : List Nat :=
  let f := fmtOf fmt
  if h.bad then List.replicate n f.nanCode
  else h.o.map fun c => (fpEncode f (val32 (quotient32 (val32 c) (val32 h.l)))).1

/-- ATTENTION_ANSWER (R313, R314, R317, R318): with every page task done, the states are merged and the result is written to the core. -/
def execAttentionAnswer (sv : ServeId) (id : Nat) (s : State) : Out :=
  let d := sv.val
  match (s.sd d).jobs.find? fun j => j.q.id == id with
  | none => .next s
  | some j =>
    if !j.todo.isEmpty || !s.running then .next s
    else
      let q := j.q
      let n := (nth [] q.rowsA 0).length
      let empty := j.states.isEmpty
      let heads := (List.range q.rowsA.length).map fun h => mergeAll (j.states.map fun st => nth ⟨true, 0, 0, []⟩ st.2 h)
      let rows := if empty then zerosFor q else heads.map fun h => headOut q.fmtB h n
      let s := s.modSd d fun x =>
        let x := { x with jobs := x.jobs.filter fun y => y.q.id != id, attnCnt := x.attnCnt + 1 }
        let x := if empty then x.attnBit 0 else x
        if !empty && heads.any HeadState.bad then x.attnBit 1 else x
      .next (s.answer q (if empty then [stEmptyAttn] else []) (writeAnswer q rows))

/-! ### KV writes -/

/-- The refusal cause of a KV write that needs no look at the staged writes or the frames (R310, R328). -/
def State.kvRefusal (s : State) (d : Nat) (q : ServeReq) : Option Nat :=
  match s.layerRec d q.layer with
  | none => some 5
  | some l =>
    let bad (rows : List (List Nat)) := rows.length != l.hkv || rows.any fun x => x.length != l.d
    if bad q.rowsA || bad q.rowsB then some 4 else if tagPos q.tag = 65535 then some 3 else none

/-- A staged write of the same tick that names the request, layer and position of a `kvw` (R325). -/
def State.sameWrite (s : State) (d : Nat) (q : ServeReq) (w : KvStage) : Bool :=
  w.die.val == d && w.tick == s.tick.count && w.req == tagReq q.tag && w.layer == q.layer && w.pos == tagPos q.tag

/-- A write of the same tick, staged or refused for an earlier clash, names the request, layer and position (R325). -/
def State.kvClash (s : State) (d : Nat) (q : ServeReq) : Bool := s.srv.kv.any (s.sameWrite d q)

/-- The page of a KV write gets a frame if it has none (R323); `none` if no frame is free (R325). -/
def ServeDie.framed (x : ServeDie) (l : LayerRec) (r i : Nat) : Option ServeDie :=
  if (x.page r l.layer i).valid then some x
  else match x.take r (frameUnits l l.newFmt) (frameUnits l l.newFmt) with
    | some (a, y, _) => some (y.setPage r l.layer i ⟨a, l.newFmt, true, false, 0⟩)
    | none => none

/-- The staged form of a KV write, and KV_SAT (R320, R323). -/
def stageKv (sv : ServeId) (l : LayerRec) (q : ServeReq) (t : W48) : KvStage × Bool :=
  let ks := q.rowsA.map fun r => encodeRow l.newFmt (r.map (fpDecode bf16))
  let vs := q.rowsB.map fun r => encodeRow l.newFmt (r.map (fpDecode bf16))
  (⟨sv, t, tagReq q.tag, q.layer, tagPos q.tag, tagClass q.tag, ks.map Prod.fst, ks.map fun x => x.2.1, vs.map Prod.fst,
    vs.map fun x => x.2.1, false⟩, ks.any (fun x => x.2.2) || vs.any fun x => x.2.2)

/-- KV_WRITE (R323, R325, R328): the pager encodes and stages the next `kvw`, allocating a frame, or refuses it. A request that the table does not hold
takes no write (DESIGN CHOICE, log 15). -/
def execKvWrite (sv : ServeId) (s : State) : Out :=
  let d := sv.val
  match s.nextServe d .kvw with
  | none => .next s
  | some q =>
    if !s.running then .next s
    else
      let s := s.takeServe q.id
      match s.kvRefusal d q, s.layerRec d q.layer with
      | some c, _ => .next ((s.refuse d q c (if c = 3 then [stCtxLimit] else [])).modSd d fun x => x.causeEvt c)
      | none, none => .next s
      | none, some l =>
        let r := tagReq q.tag
        let p := tagPos q.tag
        if s.kvClash d q then
          let mark (w : KvStage) : KvStage := if s.sameWrite d q w then { w with clash := true } else w
          let s := { s with srv := { s.srv with kv := s.srv.kv.map mark } }
          .next ((s.refuse d q 1 []).modSd d fun x => x.causeEvt 1)
        else if (s.req r).state = .free ∨ (s.req r).state = .queued then .next (s.answer q [stServeRefused] id)
        else match (s.sd d).framed l r (p / 128) with
          | none => .next ((s.refuse d q 2 []).modSd d fun x => x.causeEvt 2)
          | some x =>
            let w := stageKv sv l q s.tick.count
            let x := if w.2 then x.attnBit 5 else x
            let x := if p = 65534 then x.attnBit 7 else x
            let s := { s.setSd d x with srv := { s.srv with kv := s.srv.kv ++ [w.1] } }
            .next (s.answer q (if p = 65534 then [stCtxLimit] else []) id)

/-! ### Ageing and scrubbing -/

/-- Page i may be re-encoded in storage (R321). -/
def mayAge (l : LayerRec) (dr : Dir) (pg : PageEnt) (i : Nat) : Bool :=
  pg.valid && !pg.lost && pg.fmt == l.newFmt && l.newFmt != l.agedFmt && decide (l.age ≠ 0)
  && decide (l.sinks ≤ 128 * i) && decide (i + l.age ≤ dr.len / 128)

/-- The rows of a page re-encoded into another frame (R320, R321), and KV_SAT. -/
def reencode (m : List Host.Cell) (l : LayerRec) (from' to' : Nat) : List Host.Cell × Bool :=
  (List.range (l.hkv * 128)).foldl (fun a x =>
    let h := x / 128
    let sl := x % 128
    [false, true].foldl (fun a v =>
      let row := getKvRow m l l.newFmt from' v h sl
      let e := encodeRow l.agedFmt (decodeRow l.newFmt row.1 row.2)
      (putKvRow a.1 l l.agedFmt to' v h sl e.1 e.2.1, a.2 || e.2.2)) a) (m, false)

/-- PAGE_AGEING (R321): at an apply point the page moves to a new frame in AGED_FMT and its old frame is freed, for the request's reservation if that gave the new one (R343); it waits if no frame is free. A word that fails twice
marks the page LOST (R333). -/
def execPageAgeing (sv : ServeId) (req layer page : Nat) (wordFailsTwice : Bool) (s : State) : Out :=
  let d := sv.val
  let x := s.sd d
  match s.layerRec d layer with
  | none => .next s
  | some l =>
    let pg := x.page req layer page
    if s.tick.phase ≠ .applied ∨ !mayAge l (x.dir req) pg page then .next s
    else if wordFailsTwice then .next (s.losePage d req layer page)
    else match x.take req (frameUnits l l.agedFmt) (frameUnits l l.newFmt) with
      | none => .next s
      | some (a, y, own) =>
        let m := reencode y.dram l pg.frame a
        let y := ({ y with dram := m.1 }.setPage req layer page { pg with frame := a, fmt := l.agedFmt }).release req pg.frame own
        .next (s.setSd d (if m.2 then y.attnBit 5 else y))

/-- The page whose frame holds a DRAM byte. -/
def State.pageAt (s : State) (d a : Nat) : Option (Nat × Nat × Nat) :=
  ((s.sd d).pages.find? fun e => match s.layerRec d (e.1 / 512 % 1024) with
    | some l => e.2.valid && decide (4096 * e.2.frame ≤ a) && decide (a < 4096 * (e.2.frame + frameUnits l e.2.fmt))
    | none => false).map fun e => (e.1 / (1024 * 512), e.1 / 512 % 1024, e.1 % 512)

end Sys2Proof.Machine
end

