-- ==== Sys2Proof/Machine/Sampler.lean ====
section
/-! DEFINITION. The sampling unit: Philox draws (R351), the draw of a token (R350), log-probabilities (R352), and its commands (R349, R353, R368, R372). -/
namespace Sys2Proof.Machine

/-! ### Philox4x32-10 (R351) -/

/-- One round of Philox4x32 on the counter words and the key. -/
def philoxRound (c : Nat × Nat × Nat × Nat) (k : Nat × Nat) : Nat × Nat × Nat × Nat :=
  let p0 := 0xD2511F53 * c.1
  let p1 := 0xCD9E8D57 * c.2.2.1
  (p1 / 2 ^ 32 ^^^ c.2.1 ^^^ k.1, p1 % 2 ^ 32, p0 / 2 ^ 32 ^^^ c.2.2.2 ^^^ k.2, p0 % 2 ^ 32)

/-- The key of round i. -/
def philoxKey (seed : W64) (i : Nat) : Nat × Nat :=
  ((seed.toNat % 2 ^ 32 + 0x9E3779B9 * i) % 2 ^ 32, (seed.toNat / 2 ^ 32 + 0xBB67AE85 * i) % 2 ^ 32)

/-- u for position q and head h, as a multiple of 2^−24 (R351). -/
def drawU (seed : W64) (q h : Nat) : Nat :=
  ((List.range 10).foldl (fun c i => philoxRound c (philoxKey seed i)) (q, h, 0, 0)).1 >>> 8

/-! ### Logarithm (R352) -/

/-- Bounds, scaled by 2^N, of 2 atanh(num/den) for num/den ≤ 1/3. -/
def atanh2Bounds (num den N : Nat) : Nat × Nat :=
  let zlo := (num <<< N) / den
  let zhi := zlo + 1
  let z2lo := (zlo * zlo) >>> N
  let z2hi := ((zhi * zhi) >>> N) + 1
  let r := (List.range (N / 3 + 4)).foldl (fun (a : Nat × Nat × Nat × Nat) i =>
    let lo := (a.1 * z2lo) >>> N
    let hi := ((a.2.1 * z2hi) >>> N) + 1
    (lo, hi, a.2.2.1 + lo / (2 * i + 3), a.2.2.2 + hi / (2 * i + 3) + 1)) (zlo, zhi, zlo, zhi)
  (2 * r.2.2.1, 2 * (r.2.2.2 + r.2.1 + 1))

/-- Bounds, scaled by 2^N, of ln(num/den) for num ≥ den > 0. -/
def lnBounds (num den N : Nat) : Nat × Nat :=
  let k := Nat.log2 (num / den)
  let d := den <<< k
  let a := atanh2Bounds (num - d) (num + d) N
  let l2 := atanh2Bounds 1 3 N
  (a.1 + k * l2.1, a.2 + k * l2.2)

/-- ln(w / total) correctly rounded to FP32, for 0 < w ≤ total (R352); ln 0 is free (log 12). -/
def lnQuot (w total : Fp) : Nat :=
  match w, total with
  | .fin _ m e, .fin _ m2 e2 =>
    if m = 0 then Config.logOfZero.toNat
    else
      let f := fracOf 1 (e2 - e)
      let num := m2 * f.1
      let den := m * f.2
      if num = den then 0
      else if num < den then (roundBounds false 0 (lnBounds den num)).1
      else (roundBounds true 0 (lnBounds num den)).1
  | _, _ => fp32.nanCode

/-! ### The draw (R350) -/

/-- Exact quotient rounded once to FP32. -/
def fpDiv32 (a b : Fp) : Fp :=
  match a, b with
  | .fin n m e, .fin n2 m2 e2 =>
    if m2 = 0 then .nan else if m = 0 then .fin (n != n2) 0 0 else val32 (roundRat fp32 (n != n2) m m2 (e - e2)).1
  | .inf n, .fin n2 _ _ => .inf (n != n2)
  | _, _ => .nan

/-- z > 0. -/
def fpPos (z : Fp) : Bool := fpLt (.fin false 0 0) z

/-- A candidate: id and logit. -/
abbrev Cand := Nat × Fp

/-- Order of candidates: z descending, then id ascending. -/
def candLt (a b : Cand) : Bool := fpLt b.2 a.2 || (!fpLt a.2 b.2 && decide (a.1 < b.1))

/-- A candidate inserted in order. -/
def candInsert (x : Cand) : List Cand → List Cand
  | [] => [x]
  | y :: t => if candLt x y then x :: y :: t else y :: candInsert x t

/-- The k first candidates in order. -/
def topCands (k : Nat) (l : List Cand) : List Cand := l.foldl (fun a x => (candInsert x a).take k) []

/-- The shortest prefix whose exact running sum of w is at least a target; all of it if none is. -/
def prefixTo (target : Fp) : Fp → List (Cand × Fp) → List (Cand × Fp)
  | _, [] => []
  | acc, x :: t =>
    let acc := fpAdd acc x.2
    if fpLt acc target then x :: prefixTo target acc t else [x]

/-- The first candidate whose exact running sum of w exceeds a target; the last if none does. -/
def pick (target : Fp) : Fp → List (Cand × Fp) → Option (Cand × Fp)
  | _, [] => none
  | acc, x :: t =>
    let acc := fpAdd acc x.2
    if fpLt target acc then some x
    else match t with
      | [] => some x
      | _ => pick target acc t

/-- The parameters of a draw (R350). -/
structure DrawParams where
  temp : Fp
  topK : Nat
  topP : Fp
  minP : Fp
  rep : Fp
  pres : Fp
deriving DecidableEq, Repr

/-- The parameters of a request. -/
def Req.params (r : Req) : DrawParams :=
  ⟨val32 r.temp.toNat, if r.topK = 0 then 1024 else r.topK, val32 r.topP.toNat, val32 r.minP.toNat, val32 r.repPen.toNat,
    val32 r.presPen.toNat⟩

/-- The logits after exclusion, replacement and penalties (R350). -/
def penalised (p : DrawParams) (z : List Fp) (window : List Nat) : List Cand :=
  (enum z).filterMap fun x =>
    match x.2 with
    | .nan => none
    | v =>
      let v := if v = .inf false then val32 0x7F7F_FFFF else v
      if x.1 ∈ window then
        let v := if fpPos v then fpDiv32 v p.rep else r32 (fpMul v p.rep)
        some (x.1, r32 (fpAdd v p.pres.negate))
      else some (x.1, v)

/-- The kept candidates with their weights, and the total (R350). -/
def keptOf (p : DrawParams) (z : List Cand) : List (Cand × Fp) × Fp :=
  let c := topCands p.topK z
  let z0 := (nth (0, .nan) c 0).2
  let same (v : Fp) := !fpLt v z0 && !fpLt z0 v
  let w := c.map fun x => (x, if same x.2 then Fp.fin false 1 0 else expDiff x.2 z0)
  let w := w.filter fun x => !fpLt x.2 p.minP
  let sumC := r32 (fpSum (w.map Prod.snd))
  let kept := prefixTo (r32 (fpMul p.topP sumC)) (.fin false 0 0) w
  (kept, r32 (fpSum (kept.map Prod.snd)))

/-- One head's draw: the token id and its LOGP term as an FP32 code; `none` if every logit is excluded (R350 to R352). -/
def drawHead (p : DrawParams) (seed : W64) (q h : Nat) (z : List Fp) (window : List Nat) : Option (Nat × Nat) :=
  let zs := penalised p z window
  if zs.isEmpty then none
  else if p.temp.isZero then
    let k := keptOf p zs
    match k.1 with
    | x :: _ => some (x.1.1, lnQuot x.2 k.2)
    | [] => none
  else
    let k := keptOf p (zs.map fun x => (x.1, fpDiv32 x.2 p.temp))
    let target := r32 (fpMul (.fin false (drawU seed (q + 1) h) (-24)) k.2)
    (pick target (.fin false 0 0) k.1).map fun x => (x.1.1, lnQuot x.2 k.2)

/-! ### The sampler record (R389) -/

/-- Heads of the model in force. -/
def State.heads (s : State) : Nat := match s.auxContent 4 0 with
  | some bs => leAt bs 0 1 % 16
  | none => 0
/-- Vocabulary size of a head. -/
def State.vocab (s : State) (h : Nat) : Nat := match s.auxContent 4 0 with
  | some bs => if h < s.heads then leAt bs (8 + 4 * h) 4 else 0
  | none => 0
/-- WIDTH of the embedding rows. -/
def State.embedWidth (s : State) : Nat := match s.auxContent 4 0 with
  | some bs => leAt bs 4 4
  | none => 0

/-- Head h's ids in the window of position q, drafts included (R350). -/
def windowIds (r : Req) (q h : Nat) (drafts : List (List Nat)) : List Nat :=
  let lo := q - 1023
  let old := ((r.hist.drop lo).take (q + 1 - lo)).map fun e => nth 0 e.ids h
  (old ++ drafts.map fun d => nth 0 d h).eraseDups

/-- The draw of one lane (R350 to R352): ids by head, LOGP, whether a logit was excluded or an infinity replaced. -/
def drawLane (r : Req) (tag : LaneTag) (drafts : List (List Nat)) (tick : W48) (rows : List (List Fp)) : Draw :=
  let hs := (enum rows).map fun x => drawHead r.params r.seed tag.pos x.1 x.2 (windowIds r tag.pos x.1 drafts)
  let terms := hs.filterMap fun h => h.map fun y => val32 y.2
  { tag := tag, tick := tick, ids := hs.map fun h => h.map Prod.fst, logp := BitVec.ofNat 32 (code32 (fpSum terms)),
    nan := rows.any fun x => x.any Fp.isNan, inf := rows.any fun x => x.any fun v => v == .inf false }

/-- The lane tag in a request's operand (R267). -/
def laneTagOf (v : W64) : LaneTag := ⟨tagReq v, tagPos v, tagClass v, tagCand v, tagLast v⟩

/-- The home die of a request (R339). -/
def homeOf (r : Nat) : Nat := r % 2

/-- SAMPLING (R349 to R353): every lane that passes is staged, so that it leaves flight when its tick commits; one that is not sampled is
staged as a prefill lane without ids. The unit of the home die takes the next logits. A `samp` goes to the home die of the lane's REQ whatever DEST_DIE holds (R339). -/
def execSampling (sv : ServeId) (s : State) : Out :=
  let d := sv.val
  match s.inbox.find? fun q => q.kind == .samp && tagReq q.tag % 2 == d with
  | none => .next s
  | some q =>
    if !s.running then .next s
    else
      let s := s.takeServe q.id
      let tag := laneTagOf q.tag
      let r := s.req tag.req
      let more := if tag.pos = 65534 then [stCtxLimit] else []
      let pass (s : State) : State :=
        { s with srv := { s.srv with draws := s.srv.draws ++ [⟨{ tag with cls := 2 }, s.tick.count, [], 0, false, false⟩] } }
      if r.state = .free ∨ r.state = .queued then .next (s.answer q (stServeRefused :: more) id)
      else if q.rowsA.length ≠ s.heads ∨ (enum q.rowsA).any (fun x => x.2.length != s.vocab x.1) then
        .next ((pass s).refuse d q 4 more)
      else if tag.cls = 2 ∨ r.state = .rebuild then .next ((pass s).answer q more id)
      else
        let drafts := match r.step with
          | some st => if tag.cls = 3 then st.drafts.take tag.cand else []
          | none => []
        let dr := drawLane r tag drafts s.tick.count (q.rowsA.map fun x => x.map (fpDecode (fmtOf q.fmtA)))
        let s := { s with srv := { s.srv with draws := s.srv.draws ++ [dr] } }
        let s := s.modSd d fun x =>
          let x := if dr.nan then x.serveBit 6 else x
          if dr.inf then x.serveBit 7 else x
        .next (s.answer q more id)

/-- GENERATION_FENCE_QUERY (R269, R372): the home die answers the next `gfence`; a lane of a request that is pinned to another generation gets p[PD] = 1 and GEN_FENCE, and its
step is withdrawn. -/
def execGenerationFenceQuery (sv : ServeId) (s : State) : Out :=
  let d := sv.val
  match s.nextServe d .gfence with
  | none => .next s
  | some q =>
    if !s.running then .next s
    else
      let s := s.takeServe q.id
      let tag := laneTagOf q.tag
      let r := s.req tag.req
      let differs := r.state != .free && r.state != .queued && r.gen != s.genActive
      let put (b : Bool) (k : Core) : Core := match q.pd with
        | some p => k.setP p b
        | none => k
      if differs then
        let s := s.answer q [stGenFence] (put true)
        .next (s.modSd d fun x => { x with reports := x.reports ++ [⟨tag.req, tag.pos, tag.cls, 255, s.tick.count⟩] })
      else .next (s.answer q [] (put false))

/-- REFUSAL_REPORT (R368): the next report reaches the home die, which withdraws the lanes when the report's tick commits (R369). -/
def execRefusalReport (sv : ServeId) (s : State) : Out :=
  match (s.sd sv.val).reports with
  | [] => .next s
  | r :: rest =>
    let s := s.modSd sv.val fun x => { x with reports := rest }
    .next { s with srv := { s.srv with refusals := s.srv.refusals ++ [r] } }

end Sys2Proof.Machine
end

