-- ==== Sys2Proof/Machine/Requests.lean ====
section
/-! DEFINITION. The commit of a tick's side effects at the home dies (R174, R323, R327, R354, R357, R359 to R363, R369), and the ends of requests (R364 to R372). -/
namespace Sys2Proof.Machine

/-- The home dies can take step n of R524: at an apply point they act in order, and what belongs to an earlier step than one already begun waits for the next. -/
def State.atStep (s : State) (n : Nat) : Bool := s.tick.phase == .applied && decide (s.srv.stage ≤ n)

/-- The home dies have begun step n of R524 at this apply point. -/
def State.begun (s : State) (n : Nat) : State := { s with srv := { s.srv with stage := n } }

/-! ### Statuses and the token ring -/

/-- The final status codes of R363. -/
def endStatus : EndCause → Nat
  | .cancelled => 3 | .migrated => 6 | .generation => 5 | .fault => 7 | .nonfinite => 8 | .ceiling => 2 | .context => 2

/-- Owner of the carve-out that holds a request's ring: that of the ADMIT's ring set (R457). -/
def State.ownerOf (s : State) (r : Req) : Nat := (s.ring r.set).owner

/-- CONS of a request's ring (R360). -/
def State.cons (s : State) (r : Req) : Nat := readNat (s.carve (s.ownerOf r)) r.ringAddr.toNat 4

/-- Free entries of a request's ring; a CONS beyond PROD counts as full (R362). -/
def State.ringFree (s : State) (r : Req) : Nat :=
  if r.prod.toNat < s.cons r then 0 else 2 ^ r.ringLog2 - (r.prod.toNat - s.cons r)

/-- The 32 bytes of an entry (R360). -/
def tokBytes (e : TokEnt) : Bytes :=
  leBytes 18 ((enum e.ids).foldl (fun a x => a + x.2 % 2 ^ 18 * 2 ^ (18 * x.1)) 0) ++ leBytes 2 e.flags.toNat ++ leBytes 2 e.pos
  ++ leBytes 6 e.tick.toNat ++ leBytes 4 e.logp.toNat

/-- FLAGS from their parts (R361). -/
def tokFlags (phase : Nat) (fin : Option Nat) (draft stop noToken nan inf ceiling : Bool) : BitVec 16 :=
  let b (c : Bool) (i : Nat) : Nat := if c then 2 ^ i else 0
  BitVec.ofNat 16 (phase + b fin.isSome 1 + b draft 2 + b stop 3 + b noToken 4 + b nan 5 + b inf 6 + b ceiling 7 + fin.getD 0 * 2 ^ 8)

/-- An entry written into the request's ring, and PROD after it (R362). -/
def State.ringPut (s : State) (i : Nat) (e : TokEnt) : State :=
  let r := s.req i
  let o := s.ownerOf r
  let s := s.writeCarve o (r.ringAddr.toNat + 64 + 32 * (r.prod.toNat % 2 ^ r.ringLog2)) (tokBytes e)
  let s := s.writeCarve o (r.ringAddr.toNat + 4) (leBytes 4 (r.prod + 1).toNat)
  s.modReq i fun r => { r with prod := r.prod + 1 }

/-- PHASE of the next ring entry of a request. -/
def Req.phase (r : Req) : Nat := phaseOf r.prod.toNat r.ringLog2

/-- An id is a valid stop id (R340, R354). -/
def Req.isStop (r : Req) (id : Nat) : Bool := r.stops.any fun e => e.getLsbD 31 && e.toNat % 2 ^ 18 == id

/-- The status with which a token at the end of the history would be final (R354). -/
def Req.finalOf (r : Req) (ids : List Nat) : Option Nat :=
  if r.isStop (nth 0 ids 0) then some 0
  else if r.emit + 1 = r.limit then some (if r.limit = 65536 then 2 else 1) else none

/-- One token of a step written to history and ring; `last` marks the last token of the step, which a cancel or a migration makes final (R354, R362, R365, R366, R400). -/
def State.emitToken (s : State) (i : Nat) (d : Draw) (draft last : Bool) : State :=
  let r := s.req i
  let ids := d.ids.map fun x => x.getD 0
  let own := r.finalOf ids
  let fin := match own with
    | some st => some (if r.cancel then 4 else st)
    | none => if last && r.cancel then some 3 else if last && r.migrate then some 6 else none
  let e : TokEnt := ⟨ids, tokFlags r.phase fin draft (r.isStop (nth 0 ids 0)) false d.nan d.inf false, r.emit, s.tick.count, d.logp⟩
  let s := s.ringPut i e
  let s := s.modReq i fun r =>
    { r with
      hist := r.hist ++ [e], emit := r.emit + 1, next := r.emit, since := s.tick.count
      final := fin, state := if fin.isSome then .ending else r.state }
  s.modSd (homeOf i) fun x =>
    let x := { x with tokenCnt := x.tokenCnt + 1 }
    if own.isSome && r.cancel then x.serveBit 8 else x

/-! ### KV commit -/

/-- A row of a staged write in the format of its page: a page that was aged meanwhile takes it as the re-encode would have (R320, R321); with KV_SAT. -/
def pageRow (l : LayerRec) (fmt : Nat) (codes scales : List Nat) : List Nat × List Nat × Bool :=
  if fmt = l.newFmt then (codes, scales, false) else encodeRow fmt (decodeRow l.newFmt codes scales)

/-- A staged write written into its page (R323), unless another write of its tick named its position (R325). -/
def State.commitKv (s : State) (w : KvStage) : State :=
  let d := w.die.val
  match s.layerRec d w.layer with
  | none => s
  | some l => s.modSd d fun x =>
    let pg := x.page w.req w.layer (w.pos / 128)
    if !pg.valid || w.clash then x
    else
      let enc (rows scales : List (List Nat)) := (enum rows).map fun e => (e.1, pageRow l pg.fmt e.2 (nth [] scales e.1))
      let ks := enc w.keys w.keyScales
      let vs := enc w.vals w.valScales
      let put (v : Bool) (m : List Host.Cell) (e : Nat × List Nat × List Nat × Bool) : List Host.Cell :=
        putKvRow m l pg.fmt pg.frame v e.1 (w.pos % 128) e.2.1 e.2.2.1
      let x := { x with dram := vs.foldl (put true) (ks.foldl (put false) x.dram) }
      let x := if (ks ++ vs).any fun e => e.2.2.2 then x.attnBit 5 else x
      let x := x.setPage w.req w.layer (w.pos / 128) { pg with present := pg.present ||| (1#128 <<< (w.pos % 128)) }
      x.modDir w.req fun h => if w.cls = 3 then { h with pend := max h.pend (w.pos + 1) } else { h with len := max h.len (w.pos + 1) }

/-- Positions at or above n of a request marked absent on a die (R327, R371). -/
def ServeDie.dropFrom (x : ServeDie) (r n : Nat) : ServeDie :=
  { x with pages := x.pages.filterMap fun e =>
      if e.1 / (1024 * 512) = r then
        let base := 128 * (e.1 % 512)
        let keep : BitVec 128 := if base + 128 ≤ n then BitVec.allOnes 128 else if n ≤ base then 0 else BitVec.ofNat 128 (2 ^ (n - base) - 1)
        let p := { e.2 with present := e.2.present &&& keep }
        if p = pageDefault e.1 then none else some (e.1, p)
      else some e }

/-- L set, pending positions at or above it dropped, the rest accepted, PEND 0, on both dies (R327). -/
def State.settleKv (s : State) (r n : Nat) : State :=
  [0, 1].foldl (fun s d => s.modSd d fun x => (x.dropFrom r n).modDir r fun h => { h with len := n, pend := 0 }) s

/-! ### Steps -/

/-- K_CUR after a step (R359). -/
def kCurAfter (r : Req) (k a : Nat) : Nat :=
  if r.kMax ≤ 1 then 1
  else min r.kMax (if a + 1 = k then min r.kMax (k + 1) else if a = 0 then max 1 (k / 2) else a + 2)

/-- PLAIN_RUN and K_CUR after a plain step (R344, R359). -/
def Req.afterPlain (r : Req) : Req :=
  let n := min 63 (r.plainRun + 1)
  if n = 16 ∧ 2 ≤ r.kMax then { r with kCur := 2, plainRun := 0 } else { r with plainRun := n }

/-- Drafts accepted by the draws y(0), y(1), …: d(i) = y(i − 1) on every head and y(i − 1) no stop id (R357). -/
def acceptedDrafts (r : Req) : List (List Nat) → List Draw → Nat
  | d :: ds, y :: ys =>
    let ids := y.ids.map fun x => x.getD 0
    if y.ids.all Option.isSome && d.take ids.length == ids && !r.isStop (nth 0 ids 0) then 1 + acceptedDrafts r ds ys else 0
  | _, _ => 0

/-- The draws of a step's candidates in order. -/
def stepDraws (l : List Draw) (i k : Nat) : List Draw :=
  (List.range k).filterMap fun j => l.find? fun d => d.tag.req == i && d.tag.cls == 3 && d.tag.cand == j

/-- The request ends without a token at the first apply point with none of its lanes in flight (R352, R365, R370, R372). -/
def State.finish (s : State) (i : Nat) (c : EndCause) : State :=
  s.modReq i fun r => if r.final.isSome ∨ r.finish.isSome then r else { r with finish := some c, state := .ending }

/-- A step cut to the candidates that have entered (R358, R365): the last of them decides it. That this ends a step of which no further lane may enter is DEDUCED (log 66). -/
def Req.cutStep (r : Req) : Req :=
  match r.step with
  | some st => { r with step := some { st with k := st.entered } }
  | none => r

/-- The verify rule at the commit of the last candidate (R327, R357, R359). -/
def State.decideStep (s : State) (i : Nat) (st : Step) (ys : List Draw) : State :=
  let r := s.req i
  let a := acceptedDrafts r st.drafts (ys.take (st.k - 1))
  let n := ys.findIdx fun y => !y.ids.all Option.isSome
  let out := (ys.take (a + 1)).take n
  let s := (enum out).foldl (fun s x => if (s.req i).final.isSome then s
    else s.emitToken i x.2 (decide (x.1 < a)) (x.1 + 1 == out.length)) s
  let s := s.settleKv i (st.base + a + 1)
  let s := s.modReq i fun r =>
    { r with step := none, plainRun := 0, kCur := kCurAfter r st.k a, next := r.emit - 1
             draftBuf := match r.draftBuf with
               | some b => if b.1 = st.base then none else some b
               | none => none }
  let s := s.modSd (homeOf i) fun x => { x with accepted := satAdd 0x7FFF_FFFF x.accepted a }
  if out.length < min (a + 1) ys.length then s.finish i .nonfinite else s

/-- The commit of one draw (R349, R357). -/
def State.commitDraw (s : State) (d : Draw) : State :=
  let i := d.tag.req
  let r := s.req i
  let held := s.srv.lanes.any fun l => l.tag.req == i && l.tag.pos == d.tag.pos && l.withdrawn
  let s := { s with srv := { s.srv with lanes := s.srv.lanes.filter fun l => !(l.tag.req == i && l.tag.pos == d.tag.pos) } }
  if held || r.final.isSome then s
  else
    let s := if r.restart < d.tag.pos then s.modReq i fun r => { r with withdraws := 0 } else s
    if d.tag.cls = 1 then
      if d.ids.all Option.isSome && r.emit == d.tag.pos + 1 then
        (s.emitToken i d false true).modReq i fun r => { r.afterPlain with step := none }
      else if d.ids.all Option.isSome then s else s.finish i .nonfinite
    else if d.tag.cls = 3 then
      let kept := s.srv.kept ++ [d]
      match r.step with
      | none => s
      | some st =>
        if d.tag.last || d.tag.cand + 1 == st.k then
          let ys := stepDraws kept i st.k
          ({ s with srv := { s.srv with kept := kept.filter fun x => x.tag.req != i } }).decideStep i st ys
        else { s with srv := { s.srv with kept := kept } }
    else s

/-! ### Withdrawals -/

/-- The restart position of a refused lane (R369). -/
def restartOf (r : Req) (p : Report) : Nat :=
  if p.cls = 3 then (match r.step with | some st => st.base | none => p.pos) else p.pos

/-- The REFUSAL events of the refusals that commit, one for each with its position and cause (R368, R370, R465; DEDUCED). -/
def State.postRefusals (s : State) (i : Nat) (ps : List Report) : State :=
  (ps.filter fun p => p.cause != 255).foldl (fun s p =>
    s.post 0x03 0 (24 + homeOf i) (leBytes 2 i ++ leBytes 4 p.pos ++ leBytes 1 p.cause)) s

/-- WITHDRAWAL (R369, R370, R372) for the refusals of one request that commit now. A refusal of lanes that an earlier refusal has
already withdrawn withdraws none, so that neither NEXT nor WITHDRAWS changes (DEDUCED). -/
def State.withdraw (s : State) (i : Nat) (ps : List Report) : State :=
  let s := s.postRefusals i ps
  let r := s.req i
  match ps.map (restartOf r) with
  | [] => s
  | x :: xs => if r.state = .free ∨ r.state = .queued then s else
    let at' := xs.foldl min x
    let causes := ps.map Report.cause
    let stepped := s.srv.lanes.any fun l => l.tag.req == i && decide (at' ≤ l.tag.pos) && !l.withdrawn && (l.tag.cls == 1 || l.tag.cls == 3)
    let s : State := { s with srv := { s.srv with
      lanes := s.srv.lanes.map fun (l : Lane) =>
        if l.tag.req == i && decide (at' ≤ l.tag.pos) then { l with withdrawn := true } else l
      kept := s.srv.kept.filter fun d => !(d.tag.req == i && decide (at' ≤ d.tag.pos)) } }
    let s := s.modReq i fun r =>
      if r.state = .held && decide (r.next ≤ at') then { r with causes := r.causes ++ causes.filter (· != 255) }
      else
        { r with
          back := if r.state = .held then r.back else r.state
          state := if r.state = .ending then .ending else .held
          next := at', step := none, causes := r.causes ++ causes.filter (· != 255)
          withdraws := if r.restart = at' then min 15 (r.withdraws + 1) else 1
          restart := at' }
    let s := if stepped then s.modSd (homeOf i) fun x => x.serveBit 1 else s
    let s := if 255 ∈ causes then s.finish i .generation else s
    if (s.req i).cancel then s.finish i .cancelled else if (s.req i).migrate then s.finish i .migrated else s

/-- Requests that a list of reports names. -/
def reqsOf (ps : List Report) : List Nat := ps.foldl (fun a p => addNew a p.req) []

/-- An operation on every core that the state lists. -/
def State.eachCore (s : State) (f : Core → Core) : State := (s.cores.map Prod.fst).foldl (fun s i => s.modCore ⟨i % 96, by omega⟩ f) s

/-- SIDE_EFFECT_COMMIT (R174) of tick t at the home dies, pagers and control cores: withdrawals first mark their lanes, then KV, then draws in the order they were made. -/
def State.commitTick (s : State) (t : W48) : State :=
  let ps := s.srv.refusals.filter fun p => p.tick == t
  let s := { s with srv := { s.srv with refusals := s.srv.refusals.filter fun p => p.tick != t } }
  let s := (reqsOf ps).foldl (fun s i => s.withdraw i (ps.filter fun p => p.req == i)) s
  let ks := s.srv.kv.filter fun w => w.tick == t
  let s := { s with srv := { s.srv with kv := s.srv.kv.filter fun w => w.tick != t } }
  let s := ks.foldl State.commitKv s
  let ds := s.srv.draws.filter fun d => d.tick == t
  let s := { s with srv := { s.srv with draws := s.srv.draws.filter fun d => d.tick != t } }
  (ds.foldl State.commitDraw s).eachCore fun k => k.countFails t s.tick.count

/-- The side effects of a lost or void tick are discarded (R174, R176). -/
def State.discardTick (s : State) (t : W48) : State :=
  { s.eachCore (fun k => k.dropFails t) with srv := { s.srv with
      refusals := s.srv.refusals.filter fun p => p.tick != t
      kv := s.srv.kv.filter fun w => w.tick != t
      draws := s.srv.draws.filter fun d => d.tick != t } }

/-! ### Ends -/

/-- A lane of the request is in flight (R364). -/
def State.inFlight (s : State) (i : Nat) : Bool := s.srv.lanes.any fun l => l.tag.req == i

/-- A step whose sampling lane has entered is in flight (R365). -/
def State.stepInFlight (s : State) (i : Nat) : Bool :=
  s.srv.lanes.any fun l => l.tag.req == i && (l.tag.cls == 1 || l.tag.cls == 3) && !l.withdrawn

/-- The request's pages, lists, directory and reservation are freed on a die, and its history on the home die (R364). -/
def ServeDie.freeReq (x : ServeDie) (r : Req) (i : Nat) (home : Bool) : ServeDie :=
  let frames := ((x.pagesOf i).filter fun p => p.2.2.valid).map fun p => p.2.2.frame
  let x := { x with
    alloc := x.alloc.filter fun e => !(decide (e.1 ∈ frames)) && !(home && decide (r.state ≠ RState.queued) && e.1 == r.histAddr.toNat / 4096)
    pages := x.pages.filter fun e => e.1 / (1024 * 512) != i
    resv := smDel x.resv i }
  x.modDir i fun _ => dirDefault i

/-- The request leaves its entry FREE, with its ending completion queued (R364, R588). -/
def State.freeReq (s : State) (i status : Nat) : State :=
  let r := s.req i
  let s := [0, 1].foldl (fun s d => s.modSd d fun x => x.freeReq r i (homeOf i == d)) s
  let s := match r.hide with
    | some h => s.completeCmd ⟨⟨h.2.2.1 % 16, by omega⟩, h.2.2.2⟩ 0x13 0x104 []
    | none => s
  let g := s.ring r.set
  let s := if g.enabled then
      s.setRing r.set { g with endings := g.endings ++
        [⟨r.tag, status, leBytes 2 i ++ leBytes 4 r.ticket.toNat ++ leBytes 4 r.prod.toNat, s.tick.count⟩] }
    else s
  let s := { s with srv := { s.srv with kept := s.srv.kept.filter fun d => d.tag.req != i, freed := addNew s.srv.freed i } }
  s.setReq i (reqDefault i)

/-- A NO_TOKEN final entry (R361, R363). -/
def State.noTokenEnd (s : State) (i : Nat) (c : EndCause) : State :=
  let r := s.req i
  s.ringPut i ⟨[], tokFlags r.phase (some (endStatus c)) false false true false false (c == .ceiling), 0, s.tick.count, 0⟩

/-- Event bits of an end without a token (R370, R372). -/
def ServeDie.endEvt (x : ServeDie) : EndCause → ServeDie
  | .fault => x.serveBit 5
  | .generation => x.serveBit 3
  | _ => x

/-- REQUEST_END (R364, R365): a request that never left the queue has no ring entry; at an apply point with none of its lanes in flight, a request whose final entry is written, or which is to end without a token, ends. -/
def execRequestEnd (i : Nat) (s : State) : Out :=
  let r := s.req i
  if s.tick.phase ≠ .applied || s.inFlight i || r.state == .free then .next s
  else match r.final, r.finish with
    | some st, _ => .next (s.freeReq i st)
    | none, some c =>
      let s := if r.gen == 0 then s else s.noTokenEnd i c
      let s := s.modSd (homeOf i) fun x => x.endEvt c
      .next (s.freeReq i (endStatus c))
    | none, none => .next s

/-- REQUEST_FAULT_END (R370): eight withdrawals at one position end the request. -/
def execRequestFaultEnd (i : Nat) (s : State) : Out :=
  let r := s.req i
  if s.tick.phase ≠ .applied || decide (r.withdraws < 8) || r.finish.isSome || r.state == .free then .next s
  else .next (s.finish i .fault)

/-- The causes that hold a request have cleared (R369). -/
def State.causesClear (s : State) (i : Nat) : Bool :=
  (s.req i).causes.all fun c =>
    if c = 6 then [0, 1].all fun d => !(s.sd d).lostReq i
    else if c = 2 then [0, 1].all fun d => match s.auxContent 3 (24 + d) with
      | some bs => (layerRecs bs).all fun l => ((s.sd d).take i (frameUnits l l.newFmt) (frameUnits l l.newFmt)).isSome
      | none => true
    else true

/-- HELD_EXIT (R369): the request returns to its previous state. -/
def execHeldExit (i : Nat) (s : State) : Out :=
  let r := s.req i
  if s.tick.phase ≠ .applied || r.state != .held || s.inFlight i || !s.causesClear i || r.rebuildAt.isSome || decide (8 ≤ r.withdraws) then .next s
  else .next (s.modReq i fun r => { r with state := r.back, causes := [] })

/-- The lowest position of a page marked LOST on either die (R371). -/
def State.lostStart (s : State) (i : Nat) : Option Nat :=
  [0, 1].foldl (fun a d => ((s.sd d).pagesOf i).foldl (fun a p =>
    if p.2.2.lost then some (match a with | some x => min x (128 * p.2.1) | none => 128 * p.2.1) else a) a) none

/-- Every lost page of the request gets a new frame; `none` if a frame is not free (R371). -/
def State.reframe (s : State) (i d : Nat) : Option ServeDie :=
  ((s.sd d).pagesOf i).foldl (fun x p => match x with
    | none => none
    | some x => if !p.2.2.lost then some x
      else match s.layerRec d p.1 with
        | none => some x
        | some l => match x.take i (frameUnits l l.newFmt) (frameUnits l l.newFmt) with
          | some (a, y, own) => some ((y.release i p.2.2.frame own).setPage i p.1 p.2.1 ⟨a, l.newFmt, true, false, 0⟩)
          | none => none) (some (s.sd d))

/-- A request that waits for frames of its rebuild is HELD (R371). -/
def Req.awaitFrames (r : Req) : Req :=
  if r.state = .held then { r with causes := addNew r.causes 6 } else { r with state := .held, back := r.state, causes := addNew r.causes 6 }

/-- REBUILD_START (R371): new frames for the lost pages, L and NEXT at the start position, state REBUILD, or DECODE where NEXT is EMIT − 1 already. It waits while lanes are in flight, and in HELD while
frames are missing. -/
def execRebuildStart (i : Nat) (s : State) : Out :=
  let r := s.req i
  if !s.atStep 5 || s.inFlight i || r.state == .free || r.state == .queued || r.state == .ending then .next s
  else match (match r.rebuildAt with | some p => some p | none => s.lostStart i), s.reframe i 0, s.reframe i 1 with
    | some p, some x0, some x1 =>
      let s := ((s.setSd 0 x0).setSd 1 x1).begun 5
      let s := if r.rebuildAt.isSome then [0, 1].foldl (fun s d => s.modSd d fun x => x.dropFrom i p) s else s
      let s := [0, 1].foldl (fun s d => s.modSd d fun x => x.modDir i fun h => { h with len := p }) s
      let s := s.modReq i fun r =>
        { r with state := if r.emit ≤ p + 1 then .decode else .rebuild, next := min p (r.emit - 1), rebuildAt := none, causes := [], step := none }
      .next (s.modSd (homeOf i) fun x => x.serveBit 2)
    | some _, _, _ => .next ((s.begun 5).modReq i Req.awaitFrames)
    | none, _, _ => .next s

/-- HIDE_APPLY (R316): the hidden span applies on both dies at the first apply point with no lane in flight. -/
def execHideApply (i : Nat) (s : State) : Out :=
  match (s.req i).hide with
  | none => .next s
  | some h =>
    if !s.atStep 4 || s.inFlight i then .next s
    else
      let s := s.begun 4
      let s := [0, 1].foldl (fun s d => s.modSd d fun x => x.modDir i fun y => { y with hideLo := h.1, hideHi := h.2.1 }) s
      let s := s.modReq i fun r => { r with hide := none }
      .next (s.completeCmd ⟨⟨h.2.2.1 % 16, by omega⟩, h.2.2.2⟩ 0x13 0 [])

/-- ENDING_COMPLETION (R588): the first waiting ending completion of a set takes the next free slot that no taken command has reserved. -/
def execEndingCompletion (s : State) : Out :=
  match (List.range 16).find? fun i => !(s.ring i).endings.isEmpty && decide (0 < (s.ring i).cplFree) with
  | none => .next s
  | some i => match (s.ring i).endings with
    | [] => .next s
    | e :: rest =>
      let s := s.setRing i { s.ring i with endings := rest }
      .next (s.putCompletion i e.tag 0x10 e.status e.result true e.tick)

end Sys2Proof.Machine
end

