-- ==== Sys2Proof/Machine/Entry.lean ====
section
/-! DEFINITION. The entry engine: lane filling (R195, R348), the ledger (R331, R332), drafts (R355, R356), lane delivery (R346). -/
namespace Sys2Proof.Machine

/-! ### Drafts and steps -/

/-- Drafts by history lookup: the ids after the latest earlier occurrence, within positions EMIT − 1,024 to EMIT − 4, of the last three (R355; DEDUCED, log 16). -/
def lookupDrafts (h : List (List Nat)) : List (List Nat) :=
  let e := h.length
  if e < 6 then []
  else
    let pat := h.drop (e - 3)
    let lo := e - 1024
    match ((List.range (e - 5 - lo)).reverse.map (lo + ·)).find? (fun i => (h.drop i).take 3 == pat) with
    | some i => h.drop (i + 3)
    | none => []

/-- The drafts available for the step whose candidate 0 lies at EMIT − 1, at most 7 (R355). -/
def Req.drafts (r : Req) : List (List Nat) :=
  if r.draftSrc = 1 then (match r.draftBuf with
    | some b => if b.1 + 1 = r.emit then b.2.take 7 else []
    | none => [])
  else if r.draftSrc = 2 then (lookupDrafts (r.hist.map TokEnt.ids)).take 7
  else []

/-- Candidates of the next step (R356). -/
def Req.stepSize (r : Req) : Nat := min r.kCur (min (1 + r.drafts.length) (r.limit - r.emit))

/-! ### Tokens that may enter -/

/-- Lanes may be assigned to the request: its state, no hidden span pending, no end ordered (R348, R365). -/
def Req.open (r : Req) : Bool :=
  (r.state == .prefill || r.state == .decode || r.state == .rebuild) && r.hide.isNone && r.finish.isNone && r.final.isNone

/-- The sampling lane is the next to enter and the previous step has committed (R347, R348). -/
def State.sampling (s : State) (i : Nat) : Bool :=
  let r := s.req i
  r.open && r.state != .rebuild && r.next + 1 == r.emit && r.step.isNone && !s.stepInFlight i

/-- The lanes that a request can place as decode tokens, in order: the rest of its step, or its next step (R195, R356). -/
def State.decodeLanes (s : State) (i : Nat) : List LaneTag :=
  let r := s.req i
  match r.step with
  | some st =>
    if r.open then ((List.range st.k).drop st.entered).map fun j => ⟨i, st.base + j, 3, j, j + 1 == st.k⟩ else []
  | none =>
    if !s.sampling i then []
    else
      let k := r.stepSize
      if k ≤ 1 then [⟨i, r.next, 1, 0, false⟩]
      else (List.range k).map fun j => ⟨i, r.next + j, 3, j, j + 1 == k⟩

/-- The prefill lanes that a request can place, in order (R195, R347, R371): positions before its sampling lane, also after a withdrawal or a ruling set
NEXT back (R369, R436). -/
def State.prefillLanes (s : State) (i n : Nat) : List LaneTag :=
  let r := s.req i
  if r.open then
    ((List.range (min n (r.emit - 1 - r.next))).map fun j => ⟨i, r.next + j, 2, 0, false⟩)
  else []

/-- Ring entries that a lane needs free when it enters (R348): `none` when no check is made. -/
def ringNeed (r : Req) (t : LaneTag) : Option Nat :=
  if t.cls = 2 then some 1 else if t.cls = 1 then some 2 else if t.cand = 0 then some (r.stepSize + 1) else none

/-- Requests in the order of the decode tokens: older commits first, ties to the lower index (R195). -/
def insertSince (s : State) (i : Nat) : List Nat → List Nat
  | [] => [i]
  | j :: t => if laterThan (s.req j).since (s.req i).since then i :: j :: t else j :: insertSince s i t

/-- Requests in admission order. -/
def insertOrder (s : State) (i : Nat) : List Nat → List Nat
  | [] => [i]
  | j :: t => if (s.req i).order < (s.req j).order then i :: j :: t else j :: insertOrder s i t

/-- Indices of the entries in use. -/
def State.reqIds (s : State) : List Nat := s.srv.reqs.map Prod.fst

/-! ### The ledger -/

/-- The layer record of an entry of the attention depth table: of an own serving die, or of another member's (free, log 17). -/
def State.depthLayer (s : State) (d : DepthEnt) : Option LayerRec :=
  if d.member = s.member then s.layerRec d.die.val d.layer else some (layerRecOf (Config.peerLayer d.member d.die.val d.layer))

/-- Attention bytes that a token entering in a slot at tick e will read on the serving dies of every member: die, tick, bytes (R331, R589). -/
def State.tokenCost (s : State) (slot : Nat) (e : W48) (t : LaneTag) : List LedgerEnt :=
  match s.entryAlm with
  | none => []
  | some a => (a.2.depths.filter fun d => d.slot == slot).filterMap fun d =>
      (s.depthLayer d).map fun l => ⟨2 * d.member + d.die.val, e + BitVec.ofNat 48 d.depth, attnBytes l ((s.sd d.die.val).dir t.req) t.pos⟩

/-- Bytes placed for a die and tick. -/
def ledgerAt (l : List LedgerEnt) (die : Nat) (t : W48) : Nat :=
  (l.filter fun e => e.die == die && e.tick == t).foldl (fun a e => a + e.bytes) 0

/-- Bytes added to a ledger entry. -/
def ledgerAdd (l : List LedgerEnt) (e : LedgerEnt) : List LedgerEnt :=
  if l.any (fun x => x.die == e.die && x.tick == e.tick)
  then l.map fun x => if x.die == e.die && x.tick == e.tick then { x with bytes := x.bytes + e.bytes } else x
  else l ++ [e]

/-- Entries of tick t or later moved n ticks later (R331). -/
def ledgerShift (l : List LedgerEnt) (t n : W48) : List LedgerEnt :=
  l.map fun e => if e.tick = t ∨ laterThan e.tick t then { e with tick := e.tick + n } else e

/-! ### Filling -/

/-- What the filling of a slot has come to. -/
structure Filling where
  s : State
  lanes : List LaneTag
  stop : Bool

/-- One token placed, or the filling ended by it (R331, R332, R348). `budget d` is ATTN_BUDGET of die d = 2 × member + S in bytes. A later
candidate of a step that could never be placed ends the step before it, so that a request emits what it would without its drafts (R358). -/
def Filling.place (f : Filling) (slot cap : Nat) (e : W48) (budget : Nat → Nat) (t : LaneTag) : Filling :=
  if f.stop || cap ≤ f.lanes.length then f
  else
    let s := f.s
    let r := s.req t.req
    match ringNeed r t with
      | some n => if s.ringFree r < n then { f with s := s.modSd (homeOf t.req) fun x => x.serveBit 4 } else go s r
      | none => if t.cls = 3 ∧ t.cand ≠ 0 ∧ r.step.isNone then f else go s r
where
  go (s : State) (r : Req) : Filling :=
    let cost := s.tokenCost slot e t
    match cost.find? fun c => decide (budget c.die < c.bytes) with
    | some c =>
      if t.cls = 3 ∧ t.cand ≠ 0 then { f with s := s.modReq t.req Req.cutStep, stop := true }
      else
        let s := if c.die / 2 = s.member then s.modSd (c.die % 2) fun x => (x.attnBit 7).attnBit 8 else s
        { f with s := s.finish t.req .ceiling, stop := true }
    | none =>
      let led := cost.foldl ledgerAdd s.srv.ledger
      if cost.any fun c => decide (budget c.die < ledgerAt led c.die c.tick) then { f with stop := true }
      else
        let s := { s with srv := { s.srv with ledger := led } }
        let s := s.modReq t.req fun r' =>
          let nx := t.pos + 1
          let r' := { r' with
            next := nx
            since := if t.cls = 2 ∧ nx + 1 = r'.emit then e else r'.since
            state := if t.cls ≠ 2 ∧ r'.state = .prefill then .decode
              else if r'.state = .rebuild ∧ r'.emit ≤ nx + 1 then .decode else r'.state }
          if t.cls = 3 then
            let st : Step := if t.cand = 0 then ⟨t.pos, r.stepSize, 1, r.drafts.take (r.stepSize - 1)⟩
              else match r'.step with
                | some st => { st with entered := t.cand + 1 }
                | none => ⟨t.pos - t.cand, 0, 0, []⟩
            { r' with step := some st }
          else r'
        let s := if t.cls = 3 ∧ t.cand ≠ 0 then s.modSd (homeOf t.req) fun x => { x with offered := satAdd 0x7FFF_FFFF x.offered 1 } else s
        { s := s, lanes := f.lanes ++ [t], stop := false }

/-- LANE_FILL (R195): decode tokens in the order of their commits, then prefill in admission order, up to the lanes of the slot. -/
def fillSlot (s : State) (slot cap : Nat) (e : W48) (budget : Nat → Nat) : State × List LaneTag :=
  let ids := s.reqIds
  let dec := (ids.foldl (fun l i => insertSince s i l) []).flatMap s.decodeLanes
  let f := dec.foldl (fun (f : Filling) t => f.place slot cap e budget t) ⟨s, [], false⟩
  let pre := (ids.foldl (fun l i => insertOrder f.s i l) []).flatMap fun i => f.s.prefillLanes i cap
  let f := pre.foldl (fun (f : Filling) t => f.place slot cap e budget t) f
  (f.s, f.lanes)

/-! ### Delivery -/

/-- The lane tag of R267 as a 64-bit value. -/
def tagWord (t : LaneTag) : Nat := t.req + t.pos * 2 ^ 12 + t.cls * 2 ^ 28 + t.cand * 2 ^ 30 + if t.last then 2 ^ 33 else 0

/-- The ids that a lane carries as its input: its history entry, or its draft (R346). -/
def laneIds (r : Req) (t : LaneTag) : List Nat :=
  match r.hist[t.pos]? with
  | some e => e.ids
  | none => match r.step with
    | some st => nth [] st.drafts (t.cand - 1)
    | none => []

/-- The input row: the sum over heads of the embedding rows, exact and rounded once to BF16 (R346). -/
def State.inputRow (s : State) (ids : List Nat) : Bytes :=
  let w := s.embedWidth
  let rb := alignUp (2 * w) 64
  (List.range w).flatMap fun i =>
    leBytes 2 (fpEncode bf16 (fpSum ((enum ids).filterMap fun x =>
      (s.auxContent 5 x.1).map fun bs => fpDecode bf16 (leAt bs (rb * x.2 + 2 * i) 2)))).1

/-- The bytes of one lane: tag line and padded input row (R346). -/
def State.laneBytes (s : State) (t : LaneTag) : Bytes :=
  leBytes 8 (tagWord t) ++ List.replicate 56 0 ++ pad64 (s.inputRow (laneIds (s.req t.req) t))

/-- The bytes of an unfilled lane (R346). -/
def State.emptyLane (s : State) : Bytes := List.replicate (64 + alignUp (2 * s.embedWidth) 64) 0

/-- LANE_DELIVERY (R346): the messages of every lane of the entry slot of sequence n, from the home dies of the serving member, and from its S0 for unfilled lanes. -/
def State.deliverLanes (s : State) (n : W48) (cap : Nat) (lanes : List LaneTag) : State :=
  match (if s.servingMember = s.member then s.route 0 else none) with
  | none => s
  | some r =>
    let size := 64 + alignUp (2 * s.embedWidth) 64
    (List.range cap).foldl (fun s l =>
      let t := lanes[l]?
      let die := match t with | some t => 24 + homeOf t.req | none => 24
      let bs := match t with | some t => s.laneBytes t | none => s.emptyLane
      let h : Header :=
        { kind := 0, form := r.form, destMember := r.destMember, die := r.destDie, destUnit := r.destUnit, route := 0,
          seq := n.setWidth 8, cls := r.shareClass, vc := 1, first := false, last := false, offset := l * size, opMax := false,
          srcCore := 127, srcMember := s.member, int := false }
      s.inject (1000 * s.member + 500 + 16 * die) (asDie die) 0 none none (messageOf h 64 (piecesOf 64 bs.length bs))) s

/-- The entry core's slot record in an entry slot, if this package holds the entry core or the request table (R195). -/
def State.entrySlot (s : State) (slot : Nat) : Option SlotRec :=
  match s.entryAlm with
  | none => none
  | some a =>
    if s.servingMember ≠ s.member ∧ a.1 ≠ s.member then none
    else match a.2.cores.find? CoreEnt.entry with
      | none => none
      | some e => match e.slots[slot]? with
        | some r => if r.entry ≠ 0xFFFF_FFFF ∧ 0 < r.decLanes + r.preLanes then some r else none
        | none => none

/-- The lanes of an entry slot of sequence n: filled from the request table, by the same rules on the member that holds it and on the one that holds the entry core, since every member reaches the same
placement (R331); what another member's request table gives is free (log 17). -/
def State.slotLanes (s : State) (n e : W48) (slot cap : Nat) (budget : Nat → Nat) : State × List LaneTag :=
  if s.servingMember = s.member then fillSlot s slot cap e budget else (s, (Config.peerLanes n.toNat).take cap)

/-- The lanes of the entry slot of sequence n in tick e, kept for its replays (R195, R196). `assign` is false while no lane may be assigned. -/
def State.enterLanes (s : State) (n e : W48) (assign : Bool) (budget : Nat → Nat) : State :=
  match s.alm with
  | none => s
  | some a =>
    let slot := if a.slots = 0 then 0 else n.toNat % a.slots
    match s.entrySlot slot with
    | none => s
    | some r =>
      let cap := r.decLanes + r.preLanes
      match s.srv.fills.find? fun f => f.seq == n with
      | some f => { s with srv := { s.srv with fills := s.srv.fills.map fun g => if g.seq == n then { f with tick := e } else g } }
      | none =>
        let p := if assign then s.slotLanes n e slot cap budget else (s, [])
        let keep := p.1.srv.fills.filter fun f => decide ((n - f.seq).toNat < 8)
        { p.1 with srv := { p.1.srv with
          fills := ⟨n, e, p.2⟩ :: keep
          lanes := p.1.srv.lanes ++ p.2.map fun t => ⟨t, n, false⟩ } }

end Sys2Proof.Machine
end

