-- ==== Sys2Proof/Machine/HostReq.lean ====
section
/-! DEFINITION. Admission (R338 to R343) and the request commands of the host (R316, R355, R365). -/
namespace Sys2Proof.Machine

/-- A firmware processor runs (R479, R485). -/
def ProcState.runs (p : ProcState) : Bool := p.state == 0 || p.state == 2

/-- A command is taken up by its handling processor (R461, R463, R479): the package has power, the scheduler or power core runs if it is theirs, and it is the command's turn. A command of the security
core is answered also while that core is down. -/
def State.handles (s : State) (h : HostCmd) (opcode : Nat) : Bool :=
  s.power == 0 && s.turn h opcode && (match queueOf opcode with | 0 => s.fw.sch.runs | 2 => s.fw.pwr.runs | _ => true)

/-- A byte range lies in the carve-out of a ring set's OWNER (R457, R462). -/
def State.inCarve (s : State) (a n : Nat) : Bool := decide (a + n ≤ s.rings.carveSize)

/-- The group is in a convening hold or a failover hold (R530). -/
def State.held (s : State) : Bool := s.grp.state == .convening || s.grp.state == .failover

/-- The steps of a load wait: in a hold, but for a failover hold that waits for a load itself (R442). -/
def State.loadHeld (s : State) : Bool := s.held && !(s.grp.state == .failover && s.grp.escrowMissing)

/-- An FP32 code as a finite value in [lo, hi], or none. -/
def fpIn (c : Nat) (lo hi : Fp) : Bool :=
  let v := val32 c
  v.isFin && !fpLt v lo && !fpLt hi v

/-- Zero. -/
def fp0 : Fp := .fin false 0 0

/-- The parameters of a record that R341 refuses with PARAM. -/
def paramBad (bs : Bytes) (v0 : Nat) : Bool :=
  let b0 := leAt bs 0 1
  let stops := (List.range 4).map fun i => leAt bs (64 + 4 * i) 4
  decide (b0 / 128 ≠ 0 ∨ leAt bs 1 1 / 16 ≠ 0 ∨ leAt bs 2 2 ≠ 0 ∨ leAt bs 46 2 ≠ 0)
  || (sliceBytes bs 80 48).any (· != 0)
  || decide (8 < b0 % 16) || decide (2 < b0 / 16 % 4)
  || decide (leAt bs 1 1 % 16 < 4 ∨ 12 < leAt bs 1 1 % 16)
  || decide (leAt bs 20 4 = 0 ∨ 65536 < leAt bs 20 4)
  || decide (leAt bs 24 8 % 32 ≠ 0 ∨ leAt bs 32 8 % 64 ≠ 0)
  || !((val32 (leAt bs 40 4)).isZero || fpIn (leAt bs 40 4) (.fin false 1 (-8)) (.fin false 16 0))
  || decide (1024 < leAt bs 44 2)
  || !(fpIn (leAt bs 48 4) fp0 (.fin false 1 0) && fpPos (val32 (leAt bs 48 4)))
  || !(fpIn (leAt bs 52 4) fp0 (.fin false 1 0) && fpLt (val32 (leAt bs 52 4)) (.fin false 1 0))
  || !fpIn (leAt bs 56 4) (.fin false 1 0) (.fin false 8 0)
  || !fpIn (leAt bs 60 4) fp0 (.fin false 64 0)
  || stops.any fun e => decide (2 ^ 31 ≤ e) && decide (v0 ≤ e % 2 ^ 18)

/-- The ids of a token field of 32 bytes (R360). -/
def idsOf (bs : Bytes) (h : Nat) : List Nat := (List.range h).map fun i => leAt bs 0 18 / 2 ^ (18 * i) % 2 ^ 18

/-- Entries of the die's half of the request table that are FREE, but for those that an apply point has freed and an admission can take from the next one (R364). -/
def State.freeEntries (s : State) (d : Nat) : List Nat :=
  ((List.range 2048).map fun i => 2 * i + d).filter fun i => (s.req i).state == .free && !s.srv.freed.contains i

/-- Admittable: an almanac and a generation are in force, every good core is swept, and no layer is marked unreadable (R156, R158, R341). -/
def State.admittable (s : State) : Bool :=
  s.alm.isSome && s.genActive != 0 && ((List.range 96).all fun i => !s.good ⟨i % 96, by omega⟩ || (s.core ⟨i % 96, by omega⟩).sweepDone)
  && s.cores.all fun c => c.2.lostArrays.isEmpty

/-- The status of an admission (R341), in the order of its table, for a record and its prompt. -/
def State.admitStatus (s : State) (bs : Bytes) (prompt : List (List Nat)) : Nat :=
  let n := leAt bs 16 4
  let gen := BitVec.ofNat 32 (leAt bs 4 4)
  if !s.admittable then 5
  else if paramBad bs (s.vocab 0) then 1
  else if n = 0 ∨ 65535 < n ∨ prompt.any (fun e => (enum e).any fun x => decide (s.vocab x.1 ≤ x.2)) then 2
  else if gen ≠ 0 ∧ gen ≠ s.genActive ∧ (s.genStaged = 0 ∨ gen ≠ s.genStaged) then 4
  else if (s.freeEntries 0).isEmpty && (s.freeEntries 1).isEmpty then 3
  else 0

/-- The entry that an admission takes: the lowest free index of the die with more free entries, S0 on a tie (R342). -/
def State.freeEntry (s : State) : Nat :=
  let a := s.freeEntries 0
  let b := s.freeEntries 1
  if a.length < b.length then nth 0 b 0 else nth 0 a 0

/-- The entry as admission fills it (R342, R344). -/
def admitted (h : HostCmd) (bs : Bytes) (seed : W64) (ticket : W32) (i order : Nat) (prompt : List (List Nat)) : Req :=
  let n := leAt bs 16 4
  { reqDefault 0 with
    state := .queued, seeded := leAt bs 0 1 / 64 % 2 == 1, kMax := leAt bs 0 1 % 16, kCur := max 1 (leAt bs 0 1 % 16)
    draftSrc := leAt bs 0 1 / 16 % 4, ringLog2 := leAt bs 1 1 % 16, ticket := ticket, promptLen := n
    limit := min (n + leAt bs 20 4) 65536, seed := seed, dirS0 := Config.dirAddr i 0, dirS1 := Config.dirAddr i 1
    ringAddr := BitVec.ofNat 64 (leAt bs 32 8), temp := BitVec.ofNat 32 (leAt bs 40 4), topK := leAt bs 44 2
    topP := BitVec.ofNat 32 (leAt bs 48 4), minP := BitVec.ofNat 32 (leAt bs 52 4), repPen := BitVec.ofNat 32 (leAt bs 56 4)
    presPen := BitVec.ofNat 32 (leAt bs 60 4), stops := (List.range 4).map fun j => BitVec.ofNat 32 (leAt bs (64 + 4 * j) 4)
    genReq := BitVec.ofNat 32 (leAt bs 4 4), set := h.set.val, tag := h.tag, order := order
    hist := (enum prompt).map fun x => ⟨x.2, 0, x.1, 0, 0⟩ }

/-- ADMIT (R340 to R342). A record, prompt or ring outside the carve-out completes with ADDRESS (R462). The prompt's ids stay with the entry until it leaves the queue. -/
def execAdmitReq (h : HostCmd) (recordAddr : W64) (s : State) : Out :=
  if !s.handles h 0x10 then .next s
  else
    let m := s.carve (s.ring h.set.val).owner
    let bs := readBytes m recordAddr.toNat 128
    let n := leAt bs 16 4
    let pa := leAt bs 24 8
    let refused (st : Nat) : State := (s.modSd 0 fun x => x.serveBit 0).completeCmd h 0x10 st []
    if !s.inCarve recordAddr.toNat 128 then .next (refused 0x102)
    else
      let prompt := if 65535 < n then [] else (List.range n).map fun i => idsOf (readBytes m (pa + 32 * i) 32) s.heads
      let st := s.admitStatus bs prompt
      if st ≠ 0 then .next (refused st)
      else if !s.inCarve pa (32 * n) || !s.inCarve (leAt bs 32 8) (64 + 32 * 2 ^ (leAt bs 1 1 % 16)) then
        .next (refused 0x102)
      else
        let i := s.freeEntry
        let d := homeOf i
        let seeded := leAt bs 0 1 / 64 % 2 == 1
        let seed : W64 := if seeded then BitVec.ofNat 64 (leAt bs 8 8) else (Config.random s.free).setWidth 64
        let s := if seeded then s else { s with free := s.free + 1 }
        let t := (s.sd d).ticket
        let s := s.modSd d fun x => { x with ticket := x.ticket + 1 }
        let s := s.setReq i (admitted h bs seed t i s.srv.nextOrder prompt)
        let s := { s with srv := { s.srv with nextOrder := s.srv.nextOrder + 1 } }
        .next (s.completeCmd h 0x10 0 (leBytes 2 i ++ leBytes 4 t.toNat ++ leBytes 8 seed.toNat))

/-- The QUEUED request that is next in the order of admission (R343). -/
def State.queueHead (s : State) : Option Nat :=
  ((s.srv.reqs.filter fun e => e.2.state == .queued && e.2.finish.isNone).foldl (fun a e => match a with
    | none => some e
    | some b => if e.2.order < b.2.order then some e else some b) none).map Prod.fst

/-- Units of the frames that a request reserves on a die: ceil(LIMIT / 128) pages of every layer in NEW_FMT (R343). -/
def State.pageNeed (s : State) (d : Nat) (r : Req) : List Nat :=
  match s.auxContent 3 (24 + d) with
  | some bs => (layerRecs bs).flatMap fun l => List.replicate (ceilDiv r.limit 128) (frameUnits l l.newFmt)
  | none => []

/-- Frames of the given units reserved for request i; `none` if the pool does not hold one of them. -/
def ServeDie.reserveAll (x : ServeDie) (i : Nat) : List Nat → Option ServeDie
  | [] => some x
  | n :: t => match x.gap n with
    | some a => (x.setOwn i (x.own i ++ [(a, n)])).reserveAll i t
    | none => none

/-- Units of the history (R343). -/
def histUnits (r : Req) : Nat := ceilDiv ((r.limit + 8) * 32) 4096

/-- The reservations of R343 on one die, with the history on the home die; `none` if the pool does not hold them. -/
def State.reserve (s : State) (d i : Nat) (r : Req) : Option (ServeDie × Nat) :=
  match (s.sd d).reserveAll i (s.pageNeed d r) with
  | none => none
  | some y =>
    if homeOf i ≠ d then some (y, 0)
    else (y.gap (histUnits r)).map fun a => ({ y with alloc := insertExt (a, histUnits r) y.alloc }, a)

/-- QUEUE_DEPARTURE (R343): the first queued request is pinned to the generation in force, reserves its units and enters PREFILL. -/
def execQueueDeparture (s : State) : Out :=
  match s.queueHead with
  | none => .next s
  | some i =>
    let r := s.req i
    if !s.atStep 6 || s.genStaged != 0 || s.genActive == 0 || !(r.genReq == 0 || r.genReq == s.genActive) then .next s
    else match s.reserve 0 i r, s.reserve 1 i r with
      | some x0, some x1 =>
        let s := ((s.setSd 0 x0.1).setSd 1 x1.1).begun 6
        let ha := if homeOf i = 0 then x0.2 else x1.2
        .next (s.modReq i fun r => { r with
          state := .prefill, gen := s.genActive, emit := r.promptLen, next := 0, since := s.tick.count
          histAddr := BitVec.ofNat 64 (4096 * ha) })
      | _, _ => .next s

/-- The entry that REQ and TICKET name, if it is in use (R365). -/
def State.ticketed (s : State) (req : BitVec 16) (ticket : W32) : Option Req :=
  let r := s.req req.toNat
  if r.state = .free ∨ r.ticket ≠ ticket ∨ 4096 ≤ req.toNat then none else some r

/-- CANCEL (R365, R366): taken at an apply point outside a hold; a request whose final token has committed has ended. -/
def execCancel (h : HostCmd) (req : BitVec 16) (ticket : W32) (s : State) : Out :=
  if !s.handles h 0x11 || s.held || !s.atStep 3 then .next s
  else match s.ticketed req ticket with
    | none => .next (s.completeCmd h 0x11 0x104 [])
    | some r =>
      let i := req.toNat
      let s := s.begun 3
      if r.final.isSome then .next (s.completeCmd h 0x11 0x104 []) else
      let s := if r.state = .queued then s.finish i .cancelled
        else if s.stepInFlight i then s.modReq i fun r => { r.cutStep with cancel := true, state := .ending }
        else (s.modReq i fun r => { r with cancel := true }).finish i .cancelled
      .next (s.completeCmd h 0x11 0 [])

/-- The 7 × 8 draft ids of IDS_ADDR, by draft (R463). -/
def draftIds (bs : Bytes) (heads : Nat) : List (List Nat) :=
  (List.range 7).map fun d => (List.range heads).map fun h => leAt bs (4 * (8 * d + h)) 4

/-- DRAFT (R355): drafts for the step whose candidate 0 lies at BASE. -/
def execDraft (h : HostCmd) (req : BitVec 16) (ticket base : W32) (idsAddr : W64) (s : State) : Out :=
  if !s.handles h 0x12 || s.held then .next s
  else if !s.inCarve idsAddr.toNat 224 then .next (s.completeCmd h 0x12 0x102 [])
  else match s.ticketed req ticket with
    | none => .next (s.completeCmd h 0x12 0x104 [])
    | some _ =>
      let ids := draftIds (readBytes (s.carve (s.ring h.set.val).owner) idsAddr.toNat 224) s.heads
      if ids.any (fun d => (enum d).any fun x => decide (s.vocab x.1 ≤ x.2)) then .next (s.completeCmd h 0x12 0x103 [])
      else .next ((s.modReq req.toNat fun r => { r with draftBuf := some (base.toNat, ids) }).completeCmd h 0x12 0 [])

/-- HIDE (R316): the span waits for an apply point with no lane of the request in flight; a further HIDE waits behind it. -/
def execHide (h : HostCmd) (req : BitVec 16) (ticket lo hi : W32) (s : State) : Out :=
  if !s.handles h 0x13 || s.held || s.tick.phase ≠ .applied then .next s
  else match s.ticketed req ticket with
    | none => .next (s.completeCmd h 0x13 0x104 [])
    | some r =>
      if r.hide.isSome then .next s
      else .next ((s.begins h 0x13).modReq req.toNat fun r => { r with hide := some (lo.toNat % 2 ^ 17, hi.toNat % 2 ^ 17, h.set.val, h.tag) })

end Sys2Proof.Machine
end

