-- ==== Sys2Proof/Machine/Rings.lean ====
section
/-! DEFINITION. The ring engine and the doorbells (R457 to R467). -/
namespace Sys2Proof.Machine

/-- The opcodes of R463. -/
def opcodes : List Nat :=
  [1, 0x10, 0x11, 0x12, 0x13, 0x20, 0x21, 0x22, 0x23, 0x24, 0x30, 0x31, 0x40, 0x41, 0x50, 0x51, 0x60, 0x61, 0x62, 0x70]

/-- Bytes of operands of an opcode (R392, R463). -/
def operandBytes (op : Nat) : Nat :=
  if op = 0x10 then 8 else if op = 0x11 then 6 else if op = 0x12 then 18 else if op = 0x13 then 14
  else if op = 0x20 then 18 else if op = 0x21 then 12 else if op = 0x24 then 12 else if op = 0x30 then 18
  else if op = 0x31 then 12 else if op = 0x40 then 8 else if op = 0x50 then 13 else if op = 0x51 then 7
  else if op = 0x60 then 16 else if op = 0x61 then 26 else if op = 0x62 then 8 else if op = 0x70 then 6 else 0

/-- The status with which the ring engine itself answers an entry: OPCODE, RESERVED, or DENIED from a set that may not issue it (R463, R464). -/
def State.takeStatus (s : State) (set : Nat) (bs : Bytes) : Option Nat :=
  let op := leAt bs 0 2
  if op ∉ opcodes then some 0x100
  else if leAt bs 2 2 ≠ 0 ∨ (bs.drop (8 + operandBytes op)).any (· != 0) then some 0x101
  else if (op = 0x50 ∨ op = 0x61 ∨ op = 0x62) ∧ s.rings.ringAdmin.getLsbD set = false then some 0x106
  else none

/-- COMMAND_TAKE (R461): with a completion slot free and room in the handling processor's queue, the engine takes the next command of an enabled set, reserving the slot. -/
def execCommandTake (set : Fin 16) (s : State) : Out :=
  let i := set.val
  let r := s.ring i
  if s.rings.stopped || !r.enabled || r.cmdHead == r.cmdTail || r.cplFree == 0 || !r.endings.isEmpty then .next s
  else
    let bs := readBytes (s.carve r.owner) (r.cmdBase + 64 * (r.cmdHead.toNat % 2 ^ r.cmdLog2)) 64
    let op := leAt bs 0 2
    let tag := BitVec.ofNat 32 (leAt bs 4 4)
    match s.takeStatus i bs with
    | some st =>
      let s := s.setRing i { r with cmdHead := r.cmdHead + 1 }
      .next (s.putCompletion i tag op st [] false s.tick.count)
    | none =>
      let q := nth [] s.rings.queues (queueOf op)
      if 256 ≤ q.length then .next s
      else
        let s := s.setRing i { r with cmdHead := r.cmdHead + 1, reserved := r.reserved + 1 }
        let s := { s with rings := { s.rings with queues := s.rings.queues.set (queueOf op) (q ++ [(⟨i, tag, op⟩ : QCmd)]) } }
        .next (s.writeIndices i)

/-- EVENTS_LOST (R466). -/
def execEventsLost (set : Fin 16) (s : State) : Out := .next (s.flushLost set.val)

/-- An ignored doorbell (R460): DB_INVALID in FW_EVT, and the event. -/
def State.dbInvalid (s : State) (set ring : Nat) (index : BitVec 16) : State :=
  ({ s with rings := { s.rings with fwEvt := setBit s.rings.fwEvt 6 } }).post 0x0F 3 26
    (leBytes 1 set ++ leBytes 1 ring ++ leBytes 2 index.toNat)

/-- A doorbell with RING 0: the command ring's tail (R459, R460). -/
def execDbCommandTail (set : Fin 16) (index : BitVec 16) (s : State) : Out :=
  let r := s.ring set.val
  if (index - r.cmdHead).toNat ≤ 2 ^ r.cmdLog2 ∧ (r.cmdTail - r.cmdHead).toNat ≤ (index - r.cmdHead).toNat
  then .next (s.setRing set.val { r with cmdTail := index })
  else .next (s.dbInvalid set.val 0 index)

/-- A doorbell with RING 1: the completion ring's consumed count (R459, R460). -/
def execDbCompletionConsumed (set : Fin 16) (index : BitVec 16) (s : State) : Out :=
  let r := s.ring set.val
  if (index - r.cplUsed).toNat ≤ (r.cplProd - r.cplUsed).toNat
  then .next (s.setRing set.val { r with cplUsed := index })
  else .next (s.dbInvalid set.val 1 index)

/-- A doorbell with RING 2: the event ring's consumed count (R459, R460). -/
def execDbEventConsumed (set : Fin 16) (index : BitVec 16) (s : State) : Out :=
  let r := s.ring set.val
  if (index - r.evtUsed).toNat ≤ (r.evtProd - r.evtUsed).toNat
  then .next (s.setRing set.val { r with evtUsed := index })
  else .next (s.dbInvalid set.val 2 index)

/-- NOP (R463): completes with OK. -/
def execCmdNop (h : HostCmd) (s : State) : Out := if s.handles h 1 then .next (s.completeCmd h 1 0 []) else .next s

/-- A descriptor of the ring set table (R457) as the device takes it when ENABLE goes from 0 to 1. -/
def ringOf (bs : Bytes) (r : RingSet) : RingSet :=
  { r with
    enabled := true, owner := leAt bs 26 1 / 2 % 2, cmdBase := leAt bs 0 8, cplBase := leAt bs 8 8, evtBase := leAt bs 16 8
    cmdLog2 := leAt bs 24 1 % 16, cplLog2 := leAt bs 24 1 / 16, evtLog2 := leAt bs 25 1 % 16, mask := BitVec.ofNat 8 (leAt bs 27 1)
    cmdHead := BitVec.ofNat 16 (leAt bs 28 2), cmdTail := BitVec.ofNat 16 (leAt bs 28 2)
    cplProd := BitVec.ofNat 16 (leAt bs 30 2), cplUsed := BitVec.ofNat 16 (leAt bs 30 2)
    evtProd := BitVec.ofNat 16 (leAt bs 32 2), evtUsed := BitVec.ofNat 16 (leAt bs 32 2), evtLost := leAt bs 34 2 }

/-- A descriptor's fields are in their ranges, and its rings inside a carve-out of the given size (R457). -/
def descGood (size : Nat) (bs : Bytes) : Bool :=
  decide (leAt bs 0 8 % 64 = 0 ∧ leAt bs 8 8 % 64 = 0 ∧ leAt bs 16 8 % 64 = 0)
  && decide (4 ≤ leAt bs 24 1 % 16 ∧ leAt bs 24 1 % 16 ≤ 12 ∧ leAt bs 24 1 % 16 ≤ leAt bs 24 1 / 16 ∧ leAt bs 24 1 / 16 ≤ 12)
  && decide (4 ≤ leAt bs 25 1 ∧ leAt bs 25 1 ≤ 12 ∧ leAt bs 26 1 < 4) && (sliceBytes bs 36 28).all (· == 0)
  && decide (leAt bs 0 8 + 64 * 2 ^ (leAt bs 24 1 % 16) ≤ size ∧ leAt bs 8 8 + 32 * 2 ^ (leAt bs 24 1 / 16) ≤ size ∧ leAt bs 16 8 + 32 * 2 ^ (leAt bs 25 1) ≤ size)

/-- ENABLE changes of the ring set table take effect at the eve (R457, R467). A descriptor out of its ranges enables nothing (DESIGN CHOICE, log 18). -/
def State.applyRings (s : State) : State :=
  (List.range 16).foldl (fun s i =>
    let bs := readBytes s.rings.carve0 (s.descAddr i) 64
    let en := leAt bs 26 1 % 2 == 1
    let r := s.ring i
    if en && !r.enabled then (if descGood s.rings.carveSize bs then s.setRing i (ringOf bs r) else s)
    else if !en && r.enabled then s.setRing i { r with enabled := false } else s) s

end Sys2Proof.Machine
end

