-- ==== Sys2Proof/Machine/Almanac.lean ====
section
/-! DEFINITION. Almanacs: their bytes, the checks of firmware, placing, required clocks (R187 to R194, R241, R297, R338, R353). -/
namespace Sys2Proof.Machine

/-- All bytes from a to b − 1 are 0. -/
def zeros (bs : Bytes) (a b : Nat) : Bool := (sliceBytes bs a (b - a)).all (· == 0)

/-- The core map of an almanac (CORE_MAP of R190). -/
def almCoreMap (raw : Bytes) : BitVec 96 := BitVec.ofNat 96 (leAt raw 24 12)

/-- Header fields lie in their ranges, and reserved fields are 0 (R190, R194). -/
def headerOk (raw : Bytes) : Bool :=
  decide (64 ≤ raw.length) && leAt raw 0 4 == 0x314D_4C41 && leAt raw 4 2 == 1 && leAt raw 21 1 == 3
  && decide (1 ≤ leAt raw 6 2 ∧ leAt raw 6 2 ≤ 4096) && decide (80 ≤ leAt raw 16 2 ∧ leAt raw 16 2 ≤ 640)
  && decide (4 ≤ leAt raw 18 1 ∧ leAt raw 18 1 ≤ 40) && decide (leAt raw 19 1 ≤ 25)
  && decide (1 ≤ leAt raw 20 1 % 16 ∧ leAt raw 20 1 % 16 ≤ 8) && decide (leAt raw 20 1 / 16 ≤ 2)
  && decide (1 ≤ leAt raw 22 2 ∧ leAt raw 22 2 ≤ 96) && decide (1 ≤ leAt raw 44 2)
  && decide (leAt raw 46 1 < 16) && zeros raw 47 48 && zeros raw 58 64
  && decide (leAt raw 36 4 + 16 * leAt raw 22 2 ≤ raw.length) && decide (leAt raw 40 4 + 16 * leAt raw 44 2 ≤ raw.length)

/-- A strictly rising list. -/
def rising : List Nat → Bool
  | a :: b :: t => decide (a < b) && rising (b :: t)
  | _ => true

/-- Core entries: ascending ids, slot records inside the almanac, their reserved bytes 0, ranges of R191. -/
def coresOk (raw : Bytes) : Bool :=
  let n := leAt raw 22 2
  rising ((List.range n).map fun i => leAt (coreBytes raw i) 0 1 % 128)
  && (List.range n).all fun i =>
    let b := coreBytes raw i
    let off := leAt b 4 4
    decide (leAt b 0 1 % 128 < 96) && decide (1 ≤ leAt b 1 1 ∧ leAt b 1 1 ≤ 16) && decide (off + 32 * leAt raw 6 2 ≤ raw.length)
    && (List.range (leAt raw 6 2)).all fun j => zeros raw (off + 32 * j + 20) (off + 32 * j + 32)

/-- Route entries: reserved fields 0, values of R193, and the rules of R297. -/
def routesOk (raw : Bytes) (rs : List RouteEnt) : Bool :=
  (List.range rs.length).all fun i =>
    let b := sliceBytes raw (leAt raw 40 4 + 16 * i) 16
    let r := routeOf b
    decide (r.kind ≤ 4 ∧ r.form ≤ 2 ∧ r.destDie ≤ 25) && decide (leAt b 1 1 < 16 ∧ leAt b 14 1 < 64) && zeros b 15 16
    && decide (if r.kind = 1 then 1 ≤ r.partials ∧ r.partials ≤ 1024 else r.partials = 0)
    && (r.kind != 1 || (decide (r.destDie < 24 ∧ r.destUnit ≤ 15) && match rs[i + 1]? with
      | none => false
      | some o => decide (o.kind ≤ 1) && (if r.form = 1 then decide (o.form ≤ 1) else decide (r.form = 2))))

/-- The routes that a slot names on any core. -/
def slotRoutes (a : Almanac) (s : Nat) : List Nat :=
  a.cores.foldl (fun l c => match c.slots[s]? with
    | some r => (List.range r.routeCnt).foldl (fun l j => addNew l (r.routeFirst + j)) l
    | none => l) []

/-- The reductions of a slot: routes of KIND 1 that it names, and their onward reductions (R288, R289). -/
def slotReductions (a : Almanac) (s : Nat) : List Nat :=
  let rs := slotRoutes a s
  let isRed (i : Nat) : Bool := match a.routes[i]? with | some r => r.kind == 1 | none => false
  let chain (i : Nat) : List Nat := ((List.range (a.routes.length - i)).map (i + ·)).takeWhile isRed
  rs.foldl (fun l i => (chain i).foldl addNew l) []

/-- No two reductions of one slot name the same reducer (R297). -/
def reducersOk (a : Almanac) : Bool :=
  (List.range a.slots).all fun s =>
    let l := (slotReductions a s).filterMap fun i => (a.routes[i]?).map fun r => (r.destMember, r.destDie, r.destUnit)
    decide l.Nodup

/-- Half clock f = clk × 25 MHz holds a slot of `cycles` cycles in the usable window U (R187), W given in tenths of a nanosecond. -/
def fitsWindow (w reserve cycles clk : Nat) : Bool := decide (cycles * 40000 ≤ clk * w * (100 - reserve))

/-- W of R166 for an effective period and a guard, both in 12.5 ns steps, in tenths of a nanosecond. -/
def windowOf (p g : Nat) : Nat := 125 * (p - g) - 800

/-- R189: every slot fits at 1.6 GHz with e = 8 at the compiled period. -/
def almFits (a : Almanac) : Bool :=
  let w := windowOf a.period a.guardSteps
  a.cores.all fun c => c.slots.all fun r =>
    fitsWindow w a.reserve (r.cycles + 8 * r.passes) 64 && fitsWindow w a.reserve r.seamFlits 64

/-- Entry slots of an almanac (R195). -/
def entrySlots (a : Almanac) : List Nat :=
  match a.cores.find? CoreEnt.entry with
  | none => []
  | some e => (List.range a.slots).filter fun i => match e.slots[i]? with
    | some r => decide (r.entry ≠ 0xFFFF_FFFF ∧ 0 < r.decLanes + r.preLanes)
    | none => false

/-- The attention depth table keeps R589. -/
def depthsOk (a : Almanac) : Bool :=
  let n := leAt a.raw 56 2
  let off := leAt a.raw 52 4
  if n = 0 then true
  else decide (off + 8 * n ≤ a.raw.length)
    && ((List.range n).all fun i =>
      let b := sliceBytes a.raw (off + 8 * i) 8
      let d := depthOf b
      decide (d.slot ∈ entrySlots a) && decide (1 ≤ d.depth ∧ d.depth ≤ 1023)
      && decide (leAt b 0 2 < 2 ^ 12 ∧ leAt b 2 2 < 2 ^ 10 ∧ leAt b 4 1 < 32 ∧ leAt b 5 2 < 2 ^ 10) && zeros b 7 8)
    && decide (a.depths.map fun d => (d.slot, d.layer)).Nodup

/-- KIND 3 routes name one member and S0, and route 0 is a KIND 0 route to the entry core if this almanac holds it (R338). -/
def servingOk (a : Almanac) : Bool :=
  let k3 := a.routes.filter fun r => r.kind == 3
  k3.all (fun r => r.destDie == 24 && allSame (k3.map RouteEnt.destMember))
  && (match a.routes[0]? with
    | some r => r.kind == 0 && (match a.cores.find? CoreEnt.entry with
      | some e => decide (r.destMember = a.member ∧ 4 * r.destDie + r.destUnit = e.core)
      | none => true)
    | none => false)
  && decide ((a.cores.filter CoreEnt.entry).length ≤ 1)

/-- Route and recipe indexes lie inside their tables (R194), those of idle slots too. -/
def indexesOk (a : Almanac) : Bool :=
  a.cores.all fun c => c.slots.all fun r => decide (r.routeFirst + r.routeCnt ≤ a.routes.length) && decide (r.recipe < c.layers)

/-- The routes to attention engines and KV pagers that a core's slots name lead to the serving die of its column (R32); that firmware checks it at the load is DESIGN CHOICE (log 66). -/
def columnsOk (a : Almanac) : Bool :=
  a.sends.all fun x => match a.routes[x.2]? with
    | some r => !(r.kind == 2 || r.kind == 4) || r.destDie == (if x.1 / 4 % 6 < 3 then 24 else 25)
    | none => true

/-- An auxiliary section of a list (R387). -/
def auxOf (aux : List AuxSec) (kind unit : Nat) : Option AuxSec := aux.find? fun x => x.kind == kind && x.unit == unit

/-- The program bytes of a core: its kind-2 section, or what the core store holds. -/
def State.progBytes (s : State) (aux : List AuxSec) (e : CoreEnt) : Bytes :=
  match auxOf aux 2 e.core with
  | some x => x.content
  | none => readBytes (smGet coreDefault s.cores e.core).store e.progBase e.progLen

/-- A core id from a number. -/
def asCore (n : Nat) : CoreId := ⟨n % 96, by omega⟩

/-- The targets of a J-format word lie in the program region, and the word is legal (R231, R241). -/
def wordOk (e : CoreEnt) (at_ : Nat) (w : W64) : Bool :=
  let inProg (t : W64) : Bool := decide (e.progBase ≤ t.toNat ∧ t.toNat + 8 ≤ e.progBase + e.progLen ∧ t.toNat % 8 = 0)
  match decodeAithal (asCore e.core) w with
  | none => false
  | some (.br _ _ _ _ off) => inProg (target (BitVec.ofNat 64 at_) off)
  | some (.call _ _ off) => inProg (target (BitVec.ofNat 64 at_) off)
  | some _ => true

/-- Receive map of a core: one entry, bank base and stride, for every KIND 0 route to it (R223). -/
def receiveMap (a : Almanac) (core : Nat) : List (Nat × Nat) :=
  (a.routes.filter fun r => decide (r.kind = 0 ∧ r.destMember = a.member ∧ 4 * r.destDie + r.destUnit = core)).map fun r => (r.bankBase, r.bankStride)

/-- A window as its registers hold it (R245): the base in bits 24:6, the length in bits 25:6. -/
def windowBits (w : Nat × Nat) : Nat × Nat := (w.1 % 2 ^ 25 / 64 * 64, w.2 % 2 ^ 26 / 64 * 64)

/-- The constant window of a core: its kind-1 section (R387). -/
def constWindow (aux : List AuxSec) (core : Nat) : Nat × Nat :=
  match auxOf aux 1 core with
  | some x => windowBits (x.loadAddr, alignUp x.content.length 64)
  | none => (0, 0)

/-- The data window that the scheduler core sets for a core (free, log 19). -/
def dataWin (raw : Bytes) (core : Nat) : Nat × Nat := windowBits (Config.dataWindow raw core)

/-- The refusals of R241 for one core. -/
def State.coreOk (s : State) (a : Almanac) (aux : List AuxSec) (e : CoreEnt) : Bool :=
  let c := constWindow aux e.core
  let d := dataWin a.raw e.core
  let hi := e.progBase + e.progLen
  let bs := s.progBytes aux e
  decide (e.progBase % 8 = 0 ∧ e.progLen % 8 = 0 ∧ e.progLen ≤ 0x40_0000)
  && (e.progLen == 0 || decide (0x10_0000 ≤ e.progBase))
  && !meets e.progBase hi c.1 (c.1 + c.2) && !meets e.progBase hi d.1 (d.1 + d.2) && !meets c.1 (c.1 + c.2) d.1 (d.1 + d.2)
  && ((List.range (e.progLen / 8)).all fun i => wordOk e (e.progBase + 8 * i) (BitVec.ofNat 64 (leAt bs (8 * i) 8)))
  && (e.slots.all fun r => r.entry == 0xFFFF_FFFF ||
      decide (e.progBase ≤ r.entry ∧ r.entry + 8 ≤ hi ∧ r.entry % 8 = 0))
  && decide ((receiveMap a e.core).length ≤ 64)

/-- R353: the sampling unit finishes every slot's draws: lanes × heads × (ceil(V / 4,096) + 96) cycles within 1.6 × P, P in nanoseconds. Sampling runs in
the slots that name a KIND 3 route. -/
def samplingOk (a : Almanac) (aux : List AuxSec) : Bool :=
  match auxOf aux 4 0 with
  | none => true
  | some x =>
    let h := leAt x.content 0 1 % 16
    let per := (List.range h).foldl (fun t i => t + ceilDiv (leAt x.content (8 + 4 * i) 4) 4096 + 96) 0
    a.cores.all fun c => c.slots.all fun r =>
      let samples := (List.range r.routeCnt).any fun j => match a.routes[r.routeFirst + j]? with
        | some q => q.kind == 3
        | none => false
      !samples || decide ((r.decLanes + r.preLanes) * per ≤ 20 * a.period)

/-- Every link that an almanac uses is up at full width (R16, R410): an almanac has no field that declares less (DESIGN CHOICE, log 11). -/
def State.linksOk (s : State) (a : Almanac) : Bool :=
  (a.ways.all fun w => (wayLinks w).all fun x => nth 0 (s.die (asDie (x / 16))).portState (x % 16) == 2)
  && (s.fabricUses a).all fun k => s.flink k == 2

/-- A package alone holds the one entry core of its group (R195); in a larger group the other almanacs are not seen (log 45). -/
def State.entryOk (s : State) (a : Almanac) : Bool :=
  decide (1 < s.grp.record.members) || a.cores.any CoreEnt.entry

/-- SWEEP_DONE is set on every good core (R156). -/
def State.allSwept (s : State) : Bool := (List.range 96).all fun i => !s.good (asCore i) || (s.core (asCore i)).sweepDone

/-- An almanac that firmware does not refuse (R16, R32, R189, R194, R195, R241, R297, R338, R353, R589), for the auxiliary sections that go with it. -/
def State.almOk (s : State) (raw : Bytes) (aux : List AuxSec) (member : Nat) : Bool :=
  let a := almOf raw
  headerOk raw && coresOk raw && routesOk raw a.routes && indexesOk a && reducersOk a && almFits a && depthsOk a && servingOk a && columnsOk a && s.entryOk a
  && (almCoreMap raw &&& ~~~s.fuses.coreMap) == 0 && a.cores.all (fun c => (almCoreMap raw).getLsbD c.core)
  && decide (a.member = member) && s.linksOk a && samplingOk a aux && a.cores.all (s.coreOk a aux)

/-! ### Placing (R241) -/

/-- Steps 2 to 6 of R241 for one core. -/
def State.placeCore (s : State) (a : Almanac) (aux : List AuxSec) (e : CoreEnt) : State :=
  s.modCore (asCore e.core) fun k =>
    let k := match auxOf aux 2 e.core with | some x => k.storeAt e.progBase x.content | none => k
    let k := match auxOf aux 6 e.core with | some x => k.storeAt (16 * e.recipeTab) x.content | none => k
    let k := match auxOf aux 1 e.core with | some x => { k.storeAt x.loadAddr x.content with constBase := x.loadAddr } | none => k
    let c := constWindow aux e.core
    let d := dataWin a.raw e.core
    { k with
      recvMap := receiveMap a e.core, seqSafe := false
      prog0 := BitVec.ofNat 32 (e.progBase % 2 ^ 25 / 8 * 8), prog1 := BitVec.ofNat 32 (e.progLen % 2 ^ 23 / 8 * 8)
      cwin0 := BitVec.ofNat 32 c.1, cwin1 := BitVec.ofNat 32 c.2
      dwin0 := BitVec.ofNat 32 d.1, dwin1 := BitVec.ofNat 32 d.2 }

/-- ATTN_BUDGET in 4 KiB units for a base period of p steps: 9.9 TB/s × (P − 400 ns) (R330). -/
def attnBudget (p : Nat) : Nat := 9_900 * (125 * p - 4000) / 40960

/-- The budget of both serving dies set at an almanac load or a change of P (R330). -/
def State.setBudgets (s : State) : State :=
  [0, 1].foldl (fun s d => s.modSd d fun x => { x with budget := attnBudget s.tick.basePeriod }) s

/-- An almanac comes into force: the cores are placed, the base period is the almanac's, the budgets follow (R166, R190, R241, R330). R166 lets P change only through a patch; that a load takes P from the
almanac's PERIOD too is DEDUCED from R190 (log 66). -/
def State.installAlmanac (s : State) (a : Almanac) (aux : List AuxSec) : State :=
  let s := a.cores.foldl (fun s e => s.placeCore a aux e) s
  let s := { s with alm := some a, tick := { s.tick with basePeriod := a.period } }
  s.setBudgets

/-! ### Required clocks (R187) -/

/-- Effective period for a base period and a stretch in percent, in 12.5 ns steps (R186). -/
def effPeriod (p stretch : Nat) : Nat := min 960 (ceilDiv (p * (100 + stretch)) 100)

/-- The slot records of the good cores of a half of weight die d. -/
def halfSlots (a : Almanac) (d : Nat) (east : Bool) : List SlotRec :=
  (a.cores.filter fun c => c.core / 4 == d && isEast (asCore c.core) == east).flatMap CoreEnt.slots

/-- The required clock of a half in 25 MHz steps (R187), the other half at `other`, in a tick with effective period p and settle count e. -/
def requiredClock (a : Almanac) (d : Nat) (east : Bool) (p e other : Nat) : Nat :=
  let w := windowOf p a.guardSteps
  let rs := halfSlots a d east
  let ok (f : Nat) : Bool := rs.all fun r =>
    fitsWindow w a.reserve (r.cycles + r.passes * e) f && fitsWindow w a.reserve r.seamFlits (min f other)
  (((List.range 33).map (32 + ·)).find? ok).getD 64

/-- ALM_LOAD (R156, R194, R241, R463): only while no generation is in force, and once every good core is swept; a refusal leaves the almanac in force. -/
def execAlmLoad (h : HostCmd) (addr : W64) (len : W32) (s : State) : Out :=
  if !s.handles h 0x31 || s.tick.phase ≠ .applied then .next s
  else if !s.inCarve addr.toNat len.toNat then .next (s.completeCmd h 0x31 0x102 [])
  else if s.genActive ≠ 0 ∨ s.loadPhase ≠ 0 ∨ s.held then .next (s.completeCmd h 0x31 0x103 [])
  else
    let raw := readBytes (s.carve (s.ring h.set.val).owner) addr.toNat len.toNat
    if !s.allSwept || !s.almOk raw s.aux s.member then .next (s.completeCmd h 0x31 0x103 [])
    else .next ((s.installAlmanac (almOf raw) s.aux).completeCmd h 0x31 0 [])

end Sys2Proof.Machine
end

