-- ==== Sys2Proof/Machine/Margin.lean ====
section
/-! DEFINITION. Margin scans, grades, holidays, wear, the new-year sweep (chapter 4, R28). -/
namespace Sys2Proof.Machine

/-- One grade lower. -/
def Grade.lower : Grade → Grade
  | .a => .b | .b => .c | .c => .d | .d => .d

/-- Rank of a grade: A highest. -/
def Grade.rank : Grade → Nat
  | .a => 3 | .b => 2 | .c => 1 | .d => 0

/-- The lower of two grades. -/
def Grade.worse (x y : Grade) : Grade := if x.rank ≤ y.rank then x else y

/-- A converter retired, or a seventeenth repair: the array cannot serve (rule 1 of R133; R77, R78). -/
def ArrayInfo.broken (x : ArrayInfo) : Bool := !x.retired.isEmpty || x.unrepaired

/-- The grade of an array with window m (R133). -/
def ArrayInfo.gradeFor (x : ArrayInfo) (m : Nat) : Grade :=
  let g : Grade := if x.broken || decide (9_000_000 ≤ x.wear.toNat) || decide (m ≤ 23) then .d
    else if m ≤ 31 then .c else if m ≤ 39 then .b else .a
  let g := if 8 ≤ x.failCnt then g.lower else g
  if 5_000_000 ≤ x.wear.toNat ∧ g = .a then .b else g

/-! ### Bands (R138, R139) -/

/-- The band that contains T, in eighths of a degree (R138). -/
def bandOf (t : Int) : Band := if t < 320 then .cold else if t < 560 then .nominal else if t < 720 then .warm else if t ≤ 840 then .hot else .critical

/-- Scan interval of a band, in 12.5 ns steps (R139), divided as SCAN_RATE says (R140, R160). -/
def scanInterval (b : Band) (rate : Nat) : Nat :=
  (match b with | .cold => 40_000_000 | .nominal => 8_000_000 | .warm => 1_600_000 | .hot => 400_000 | .critical => 80_000) / 2 ^ rate

/-- The write waveform of a band (R139): pulse amplitudes in mV and lengths in ns, and the iterations of a phase at most. -/
structure Waveform where
  resetMv : Int
  resetNs : Nat
  setMv : Int
  setNs : Nat
  iterations : Nat
deriving DecidableEq, Repr

/-- The waveform that a band sets; `none` in Critical, where writes are suspended (R139). -/
def waveform : Band → Option Waveform
  | .cold => some ⟨-1400, 30, 1550, 50, 3⟩
  | .nominal => some ⟨-1350, 30, 1500, 50, 3⟩
  | .warm => some ⟨-1300, 25, 1450, 40, 3⟩
  | .hot => some ⟨-1250, 20, 1400, 35, 4⟩
  | .critical => none

/-- A pulse that the write controller applies (R143): at most 1.60 V in magnitude and 64 ns. -/
def pulseOk (mv : Int) (ns : Nat) : Bool := decide (mv.natAbs ≤ 1600) && decide (ns ≤ 64)

/-- Longest time of a row write in ns (R139, R141): RESET and SET iterations of four segment pulses and a 10 ns verify each. -/
def Waveform.rowNs (w : Waveform) : Nat := w.iterations * (4 * w.resetNs + 10) + w.iterations * (4 * w.setNs + 10)

/-- Iterations of a row write that starts in a band (R141, R144): what verify decides (free), at most two phases of the band's limit. -/
def rowIterations (b : Band) (n : Nat) : Nat := match waveform b with
  | some w => min (2 * w.iterations) (Config.rowIterations n)
  | none => 0

/-! ### Who acts -/

/-- The control core of a core runs (R479). -/
def State.ctrlRuns (s : State) (c : CoreId) : Bool := (smGet procDefault s.fw.ctrl c.val).state == 0

/-- A core whose control core can act: good, its core-logic domain in use, the package running (R24, R26, R479). -/
def State.coreActs (s : State) (c : CoreId) : Bool :=
  s.power == 0 && s.good c && s.ctrlRuns c && (s.die (dieOf c)).domUse.getLsbD (16 + c.val % 4)

/-- The array of a logical number is in service (R74). -/
def State.inService (s : State) (c : CoreId) (p : Nat) : Bool := (s.logicalOf c p).isSome

/-- The half of a core is in the Critical band. -/
def State.critical (s : State) (c : CoreId) : Bool := (s.half c).band == .critical

/-- An array of a core changed. -/
def State.modArr (s : State) (c : CoreId) (p : Nat) (f : ArrayInfo → ArrayInfo) : State := s.modCore c fun k => k.modArr p f

/-- Wear of an array raised by n, never beyond 24 bits (R153). -/
def ArrayInfo.worn (x : ArrayInfo) (n : Nat) : ArrayInfo :=
  { x with wear := BitVec.ofNat 24 (min 0xFF_FFFF (x.wear.toNat + n)), wearSince := x.wearSince + n }

/-- Energy of n row-reads in the core's half (R491). -/
def State.spendReads (s : State) (c : CoreId) (n : Nat) : State := s.spend c (n * nth 0 s.fuses.coef 10)

/-- Energy of n row writes in the core's half (R141, R491). -/
def State.spendWrites (s : State) (c : CoreId) (n : Nat) : State :=
  { s.spend c (n * rowIterations (s.half c).band s.free * nth 0 s.fuses.coef 11) with free := s.free + 1 }

/-- Row-reads of a scan: two searches of six steps over 24 rows each (R131). -/
def scanReads : Nat := 288

/-! ### Array faults and grades -/

/-- The layer that physical array p serves cannot be read until the image is loaded again (R151, R158). -/
def State.markLost (s : State) (c : CoreId) (p : Nat) : State :=
  match s.logicalOf c p with
  | some a => s.modCore c fun k => { k with lostArrays := addNew k.lostArrays a }
  | none => s

/-- The array that p serves is marked already. -/
def State.lostAt (s : State) (c : CoreId) (p : Nat) : Bool :=
  match s.logicalOf c p with
  | some a => (s.core c).lostArrays.contains a
  | none => false

/-- An array fault for the layer that physical array p serves (R77, R78, R151): the layer is lost, and the package raises a package fault. -/
def State.arrayFault (s : State) (c : CoreId) (p : Nat) : State := if s.lostAt c p then s else (s.markLost c p).packageFault 1

/-- A grade recorded for array p, with MARGIN_CRIT; it takes force at the next eve (R62, R135). -/
def State.putGrade (s : State) (c : CoreId) (p : Nat) (g : Grade) (crit : Bool) : State :=
  s.modArr c p fun x => { x with nextGrade := if g = x.grade then none else some g, crit := crit }

/-- A grade that R133 gives array p, recorded under R136, R77 and R78. -/
def State.recordGrade (s : State) (c : CoreId) (p : Nat) (g : Grade) : State :=
  let x := (s.core c).arr p
  let stuck := g == .d && s.inService c p && (s.freeSpare c (quarterOf p)).isNone
  if stuck && x.broken then (s.putGrade c p .d false).arrayFault c p
  else if stuck then (s.putGrade c p .c true).modCore c fun k => k.marginEvent 1
  else s.putGrade c p g false

/-- An array in service that is recorded D and on no holiday, when no spare of its quarter is free any more (R136). -/
def State.critArray (s : State) (c : CoreId) (p : Nat) : State :=
  let x := (s.core c).arr p
  if x.recorded == .d && s.inService c p && !((s.core c).holidays.any fun h => h.orig == p) && (s.freeSpare c (quarterOf p)).isNone
  then s.recordGrade c p .d else s

/-- R136 for every array of a core. -/
def State.critEve (s : State) (c : CoreId) : State := ((s.core c).arrays.map Prod.fst).foldl (fun s p => s.critArray c p) s

/-- Refresh threshold in force (R160). -/
def Core.refreshM (k : Core) : Nat := max 40 (field k.scanCtrl.toNat 5 0)

/-- The holidays that a scan calls for (R145): an array in service recorded as C or D, or due for refresh. -/
def State.queueFor (s : State) (c : CoreId) (p : Nat) : State :=
  let x := (s.core c).arr p
  let g := x.recorded
  if !s.inService c p then s
  else if g == .c || g == .d || x.crit then s.modCore c fun k => k.queueHoliday p 2 2
  else if x.mLast ≤ (s.core c).refreshM then s.modCore c fun k => k.queueHoliday p 4 4
  else s

/-! ### Scans (R128 to R131) -/

/-- The rows that scan number n of an array samples (R131): the sentinel rows, and 16 data rows. -/
def sampledRows (n : Nat) : List Nat := (List.range 16).map (1104 + ·) ++ (List.range 16).map fun k => 64 * k + n % 64

/-- The edges of scan number n (R130), from what it senses in its rows: a row without an entry senses nothing wrong. -/
def edgesOf (n : Nat) (l : List RowEdges) : Edges :=
  let l := l.filter fun e => e.row ∈ sampledRows n
  ⟨l.foldl (fun m e => min m e.q1) 64, l.foldl (fun m e => max m (min 63 e.q0)) (-1)⟩

/-- M of a pair of edges, at least 0 (R130). -/
def windowM (e : Edges) : Nat := ((e.q1 : Int) - e.q0).toNat

/-- Every row of the array was written since the last scan (R135). -/
def ArrayInfo.whole (x : ArrayInfo) : Bool := x.wrote == ~~~(0#1088)

/-- What every scan records (R131, R159), at tick t and time `now`. -/
def ArrayInfo.scanned (x : ArrayInfo) (l : List RowEdges) (t : W48) (now : Nat) : ArrayInfo :=
  let e := edgesOf x.scans l
  { x with mLast := windowM e, q1 := e.q1, q0 := e.q0, lastScan := t, scanTime := now, scans := x.scans + 1, wrote := 0 }

/-- The grade that a scan of window `x.mLast` records, and the higher grade that it qualifies for (R135): a lower grade at once, a higher one after a write of the whole
array or with the second scan in a row. -/
def ArrayInfo.regrade (x : ArrayInfo) (whole : Bool) : Grade × Option Grade :=
  let g := x.gradeFor x.mLast
  if g.rank ≤ x.grade.rank then (g, none)
  else if whole then (g, none)
  else match x.better with
    | some h => (h.worse g, some g)
    | none => (x.grade, some g)

/-- A scan of array p with its regrade under R133, R135 and R136. -/
def State.scanArray (s : State) (c : CoreId) (p : Nat) (l : List RowEdges) : State :=
  let whole := ((s.core c).arr p).whole
  let s := (s.spendReads c scanReads).modArr c p fun x => x.scanned l s.tick.count s.tick.time
  let r := ((s.core c).arr p).regrade whole
  (s.modArr c p fun x => { x with better := r.2 }).recordGrade c p r.1

/-- MARGIN_SCAN (R131, R133, R135, R145). -/
def execMarginScan (c : CoreId) (array : Nat) (e : List RowEdges) (s : State) : Out :=
  if !s.coreActs c || decide (4224 ≤ array) then .next s
  else .next ((s.scanArray c array e).queueFor c array)

/-- The last scan of an array lies more than its interval and twice its interval back (R140). -/
def State.scanOverdue (s : State) (c : CoreId) (array : Nat) : Bool :=
  let i := scanInterval (s.half c).band (field (s.core c).scanCtrl.toNat 7 6)
  decide (((s.core c).arr array).scanTime + 3 * i < s.tick.time)

/-- SCAN_LATE (R140): the bit, and a leap request while the scheduler core runs (R479). -/
def execScanLate (c : CoreId) (array : Nat) (s : State) : Out :=
  if !s.coreActs c || decide (4224 ≤ array) || !s.scanOverdue c array then .next s
  else
    let s := s.modCore c fun k => k.marginEvent 0
    .next (if s.fw.sch.runs then { s with tick := { s.tick with leapReqs := addNew s.tick.leapReqs 1 } } else s)

/-- FAILURE_COUNT_LIMIT (R133, R135): a failure count of 8 lowers the grade at the next eve and queues a holiday, of priority 2 where the array is now recorded C or
MARGIN_CRIT is set (R145). An array without a scan counts as one of grade A (DESIGN CHOICE, log 66). -/
def execFailureCountLimit (c : CoreId) (array : Nat) (s : State) : Out :=
  let x := (s.core c).arr array
  if !s.coreActs c || decide (4224 ≤ array) || decide (x.failCnt < 8) then .next s
  else
    let g := (if x.scans = 0 then Grade.b else x.gradeFor x.mLast).worse x.grade
    let s := if g = x.grade then s else s.recordGrade c array g
    let s := if s.inService c array then s.modCore c fun k => k.queueHoliday array 3 3 else s
    .next (s.queueFor c array)

/-- FAILURE_WINDOW_RESTART (R132). -/
def execFailureWindowRestart (s : State) : Out :=
  if s.tick.count.toNat % 65536 ≠ 0 then .next s
  else .next ((List.range 96).foldl (fun s i => s.modCore (asCore i) fun k =>
    (k.arrays.map Prod.fst).foldl (fun k p => k.modArr p fun x => { x with failCnt := 0 }) k) s)

/-! ### Row contents and repairs (R75 to R77, R142) -/

/-- The array with the maps that take force at the next eve: those through which it is written (R77). -/
def ArrayInfo.staged (x : ArrayInfo) : ArrayInfo := { x with rowMap := x.rowNext.getD x.rowMap, colMap := x.colNext.getD x.colMap }

/-- A physical row from its logical columns, through the column map. -/
def ArrayInfo.rowBits (x : ArrayInfo) (f : Nat → Bool) : BitVec 1344 :=
  (List.range 1320).foldl (fun b j => if f j then b ||| (1#1344 <<< x.physCol j) else b) 0

/-- Row r of an array written with logical column values, through its maps. -/
def ArrayInfo.putRow (x : ArrayInfo) (r : Nat) (f : Nat → Bool) : ArrayInfo :=
  { x with rows := smSet (fun _ => 0) x.rows (x.staged.physRow r) (x.staged.rowBits f), wrote := x.wrote ||| (1#1088 <<< r) }

/-- The 1,088 logical rows of `src` written into `dst`, each through its own maps (R147). -/
def ArrayInfo.copyFrom (dst src : ArrayInfo) : ArrayInfo :=
  (List.range 1088).foldl (fun d r => d.putRow r fun j => src.cell r j) dst

/-- Every row rewritten (R150): those that the array's own row-read returns with what they hold, the others from `sp`. -/
def ArrayInfo.refreshed (x sp : ArrayInfo) (own : Nat → Bool) : ArrayInfo :=
  { (List.range 1088).foldl (fun (y : ArrayInfo) r => if own r then y else y.putRow r fun j => sp.cell r j) x with wrote := ~~~(0#1088) }

/-- The next unused spare row, or spare column, in rising order (R75, R76; DESIGN CHOICE, log 66: R142 says a free one, not which). -/
def nextSpare (first : Nat) (m : List (Nat × Nat)) : Option Nat := if m.length < 16 then some (first + m.length) else none

/-- No entry of a map is left: the array is graded D (R77, R142). -/
def ArrayInfo.giveUp (x : ArrayInfo) : ArrayInfo := { x with unrepaired := true, nextGrade := some .d }

/-- A map with item i replaced by a spare: the old spare, if there was one, stays used up. -/
def mapPut (m : List (Nat × Nat)) (i sp : Nat) : List (Nat × Nat) := (m.map fun e => if e.1 = i then (e.1 + 2048, e.2) else e) ++ [(i, sp)]

/-- A failed row write remaps its row (R142), from the next eve on (R77). -/
def ArrayInfo.remapRow (x : ArrayInfo) (r : Nat) : ArrayInfo :=
  match nextSpare 1088 x.staged.rowMap with
  | none => x.giveUp
  | some sp => { x with rowNext := some (mapPut x.staged.rowMap r sp) }

/-- Column j replaced by a spare column from the next eve on, its cells rewritten (R76, R77, R142). -/
def ArrayInfo.remapCol (x : ArrayInfo) (j : Nat) : ArrayInfo :=
  match nextSpare 1320 x.staged.colMap with
  | none => x.giveUp
  | some sp =>
    let old := x.staged.physCol j
    { x with
      rows := x.rows.foldl (fun m r => smSet (fun _ => 0) m r.1
        ((r.2 &&& ~~~(1#1344 <<< sp)) ||| (if r.2.getLsbD old then 1#1344 <<< sp else 0))) x.rows
      colNext := some (mapPut x.staged.colMap j sp), colFails := x.colFails.filter (· != j) }

/-- The outcome of a row write with the columns that did not verify (R142). -/
def ArrayInfo.writeRow (x : ArrayInfo) (r : Nat) (content : List Bool) (failing : List Nat) : ArrayInfo :=
  let x := { x with colFails := x.colFails ++ failing }
  let x := if failing.isEmpty then x else x.remapRow r
  let x := failing.foldl (fun (x : ArrayInfo) j => if 3 ≤ (x.colFails.filter (· == j)).length then x.remapCol j else x) x
  x.putRow r fun j => nth false content j

/-! ### Holidays (R145 to R152) -/

/-- Order in which queued holidays start: priority 1, a lagging array in a recovery hold (R179), then the priorities. -/
def State.holidayRank (s : State) (c : CoreId) (q : HolidayReq) : Nat :=
  if q.prio = 1 then 0 else match s.tick.recovery with
    | some r => if r.arrays.any (fun x => x.1 == c.val && s.phys c x.2.1 == q.arr) then 1 else q.prio
    | none => q.prio

/-- A queued test or calibration of an array that serves nothing and takes part in no holiday: it needs no other array (R516). -/
def State.spareTest (s : State) (c : CoreId) (q : HolidayReq) : Bool :=
  decide (5 ≤ q.reason) && !s.inService c q.arr && !((s.core c).mapNext.any fun m => m.2 == q.arr)
  && !((s.core c).holidays.any fun h => h.spare == q.arr)

/-- A queued holiday may start (R146, R517). -/
def State.mayStart (s : State) (c : CoreId) (q : HolidayReq) : Bool :=
  (s.spareTest c q || (s.inService c q.arr && (s.freeSpare c (quarterOf q.arr)).isSome))
  && !s.critical c && (!(s.core c).scanCtrl.getLsbD 8 || q.prio == 1)
  && !(s.fw.emerg && decide (6 ≤ q.reason)) && decide (s.loadPhase ≠ 3)
  && !((s.core c).holidays.any fun h => h.orig == q.arr)

/-- The first of the startable holidays: the lowest rank, and of equal ones the one queued first (R145). -/
def State.nextHoliday (s : State) (c : CoreId) : Option HolidayReq :=
  ((s.core c).holidayQueue.filter (s.mayStart c)).foldl (fun b q => match b with
    | none => some q
    | some x => if s.holidayRank c q < s.holidayRank c x then some q else some x) none

/-- HSTATE of an array set. -/
def Core.hstate (k : Core) (p : Nat) (h : HState) : Core := k.modArr p fun x => { x with hstate := h }

/-- A holiday enters its list. -/
def Core.beginHoliday (k : Core) (h : Holiday) (q : HolidayReq) : Core :=
  { k with holidays := k.holidays ++ [h], holidayQueue := k.holidayQueue.erase q }

/-- HOLIDAY_START (R146): the next startable holiday reserves the free spare with the lowest number; a test of a free spare goes to its service step at once. -/
def execHolidayStart (c : CoreId) (s : State) : Out :=
  if !s.coreActs c || s.tick.phase != .applied || decide (16 ≤ (s.core c).holidays.length) then .next s
  else match s.nextHoliday c with
    | none => .next s
    | some q =>
      if s.spareTest c q then .next (s.modCore c fun k => (k.beginHoliday ⟨q.arr, q.arr, q.prio, q.reason, .service⟩ q).hstate q.arr .service)
      else match s.freeSpare c (quarterOf q.arr) with
        | none => .next s
        | some sp => .next (s.modCore c fun k =>
            ((k.beginHoliday ⟨q.arr, sp, q.prio, q.reason, .reserve⟩ q).hstate q.arr .copy).hstate sp .copy)

/-- Weight format of the logical array that a physical array serves. -/
def State.fp4Of (s : State) (c : CoreId) (p : Nat) : Bool :=
  match s.logicalOf c p with
  | some a => smGet (fun _ => false) (s.core c).fp4 a
  | none => false

/-- A holiday without its record: the arrays of it are on holiday no more. -/
def Core.dropHoliday (k : Core) (h : Holiday) : Core :=
  (({ k with holidays := k.holidays.filter fun x => x.orig != h.orig }).hstate h.orig .none).hstate h.spare .none

/-- A holiday ends without handover (R149, R152); a copy that had begun has worn its spare (R153). -/
def State.abandon (s : State) (c : CoreId) (h : Holiday) : State :=
  let s := if h.step = .copy then s.modArr c h.spare fun x => x.worn 1 else s
  s.modCore c fun k => (k.dropHoliday h).marginEvent 3

/-- An abandoned holiday of R152: a test is queued again (R517). -/
def State.abandonAgain (s : State) (c : CoreId) (h : Holiday) : State :=
  let s := s.abandon c h
  if 6 ≤ h.reason then s.modCore c fun k => k.queueHoliday h.orig h.prio h.reason else s

/-- A holiday of a core moves to a step. -/
def Core.holidayStep (k : Core) (orig : Nat) (f : Holiday → Holiday) : Core :=
  { k with holidays := k.holidays.map fun y => if y.orig == orig then f y else y }

/-- The check of a holiday failed (R149): the spare is retired for good, and the holiday restarts at the next eve with another, or ends. -/
def State.failSpare (s : State) (c : CoreId) (h : Holiday) : State :=
  let s := s.modCore c fun k => (k.modArr h.spare fun x => { x with dead := true, nextGrade := some .d, hstate := .none }).marginEvent 2
  if (s.freeSpare c (quarterOf h.orig)).isNone then s.modCore c fun k => (k.dropHoliday h).marginEvent 3
  else s.modCore c fun k => k.holidayStep h.orig fun y => { y with spare := y.orig, step := .restart }

/-- The copy of `o` into the spare, worn and scanned, with the grade that the scan records (R135, R147). -/
def State.copyInto (s : State) (c : CoreId) (o : ArrayInfo) (sp : Nat) (e : List RowEdges) : State :=
  let s := ((s.spendReads c (1088 + scanReads)).spendWrites c 1120).modArr c sp fun x => (x.copyFrom o).worn 1
  let s := s.modArr c sp fun x => x.scanned e s.tick.count s.tick.time
  let x := (s.core c).arr sp
  (s.modArr c sp fun x => { x with better := none }).putGrade c sp (x.gradeFor x.mLast) false

/-- HOLIDAY_COPY_DONE (R147 to R149, R151): the spare holds the rows and is scanned; its grade decides. Writes pause in the Critical band (R152). -/
def execHolidayCopyDone (c : CoreId) (orig : Nat) (r : StepRead) (unrepairable : Bool) (s : State) : Out :=
  match (s.core c).holidays.find? (fun h => h.orig == orig && (h.step == .reserve || h.step == .copy)) with
  | none => .next s
  | some h =>
    if !s.coreActs c then .next s
    else if s.critical c then .next (s.modCore c fun k => k.marginEvent 4)
    else
      let o := (s.core c).arr orig
      let fp4 := s.fp4Of c orig
      let s := s.modCore c fun k => k.noteReads o fp4 orig (List.range 1088) r.faults
      if (List.range 1088).any fun i => !o.readable fp4 r.faults orig i then .next ((s.arrayFault c orig).abandon c h)
      else
        let s := s.copyInto c o h.spare r.edges
        if !unrepairable && decide (o.grade.rank ≤ ((s.core c).arr h.spare).recorded.rank) then
          .next (s.modCore c fun k => k.holidayStep orig fun y => { y with step := .checked })
        else .next (s.failSpare c h)

/-- The service step's writes on the original array (R150, R516): refresh, full calibration, or march test. `own` are the rows that its row-read returns. -/
def serveArray (reason : Nat) (own : Nat → Bool) (o sp : ArrayInfo) : ArrayInfo :=
  if reason = 7 then
    ({ o with rows := (List.range 1104).foldl (fun m r => smSet (fun _ => 0) m r (Config.marchRow r)) [], wrote := ~~~(0#1088) }).worn 2
  else if reason ≤ 4 then (o.refreshed sp own).worn 1
  else o

/-- A full calibration retires the converter (R515): a required trim at a limit of its range, or a transition more than 0.2 unit off. -/
def ConvCal.bad (x : ConvCal) : Bool :=
  decide (x.gain ≤ -16 ∨ 15 ≤ x.gain ∨ x.offset ≤ -16 ∨ 15 ≤ x.offset ∨ 200 < x.worst)

/-- The trims that a full calibration stages (R513): gain under 2 × converter, offset under the next number. -/
def calTrims (c : CoreId) (p : Nat) (cal : List ConvCal) : List (Nat × Nat × Nat × Int) :=
  cal.flatMap fun x => [(c.val, p, 2 * x.conv, x.gain), (c.val, p, 2 * x.conv + 1, x.offset)]

/-- The service step writes the array: a refresh or a march test, which the Critical band suspends (R144, R152). -/
def Holiday.writes (h : Holiday) : Bool := decide (h.reason ≠ 5 ∧ h.reason ≠ 6)

/-- HOLIDAY_SERVICE_DONE (R147, R150, R151, R515): the original array is served as the reason requires, scanned and graded; a full
calibration stages its trims and retires converters (R78). -/
def execHolidayServiceDone (c : CoreId) (orig : Nat) (rd : StepRead) (cal : List ConvCal) (s : State) : Out :=
  match (s.core c).holidays.find? (fun h => h.orig == orig && h.step == .service) with
  | none => .next s
  | some h =>
    if !s.coreActs c then .next s
    else if s.critical c && h.writes then .next (s.modCore c fun k => k.marginEvent 4)
    else
      let o := (s.core c).arr orig
      let sp := (s.core c).arr h.spare
      let fp4 := s.fp4Of c h.spare
      let own := o.readable fp4 rd.faults orig
      let fails := if h.reason ≤ 4 then (List.range 1088).filter fun r => !own r else []
      let s := if h.reason ≤ 4 then s.modCore c fun k => (k.noteReads o fp4 orig (List.range 1088) rd.faults).noteReads sp fp4 h.spare fails rd.faults else s
      let s := if fails.any fun r => !sp.readable fp4 rd.faults h.spare r then s.arrayFault c h.spare else s
      let full := decide (h.reason = 5 ∨ h.reason = 6)
      let s := if full then { s with pow := { s.pow with convNext := s.pow.convNext ++ calTrims c orig cal } } else s
      let s := if h.reason ≤ 4 then (s.spendReads c 1088).spendWrites c 1120 else if h.reason = 7 then s.spendWrites c 2240 else s
      let s := s.modArr c orig fun x =>
        let x := serveArray h.reason own x sp
        if full then { x with retired := (cal.filter ConvCal.bad).foldl (fun l x => addNew l x.conv) x.retired } else x
      .next ((s.scanArray c orig rd.edges).modCore c fun k => k.holidayStep orig fun x => { x with step := .regraded })

/-- A holiday of a self-test has ended: its array is tested (R516). -/
def State.testedArray (s : State) (c : CoreId) (p reason : Nat) : State :=
  if reason < 6 then s
  else { s with pow := { s.pow with tests := s.pow.tests.map fun t =>
    if t.kind + 6 = reason ∧ 4 * (t.unit.toNat % 32) + t.unit.toNat / 32 % 4 = c.val then { t with todo := t.todo.filter (· != p) } else t } }

/-- RELEASE of R147: the original array joins the free spares, or is retired if its grade is D. -/
def ArrayInfo.released (x : ArrayInfo) : ArrayInfo :=
  { x with hstate := .none, grade := x.recorded, nextGrade := none, crit := false, dead := x.dead || x.recorded == .d }

/-- A bank in which a holiday hands over or a refresh runs is compared again (R401). -/
def State.recompare (s : State) (c : CoreId) (a : Nat) : State :=
  { s with load := { s.load with resident := s.load.resident.filter (· != 64 * c.val + a / 64) } }

/-- One holiday at an apply point (R147, R149): a checked one hands over, a regraded one releases its original array, a failed one reserves another spare. -/
def State.holidayTurn (s : State) (c : CoreId) (h : Holiday) : State :=
  match h.step with
  | .checked => match s.logicalOf c h.orig with
    | some a => (s.recompare c a).modCore c fun k =>
        { ((k.hstate h.spare .none).hstate h.orig .service).holidayStep h.orig fun x => { x with step := .service } with
          arrayMap := smSet (s.fusedMap c) k.arrayMap a h.spare }
    | none => s
  | .regraded => (s.modCore c fun k =>
      { k.modArr h.orig ArrayInfo.released with holidays := k.holidays.filter fun x => x.orig != h.orig }).testedArray c h.orig h.reason
  | .reserve => s.modCore c fun k => k.holidayStep h.orig fun x => { x with step := .copy }
  | .restart =>
    if s.critical c then s
    else match s.freeSpare c (quarterOf h.orig) with
      | some sp => s.modCore c fun k => (k.holidayStep h.orig fun x => { x with spare := sp, step := .copy }).hstate sp .copy
      | none => s.modCore c fun k => (k.dropHoliday h).marginEvent 3
  | _ => s

/-- HANDOVER and HOLIDAY_RELEASE at an apply point (R147): nothing of it while the control core is down, whose restart settles the holidays (R152). -/
def State.holidayEve (s : State) (c : CoreId) : State :=
  if s.coreActs c then (s.core c).holidays.foldl (fun s h => s.holidayTurn c h) s else s

/-- ARRAY_MAP_CHANGE (R21): the array map changes of a core take force; those of a write phase wait for its commit (R401). -/
def State.takeMaps (s : State) (c : CoreId) : State :=
  let k := s.core c
  if k.mapNext.isEmpty then s
  else s.setCore c { k with arrayMap := k.mapNext.foldl (fun m e => smSet (s.fusedMap c) m e.1 e.2) k.arrayMap, mapNext := [] }

/-- The physical array that serves logical array a once the staged map changes take force. -/
def State.physNext (s : State) (c : CoreId) (a : Nat) : Nat :=
  (s.core c).mapNext.foldl (fun p m => if m.1 = a then m.2 else p) (s.phys c a)

/-- Grades and maps that take force at an eve (R77, R135). -/
def ArrayInfo.eve (x : ArrayInfo) (held : Bool) : ArrayInfo :=
  let x := { x with rowMap := x.rowNext.getD x.rowMap, colMap := x.colNext.getD x.colMap, rowNext := none, colNext := none }
  if held then x else { x with grade := x.recorded, nextGrade := none }

/-- Grades and maps of every array of a core at an eve; a regraded array waits for its release. -/
def Core.gradeEve (k : Core) : Core :=
  (k.arrays.map Prod.fst).foldl (fun k p => k.modArr p fun x => x.eve (k.holidays.any fun h => h.orig == p && h.step == .regraded)) k

/-- The holidays that a restarted control core finds (R152): before the handover abandoned; after it the service step starts again. -/
def State.restartHolidays (s : State) (c : CoreId) : State :=
  (s.core c).holidays.foldl (fun s h => match h.step with
    | .reserve | .copy | .checked | .restart => s.abandonAgain c h
    | _ => s.modCore c fun k => k.holidayStep h.orig fun x => { x with step := .service }) s

/-- A generation load abandons holidays in COPY (R152, R399). -/
def State.abandonCopies (s : State) (c : CoreId) : State :=
  (s.core c).holidays.foldl (fun s h => match h.step with
    | .reserve | .copy | .checked | .restart => s.abandonAgain c h
    | _ => s) s

/-- LADDER_REPEAT_FAULT (R137). -/
def execLadderRepeatFault (c : CoreId) (array : Nat) (s : State) : Out :=
  let x := (s.core c).arr array
  if x.crit && (x.exhaust.any fun t => x.exhaust.any fun u => t != u && decide ((t - u).toNat ≤ 1024)) then .next (s.packageFault 1)
  else .next s

/-! ### Wear (R153, R154) -/

/-- Key of an array's wear counter in the NV region. -/
def wearKey (c : CoreId) (p : Nat) : Nat := 4224 * c.val + p

/-- The wear counter that the NV region holds. -/
def State.nvWear (s : State) (c : CoreId) (p : Nat) : BitVec 24 := smGet (fun _ => 0) s.fw.nv.wear (wearKey c p)

/-- A wear counter written back: it never falls (R153). -/
def State.saveWear (s : State) (c : CoreId) (p : Nat) : State :=
  let w := if (s.nvWear c p).toNat ≤ ((s.core c).arr p).wear.toNat then ((s.core c).arr p).wear else s.nvWear c p
  { s with fw := { s.fw with nv := { s.fw.nv with wear := smSet (fun _ => 0) s.fw.nv.wear (wearKey c p) w } } }

/-- WEAR_WRITEBACK (R154): a counter is written back after 1,024 increments. -/
def execWearWriteback (c : CoreId) (array : Nat) (s : State) : Out :=
  if !s.coreActs c || decide (((s.core c).arr array).wearSince < 1024) then .next s
  else .next ((s.saveWear c array).modArr c array fun x => { x with wearSince := x.wearSince - 1024 })

/-- The wear counter that a sweep starts from (R153, R154): the one kept, with 1,024 more in the first sweep after a power-down that was not orderly. -/
def State.bootWear (s : State) (c : CoreId) (p : Nat) : BitVec 24 :=
  let n := (s.nvWear c p).toNat + if s.fw.nv.orderly || s.fw.swept.getLsbD c.val then 0 else 1024
  BitVec.ofNat 24 (min 0xFF_FFFF (max n ((s.core c).arr p).wear.toNat))

/-- The counters of a core as a sweep finds them, written back (R154). -/
def State.loadWear (s : State) (c : CoreId) (ps : List Nat) : State :=
  let t := ps.foldl (fun t p => (t.modArr c p fun a => { a with wear := s.bootWear c p }).saveWear c p) s
  { t with fw := { t.fw with swept := t.fw.swept ||| (1#96 <<< c.val) } }

/-! ### The new-year sweep (R155 to R158) -/

/-- The arrays that a sweep of a core scans, in order: every active and spare array of the quarters that have power, those replaced at test left out (R23, R155). -/
def State.sweepArrays (s : State) (c : CoreId) (only : Option Nat) : List Nat :=
  (List.range 4224).filter fun p => (only == none || only == some (quarterOf p))
    && (s.die (dieOf c)).domPower.getLsbD (4 * (c.val % 4) + quarterOf p) && !s.fusedOut c p

/-- Steps 2 and 3: a scan and its grade, with no history (R155). -/
def State.sweepScan (s : State) (c : CoreId) (p : Nat) (e : List RowEdges) (fresh : Bool) : State :=
  let s := (s.spendReads c scanReads).modArr c p fun x =>
    let x := if fresh then { x with failCnt := 0, better := none, exhaust := [] } else x
    x.scanned e s.tick.count s.tick.time
  let x := (s.core c).arr p
  s.putGrade c p (x.gradeFor x.mLast) false

/-- Every row of array p is row-read: the events of those that fail, and its layer marked if one fails twice (R158). -/
def State.sweepRead (s : State) (c : CoreId) (p : Nat) (faults : List ReadFault) : State :=
  let x := (s.core c).arr p
  let fp4 := s.fp4Of c p
  let s := s.modCore c fun k => k.noteReads x fp4 p (List.range 1088) faults
  if s.inService c p && (List.range 1088).any fun r => !x.readable fp4 faults p r then s.markLost c p else s

/-- A sweep under way: the state, and the arrays written so far; `none` once a scan that it needs has not arrived. -/
abbrev Sweep := Option (State × List Nat)

/-- Step 4 for one array: a refresh in place at M ≤ REFRESH_M (R155). -/
def sweepRefresh (c : CoreId) (faults : List ReadFault) (r : State × List Nat) (p : Nat) : State × List Nat :=
  let x := (r.1.core c).arr p
  if x.mLast ≤ (r.1.core c).refreshM then
    ((((r.1.sweepRead c p faults).spendReads c 1088).spendWrites c 1120).modArr c p fun x => (x.refreshed x fun _ => true).worn 1, r.2 ++ [p])
  else r

/-- A copy of array p onto the free spares of its quarter in turn, until one passes its check (steps 5 of R155, Copy and Check of R147): a spare that is graded D has failed
(DESIGN CHOICE, log 66: the array's own grade is D, so that every grade would reach it). -/
def sweepMove (c : CoreId) (p a : Nat) (rescans : List (Nat × List RowEdges)) : Nat → State × List Nat → Sweep
  | 0, r => some r
  | fuel + 1, r => match r.1.freeSpare c (quarterOf p) with
    | none => some r
    | some sp => match rescans.find? (fun x => x.1 == sp) with
      | none => none
      | some e =>
        let s := r.1.copyInto c ((r.1.core c).arr p) sp e.2
        if ((s.core c).arr sp).recorded == .d then
          sweepMove c p a rescans fuel
            (s.modCore c fun k => (k.modArr sp fun x => { x with dead := true }).marginEvent 2, r.2 ++ [sp])
        else some (s.modCore c fun k => { k with mapNext := k.mapNext ++ [(a, sp)] }, r.2 ++ [sp])

/-- Step 5 for one array: an active array graded D moves onto a spare. -/
def sweepRepair (c : CoreId) (faults : List ReadFault) (rescans : List (Nat × List RowEdges)) (r : State × List Nat) (p : Nat) : Sweep :=
  if ((r.1.core c).arr p).recorded == .d then
    match r.1.logicalOf c p with
    | some a => sweepMove c p a rescans 32 (r.1.sweepRead c p faults, r.2)
    | none => some r
  else some r

/-- Step 6 for one written array: its scan and grade. -/
def sweepRescan (c : CoreId) (rescans : List (Nat × List RowEdges)) (s : State) (p : Nat) : Option State :=
  match rescans.find? (fun x => x.1 == p) with
  | some e => some (s.sweepScan c p e.2 false)
  | none => none

/-- Step 1: the band of the core's half from its first sensor samples (R138, R155), unless a core of the half has been swept. -/
def State.takeBand (s : State) (c : CoreId) : State :=
  if (List.range 4).any fun l => decide (l / 2 = c.val % 4 / 2) && (s.core (asCore (4 * (c.val / 4) + l))).sweepDone then s
  else s.modDie (dieOf c) fun d =>
    if isEast c then { d with east := { d.east with band := (d.hotE.map bandOf).getD d.east.band } }
    else { d with west := { d.west with band := (d.hotW.map bandOf).getD d.west.band } }

/-- Steps 2 to 6 of R155 over the arrays of a sweep, with what is written; `none` if a scan is missing. -/
def State.sweepOver (s : State) (c : CoreId) (scans rescans : List (Nat × List RowEdges)) (faults : List ReadFault) : Sweep :=
  let s := scans.foldl (fun s x => s.sweepScan c x.1 x.2 true) s
  let r := (scans.map Prod.fst).foldl (sweepRefresh c faults) (s, [])
  match (scans.map Prod.fst).foldlM (sweepRepair c faults rescans) r with
  | none => none
  | some r => match r.2.foldlM (sweepRescan c rescans) r.1 with
    | none => none
    | some s => some (s.critEve c, r.2)

/-- Ready bits of a core's four array-bank domains that have power. -/
def readyBanks (d : Die) (l : Nat) (only : Option Nat) : Die :=
  { d with domReady := (List.range 4).foldl (fun (b : BitVec 26) q =>
      if (only == none || only == some q) && d.domPower.getLsbD (4 * l + q) then b ||| (1#26 <<< (4 * l + q)) else b) d.domReady }

/-- Every in-package and fabric link that is degraded or down, with its state (R16): in-package links as 16 × die + port, fabric links as 1,024 + k. -/
def State.poorLinks (s : State) : List (Nat × Nat) :=
  ((List.range 32).flatMap fun d => (List.range (portDies d).length).filterMap fun p =>
    let v := nth 0 (s.die (asDie d)).portState p
    if v ≤ 1 then some (16 * d + p, v) else none)
  ++ (List.range 32).filterMap fun k => if s.flink k ≤ 1 then some (1024 + k, s.flink k) else none

/-- Steps 6 and 7 of the boot once every good core's sweep is over (R468): carve-outs of 16 to 128 GiB (R34), image area, pools and tables from the boot configuration record; the links are reported
(R16), and SWEEP_DONE is posted. -/
def State.bootEnd (s : State) : State :=
  if s.fw.bootStep ≠ 5 || (List.range 96).any (fun i => s.good (asCore i) && !(s.core (asCore i)).sweepDone) then s
  else
    let cfg := s.fw.cfg
    let slow := (List.range 96).foldl (fun m i => max m (s.core (asCore i)).sweepTime) 0
    ({ s with
      fw := { s.fw with bootStep := 7, linkReport := s.poorLinks }
      rings := { s.rings with carveSize := max (2 ^ 34) (min (2 ^ 37) (Config.bootCarve cfg)), carveAt := (List.range 4).map (Config.carveAt cfg) }
      load := { s.load with area := Config.bootImage cfg }
      serve := [0, 1].foldl (fun m d => smSet serveDefault m d { smGet serveDefault m d with
        reqBase := Config.reqBase d, poolLo := (Config.kvPool cfg d).1, poolUnits := (Config.kvPool cfg d).2 }) s.serve }).post 0x0D 4 26 (leBytes 2 slow)

/-- What a finished sweep leaves in the registers of R162. -/
def Core.swept (k : Core) (time100us n : Nat) : Core :=
  { k with sweepDone := true, sweepSlow := decide (400 < time100us), sweepTime := min 0xFFFF time100us, refreshed := min 0x3FFF n }

/-- The scans of a sweep are those of all its arrays in order. -/
def State.sweepScansOk (s : State) (c : CoreId) (only : Option Nat) (scans : List (Nat × List RowEdges)) : Bool :=
  decide (scans.map Prod.fst = s.sweepArrays c only)

/-- A sweep that has to write waits in the Critical band (R144). -/
def State.sweepWrites (s : State) (c : CoreId) (r : Sweep) (f : State × List Nat → State) : State :=
  match r with
  | none => s
  | some x => if s.critical c && !x.2.isEmpty then s.modCore c fun k => k.marginEvent 4 else f x

/-- NEW_YEAR_SWEEP (R155 to R158): once for a powered core; it sets SWEEP_DONE, and the core's quarters are ready (R29). Without the scans of all its arrays, and of all those
that it writes, the sweep is not over. -/
def execNewYearSweep (c : CoreId) (scans : SweepRead) (rescans : List (Nat × List RowEdges)) (time100us : Nat) (s : State) : Out :=
  if !s.coreActs c || (s.core c).sweepDone || !s.sweepScansOk c none scans.edges then .next s
  else
    let s := s.takeBand c
    .next (s.sweepWrites c ((s.loadWear c (scans.edges.map Prod.fst)).sweepOver c scans.edges rescans scans.faults) fun r =>
      ((r.1.modCore c fun k => k.swept time100us r.2.length).modDie (dieOf c) fun d => readyBanks d (c.val % 4) none).bootEnd)

/-- QUARTER_SCAN (R28, R156): a quarter that was switched on is scanned by the sweep's rules; then its ready bit sets, and SWEEP_DONE with that of the last powered quarter of
the core (DESIGN CHOICE, log 66). -/
def execQuarterScan (c : CoreId) (quarter : Fin 4) (scans : SweepRead) (rescans : List (Nat × List RowEdges)) (s : State) : Out :=
  let bit := 4 * (c.val % 4) + quarter.val
  let d := s.die (dieOf c)
  if !s.coreActs c || !d.domPower.getLsbD bit || d.domReady.getLsbD bit || !s.sweepScansOk c (some quarter.val) scans.edges then .next s
  else
    .next (s.sweepWrites c (s.sweepOver c scans.edges rescans scans.faults) fun r =>
      let s := r.1.modDie (dieOf c) fun d => readyBanks d (c.val % 4) (some quarter.val)
      let d := s.die (dieOf c)
      let whole := (List.range 4).all fun q => !d.domPower.getLsbD (4 * (c.val % 4) + q) || d.domReady.getLsbD (4 * (c.val % 4) + q)
      s.modCore c fun k => { k with sweepDone := k.sweepDone || whole })

end Sys2Proof.Machine
end

