-- ==== Sys2Proof/Machine/Registers.lean ====
section
/-! DEFINITION. The control space: what each register and window reads as (R542 to R549, R557, R564 to R567 and the register tables). -/
namespace Sys2Proof.Machine

/-- Number of a path. -/
def pathNo : Path → Nat
  | .c0 => 0 | .c1 => 1 | .mgmt => 2 | .firmware => 3

/-- A path's copy of a selection register (R552): 0 FAB_SHARE_SEL, 1 FAB_ROUTE_SEL, 2 TMON_SEL, 3 CAL_SEL. -/
def State.sel (s : State) (p : Path) (k : Nat) : Nat := (smGet (fun _ => 0) s.regs.sel (8 * pathNo p + k)).toNat

/-- A selection register written. -/
def State.setSel (s : State) (p : Path) (k : Nat) (v : W32) : State :=
  { s with regs := { s.regs with sel := smSet (fun _ => 0) s.regs.sel (8 * pathNo p + k) v } }

/-- Key of a path's shadow of the register at an address. -/
def shadowKey (p : Path) (a : Nat) : Nat := pathNo p * 2 ^ 40 + a

/-- A path's shadow of an RO-S word: 0 until its low word is read (R557). -/
def State.shadow (s : State) (p : Path) (a : Nat) : Nat := (smGet (fun _ => 0) s.regs.shadow (shadowKey p a)).toNat

/-- 0 or 1. -/
def bit (b : Bool) : Nat := if b then 1 else 0

/-- Code of a band (R520). -/
def bandNo : Band → Nat
  | .cold => 0 | .nominal => 1 | .warm => 2 | .hot => 3 | .critical => 4

/-- An emergency under R183: the Critical bands of the other members come from their stamps (free values, log 47). -/
def State.emergency (s : State) : Bool :=
  s.tick.recovery.isSome || s.tick.emergUntil.isSome || s.grp.state == .convening || s.grp.state == .failover
  || ((List.range 24).any fun d => (s.die (asDie d)).west.band == .critical || (s.die (asDie d)).east.band == .critical)
  || (List.range s.grp.record.members).any fun m => m != s.member && Config.memberCritical s.tick.count.toNat m

/-- Members of a record in ascending Skeist address (R433): member indices. -/
def memberOrder (r : GroupRecord) : List Nat :=
  (List.range r.members).foldl (fun (l : List Nat) m =>
    let a := (nth 0xFFFF r.memberPos m).toNat
    l.takeWhile (fun x => decide ((nth 0xFFFF r.memberPos x).toNat ≤ a)) ++ [m]
      ++ l.dropWhile (fun x => decide ((nth 0xFFFF r.memberPos x).toNat ≤ a))) []

/-- Leader of a round of a convening (R433): a member index of the record in force. -/
def roundLeader (r : GroupRecord) (round : Nat) : Nat :=
  if r.members = 0 then 0 else nth 0 (memberOrder r) (round % r.members)

/-- Code of a group state (R448). -/
def gstateNo : GState → Nat
  | .spare => 0 | .serving => 1 | .convening => 2 | .failover => 3

/-- Bytes of a load's sections held in the image area (R404). -/
def State.imageUsed (s : State) : Nat :=
  [s.load.own, s.load.escrow, s.load.oldEscrow].foldl (fun a m => a + m.foldl (fun b e => b + e.2.length) 0) 0

/-- Good cores of the package. -/
def State.goodCores (s : State) : Nat := ((List.range 96).filter fun i => s.fuses.coreMap.getLsbD i).length

/-- FW_STAT (R485). -/
def State.fwStat (s : State) : Nat :=
  s.fw.sec.state + 4 * s.fw.pwr.state + 16 * s.fw.sch.state + 64 * ((s.fw.ctrl.filter fun c => c.2.state != 0).length % 128)
  + 2 ^ 13 * bit s.fw.staged.isSome + 2 ^ 14 * bit s.fw.pendingAuto + 2 ^ 15 * bit s.fw.emerg

/-- The shown or hidden converters' status (HSK_STAT of R521). -/
def Die.hskStat (d : Die) : Nat := bit d.convW.retired + 2 * bit d.convE.retired + 4 * bit d.refFault + d.hskEvt.toNat

/-- A sensor of a die. -/
def Die.sensor (d : Die) (i : Nat) : Sensor := smGet sensorDefault d.sensors i

/-- Sensors of a die (R496). -/
def sensorCount (d : Nat) : Nat := if d < 24 then 36 else if d < 28 then 16 else 8

/-- A signed value in a field of w bits; 0 where there is none. -/
def signedField (w : Nat) : Option Int → Nat
  | some t => toBits w t
  | none => 0

/-- TMON_DATA of a selection (R520). -/
def State.tmonData (s : State) (sel : Nat) : Nat :=
  let i := field sel 10 5
  if sensorCount (field sel 4 0) ≤ i then 0
  else
    let x := (s.die (asDie (field sel 4 0))).sensor i
    signedField 12 x.shown + 2 ^ 12 * bit (x.shown.isSome && !x.excluded) + 2 ^ 13 * bit x.excluded + 2 ^ 14 * bit x.lone

/-- TMON_HOT of a selection (R520). -/
def State.tmonHot (s : State) (sel : Nat) : Nat :=
  let d := s.die (asDie (field sel 4 0))
  signedField 12 d.hotW + 2 ^ 12 * signedField 12 (if field sel 4 0 < 24 then d.hotE else d.hotW)
  + 2 ^ 24 * bandNo d.west.band + 2 ^ 27 * bandNo d.east.band

/-- Count and last tick of the block that a CAL_SEL value selects (R514, R522). -/
def State.cal (s : State) (sel : Nat) : Nat × W48 :=
  if 7 ≤ field sel 8 5 then (0, 0) else smGet (fun _ => (0, 0)) s.pow.cals (sel % 2 ^ 24)

/-- CAL_TEST_STAT (R522). -/
def State.testStat (s : State) : Nat :=
  match s.pow.tests with
  | [] => 0
  | t :: _ => t.state + 8 * t.kind + 128 * ((s.pow.tests.filter fun t => t.state != 3).length % 128)

/-- Ports of a die (R274): a weight die's port 4 stands for its on-die lanes. -/
def portCount (d : Nat) : Nat := if d < 24 then 5 else if 28 ≤ d then 12 else (portDies d).length

/-- A package register (R546). -/
def State.readPkg (s : State) (p : Path) (a : Nat) : Option Nat :=
  let k := s.tick
  match a with
  | 0x000 => some (k.count.toNat % 2 ^ 32)
  | 0x004 => some (s.shadow p a)
  | 0x008 => some (k.seq.toNat % 2 ^ 32)
  | 0x00C => some (s.shadow p a)
  | 0x010 => some (k.basePeriod + 2 ^ 10 * k.pEff + 2 ^ 20 * k.stretch + 2 ^ 26 * bit k.leap + 2 ^ 27 * bit k.recovery.isSome
      + 2 ^ 28 * bit s.emergency)
  | 0x014 => some (bit (k.leapReqs.contains 0))
  | 0x018 => some k.event.toNat
  | 0x01C => some k.lossInfo.toNat
  | 0x020 => some k.losses
  | 0x024 => some (bit s.chg.hold + 2 * bit s.chg.armed.isSome + 4 * bit s.chg.group)
  | 0x028 => some s.chg.tgt0.toNat
  | 0x02C => some (s.chg.tgt1.toNat % 2 ^ 16)
  | 0x030 => some ((if s.chg.armed.isSome then 2 else bit s.chg.hold) + 4 * s.chg.moves + 2 ^ 7 * s.chg.result + 2 ^ 9 * s.chg.nakDie
      + 2 ^ 14 * s.chg.nakCause + 2 ^ 17 * s.chg.nakMember)
  | 0x100 => some (s.fab.pos.toNat + 64 * s.fab.rack.toNat)
  | 0x104 => some (s.fab.trim.toNat % 2 ^ 16)
  | 0x108 => some (bit s.fab.lock + 2 * bit s.fab.holdover + 4 * toBits 16 s.fab.skew)
  | 0x10C => some (s.member % 16 + 16 * gstateNo s.grp.state
      + 64 * bit (s.grp.state == .convening && roundLeader s.grp.record s.grp.round == s.member) + 128 * bit s.grp.fenced)
  | 0x110 => some s.grp.record.epoch.toNat
  | 0x114 => some s.grp.evt.toNat
  | 0x118 => some (s.sel p 0)
  | 0x11C =>
    let x := s.sel p 0
    some (if field x 8 5 < portCount (field x 4 0) then s.share (field x 4 0) (field x 8 5) (field x 14 9) else 0)
  | 0x120 => some (s.sel p 1)
  | 0x124 =>
    let i := s.sel p 1
    some (if i < 64 then smGet (localDefault s.fab.pos.toNat) s.fab.localRoute i
      else if i < 1088 then smGet (fun _ => 15) s.fab.rackRoute (i - 64) else 0)
  | 0x128 => some ((List.range 16).foldl (fun v k => v + 4 ^ k * (s.flink k % 4)) 0)
  | 0x12C => some (s.shadow p a)
  | 0x200 => some (s.loadPhase + 8 * bit s.load.reader + 16 * s.load.lastStatus + 256 * min 0xFFF s.load.failures)
  | 0x204 => some s.genActive.toNat
  | 0x208 => some s.genStaged.toNat
  | 0x20C => some (s.load.written % 2 ^ 13 + 2 ^ 13 * (s.load.resident.length % 2 ^ 13))
  | 0x210 => some (s.load.area % 2 ^ 16 + 2 ^ 16 * ((s.load.area * 2 ^ 30 - s.imageUsed) / 2 ^ 30 % 2 ^ 16))
  | 0x214 => some s.load.evt.toNat
  | 0x300 => some s.fwStat
  | 0x304 => some (s.fw.version.toNat % 2 ^ 32)
  | 0x308 => some (s.shadow p a)
  | 0x30C => some s.rings.ringTab0.toNat
  | 0x310 => some (s.shadow p a)
  | 0x314 => some (s.rings.ringAdmin.toNat % 2 ^ 16)
  | 0x318 => some 0
  | 0x31C => some s.rings.fwEvt.toNat
  | 0x320 => some ((List.range 4).foldl (fun v i => v + 256 ^ i * min 0xFF (nth 0 s.fw.restartCnt i)) 0)
  | 0x400 => some (s.fuses.coreMap.toNat % 2 ^ 32)
  | 0x404 => some (s.shadow p a)
  | 0x408 => some (s.shadow p a)
  | 0x40C => some (s.goodCores + 128 * s.fuses.grade)
  | 0x410 => some (s.fw.nv.xmssIdx % 2 ^ 32)
  | 0x414 => some (s.shadow p a)
  | 0x418 => some (s.fw.bootStep + 8 * bit s.fw.fallback + 16 * s.fw.bootResult)
  | 0x500 => some s.pow.limit
  | 0x504 => some s.pow.base
  | 0x508 => some (min 4095 s.pow.est + 2 ^ 12 * s.pow.sPwr + 2 ^ 18 * s.pow.sTh)
  | 0x50C => some s.pow.evt.toNat
  | 0x600 => some (s.pow.throttle + 128 * s.pow.slope + 2 ^ 11 * bit s.pow.compat)
  | 0x604 => some (s.sel p 2)
  | 0x608 => some (s.tmonData (s.sel p 2))
  | 0x60C => some (s.tmonHot (s.sel p 2))
  | 0x610 => some s.pow.tmonEvt.toNat
  | 0x700 => some (s.sel p 3)
  | 0x704 => some (s.cal (s.sel p 3)).1
  | 0x708 => some ((s.cal (s.sel p 3)).2.toNat % 2 ^ 32)
  | 0x70C => some (s.shadow p a)
  | 0x710 => some s.testStat
  | _ => none

/-- TICK_UPD_STAT (R564). -/
def State.updStat (s : State) (d : DieId) : Nat :=
  (List.range 15).foldl (fun v i => v + 2 ^ (i + 1) * bit (s.chg.waiting.any fun w => w.die == d && w.group == i + 1)) 0
  + 2 ^ 16 * bit (s.chg.eligible.contains d.val)

/-- PWRG_DOM_STAT (R30). -/
def Die.domStat (d : Die) : Nat := d.domReady.toNat + 0x3C00_0000 + 2 ^ 30 * bit d.domRefused

/-- A die-block register (R547); `none` where the die has none. -/
def State.readDie (s : State) (p : Path) (d : DieId) (off a : Nat) : Option Nat :=
  let x := s.die d
  let sd := s.sd (d.val - 24)
  let serving := decide (d.val = 24 ∨ d.val = 25)
  match off with
  | 0x000 => some x.updMap0.toNat
  | 0x004 => some (x.updMap1.toNat % 2 ^ 16)
  | 0x008 => some 0
  | 0x00C => some (s.updStat d)
  | 0x010 => some x.cfgFault.toNat
  | 0x100 => if d.val < 24 then some x.domCtrl.toNat else none
  | 0x104 => if d.val < 24 then some x.domStat else none
  | 0x200 => some ((List.range 6).foldl (fun v i => v + 4 ^ i * (nth 0 x.portState i % 4)) 0)
  | 0x204 => some x.redEvt.toNat
  | 0x208 => some x.eccCorr
  | 0x20C => some x.eccRetry
  | 0x300 => some 0
  | 0x304 => some x.hskRes.toNat
  | 0x308 => some x.hskStat
  | 0x400 => if serving then some sd.budget else none
  | 0x404 => if serving then some (sd.freeUnits - sd.reservedUnits) else none -- a reserved unit is not free (R335, R343; DEDUCED, log 14)
  | 0x408 => if serving then some sd.attnEvt.toNat else none
  | 0x40C => if serving then some (sd.attnCnt.toNat % 2 ^ 32) else none
  | 0x410 => if serving then some (s.shadow p a) else none
  | 0x414 => if serving then some sd.reqBase else none
  | 0x418 => if serving then
      let mine := s.srv.reqs.filter fun e => homeOf e.1 == d.val - 24
      some ((mine.filter fun e => e.2.state != .free && e.2.state != .queued).length % 2 ^ 12
        + 2 ^ 12 * ((mine.filter fun e => e.2.state == .queued).length % 2 ^ 12))
    else none
  | 0x41C => if serving then some sd.serveEvt.toNat else none
  | 0x420 => if serving then some (sd.tokenCnt.toNat % 2 ^ 32) else none
  | 0x424 => if serving then some (s.shadow p a) else none
  | 0x428 => if serving then some sd.offered else none
  | 0x42C => if serving then some sd.accepted else none
  | _ => none

/-- Physical arrays that serve the 4,096 logical arrays of a core. -/
def State.servingArrays (s : State) (c : CoreId) : List ArrayInfo := (List.range 4096).map fun a => (s.core c).arr (s.phys c a)

/-- Logical arrays served at a grade (R567): an array has none before its first scan, so that the counts are 0 at reset. -/
def State.gradeCount (s : State) (c : CoreId) (g : Grade) : Nat :=
  ((s.servingArrays c).filter fun x => decide (0 < x.scans) && x.grade == g).length

/-- Physical arrays graded D (R567), those replaced at test among them once the core has been swept. -/
def State.retiredCount (s : State) (c : CoreId) : Nat :=
  ((List.range 4224).filter fun p =>
    (decide (0 < ((s.core c).arr p).scans) && ((s.core c).arr p).grade == .d) || ((s.core c).sweepDone && s.fusedOut c p)).length

/-- ARR_MODE_STAT (R566). -/
def State.modeStat (s : State) (c : CoreId) : Nat :=
  let b := (s.half c).band
  let base := bandNo b + 8 * settle b
  match s.alm with
  | none => base + 2 ^ 7 * 3
  | some a =>
    let m : Mode := if a.mode = 1 then .standard else if a.mode = 2 then .brisk else .reference
    base + 2 ^ 7 * a.mode
      + 2 ^ 9 * ((s.servingArrays c).filter fun x => decide ((effective m x.grade).1 < modeRank m)).length

/-- ARR_SPARE_STAT (R162). -/
def State.spareStat (s : State) (c : CoreId) : Nat :=
  (List.range 4).foldl (fun v q =>
    v + 64 ^ q * min 63 ((List.range 4224).filter fun p => quarterOf p == q && s.isFree c p).length) 0
  + 2 ^ 24 * min 16 (s.core c).holidays.length

/-- A core-block register (R548). -/
def State.readCore (s : State) (p : Path) (c : CoreId) (off a : Nat) : Option Nat :=
  let k := s.core c
  match off with
  | 0x000 => some (bit k.checkDis + 2 * bit k.checkLock)
  | 0x004 => some k.eventStat.toNat
  | 0x008 => some k.faultInfo.toNat
  | 0x00C => some (k.rereadCnt.toNat % 2 ^ 32)
  | 0x010 => some (s.shadow p a)
  | 0x014 => some k.fsCount
  | 0x020 => some k.numStat.toNat
  | 0x024 => some k.clamps
  | 0x028 => some (min 0xFFFF k.zeroBlocks + 2 ^ 16 * min 0x7FFF k.outlierOvf)
  | 0x040 => some k.scanCtrl.toNat
  | 0x044 => some k.marginEvt.toNat
  | 0x048 => some (s.spareStat c)
  | 0x04C => some (bit k.sweepDone + 2 * bit k.sweepSlow + 4 * (k.sweepTime % 2 ^ 16) + 2 ^ 18 * (k.refreshed % 2 ^ 14))
  | 0x050 => some (k.arrays.foldl (fun m e => max m e.2.wear.toNat) 0)
  | 0x054 => some (k.marginBase.toNat % 2 ^ 25)
  | 0x060 => some (s.modeStat c)
  | 0x064 => some (s.gradeCount c .a + 2 ^ 13 * s.gradeCount c .b)
  | 0x068 => some (s.shadow p a)
  | 0x080 => some (bit k.run + 2 * bit k.ended + 4 * bit k.halted + 8 * bit k.idle + 16 * k.slot + 2 ^ 16 * k.inflight.length)
  | 0x084 => some k.exc0.toNat
  | 0x088 => some (s.shadow p a)
  | 0x08C => some k.prog0.toNat
  | 0x090 => some k.prog1.toNat
  | 0x094 => some k.cwin0.toNat
  | 0x098 => some k.cwin1.toNat
  | 0x09C => some k.dwin0.toNat
  | 0x0A0 => some k.dwin1.toNat
  | _ => none

/-! ### The address map -/

/-- Where a control address lies (R545). -/
inductive Place where
  | pkg (off : Nat)
  | die (d : DieId) (off : Nat)
  | core (c : CoreId) (off : Nat)
  | store (c : CoreId) (b : Nat)
  | acc (c : CoreId) (b : Nat)
  | dram (b : Nat)
  | reserved
deriving DecidableEq, Repr

/-- The region of a control address (R545). -/
def placeOf (a : Nat) : Place :=
  if a < 0x1_0000 then .pkg a
  else if 0x10_0000 ≤ a ∧ a < 0x30_0000 then .die (asDie ((a - 0x10_0000) / 0x1_0000)) ((a - 0x10_0000) % 0x1_0000)
  else if 0x100_0000 ≤ a ∧ a < 0x106_0000 then .core (asCore ((a - 0x100_0000) / 0x1000)) ((a - 0x100_0000) % 0x1000)
  else if 0x1_0000_0000 ≤ a ∧ a < 0x1_C000_0000 then
    .store (asCore ((a - 0x1_0000_0000) / 0x200_0000)) ((a - 0x1_0000_0000) % 0x200_0000)
  else if 0x2_0000_0000 ≤ a ∧ a < 0x2_0180_0000 then
    .acc (asCore ((a - 0x2_0000_0000) / 0x4_0000)) ((a - 0x2_0000_0000) % 0x4_0000)
  else if 0x80_0000_0000 ≤ a ∧ a < 0x100_0000_0000 then .dram (a - 0x80_0000_0000)
  else .reserved

/-- A core block or window can be reached (R26, R550). -/
def State.coreReach (s : State) (c : CoreId) : Bool := s.good c && (s.die (dieOf c)).domUse.getLsbD (16 + c.val % 4)

/-- A register's value in force (R553); `none` is a bus error (R550). -/
def State.readReg (s : State) (p : Path) (a : Nat) : Option Nat :=
  if a % 4 ≠ 0 then none
  else match placeOf a with
    | .pkg off => s.readPkg p off
    | .die d off => s.readDie p d off a
    | .core c off => if s.coreReach c then s.readCore p c off a else none
    | _ => none

/-! ### Windows (R549, R159, R344, R322) -/

/-- A margin table entry as 16 bytes (R159). -/
def State.marginEntry (s : State) (c : CoreId) (p : Nat) : Bytes :=
  let x := (s.core c).arr p
  let g := match x.grade with | .a => 0 | .b => 1 | .c => 2 | .d => 3
  let h := match x.hstate with | .none => 0 | .copy => 1 | .service => 2
  leBytes 1 (g + 4 * bit x.crit + 8 * h + 32 * bit (s.isFree c p)) ++ leBytes 1 x.mLast ++ leBytes 1 x.q1 ++ leBytes 1 (toBits 8 x.q0)
  ++ leBytes 3 x.wear.toNat ++ leBytes 1 (min 255 x.failCnt) ++ leBytes 6 x.lastScan.toNat
  ++ leBytes 2 ((s.logicalOf c p).getD 0xFFFF)

/-- A core-store byte as the window shows it. -/
def State.storeByte (s : State) (c : CoreId) (b : Nat) : Byte :=
  let base := (s.core c).marginBase.toNat
  if base ≤ b ∧ b < base + 16 * 4224 then nth 0 (s.marginEntry c ((b - base) / 16)) ((b - base) % 16)
  else memGet (s.core c).store b

/-- A byte of the accumulator file. -/
def Core.accByte (k : Core) (b : Nat) : Byte := BitVec.ofNat 8 ((k.accGet (b / 32)).toNat >>> (8 * (b % 32)))

/-- Code of a request state (R345). -/
def rstateNo : RState → Nat
  | .free => 0 | .queued => 1 | .prefill => 2 | .decode => 3 | .held => 4 | .rebuild => 5 | .ending => 6

/-- A request-table entry as 128 bytes (R344). -/
def reqBytes (r : Req) : Bytes :=
  leBytes 1 (rstateNo r.state + 8 * bit r.seeded + 16 * bit r.cancel) ++ leBytes 1 (r.kMax + 16 * r.kCur)
  ++ leBytes 1 (r.draftSrc + 4 * min 63 r.plainRun) ++ leBytes 1 (r.ringLog2 + 16 * r.withdraws) ++ leBytes 4 r.gen.toNat
  ++ leBytes 4 r.ticket.toNat ++ leBytes 4 r.promptLen ++ leBytes 4 r.limit ++ leBytes 4 r.next ++ leBytes 4 r.emit ++ leBytes 4 0
  ++ leBytes 8 r.seed.toNat ++ leBytes 8 r.dirS0.toNat ++ leBytes 8 r.dirS1.toNat ++ leBytes 8 r.histAddr.toNat
  ++ leBytes 8 r.ringAddr.toNat ++ leBytes 4 r.prod.toNat ++ leBytes 4 r.temp.toNat ++ leBytes 2 r.topK ++ leBytes 2 0
  ++ leBytes 4 r.topP.toNat ++ leBytes 4 r.minP.toNat ++ leBytes 4 r.repPen.toNat ++ leBytes 4 r.presPen.toNat
  ++ (List.range 4).flatMap (fun i => leBytes 4 (nth 0 r.stops i).toNat) ++ leBytes 12 0

/-- A page directory header as 64 bytes, and a directory entry, a page table entry as 8 (R322). -/
def dirBytes (d : Dir) : Bytes :=
  leBytes 4 d.len ++ leBytes 4 d.pend ++ leBytes 4 d.hideLo ++ leBytes 4 d.hideHi ++ leBytes 48 0

/-- A page table entry as 8 bytes (R322). -/
def pageBytes (p : PageEnt) : Bytes := leBytes 8 (p.frame + 2 ^ 26 * p.fmt + 2 ^ 28 * bit p.valid + 2 ^ 29 * bit p.lost)

/-- The byte of a carve-out that lies at byte b of the DRAM of serving die d: each die holds half of each carve-out (R34, log 26). -/
def State.carveByte (s : State) (d b : Nat) : Option Byte :=
  let half := s.rings.carveSize / 2
  ([0, 1].find? fun o => decide (nth 0 s.rings.carveAt (2 * o + d) ≤ b ∧ b < nth 0 s.rings.carveAt (2 * o + d) + half)).map fun o =>
    memGet (s.carve o) (d * half + (b - nth 0 s.rings.carveAt (2 * o + d)))

/-- Byte b of the DRAM of serving die d: the pager's and the home die's structures where they lie, then the carve-outs, else the stored byte. -/
def State.dramByte (s : State) (d b : Nat) : Byte :=
  let x := s.sd d
  let base := 4096 * x.reqBase
  if base ≤ b ∧ b < base + 128 * 2048 then nth 0 (reqBytes (s.req (2 * ((b - base) / 128) + d))) ((b - base) % 128)
  else match s.srv.reqs.find? (fun e => homeOf e.1 == d && e.2.state != .free && e.2.state != .queued
      && decide (e.2.histAddr.toNat ≤ b ∧ b < e.2.histAddr.toNat + 32 * e.2.hist.length)) with
    | some e => nth 0 (tokBytes (nth ⟨[], 0, 0, 0, 0⟩ e.2.hist ((b - e.2.histAddr.toNat) / 32))) ((b - e.2.histAddr.toNat) % 32)
    | none => match x.dirs.find? (fun e => decide ((Config.dirAddr e.1 d).toNat ≤ b ∧ b < (Config.dirAddr e.1 d).toNat + 8256)) with
      | some e =>
        let o := b - (Config.dirAddr e.1 d).toNat
        if o < 64 then nth 0 (dirBytes e.2) o
        else
          let l := (o - 64) / 8
          nth 0 (leBytes 8 (if (x.pagesOf e.1).any fun p => p.1 == l then Config.listUnit e.1 l d + 2 ^ 26 else 0)) ((o - 64) % 8)
      | none => match x.pages.find? (fun e => Config.listUnit (e.1 / (1024 * 512)) (e.1 / 512 % 1024) d == b / 4096 && e.1 % 512 == b % 4096 / 8) with
        | some e => nth 0 (pageBytes e.2) (b % 8)
        | none => (s.carveByte d b).getD (memGet x.dram b)

/-- n bytes of a window from a control address (R549): `none` is a bus error, for an unreachable core or a word that fails twice. -/
def State.readWindow (s : State) (a n : Nat) : Option Bytes :=
  if a % n ≠ 0 then none
  else match placeOf a with
    | .store c b => if s.coreReach c && !(s.core c).badStore.contains (b / 16)
        then some ((List.range n).map fun i => s.storeByte c (b + i)) else none
    | .acc c b => if s.coreReach c && !(s.core c).badAcc.contains (b / 16)
        then some ((List.range n).map fun i => (s.core c).accByte (b + i)) else none
    | .dram b => some ((List.range n).map fun i => s.dramByte (b / 2 ^ 38) ((b + i) % 2 ^ 38))
    | _ => none

/-- A word of the control space at a 4-byte access: a register, or 4 bytes of a window. -/
def State.readWord (s : State) (p : Path) (a : Nat) : Option Nat :=
  if a % 4 ≠ 0 then none
  else match placeOf a with
    | .pkg _ | .die _ _ | .core _ _ => s.readReg p a
    | _ => (s.readWindow a 4).map leNat

/-! ### Reading a low word (R557) -/

/-- The high words that a read of a low word latches: address and value. -/
def State.highWords (s : State) (a : Nat) : List (Nat × Nat) :=
  match placeOf a with
  | .pkg 0x000 => [(a + 4, s.tick.count.toNat / 2 ^ 32)]
  | .pkg 0x008 => [(a + 4, s.tick.seq.toNat / 2 ^ 32)]
  | .pkg 0x128 => [(a + 4, (List.range 16).foldl (fun v k => v + 4 ^ k * (s.flink (16 + k) % 4)) 0)]
  | .pkg 0x304 => [(a + 4, s.fw.version.toNat / 2 ^ 32)]
  | .pkg 0x30C => [(a + 4, s.rings.ringTab1.toNat)]
  | .pkg 0x400 => [(a + 4, s.fuses.coreMap.toNat / 2 ^ 32 % 2 ^ 32), (a + 8, s.fuses.coreMap.toNat / 2 ^ 64)]
  | .pkg 0x410 => [(a + 4, s.fw.nv.xmssIdx / 2 ^ 32)]
  | .die d 0x40C => if d.val = 24 ∨ d.val = 25 then [(a + 4, (s.sd (d.val - 24)).attnCnt.toNat / 2 ^ 32)] else []
  | .die d 0x420 => if d.val = 24 ∨ d.val = 25 then [(a + 4, (s.sd (d.val - 24)).tokenCnt.toNat / 2 ^ 32)] else []
  | .core c 0x00C => [(a + 4, (s.core c).rereadCnt.toNat / 2 ^ 32)]
  | .core c 0x064 => [(a + 4, s.gradeCount c .c + 2 ^ 13 * s.retiredCount c)]
  | .core c 0x084 => [(a + 4, (s.core c).exc1.toNat)]
  | _ => []

/-- CAL_LAST0 latches CAL_LAST1 of the path's selected block. -/
def State.highFor (s : State) (p : Path) (a : Nat) : List (Nat × Nat) :=
  if placeOf a = .pkg 0x708 then [(a + 4, (s.cal (s.sel p 3)).2.toNat / 2 ^ 32)] else s.highWords a

/-- A read at an address latches the path's shadows (R557). -/
def State.latch (s : State) (p : Path) (a : Nat) : State :=
  (s.highFor p a).foldl (fun s h =>
    { s with regs := { s.regs with shadow := smSet (fun _ => 0) s.regs.shadow (shadowKey p h.1) (BitVec.ofNat 32 h.2) } }) s

/-- LOW_WORD_READ (R557): a read on a path that does not end in a bus error. -/
def execLowWordRead (p : Path) (addr : Nat) (s : State) : Out :=
  if s.power == 0 && (s.readReg p addr).isSome then .next (s.latch p addr) else .next s

end Sys2Proof.Machine
end

