-- ==== Sys2Proof/Machine/Housekeeping.lean ====
section
/-! DEFINITION. Temperature sensors, the trip output and the shutdown latch, housekeeping converters, calibration (R489 to R515). -/
namespace Sys2Proof.Machine

/-! ### Stopping the package -/

/-- A core whose sequencer and units stop; what the units have in flight is lost. -/
def Core.stop (k : Core) : Core := { k with run := false, inflight := [] }

/-- The package stops without an orderly power-down (R505, R575): sequencers, units and passes, the network, the rings, the optics; what lies in cells
and in the NV region stays. -/
def State.shutdown (s : State) : State :=
  let s := (List.range 96).foldl (fun s i => s.modCore (asCore i) Core.stop) s
  { s with
    power := 1, flits := [], inbox := [], wire := [], outbound := [], reducers := []
    tick := { s.tick with phase := .applied }
    rings := { s.rings with sets := [], queues := [[], [], [], []], begun := [] }
    fab := { s.fab with launch := false, frames := [] }
    pow := { s.pow with railsUp := false }
    fw := { s.fw with nv := { s.fw.nv with orderly := false } } }

/-! ### Sensors (R496 to R505) -/

/-- A bit of TMON_EVT (R520). -/
def State.tmonBit (s : State) (i : Nat) : State := { s with pow := { s.pow with tmonEvt := setBit s.pow.tmonEvt i } }

/-- A sensor of a die changed. -/
def Die.modSensor (d : Die) (i : Nat) (f : Sensor → Sensor) : Die :=
  { d with sensors := smSet sensorDefault d.sensors i (f (d.sensor i)) }

/-- The sensor takes part in bands, throttling, the trip output and the latch (R498). -/
def Sensor.valid (x : Sensor) : Bool := x.temp.isSome && !x.excluded

/-- The highest of some temperatures. -/
def hottest (l : List Int) : Option Int := l.foldl (fun a x => match a with | some y => some (max x y) | none => some x) none

/-- Insertion into a rising list. -/
def insertInt (x : Int) : List Int → List Int
  | [] => [x]
  | y :: t => if x ≤ y then x :: y :: t else y :: insertInt x t

/-- The lower median. -/
def lowerMedian (l : List Int) : Int := nth 0 (l.foldr insertInt []) ((l.length - 1) / 2)

/-- Readings of the valid sensors of a list of sensor numbers of a die. -/
def Die.validTemps (d : Die) (is : List Nat) : List Int := is.filterMap fun i => if (d.sensor i).valid then (d.sensor i).temp else none

/-- What software and throttling see of the valid sensors (R500). -/
def Die.shownTemps (d : Die) (is : List Nat) : List Int := is.filterMap fun i => if (d.sensor i).valid then (d.sensor i).shown else none

/-- Sensors of a weight-die half (R496), or of another die. -/
def halfSensors (d : Nat) (east : Bool) : List Nat :=
  if 24 ≤ d then List.range (sensorCount d)
  else if east then (List.range 16).map (16 + ·) ++ [34, 35] else List.range 16 ++ [32, 33]

/-- The cross-check of one sensor against the readings `old` of its die (R498): the new sensor, and whether it was excluded now. -/
def crossCheck (old : Die) (ns : List Nat) (x : Sensor) : Sensor × Bool :=
  match x.temp with
  | none => (x, false)
  | some t =>
    let vs := old.validTemps ns
    if vs.length < 3 then ({ x with lone := true }, false)
    else
      let m := lowerMedian vs
      let diff := (t - m).natAbs
      let x := { x with lone := false }
      if x.excluded then
        if x.readmit && decide (diff ≤ 24) then ({ x with agree := x.agree + 1 }, false) else ({ x with readmit := false, agree := 0 }, false)
      else if 48 < diff then
        if 3 ≤ x.disagree then ({ x with excluded := true, disagree := 0 }, true) else ({ x with disagree := x.disagree + 1 }, false)
      else ({ x with disagree := 0 }, false)

/-- The readings of a sample taken into the sensors. -/
def State.takeReadings (s : State) (rs : List Reading) : State :=
  rs.foldl (fun s r => if sensorCount r.die.val ≤ r.sensor then s else s.modDie r.die fun d => d.modSensor r.sensor fun x => { x with temp := r.temp }) s

/-- The cross-checks of a sample, all against the readings and exclusions before them. -/
def State.crossChecks (s : State) (rs : List Reading) : State :=
  let old := s
  rs.foldl (fun s r =>
    if sensorCount r.die.val ≤ r.sensor then s
    else
      let ns := smGet neighbourDefault s.fuses.neighbours (64 * r.die.val + r.sensor)
      let y := crossCheck (old.die r.die) ns ((s.die r.die).sensor r.sensor)
      let s := s.modDie r.die fun d => d.modSensor r.sensor fun _ => y.1
      if y.2 then s.tmonBit 0 else s) s

/-- Dies that a sample reads. -/
def sampledDies (rs : List Reading) : List DieId := rs.foldl (fun l r => addNew l r.die) []

/-- The half or die takes this sample for software and throttling (R500), `n` samples after reset. -/
def State.shows (s : State) (d : DieId) (east : Bool) (n : Nat) : Bool :=
  if !s.pow.compat then true
  else match hottest ((s.die d).validTemps (halfSensors d.val east)) with
    | none => true
    | some t => decide (n % 100 = 0) || (decide ((8 * s.pow.throttle : Int) ≤ t + 80) && decide (n % 10 = 0))

/-- The sample shown for one half or die. -/
def State.showHalf (s : State) (d : DieId) (east : Bool) (n : Nat) : State :=
  if s.shows d east n then s.modDie d fun x => (halfSensors d.val east).foldl (fun x i => x.modSensor i fun y => { y with shown := y.temp }) x else s

/-- T of both halves of a die (R138, R499). -/
def State.setHot (s : State) (d : DieId) : State :=
  let x := s.die d
  let all := hottest (x.shownTemps (List.range (sensorCount d.val)))
  let half (e : Bool) : Option Int := match hottest (x.shownTemps (halfSensors d.val e)) with
    | some t => some t
    | none => all.map (· + 80)
  let blind (e : Bool) : Bool := (x.validTemps (halfSensors d.val e)).isEmpty
  let s := s.modDie d fun x => { x with hotW := half false, hotE := if d.val < 24 then half true else half false }
  if d.val < 24 && (blind false || blind true) then s.tmonBit 1 else s

/-- Valid sensors of a die. -/
def Die.validCount (x : Die) (d : Nat) : Nat := (x.validTemps (List.range (sensorCount d))).length

/-- The latch's count of a sensor: consecutive samples at 115 °C or more (R505). -/
def State.countHot (s : State) (r : Reading) : State :=
  if sensorCount r.die.val ≤ r.sensor then s
  else s.modDie r.die fun d => d.modSensor r.sensor fun x =>
    { x with hot := match x.temp with | some t => if !x.excluded && decide (920 ≤ t) then x.hot + 1 else 0 | none => 0 }

/-- Valid readings of the package. -/
def State.allTemps (s : State) : List Int := (List.range 32).flatMap fun d => (s.die (asDie d)).validTemps (List.range (sensorCount d))

/-- THERMAL_TRIP (R504). -/
def State.tripOutput (s : State) : State :=
  let ts := s.allTemps
  let latched := (List.range 32).any fun d => (s.die (asDie d)).latch
  if ts.any fun t => decide (880 ≤ t) then
    (if s.pow.trip then s else { s with pow := { s.pow with trip := true } }.tmonBit 2)
  else if !latched && ts.all fun t => decide (t < 864) then { s with pow := { s.pow with trip := false } }
  else s

/-- SHUTDOWN_LATCH (R505). -/
def State.latchCheck (s : State) (ds : List DieId) : State :=
  let hot (d : DieId) : Bool := (List.range (sensorCount d.val)).any fun i => decide (2 ≤ ((s.die d).sensor i).hot)
  if ds.any hot then
    let t := s.pow.trip
    let s := ds.foldl (fun s d => if hot d then s.modDie d fun x => { x with latch := true } else s) s
    let s := { s with pow := { s.pow with trip := true } }
    (if t then s else s.tmonBit 2).shutdown
  else s

/-- SENSOR_SAMPLE (R497 to R500, R504, R505): the readings, the cross-checks, T of halves and dies, the trip output, the latch. -/
def execSensorSample (readings : List Reading) (s : State) : Out :=
  if s.power ≠ 0 then .next s
  else
    let ds := sampledDies readings
    let old := s
    let s := (s.takeReadings readings).crossChecks readings
    let n := s.pow.sinceShown
    let s := { s with pow := { s.pow with sinceShown := n + 1 } }
    let s := ds.foldl (fun s d => ((s.showHalf d false n).showHalf d true n).setHot d) s
    let few (x : State) (d : DieId) : Bool := decide ((x.die d).validCount d.val < 4)
    let s := if ds.any fun d => few s d && !few old d then s.packageFault 5 else s
    let s := readings.foldl State.countHot s
    .next (s.tripOutput.latchCheck ds)

/-- READMISSION_REQUEST (R498, R520). -/
def execReadmissionRequest (_p : Path) (d : DieId) (sensor : Fin 36) (s : State) : Out :=
  let x := (s.die d).sensor sensor.val
  if s.power ≠ 0 || decide (sensorCount d.val ≤ sensor.val) || !x.excluded then .next s
  else .next (s.modDie d fun y => y.modSensor sensor.val fun x => { x with readmit := true, agree := 0 })

/-- SENSOR_READMISSION (R498): after 1,000 consecutive samples within 3 °C. -/
def execSensorReadmission (d : DieId) (sensor : Fin 36) (s : State) : Out :=
  let x := (s.die d).sensor sensor.val
  if s.power ≠ 0 || !x.excluded || !x.readmit || decide (x.agree < 1000) then .next s
  else .next (s.modDie d fun y => y.modSensor sensor.val fun x => { x with excluded := false, readmit := false, agree := 0, disagree := 0 })

/-! ### Housekeeping converters (R506 to R511) -/

/-- A converter of a die. -/
def Die.conv (d : Die) (east : Bool) : Converter := if east then d.convE else d.convW

/-- A converter replaced. -/
def Die.setConv (d : Die) (east : Bool) (v : Converter) : Die := if east then { d with convE := v } else { d with convW := v }

/-- An event bit of HSK_STAT (R521). -/
def Die.hskBit (d : Die) (i : Nat) : Die := { d with hskEvt := setBit d.hskEvt i }

/-- The converter that serves a request (R508): a retired one's half is served by the other. -/
def Die.serving (d : Die) (east : Bool) : Option Bool :=
  if !(d.conv east).retired then some east else if !(d.conv (!east)).retired then some (!east) else none

/-- A request queued, or ignored with QFULL (R506, R507). -/
def Die.request (d : Die) (r : HskReq) (urgent : Bool) : Die :=
  if 10 ≤ r.chan.toNat then d.hskBit 5
  else match d.serving r.east with
    | none => d.hskBit 5
    | some e =>
      let v := d.conv e
      if urgent then d.setConv e { v with urgent := v.urgent ++ [r] }
      else if 16 ≤ v.queue.length then d.hskBit 5
      else d.setConv e { v with queue := v.queue ++ [r] }

/-- HSK_REQUEST (R507). -/
def execHskRequest (_p : Path) (d : DieId) (r : HskReq) (s : State) : Out :=
  .next (if s.power ≠ 0 then s else s.modDie d fun x => x.request r false)

/-- HSK_URGENT_REQUEST (R507): ahead of every queued request. -/
def execHskUrgentRequest (_p : Path) (d : DieId) (r : HskReq) (s : State) : Out :=
  .next (if s.power ≠ 0 then s else s.modDie d fun x => x.request r true)

/-- Code of an input in half LSBs, with OVR and UNR (R509). -/
def adcCode (input : Int) : Nat × Bool × Bool :=
  if 8193 < input then (0xFFF, true, false)
  else if input < -1 then (0, false, true)
  else (min 0xFFF ((input + 1) / 2).toNat, false, false)

/-- A raw code after offset and gain trim (R511, R521), to the nearest code. -/
def Converter.trimmed (v : Converter) (raw : Nat) : Nat :=
  if v.gainRef = 0 then raw
  else
    let n : Int := 2 * ((raw : Int) - v.offset) * 32768 + 10 * v.gainRef
    min 0xFFF (n / (20 * v.gainRef)).toNat

/-- The bandgap comparison with the other converter (R508): plausible, and the die with its count of failures in a row. -/
def Die.compare (d : Die) (east : Bool) (bandgap : Nat) : Bool × Die :=
  let v := d.conv east
  let w := d.conv (!east)
  let d := d.setConv east { v with bandgap := bandgap }
  if w.retired then (true, d)
  else if gapOf (v.trimmed bandgap) (w.trimmed w.bandgap) ≤ 8 then (true, { d with misses := 0 })
  else (false, ({ d with misses := d.misses + 1 }).hskBit 3)

/-- CONVERSION_DONE (R506 to R509): the urgent requests first; channels 6 to 8 convert ground on a die without arrays; the result goes to HSK_RES. -/
def execConversionDone (d : DieId) (east : Bool) (sense : HskSense) (s : State) : Out :=
  let v := (s.die d).conv east
  let next : Option (HskReq × Converter) := match v.urgent, v.queue with
    | r :: t, _ => some (r, { v with urgent := t })
    | [], r :: t => some (r, { v with queue := t })
    | [], [] => none
  match next with
  | none => .next s
  | some (r, w) =>
    if s.power ≠ 0 then .next s
    else
      let c := adcCode (if decide (24 ≤ d.val ∧ 6 ≤ r.chan.toNat ∧ r.chan.toNat ≤ 8) then 0 else sense.input)
      let code := if c.2.1 || c.2.2 then c.1 else w.trimmed c.1
      .next (s.modDie d fun x =>
        let y := (x.setConv east w).compare east sense.bandgap
        { y.2 with hskRes := BitVec.ofNat 32 (code + 2 ^ 12 * r.tag.toNat + 2 ^ 18 * bit c.2.1 + 2 ^ 19 * bit c.2.2
            + 2 ^ 20 * bit (!y.1) + 2 ^ 21) })

/-- IDLE_BANDGAP_CONVERSION (R508): a converter with no request converts channel 0. -/
def execIdleBandgapConversion (d : DieId) (east : Bool) (sense : HskSense) (s : State) : Out :=
  let v := (s.die d).conv east
  if s.power ≠ 0 || v.retired || !v.urgent.isEmpty || !v.queue.isEmpty then .next s
  else .next (s.modDie d fun x => (x.compare east sense.bandgap).2)

/-- CONVERTER_RETIRE (R508): after four failed comparisons in a row, channel 1 of both converters decides. -/
def execConverterRetire (d : DieId) (refWest refEast : Nat) (s : State) : Out :=
  let x := s.die d
  if s.power ≠ 0 || decide (x.misses < 4) || x.convW.retired || x.convE.retired then .next s
  else
    let w := decide (8 < gapOf refWest x.convW.ref)
    let e := decide (8 < gapOf refEast x.convE.ref)
    let retire (v : Converter) : Converter := { v with retired := true, urgent := [], queue := [] }
    let merge (v u : Converter) : Converter := { v with urgent := v.urgent ++ u.urgent, queue := (v.queue ++ u.queue).take 16 }
    .next (s.modDie d fun x =>
      let x := { x with misses := 0 }
      if w == e then ({ x with convW := retire x.convW, convE := retire x.convE }).hskBit 4
      else if w then { x with convW := retire x.convW, convE := merge x.convE x.convW }
      else { x with convE := retire x.convE, convW := merge x.convW x.convE })

/-! ### Calibration (R511 to R515) -/

/-- The CAL_SEL value of a block (R522). -/
def calKey (die block core index : Nat) : Nat := die + 2 ^ 5 * block + 2 ^ 9 * core + 2 ^ 11 * index

/-- A completed calibration counted (R514). -/
def State.calDone (s : State) (key : Nat) : State :=
  let n := (smGet (fun _ => (0, 0)) s.pow.cals key).1
  { s with pow := { s.pow with cals := smSet (fun _ => (0, 0)) s.pow.cals key (satAdd 0xFFFF_FFFF n 1, s.tick.count) } }

/-- A trim staged for the next apply point (R513). -/
def State.stageTrim (s : State) (key : Nat) (v : Int) : State := { s with pow := { s.pow with trimsNext := s.pow.trimsNext ++ [(key, v)] } }

/-- Ratio of REF code to bandgap code of a die's serving converter, in millionths. -/
def Die.refRatio (d : Die) : Option Int :=
  match d.serving false with
  | some e => if (d.conv e).bandgap = 0 then none else some ((d.conv e).ref * 1000000 / (d.conv e).bandgap : Nat)
  | none => none

/-- REF_FAULT (R511) from the median over all dies. -/
def State.refCheck (s : State) : State :=
  let m := lowerMedian ((List.range 32).filterMap fun d => (s.die (asDie d)).refRatio)
  let f : Int := s.fuses.refRatio
  let off := (m - f).natAbs
  let put (b : Bool) : State := (List.range 32).foldl (fun s d => s.modDie (asDie d) fun x => { x with refFault := b }) s
  if s.fuses.refRatio < 100 * off then put true else if 200 * off ≤ s.fuses.refRatio then put false else s

/-- REFERENCE_CONVERSION (R511): channel 1 and channel 9 stage the converter's trims; the ratio to the bandgap is checked over all dies. -/
def execReferenceConversion (d : DieId) (east : Bool) (refCode gndCode bandgap : Nat) (s : State) : Out :=
  if s.power ≠ 0 || ((s.die d).conv east).retired then .next s
  else
    let s := s.modDie d fun x => x.setConv east { x.conv east with ref := refCode, bandgap := bandgap }
    let s := s.refCheck
    let key := calKey d.val (bit east) 0 0
    let s := if (s.die d).refFault then s else s.stageTrim (2 ^ 24 + key) refCode
    .next ((s.stageTrim (2 ^ 25 + key) gndCode).calDone key)

/-- A block number and its index name a block of R512: 2 sensor, 3 to 5 a quarter's read reference, read bias, write driver. -/
def State.calBlock (s : State) (d : DieId) (block core index : Nat) : Bool :=
  (block == 2 && decide (index < sensorCount d.val ∧ core = 0))
  || (decide (3 ≤ block ∧ block ≤ 5 ∧ d.val < 24 ∧ core < 4 ∧ index < 4) && s.good (asCore (4 * d.val + core)))

/-- CALIBRATION (R512 to R514): a block's new trim is staged and the calibration counted. A sensor that would need more than 3 °C is
excluded. With both converters retired nothing is calibrated; under REF_FAULT the trims stay. -/
def execCalibration (d : DieId) (block core index : Nat) (trim : Int) (s : State) : Out :=
  if s.power ≠ 0 || !s.calBlock d block core index || ((s.die d).serving false).isNone then .next s
  else
    let key := calKey d.val block core index
    let s := s.calDone key
    if block = 2 ∧ 24 < trim.natAbs then
      .next ((s.modDie d fun x => x.modSensor index fun y => { y with excluded := true, readmit := false, disagree := 0 }).tmonBit 0)
    else if (s.die d).refFault then .next s
    else .next (s.stageTrim key trim)

/-- LIGHT_CHECK (R515): a mean error above 0.1 unit queues a priority-5 holiday. -/
def execLightCheck (c : CoreId) (array : Nat) (errorMilli : Nat) (s : State) : Out :=
  if !s.coreActs c || decide (4224 ≤ array) then .next s
  else
    let s := s.calDone (calKey (dieOf c).val 6 (c.val % 4) array)
    .next (if 100 < errorMilli && s.inService c array then s.modCore c fun k => k.queueHoliday array 5 5 else s)

/-- TRIM_APPLY (R513): staged trims take force. -/
def State.applyTrims (s : State) : State :=
  let s := s.pow.trimsNext.foldl (fun (s : State) t =>
    let d := asDie (t.1 % 32)
    let east := t.1 / 32 % 16 == 1
    if 2 ^ 25 ≤ t.1 then s.modDie d fun x => x.setConv east { x.conv east with offset := t.2.toNat }
    else if 2 ^ 24 ≤ t.1 then s.modDie d fun x => x.setConv east { x.conv east with gainRef := t.2.toNat }
    else { s with pow := { s.pow with trims := smSet (fun _ => 0) s.pow.trims t.1 t.2 } }) s
  let s := s.pow.convNext.foldl (fun (s : State) t =>
    s.modArr (asCore t.1) t.2.1 fun x => { x with trims := (x.trims.filter fun y => y.1 != t.2.2.1) ++ [t.2.2] }) s
  { s with pow := { s.pow with trimsNext := [], convNext := [] } }

end Sys2Proof.Machine
end

