-- ==== Sys2Proof/Machine/RegWrite.lean ====
section
/-! DEFINITION. Register writes: the buffer and the update groups, fields that act at once, the pending change, doorbells, parity, management
messages (R10, R533, R540 to R565). -/
namespace Sys2Proof.Machine

/-! ### The buffer (R552 to R556) -/

/-- Die and block of a register (R554); the package registers are those of C0. -/
def blockOf : Place → Option (DieId × Nat)
  | .pkg off => some (26, if off < 0x100 then 0 else if off < 0x200 then 2 else if off < 0x300 then 6 else if off < 0x500 then 7
      else if off < 0x600 then 1 else if off < 0x700 then 4 else 5)
  | .die d off => some (d, if off < 0x100 then 0 else if off < 0x200 then 1 else if off < 0x300 then 2 else if off < 0x400 then 3 else 6)
  | .core c _ => some (dieOf c, 8 + c.val % 4)
  | _ => none

/-- Bits of PWRG_DOM_CTRL of a die that can be written: those of fused-off cores read 0 (R29, R39). -/
def State.domMask (s : State) (d : DieId) : Nat :=
  0x03F0_0000 + (List.range 4).foldl (fun m c => if s.good (asCore (4 * d.val + c)) then m + 15 * 16 ^ c + 2 ^ (16 + c) else m) 0

/-- The RW and RW-L bits of a register that is buffered (R552); 0 for every other. -/
def State.rwMask (s : State) : Place → Nat
  | .pkg 0x104 => 0xFFFF
  | .pkg 0x11C => 0x7F
  | .pkg 0x124 => 0xF
  | .pkg 0x30C => 0xFFFF_FFC0
  | .pkg 0x310 => 0xFFFF_FFFF
  | .pkg 0x314 => 0xFFFF
  | .pkg 0x500 => 0xFFF
  | .pkg 0x504 => 0xFFF
  | .pkg 0x600 => 0xFFF
  | .die _ 0x000 => 0xFFFF_FFFF
  | .die _ 0x004 => 0xFFFF
  | .die d 0x100 => if d.val < 24 then s.domMask d else 0
  | .die d 0x400 => if d.val = 24 ∨ d.val = 25 then 0xF_FFFF else 0
  | .core _ 0x000 => 1
  | .core _ 0x040 => 0x1FF
  | .core _ 0x08C => 0x1FF_FFF8
  | .core _ 0x090 => 0x7F_FFF8
  | .core _ 0x094 => 0x1FF_FFC0
  | .core _ 0x098 => 0x3FF_FFC0
  | .core _ 0x09C => 0x1FF_FFC0
  | .core _ 0x0A0 => 0x3FF_FFC0
  | _ => 0

/-- The update group of a block of a die in force (R554). -/
def Die.updGroup (d : Die) (block : Nat) : Nat :=
  if block < 8 then field d.updMap0.toNat (4 * block + 3) (4 * block) else field d.updMap1.toNat (4 * block - 29) (4 * block - 32)

/-- The entry that a write to a data register names: the selection of its path. -/
def State.entryOf (s : State) (p : Path) : Place → Nat
  | .pkg 0x11C => s.sel p 0
  | .pkg 0x124 => s.sel p 1
  | _ => 0

/-- A write that its register's own rule ignores when it arrives: a locked field, FW_RING_ADMIN from the command dies, a port or an entry that does
not exist (R304, R449, R486, R559). -/
def State.ignoresWrite (s : State) (p : Path) : Place → Bool
  | .pkg 0x314 => p == .c0 || p == .c1
  | .pkg 0x11C => decide (portCount (field (s.sel p 0) 4 0) ≤ field (s.sel p 0) 8 5)
  | .pkg 0x124 => decide (1088 ≤ s.sel p 1)
  | .core c 0x000 => (s.core c).checkLock
  | _ => false

/-- The eve has begun and its apply point has not come: what joins the pending change is evaluated at the next eve (R555). -/
def State.afterEve (s : State) : Bool := s.tick.phase == .eve || s.tick.phase == .reported

/-- A register write put into the buffer (R552 to R556): it replaces an earlier write to the same register and entry that has not been armed. -/
def State.bufferWrite (s : State) (p : Path) (a : Nat) (v : W32) : State :=
  let pl := placeOf a
  match blockOf pl with
  | none => s
  | some (d, b) =>
    if s.rwMask pl = 0 || s.ignoresWrite p pl then s
    else
      let e := s.entryOf p pl
      let map : Bool := match pl with | .die _ off => decide (off < 8) | _ => false
      let g := if map then 0 else (s.die d).updGroup b
      let other (w : BufWrite) : Bool := !(w.addr == a && w.entry == e)
      let w : BufWrite := ⟨d, b, g, a, e, v &&& BitVec.ofNat 32 (s.rwMask pl), p, decide (g = 0) && s.afterEve⟩
      let k := s.chg
      let k := { k with waiting := k.waiting.filter other, pending := k.pending.filter other }
      { s with chg := if g = 0 then { k with pending := k.pending ++ [w] } else { k with waiting := k.waiting ++ [w] } }

/-- STROBE of update groups of a die (R555, R563), but for the groups of `drops`. -/
def State.strobeGroups (s : State) (d : DieId) (groups drops : BitVec 16) : State :=
  let hit (w : BufWrite) : Bool := w.die == d && decide (w.group ≠ 0) && groups.getLsbD w.group && !drops.getLsbD w.group
  let k := s.chg
  let moved := k.waiting.filter hit
  { s with chg := { k with
      waiting := k.waiting.filter fun w => !hit w
      pending := k.pending ++ moved.map fun w => { w with late := s.afterEve }
      eligible := if moved.isEmpty then k.eligible else addNew k.eligible d.val } }

/-- DROP of the unstrobed writes of update groups of a die (R563). -/
def State.dropGroups (s : State) (d : DieId) (groups : BitVec 16) : State :=
  let k := s.chg
  { s with chg := { k with waiting := k.waiting.filter fun w => !(w.die == d && decide (w.group ≠ 0) && groups.getLsbD w.group) } }

/-! ### The pending change (R533, R540) -/

/-- HOLD of TICK_CHG_CTRL. -/
def State.setHold (s : State) (b : Bool) : State := { s with chg := { s.chg with hold := b } }

/-- ARM (R533): the pending change is staged with the target in TICK_CHG_TGT0 and TICK_CHG_TGT1. An armed change stays as it is.
One that is armed after the reports of an eve is not evaluated at that eve (R534, R555). -/
def State.armChange (s : State) : State :=
  let k := s.chg
  if k.armed.isSome then s
  else { s with chg := { k with
      armed := some (k.pending.map fun w => { w with late := w.late || s.tick.phase == .reported }, k.tgt0.setWidth 48 ||| (k.tgt1.setWidth 48 <<< 32)), pending := [], eligible := [], aMoves := 0, pMoves := 0, moves := 0 } }

/-- DISCARD (R540): the pending change and any armed change go. -/
def State.discardChange (s : State) : State :=
  { s with chg := { s.chg with pending := [], armed := none, eligible := [], pMoves := 0, aMoves := 0 } }

/-- A write to TICK_CHG_CTRL: HOLD and GROUP at once, then DISCARD, then ARM. -/
def State.writeChgCtrl (s : State) (v : W32) : State :=
  let s := s.setHold (v.getLsbD 0)
  let s := { s with chg := { s.chg with group := v.getLsbD 2 } }
  let s := if v.getLsbD 3 then s.discardChange else s
  if v.getLsbD 1 then s.armChange else s

/-! ### Fields that act at once (R10, R552) -/

/-- W1C. -/
def w1c (r v : W32) : W32 := r &&& ~~~v

/-- A leap request of this package (R181). -/
def State.askLeap (s : State) (src : Nat) : State := { s with tick := { s.tick with leapReqs := addNew s.tick.leapReqs src } }

/-- A doorbell (R459, R460, R486): one with RING 3 is ignored, with no effect at all (DEDUCED, log 65). -/
def State.doorbell (s : State) (v : W32) : State :=
  let i : Fin 16 := ⟨field v.toNat 19 16, Nat.lt_of_lt_of_le (Nat.mod_lt _ (by decide)) (by decide)⟩
  let n := BitVec.ofNat 16 (v.toNat % 2 ^ 16)
  let out : Out := match field v.toNat 21 20 with
    | 0 => execDbCommandTail i n s
    | 1 => execDbCompletionConsumed i n s
    | 2 => execDbEventConsumed i n s
    | _ => .next s
  match out with
  | .next t => t
  | _ => s

/-- The request that HSK_REQ spells (R521). -/
def hskOf (v : W32) : HskReq :=
  ⟨BitVec.ofNat 4 (field v.toNat 3 0), v.getLsbD 4, BitVec.ofNat 4 (field v.toNat 9 6), BitVec.ofNat 6 (field v.toNat 15 10)⟩

/-- ARR_CHECK_CTRL: LOCK takes effect as it arrives (R83, R559). -/
def Core.lockCheck (k : Core) : Core := { k with checkLock := true }

/-- Clearing bits of ARR_EVENT_STAT; LADDER_EXHAUSTED also clears ARR_FAULT_INFO (R84). -/
def Core.clearEvents (k : Core) (v : W32) : Core :=
  { k with eventStat := w1c k.eventStat v, faultInfo := if v.getLsbD evLadder then 0 else k.faultInfo }

/-- VALID of ARR_SEQ_EXC0 (R244). -/
def Core.clearExc (k : Core) : Core := { k with exc0 := 0, exc1 := 0 }

/-- What a write to a package register does at once (W1C, W1S, WO and unbuffered fields). -/
def State.pkgNow (s : State) (p : Path) (off : Nat) (v : W32) : State :=
  match off with
  | 0x014 => if v.getLsbD 0 then s.askLeap 0 else s
  | 0x018 => { s with tick := { s.tick with event := w1c s.tick.event v } }
  | 0x020 => if v.getLsbD 31 then { s with tick := { s.tick with losses := 0 } } else s
  | 0x024 => s.writeChgCtrl v
  | 0x028 => { s with chg := { s.chg with tgt0 := v } }
  | 0x02C => { s with chg := { s.chg with tgt1 := v &&& 0xFFFF } }
  | 0x114 => { s with grp := { s.grp with evt := w1c s.grp.evt v } }
  | 0x118 => s.setSel p 0 (v &&& 0x7FFF)
  | 0x120 => s.setSel p 1 (v &&& 0x7FF)
  | 0x214 => { s with load := { s.load with evt := w1c s.load.evt v } }
  | 0x318 => s.doorbell v
  | 0x31C => { s with rings := { s.rings with fwEvt := w1c s.rings.fwEvt v } }
  | 0x50C => { s with pow := { s.pow with evt := w1c s.pow.evt v } }
  | 0x604 => s.setSel p 2 (v &&& 0x7FF)
  | 0x608 =>
    let d := asDie (field (s.sel p 2) 4 0)
    let i := field (s.sel p 2) 10 5
    if v.getLsbD 13 && decide (i < sensorCount d.val) && ((s.die d).sensor i).excluded
    then s.modDie d fun x => x.modSensor i fun y => { y with readmit := true, agree := 0 } else s
  | 0x610 => { s with pow := { s.pow with tmonEvt := w1c s.pow.tmonEvt v } }
  | 0x700 => s.setSel p 3 (v &&& 0xFF_FFFF)
  | _ => s

/-- What a write to a die-block register does at once. -/
def State.dieNow (s : State) (d : DieId) (off : Nat) (v : W32) : State :=
  let sv := d.val - 24
  match off with
  | 0x008 =>
    let drops := BitVec.ofNat 16 (v.toNat / 2 ^ 16)
    (s.dropGroups d drops).strobeGroups d (BitVec.ofNat 16 v.toNat) drops
  | 0x010 => if v.getLsbD 22 then s.modDie d fun x => { x with cfgFault := 0 } else s
  | 0x104 => if v.getLsbD 30 then s.modDie d fun x => { x with domRefused := false } else s
  | 0x204 => s.modDie d fun x => { x with redEvt := w1c x.redEvt v }
  | 0x208 => if v.getLsbD 31 then s.modDie d fun x => { x with eccCorr := 0 } else s
  | 0x20C => if v.getLsbD 31 then s.modDie d fun x => { x with eccRetry := 0 } else s
  | 0x300 => s.modDie d fun x => x.request (hskOf v) (v.getLsbD 5)
  | 0x308 => s.modDie d fun x => { x with hskEvt := w1c x.hskEvt v }
  | 0x408 => s.modSd sv fun x => { x with attnEvt := w1c x.attnEvt v }
  | 0x41C => s.modSd sv fun x => { x with serveEvt := w1c x.serveEvt v }
  | 0x428 => if v.getLsbD 31 then s.modSd sv fun x => { x with offered := 0, accepted := 0 } else s
  | _ => s

/-- What a write to a core-block register does at once. -/
def State.coreNow (s : State) (c : CoreId) (off : Nat) (v : W32) : State :=
  s.modCore c fun k => match off with
    | 0x000 => if v.getLsbD 1 then k.lockCheck else k
    | 0x004 => k.clearEvents v
    | 0x014 => if v.getLsbD 31 then { k with fsCount := 0 } else k
    | 0x020 => { k with numStat := w1c k.numStat v }
    | 0x024 => if v.getLsbD 31 then { k with clamps := 0 } else k
    | 0x028 => if v.getLsbD 31 then { k with zeroBlocks := 0, outlierOvf := 0 } else k
    | 0x044 => { k with marginEvt := w1c k.marginEvt v }
    | 0x084 => if v.getLsbD 31 then k.clearExc else k
    | _ => k

/-- A write of one word to the control space (R10, R542, R550, R552); `none` is a bus error, which has no effect. -/
def State.regWrite (s : State) (p : Path) (a : Nat) (v : W32) : Option State :=
  if (s.readReg p a).isNone then none
  else
    let s := s.bufferWrite p a v
    match placeOf a with
    | .pkg off => some (s.pkgNow p off v)
    | .die d off => some (s.dieNow d off v)
    | .core c off => some (s.coreNow c off v)
    | _ => none

/-- REGISTER_WRITE (R552): the whole word, each field under its access code. -/
def execRegisterWrite (p : Path) (addr : Nat) (v : W32) (s : State) : Out :=
  if s.power ≠ 0 then .next s else .next ((s.regWrite p addr v).getD s)

/-! ### Fields with a row of their own -/

/-- LEAP_REQ (R181, R204). -/
def execLeapReq (_p : Path) (s : State) : Out := .next (if s.power ≠ 0 then s else s.askLeap 0)

/-- HOLD (R533). -/
def execHold (_p : Path) (on : Bool) (s : State) : Out := .next (if s.power ≠ 0 then s else s.setHold on)

/-- ARM (R533). -/
def execArm (_p : Path) (s : State) : Out := .next (if s.power ≠ 0 then s else s.armChange)

/-- DISCARD (R540). -/
def execDiscard (_p : Path) (s : State) : Out := .next (if s.power ≠ 0 then s else s.discardChange)

/-- STROBE (R555, R563). -/
def execStrobe (_p : Path) (d : DieId) (groups : BitVec 16) (s : State) : Out :=
  .next (if s.power ≠ 0 then s else s.strobeGroups d groups 0)

/-- DROP (R563). -/
def execDrop (_p : Path) (d : DieId) (groups : BitVec 16) (s : State) : Out :=
  .next (if s.power ≠ 0 then s else s.dropGroups d groups)

/-- A write to a core's block: a bus error without effect where the core cannot be reached (R550). -/
def State.atCore (s : State) (c : CoreId) (f : Core → Core) : State := if s.power == 0 && s.coreReach c then s.modCore c f else s

/-- CHECK_LOCK (R83, R559). -/
def execCheckLock (_p : Path) (c : CoreId) (s : State) : Out := .next (s.atCore c Core.lockCheck)

/-- LADDER_EXHAUSTED_CLEAR (R84). -/
def execLadderExhaustedClear (_p : Path) (c : CoreId) (s : State) : Out := .next (s.atCore c fun k => k.clearEvents 0x20)

/-- EXCEPTION_RECORD_CLEAR (R244). -/
def execExceptionRecordClear (_p : Path) (c : CoreId) (s : State) : Out := .next (s.atCore c Core.clearExc)

/-- CONFIG_FAULT_CLEAR (R565). -/
def execConfigFaultClear (_p : Path) (d : DieId) (s : State) : Out :=
  .next (if s.power ≠ 0 then s else s.modDie d fun x => { x with cfgFault := 0 })

/-- FS_COUNT_CLEAR (R87). -/
def execFsCountClear (_p : Path) (c : CoreId) (s : State) : Out := .next (s.atCore c fun k => { k with fsCount := 0 })

/-- CLAMPS_CLEAR (R126). -/
def execClampsClear (_p : Path) (c : CoreId) (s : State) : Out := .next (s.atCore c fun k => { k with clamps := 0 })

/-- QEVENT_CLEAR (R127). -/
def execQeventClear (_p : Path) (c : CoreId) (s : State) : Out := .next (s.atCore c fun k => { k with zeroBlocks := 0, outlierOvf := 0 })

/-- LOSSES_CLEAR (R206). -/
def execLossesClear (_p : Path) (s : State) : Out :=
  .next (if s.power ≠ 0 then s else { s with tick := { s.tick with losses := 0 } })

/-- CORRECTED_CLEAR (R307). -/
def execCorrectedClear (_p : Path) (d : DieId) (s : State) : Out :=
  .next (if s.power ≠ 0 then s else s.modDie d fun x => { x with eccCorr := 0 })

/-- RETRIES_CLEAR (R307). -/
def execRetriesClear (_p : Path) (d : DieId) (s : State) : Out :=
  .next (if s.power ≠ 0 then s else s.modDie d fun x => { x with eccRetry := 0 })

/-- DRAFTS_CLEAR (R379). -/
def execDraftsClear (_p : Path) (sv : ServeId) (s : State) : Out :=
  .next (if s.power ≠ 0 then s else s.modSd sv.val fun x => { x with offered := 0, accepted := 0 })

/-- RAIL_READING (R490, R492): the power core writes PWRG_BASE; a value out of its range is ignored when it would apply. -/
def execRailReading (baseWatts : Nat) (s : State) : Out :=
  if s.power ≠ 0 || !s.fw.pwr.runs || decide (0xFFF < baseWatts) then .next s
  else .next (s.bufferWrite .firmware 0x504 (BitVec.ofNat 32 baseWatts))

/-! ### Parity (R560, R561) -/

/-- The package enters holdover (R426). -/
def State.enterHoldover (s : State) : State :=
  if s.fab.holdover then s
  else { s with fab := { s.fab with holdover := true, lock := false }, grp := { s.grp with evt := setBit s.grp.evt 6 } }

/-- TICK_CFG_FAULT after a fault at a control address (R565). -/
def Die.configFault (d : Die) (a block : Nat) (pkg : Bool) : Die :=
  if d.cfgFault.getLsbD 22 then { d with cfgFault := setBit d.cfgFault 21 }
  else { d with cfgFault := BitVec.ofNat 32 (a % 2 ^ 16 + 2 ^ 16 * block + 2 ^ 20 * bit pkg + 2 ^ 22) }

/-- Safe states that raise a package fault (R561). -/
def safeFault : Place → Bool
  | .pkg 0x11C | .pkg 0x124 => true
  | .core _ off => decide (0x08C ≤ off ∧ off ≤ 0x0A0)
  | _ => false

/-- The safe state of a register (R561), for the entry or the copy that a path selects. -/
def State.safeState (s : State) (p : Path) : Place → State
  | .die d 0x000 | .die d 0x004 =>
    let s := s.modDie d fun x => { x with updMap0 := 0, updMap1 := 0 }
    { s with chg := { s.chg with waiting := s.chg.waiting.filter fun w => w.die != d } }
  | .pkg 0x028 | .pkg 0x02C =>
    if s.chg.armed.isSome then { s with chg := { s.chg with armed := none, result := 2, aMoves := 0 } } else s
  | .die d 0x100 => s.modDie d fun x => { x with domCtrl := x.domReady.setWidth 32, domPower := x.domReady }
  | .pkg 0x500 => { s with pow := { s.pow with limit := 2000 } }
  | .pkg 0x504 => { s with pow := { s.pow with base := s.fuses.baseMax } }
  | .pkg 0x600 => { s with pow := { s.pow with throttle := 95, slope := 2, compat := false } }
  | .core c 0x000 => s.modCore c fun k => { k with checkDis := false }
  | .core c 0x040 => s.modCore c fun k => { k with scanCtrl := 0xEC }
  | .core c off =>
    if 0x08C ≤ off ∧ off ≤ 0x0A0 then s.modCore c fun k => { k with prog1 := 0, cwin1 := 0, dwin1 := 0, seqSafe := true } else s
  | .pkg 0x11C =>
    let x := s.sel p 0
    { s with fab := { s.fab with shares := smSet shareDefault s.fab.shares (shareKey (field x 4 0) (field x 8 5) (field x 14 9)) 0 } }
  | .pkg 0x124 =>
    let i := s.sel p 1
    if i < 64 then { s with fab := { s.fab with localRoute := smSet (localDefault s.fab.pos.toNat) s.fab.localRoute i 15 } }
    else if i < 1088 then { s with fab := { s.fab with rackRoute := smSet (fun _ => 15) s.fab.rackRoute (i - 64) 15 } } else s
  | .pkg 0x104 => ({ s with fab := { s.fab with trim := 0 } }).enterHoldover
  | .die d 0x400 =>
    let s := s.modSd (d.val - 24) fun x => { x with budget := 0 }
    if s.fw.sch.runs then s.bufferWrite .firmware (0x10_0000 + d.val * 0x1_0000 + 0x400) (BitVec.ofNat 32 (attnBudget s.tick.basePeriod)) else s
  | .pkg 0x30C | .pkg 0x310 => { s with rings := { s.rings with stopped := true } }
  | .pkg 0x314 => { s with rings := { s.rings with ringAdmin := 0 } }
  | .pkg 0x118 => s.setSel p 0 0
  | .pkg 0x120 => s.setSel p 1 0
  | .pkg 0x604 => s.setSel p 2 0
  | .pkg 0x700 => s.setSel p 3 0
  | _ => s

/-- The register has an RW or RW-L field and so a parity bit (R560). -/
def State.hasParity (s : State) (pl : Place) : Bool :=
  s.rwMask pl != 0 || (match pl with
    | .pkg off => [0x024, 0x028, 0x02C, 0x118, 0x120, 0x604, 0x700].contains off
    | _ => false)

/-- A block of R554 holds the register: the TICK_UPD_ and TICK_CHG_ registers lie in none. -/
def inBlock : Place → Bool
  | .pkg off => decide (off < 0x024 ∨ 0x030 < off)
  | .die _ off => decide (0x010 ≤ off)
  | _ => true

/-- CONFIG_PARITY_CHECK (R560, R561, R565): a mismatch in the register at an address is recorded, the block's buffered writes are dropped, and the
block goes to its safe state. -/
def execConfigParityCheck (p : Path) (addr : Nat) (s : State) : Out :=
  let pl := placeOf addr
  match blockOf pl with
  | none => .next s
  | some (d, b) =>
    if s.power ≠ 0 || (s.readReg p addr).isNone || !s.hasParity pl then .next s
    else
      let s := s.modDie d fun x => x.configFault addr b (safeFault pl)
      let keep (w : BufWrite) : Bool := !(inBlock pl && w.die == d && w.block == b)
      let k := s.chg
      let s := { s with chg := { k with
          waiting := k.waiting.filter keep, pending := k.pending.filter keep
          armed := k.armed.map fun (x : List BufWrite × W48) => (x.1.filter keep, x.2) } }
      let s := s.safeState p pl
      .next (if safeFault pl then s.packageFault 5 else s)

/-! ### Management messages (R544) -/

/-- Position p of optical die o carries light: the die works, and the eye-safety limit has not disabled the port (R35, R36, R577). -/
def State.portLit (s : State) (o p : Nat) : Bool := !s.fab.optFailed.contains o && !s.fab.eyeOff.contains (o, p)

/-- The management port, at position 8 of O1 (R35, R577). -/
def State.mgmtUp (s : State) : Bool := s.portLit 1 8

/-- A front-end port: FE0 of C0 at position 8 of O0, FE1 of C1 at position 8 of O3 (R35, R577). The device takes no part in its traffic (R392). -/
def State.frontEndUp (s : State) (east : Bool) : Bool := s.portLit (if east then 3 else 0) 8

/-- The package answers the source (R544), through its management port. -/
def State.answers (s : State) (m : MgmtMsg) : Bool :=
  let l := Config.bootAllow s.fw.cfg
  s.power == 0 && s.mgmtUp && decide (1 ≤ m.count ∧ m.count ≤ 64) && (if l.isEmpty then m.linkLocal else l.contains m.source)

/-- A response sent and kept: the last 16. -/
def State.respond (s : State) (m : MgmtMsg) (status index : Nat) (words : List W32) : State :=
  { s with fw := { s.fw with
      kept := ((⟨m.source, m.seq, status, index, words⟩ : Kept) :: s.fw.kept).take 16
      out := s.fw.out ++ [.response status index words] } }

/-- A kept response to the same source and SEQ. -/
def State.keptFor (s : State) (m : MgmtMsg) : Option Kept := s.fw.kept.find? fun k => k.source == m.source && k.seq == m.seq

/-- A kept response sent again. -/
def State.resend (s : State) (k : Kept) : State := { s with fw := { s.fw with out := s.fw.out ++ [.response k.status k.index k.words] } }

/-- Words read one after another, each latching its shadows, up to the first bus error. -/
def readWords (s : State) (a : Nat) : Nat → State × List W32 × Bool
  | 0 => (s, [], true)
  | n + 1 => match s.readWord .mgmt a with
    | none => (s, [], false)
    | some v =>
      let r := readWords (s.latch .mgmt a) (a + 4) n
      (r.1, BitVec.ofNat 32 v :: r.2.1, r.2.2)

/-- Words written one after another, up to the first bus error, with their number. -/
def writeWords (s : State) (a : Nat) : List W32 → State × Nat × Bool
  | [] => (s, 0, true)
  | v :: vs => match s.regWrite .mgmt a v with
    | none => (s, 0, false)
    | some t =>
      let r := writeWords t (a + 4) vs
      (r.1, r.2.1 + 1, r.2.2)

/-- MGMT_READ (R544). -/
def execMgmtRead (m : MgmtMsg) (s : State) : Out :=
  if !s.answers m then .next s
  else match s.keptFor m with
    | some k => .next (s.resend k)
    | none =>
      if m.serial ≠ s.fuses.serial then .next (s.respond m 2 0 [])
      else
        let r := readWords s m.addr m.count
        .next (r.1.respond m (if r.2.2 then 0 else 1) r.2.1.length r.2.1)

/-- MGMT_WRITE (R544): a message whose COUNT is not the number of its words is not a message of R544. -/
def execMgmtWrite (m : MgmtMsg) (words : List W32) (s : State) : Out :=
  if !s.answers m || words.length != m.count then .next s
  else match s.keptFor m with
    | some k => .next (s.resend k)
    | none =>
      if m.serial ≠ s.fuses.serial then .next (s.respond m 2 0 [])
      else
        let r := writeWords s m.addr words
        .next (r.1.respond m (if r.2.2 then 0 else 1) r.2.1 [])

end Sys2Proof.Machine
end

