-- ==== Sys2Proof/Machine/Change.lean ====
section
/-! DEFINITION. The pending and the armed change: reports, refusals, power domains, what each buffered write does when it applies (R23 to R30, R286,
R495, R501, R533 to R541). -/
namespace Sys2Proof.Machine

/-! ### Power domains (R24 to R30) -/

/-- A request state of PWRG_DOM_CTRL keeps the dependencies of R25. -/
def domLegal (v : W32) : Bool :=
  (List.range 4).all fun c =>
    (v.getLsbD (16 + c) || !((List.range 4).any fun q => v.getLsbD (4 * c + q)))
    && (v.getLsbD (20 + c / 2) || !v.getLsbD (16 + c))

/-- The almanac in force runs a slot on core c. -/
def State.almUses (s : State) (c : CoreId) : Bool :=
  match s.coreEnt c with
  | some e => e.slots.any fun r => r.entry != 0xFFFF_FFFF
  | none => false

/-- A layer of the running almanac has an array in quarter q of core c (R388). -/
def State.almQuarter (s : State) (c : CoreId) (q : Nat) : Bool :=
  s.almUses c && match s.coreEnt c with
    | some e => (List.range e.layers).any fun i =>
        let d := (s.core c).layerDir i
        (List.range (d.kspan * (d.cols / 256))).any fun j => quarterOf (s.phys c (d.abase + j)) == q
    | none => false

/-- An array or spare of quarter q takes part in a holiday. -/
def Core.holidayIn (k : Core) (q : Nat) : Bool := k.holidays.any fun h => quarterOf h.orig == q || quarterOf h.spare == q

/-- The running almanac's traffic passes a router of a half of die d, its reductions in that half among it (R278 to R282, R288). -/
def State.routesIn (s : State) (d : DieId) (half : Nat) : Bool :=
  match s.alm with
  | some a => a.ways.any (fun w => w.any fun x => x.1 == d.val && x.2.1 / 2 == half)
      || (List.range a.slots).any fun i => (slotReductions a i).any fun r => match a.routes[r]? with
        | some e => e.destMember == s.member && e.destDie == d.val && e.destUnit / 8 == half
        | none => false
  | none => false

/-- Core of a UNIT, when its die is a weight die (R516). -/
def unitCore (u : W32) : Option CoreId := if u.toNat % 32 < 24 then some (asCore (4 * (u.toNat % 32) + u.toNat / 32 % 4)) else none

/-- A self-test that has not ended needs domain i of die d (R27, R516): the quarter of its arrays, the logic of its core and the half that this depends on, both network halves for a test of
routers and reducers. It is in progress from its command to its end (DEDUCED, log 66). -/
def SelfTest.needs (t : SelfTest) (d i : Nat) : Bool :=
  t.unit.toNat % 32 == d &&
  match unitCore t.unit with
  | none => false
  | some c =>
    let l := c.val % 4
    if i < 16 then decide (t.kind ≤ 1) && i / 4 == l && t.todo.any fun p => quarterOf p == i % 4
    else if i < 20 then decide (t.kind ≤ 1 ∨ t.kind = 4) && i - 16 == l
    else decide (t.kind = 5) || (decide (t.kind ≤ 1 ∨ t.kind = 4) && i - 20 == l / 2)

/-- The power core refuses to switch off domain i of die d (R27): the almanac uses it, a holiday lies in it, or a self-test needs it. -/
def State.domNeeded (s : State) (d : DieId) (i : Nat) : Bool :=
  if i < 22 && s.pow.tests.any fun t => t.needs d.val i then true
  else if i < 16 then
    let c := asCore (4 * d.val + i / 4)
    s.almQuarter c (i % 4) || (s.core c).holidayIn (i % 4)
  else if i < 20 then
    let c := asCore (4 * d.val + (i - 16))
    s.almUses c || !(s.core c).holidays.isEmpty
  else if i < 22 then
    let half := [2 * (i - 20), 2 * (i - 20) + 1].map fun l => asCore (4 * d.val + l)
    half.any (fun c => s.almUses c || !(s.core c).holidays.isEmpty) || s.routesIn d (i - 20)
  else false

/-- A write to PWRG_DOM_CTRL is refused under R25 or R27. -/
def State.domRefuses (s : State) (d : DieId) (v : W32) : Bool :=
  !domLegal v || (List.range 26).any fun i => (s.die d).domCtrl.getLsbD i && !v.getLsbD i && s.domNeeded d i

/-- CORE_RESET (R551): the core's block, lock bits and core state; what lies in its cells, and the tables of its arrays, stay. -/
def coreReset (c : CoreId) (k : Core) : Core :=
  { coreDefault c.val with arrays := k.arrays, arrayMap := k.arrayMap, mapNext := k.mapNext, marginBase := Config.marginBase c.val }

/-- The shadows and buffered writes of a core's block go (R551). -/
def State.clearBlock (s : State) (c : CoreId) : State :=
  let mine (a : Nat) : Bool := placeOf a == .core c (a % 0x1000)
  let k := s.chg
  { s with
    regs := { s.regs with shadow := s.regs.shadow.filter fun e => !mine (e.1 % 2 ^ 40) }
    chg := { k with
      waiting := k.waiting.filter fun w => !mine w.addr, pending := k.pending.filter fun w => !mine w.addr
      armed := k.armed.map fun (x : List BufWrite × W48) => (x.1.filter (fun w => !mine w.addr), x.2) } }

/-- The routers and reducers of a network half lose what they hold (R24). -/
def State.halfOff (s : State) (d : DieId) (east : Bool) : State :=
  let gone (f : Flit) : Bool := f.die == d && (decide (2 ≤ f.router)) == east
  { s with
    flits := s.flits.filter fun f => !gone f
    reducers := s.reducers.filter fun r => !(r.1 / 16 == d.val && (decide (8 ≤ r.1 % 16)) == east) }

/-- POWER_DOMAIN_CHANGE (R26): domains switched off are removed; a core-logic domain switched on resets its core. A PHY switched off takes its links down at both ends, and one
switched on begins to train those whose other end has power (R15, R24). -/
def State.applyDomains (s : State) (d : DieId) (v : W32) : State :=
  let old := (s.die d).domCtrl
  let off (i : Nat) : Bool := old.getLsbD i && !v.getLsbD i
  let on (i : Nat) : Bool := !old.getLsbD i && v.getLsbD i
  let s := s.modDie d fun x => { x with
    domCtrl := v, domPower := x.domPower &&& v.setWidth 26, domReady := x.domReady &&& v.setWidth 26, domUse := x.domUse &&& v.setWidth 26 }
  let s := (List.range 4).foldl (fun (s : State) i => if off (22 + i) then s.setPort d i 0 else s) s
  let s := s.startTraining d.val ((List.range 4).filter fun i => on (22 + i))
  let s := (List.range 4).foldl (fun s c =>
    let id := asCore (4 * d.val + c)
    if off (16 + c) || on (16 + c) then (s.modCore id (coreReset id)).clearBlock id else s) s
  let s := if off 20 then s.halfOff d false else s
  if off 21 then s.halfOff d true else s

/-- A domain switched on can be used from the first eve after its ready bit set (R26). -/
def State.useReady (s : State) : State := (List.range 24).foldl (fun s d => s.modDie (asDie d) fun x => { x with domUse := x.domReady }) s

/-- DOMAIN_READY (R24, R30): a requested domain is powered; every domain but an array bank is ready with it. -/
def execDomainReady (d : DieId) (bit : Fin 26) (s : State) : Out :=
  let x := s.die d
  let i := bit.val
  if s.power ≠ 0 || decide (24 ≤ d.val) || !x.domCtrl.getLsbD i || x.domPower.getLsbD i then .next s
  else .next (s.modDie d fun x => { x with
    domPower := x.domPower ||| (1#26 <<< i)
    domReady := if i < 16 then x.domReady else x.domReady ||| (1#26 <<< i) })

/-! ### What a write does when it applies -/

/-- TRIM in force (R423): every slot boundary lies TRIM before its receipt, so that the count runs TRIM / 128 slots ahead of the received one, and the eve the rest of TRIM before a
received boundary. -/
def Fabric.setTrim (f : Fabric) (v : W32) : Fabric :=
  let old := f.trim.toNat % 2 ^ 16
  let new := v.toNat % 2 ^ 16
  { f with
    trim := v, count := f.count + BitVec.ofNat 64 (new / 128) - BitVec.ofNat 64 (old / 128)
    evePhase := f.evePhase - 100 * (((new % 128 : Nat) : Int) - ((old % 128 : Nat) : Int)) }

/-- A write of a package register in force. -/
def State.applyPkg (s : State) (off entry : Nat) (v : W32) : State :=
  let n := v.toNat
  match off with
  | 0x104 => { s with fab := s.fab.setTrim v }
  | 0x11C =>
    { s with fab := { s.fab with shares := smSet shareDefault s.fab.shares (shareKey (field entry 4 0) (field entry 8 5) (field entry 14 9)) n } }
  | 0x124 =>
    if entry < 64 then { s with fab := { s.fab with localRoute := smSet (localDefault s.fab.pos.toNat) s.fab.localRoute entry n } }
    else { s with fab := { s.fab with rackRoute := smSet (fun _ => 15) s.fab.rackRoute (entry - 64) n } }
  | 0x30C => { s with rings := { s.rings with ringTab0 := v, stopped := false } }
  | 0x310 => { s with rings := { s.rings with ringTab1 := v, stopped := false } }
  | 0x314 => { s with rings := { s.rings with ringAdmin := v } }
  | 0x500 => if 1000 ≤ n ∧ n ≤ 2400 then { s with pow := { s.pow with limit := n } } else s.boundHit 0
  | 0x504 => if 600 ≤ n ∧ n ≤ s.fuses.baseMax then { s with pow := { s.pow with base := n } } else s
  | 0x600 =>
    let th := field n 6 0
    let sl := field n 10 7
    let s := { s with pow := { s.pow with compat := v.getLsbD 11, slope := if 1 ≤ sl ∧ sl ≤ 8 then sl else s.pow.slope } }
    if 80 ≤ th ∧ th ≤ 105 then { s with pow := { s.pow with throttle := th } } else s.boundHit 1
  | _ => s

/-- A write of a core-block register in force. A PROG_LEN above its bound is ignored (DESIGN CHOICE, log 27). -/
def Core.applyReg (k : Core) (off : Nat) (v : W32) : Core :=
  match off with
  | 0x000 => { k with checkDis := v.getLsbD 0 }
  | 0x040 => { k with scanCtrl := v }
  | 0x08C => { k with prog0 := v, seqSafe := false }
  | 0x090 => if v.toNat ≤ 0x40_0000 then { k with prog1 := v, seqSafe := false } else k
  | 0x094 => { k with cwin0 := v, seqSafe := false }
  | 0x098 => { k with cwin1 := v, seqSafe := false }
  | 0x09C => { k with dwin0 := v, seqSafe := false }
  | 0x0A0 => { k with dwin1 := v, seqSafe := false }
  | _ => k

/-- A write that switches power domains, which takes force in step 8 of R169. -/
def BufWrite.domains (w : BufWrite) : Option DieId := match placeOf w.addr with
  | .die d 0x100 => some d
  | _ => none

/-- A buffered write takes force (R552 to R555), but for the power domains (R169). -/
def State.applyWrite (s : State) (w : BufWrite) : State :=
  match placeOf w.addr with
  | .pkg off => s.applyPkg off w.entry w.value
  | .die d 0x000 => s.modDie d fun x => { x with updMap0 := w.value }
  | .die d 0x004 => s.modDie d fun x => { x with updMap1 := w.value }
  | .die d 0x400 =>
    { s with tick := { s.tick with budgetSet := addNew s.tick.budgetSet (d.val - 24) } }.modSd (d.val - 24) fun x => { x with budget := w.value.toNat }
  | .core c off => s.modCore c fun k => k.applyReg off w.value
  | _ => s

/-- Power-domain changes (step 8 of R169), and the domains that can be used from this eve on (R26). -/
def State.domainEve (s : State) (ws : List BufWrite) : State :=
  (ws.foldl (fun s w => match w.domains with
    | some d => s.applyDomains d w.value
    | none => s) s).useReady

/-! ### Refusals (R25, R27, R286, R536) -/

/-- The share table after the share writes of a change. -/
def sharesAfter (s : State) (ws : List BufWrite) : SMap Nat :=
  ws.foldl (fun m w => if w.addr = 0x11C then
    smSet shareDefault m (shareKey (field w.entry 4 0) (field w.entry 8 5) (field w.entry 14 9)) w.value.toNat else m) s.fab.shares

/-- Dies whose tables the share writes of a change name. -/
def shareDies (ws : List BufWrite) : List Nat := (ws.filter fun w => w.addr == 0x11C).map fun w => field w.entry 4 0

/-- Share writes that apply together would take a port above 64 (R286). -/
def sharesOver (s : State) (ws : List BufWrite) : Bool :=
  let m := sharesAfter s ws
  (ws.filter fun w => w.addr == 0x11C).any fun w =>
    decide (64 < (List.range 64).foldl (fun t c => t + smGet shareDefault m (shareKey (field w.entry 4 0) (field w.entry 8 5) c)) 0)

/-- Dies whose PWRG_DOM_CTRL write in a change is refused. -/
def domRefusals (s : State) (ws : List BufWrite) : List DieId :=
  ws.filterMap fun w => match w.domains with
    | some d => if s.domRefuses d w.value then some d else none
    | none => none

/-- SHARE_REFUSED on every die that a refused share write names, BOUND_HIT where firmware asked for it (R455, R456), and REFUSED of the refused domain writes; `none` when nothing of the change is refused. `together` are all writes that would
apply at its apply point. -/
def State.refusedBy (s : State) (ws together : List BufWrite) : Option State :=
  let sh := if sharesOver s together then shareDies ws else []
  let dm := domRefusals s ws
  if sh.isEmpty && dm.isEmpty then none
  else
    let s := sh.foldl (fun s d => s.modDie (asDie d) fun x => x.red 6) s
    let s := if !sh.isEmpty && ws.any (fun w => w.addr == 0x11C && w.path == .firmware) then s.boundHit 3 else s
    some (dm.foldl (fun s d => s.modDie d fun x => { x with domRefused := true }) s)

/-! ### Reports (R534, R535, R537) -/

/-- A block of a die on which a self-test of KIND 4 or 5 runs (R537). -/
def State.testNak (s : State) (w : BufWrite) : Option Nat :=
  if s.pow.tests.any fun t => t.state == 3 && (t.kind == 4 || t.kind == 5) && t.unit.toNat % 32 == w.die.val then some 3 else none

/-- Report of one write for a change that would first run in tick n: the NAK cause. -/
def State.nakOf (s : State) (w : BufWrite) (n : W48) : Option Nat :=
  match placeOf w.addr with
  | .pkg 0x104 => if s.fab.holdover then some 4 else s.testNak w
  | .die d 0x400 =>
    if s.srv.ledger.any fun e => e.die % 2 == d.val - 24 && e.die / 2 == s.member && (e.tick == n || laterThan e.tick n)
        && decide (4096 * w.value.toNat < e.bytes) then some 2 else s.testNak w
  | _ => s.testNak w

/-- The last report of a change that cannot be taken: die and cause. -/
def State.nakIn (s : State) (ws : List BufWrite) (n : W48) : Option (Nat × Nat) :=
  ws.foldl (fun a w => match s.nakOf w n with | some c => some (w.die.val, c) | none => a) none

/-- The later of two ticks. -/
def maxTick (a b : W48) : W48 := if laterThan b a then b else a

/-- The writes of the pending change that an eve evaluates: those that joined it before 0 ns (R555). -/
def Change.due (k : Change) : List BufWrite := k.pending.filter fun w => !w.late

/-- CHANGE_REPORT (R534, R535): a package change is reported for its target at this eve, a group change for the apply point two eves later. -/
def execChangeReport (s : State) : Out :=
  if s.power ≠ 0 || s.tick.phase != .eve then .next s
  else
    let k := s.chg
    let t := s.tick.count
    let p := s.nakIn k.due (t + 1)
    let a := match k.armed with
      | some x => s.nakIn x.1 (maxTick x.2 (if k.group then t + 3 else t + 1))
      | none => none
    let last := match a with | some x => some x | none => p
    .next { s with
      tick := { s.tick with phase := .reported }
      chg := { k with
        pNak := p.isSome, aNak := a.isSome
        nakDie := (last.map Prod.fst).getD k.nakDie, nakCause := (last.map Prod.snd).getD k.nakCause } }

/-! ### Applying (R534 to R536) -/

/-- The writes of the pending change that wait for the next eve (R555), and the dies with strobed ones among them. -/
def Change.lateOnes (k : Change) : List BufWrite := k.pending.filter BufWrite.late

/-- Dies with strobed writes among those (R564). -/
def Change.lateDies (k : Change) : List Nat := (k.lateOnes.filter fun w => decide (w.group ≠ 0)).map fun w => w.die.val

/-- The writes of the pending change that this apply point would apply. -/
def Change.pendNow (k : Change) : List BufWrite := if k.hold || k.pNak || decide (16 < k.pMoves) then [] else k.due

/-- A stamp of the previous eve carries CHANGE_NAK: its member. -/
def State.stampNaks (s : State) : Option Nat :=
  (s.grp.stamps.filter fun x => x.tick == s.tick.count - 1 && x.changeNak).foldl (fun _ x => some x.member) none

/-- The armed change is held back at this apply point: a NAK, or writes that came too late for its evaluation. -/
def State.armedHeld (s : State) (ws : List BufWrite) : Bool :=
  (if s.chg.group then s.stampNaks.isSome else s.chg.aNak) || ws.any BufWrite.late

/-- The armed change waits for its target, or for its rollback; a target not later than the next tick stands for the next tick (R164). -/
def State.armedWaits (s : State) (target : W48) : Bool := laterThan target (s.tick.count + 1) || decide (16 < s.chg.aMoves)

/-- The writes of the armed change that this apply point would apply. -/
def State.armedNow (s : State) : List BufWrite := match s.chg.armed with
  | some x => if s.armedWaits x.2 || s.armedHeld x.1 then [] else x.1
  | none => []

/-- A change evaluated with all that applies at the same apply point, or alone where it does not apply yet. -/
def withOthers (ws now : List BufWrite) : List BufWrite := if ws.all now.contains then now else ws

/-- Refusals (R536), before the almanac patches of the same apply point, so that such a refusal stands (R27): a change of which any write is refused goes
whole. Share writes of both changes that apply at this apply point are judged together (R286). -/
def State.refuseChanges (s : State) : State :=
  let now := s.chg.pendNow ++ s.armedNow
  let s := if s.chg.hold || s.chg.due.isEmpty then s
    else match s.refusedBy s.chg.due (withOthers s.chg.due now) with
      | some t => { t with chg := { t.chg with pending := t.chg.lateOnes, eligible := t.chg.lateDies, pMoves := 0, moves := min 16 t.chg.pMoves, result := 2 } }
      | none => s
  match s.chg.armed with
  | none => s
  | some x =>
    let ws := x.1.filter fun w => !w.late
    match s.refusedBy ws (withOthers ws now) with
    | some t => { t with chg := { t.chg with armed := none, aMoves := 0, moves := min 16 t.chg.aMoves, result := 2 } }
    | none => s

/-- The pending change at the apply point of a tick (PACKAGE_CHANGE_APPLY): applied, or moved; with the writes applied. -/
def State.applyPending (s : State) : State × List BufWrite :=
  let k := s.chg
  if k.hold || k.due.isEmpty || decide (16 < k.pMoves) then (s, [])
  else if k.pNak then ({ s with chg := { k with pMoves := k.pMoves + 1, moves := min 16 (k.pMoves + 1) } }, [])
  else
    let s := k.due.foldl State.applyWrite s
    ({ s with chg := { s.chg with pending := k.lateOnes, eligible := k.lateDies, pMoves := 0, moves := k.pMoves, result := 1 } }, k.due)

/-- The armed change at an apply point: it waits for its target, moves, or applies; with the writes applied. -/
def State.applyArmed (s : State) : State × List BufWrite :=
  let k := s.chg
  match k.armed with
  | none => (s, [])
  | some x =>
    let stamp := if k.group then s.stampNaks else none
    let s := { s with chg := { s.chg with nakMember := stamp.getD k.nakMember } }
    if s.armedWaits x.2 then (s, [])
    else if s.armedHeld x.1 then
      ({ s with chg := { s.chg with armed := some (x.1, s.tick.count + 2), aMoves := k.aMoves + 1, moves := min 16 (k.aMoves + 1) } }, [])
    else
      let s := x.1.foldl State.applyWrite s
      ({ s with chg := { s.chg with armed := none, aMoves := 0, moves := k.aMoves, result := 1 } }, x.1)

/-- The late writes stand in the change that the next eve evaluates (R555). -/
def State.joinLate (s : State) : State :=
  let on (w : BufWrite) : BufWrite := { w with late := false }
  { s with chg := { s.chg with
      pending := s.chg.pending.map on
      armed := s.chg.armed.map fun (x : List BufWrite × W48) => (x.1.map on, x.2) } }

/-- CHANGE_ROLLBACK (R536): a change that could not apply at its target + 16 is discarded. -/
def execChangeRollback (s : State) : Out :=
  let k := s.chg
  if s.power ≠ 0 || s.tick.phase ≠ .applied then .next s
  else
    let k := if 16 < k.pMoves then { k with pending := [], eligible := [], pMoves := 0, moves := 16, result := 3 } else k
    let k := if 16 < k.aMoves then { k with armed := none, aMoves := 0, moves := 16, result := 3 } else k
    .next { s with chg := k }

/-- The budget of serving die 2 × member + S that new tokens are placed against, in bytes (R538): the lowest of the value in force and of those staged; another member's is free (log 17). -/
def State.placeBudget (s : State) (key : Nat) : Nat :=
  let d := key % 2
  let k := s.chg
  let ws := (if k.hold then [] else k.pending) ++ (match k.armed with | some x => x.1 | none => [])
  let staged := ws.filterMap fun w => match placeOf w.addr with
    | .die e 0x400 => if e.val - 24 = d then some w.value.toNat else none
    | _ => none
  4096 * (if key / 2 = s.member then staged.foldl min (s.sd d).budget else Config.peerBudget (key / 2) d s.tick.count.toNat)

end Sys2Proof.Machine
end

