-- ==== Sys2Proof/Machine/Image.lean ====
section
/-! DEFINITION. Dreby images: the metadata region, its checks, and the checks of sections (R380 to R391). -/
namespace Sys2Proof.Machine

/-- An entry of the shard table or of the auxiliary table (R383): for a shard, UNIT is the core and KIND the bank. -/
structure SecEnt where
  shard : Bool
  off : Nat
  len : Nat
  member : Nat
  unit : Nat
  kind : Nat
  fp4 : Bool
  load : Nat
  digest : BitVec 256
deriving DecidableEq, Repr

/-- A table entry from its 64 bytes. -/
def secOf (shard : Bool) (bs : Bytes) : SecEnt :=
  { shard := shard, off := leAt bs 0 8, len := leAt bs 8 4, member := leAt bs 12 1 % 16, unit := leAt bs 13 1
    kind := if shard then leAt bs 14 1 % 64 else leAt bs 14 1 % 16, fp4 := shard && leAt bs 15 1 % 2 == 1
    load := if shard then 0 else leAt bs 48 4, digest := BitVec.ofNat 256 (leAt bs 16 32) }

/-- Header fields (R381). -/
def imgLen (m : Bytes) : Nat := leAt m 8 8
/-- Offset of the manifest. -/
def manOff (m : Bytes) : Nat := leAt m 16 8
/-- Number of shards. -/
def shardCount (m : Bytes) : Nat := leAt m 28 4
/-- Number of auxiliary sections. -/
def auxCount (m : Bytes) : Nat := leAt m 48 2
/-- The image is signed. -/
def imgSigned (m : Bytes) : Bool := leAt m 6 2 % 2 == 1

/-- Entry i of the shard table. -/
def shardEnt (m : Bytes) (i : Nat) : Bytes := sliceBytes m (leAt m 32 8 + 64 * i) 64
/-- Entry i of the auxiliary table. -/
def auxEnt (m : Bytes) (i : Nat) : Bytes := sliceBytes m (leAt m 40 8 + 64 * i) 64

/-- All shards. -/
def shardsOf (m : Bytes) : List SecEnt := (List.range (shardCount m)).map fun i => secOf true (shardEnt m i)
/-- All auxiliary sections. -/
def auxesOf (m : Bytes) : List SecEnt := (List.range (auxCount m)).map fun i => secOf false (auxEnt m i)
/-- All sections by index: shards first (R392). -/
def sectionsOf (m : Bytes) : List SecEnt := shardsOf m ++ auxesOf m

/-- The manifest (R382). -/
def manifest (m : Bytes) : Bytes := sliceBytes m (manOff m) 1152
/-- MODEL_ID. -/
def imgModel (m : Bytes) : BitVec 128 := BitVec.ofNat 128 (leAt (manifest m) 0 16)
/-- GENERATION. -/
def imgGen (m : Bytes) : W32 := BitVec.ofNat 32 (leAt (manifest m) 16 4)
/-- MEMBERS. -/
def imgMembers (m : Bytes) : Nat := leAt (manifest m) 20 1
/-- Member record i. -/
def memberRec (m : Bytes) (i : Nat) : Bytes := sliceBytes (manifest m) (128 + 64 * i) 64
/-- CORE_MAP of a member record. -/
def memberCores (m : Bytes) (i : Nat) : BitVec 96 := BitVec.ofNat 96 (leAt (memberRec m i) 0 12)

/-! ### The Merkle tree (R385) -/

/-- One level of the tree paired into the next. -/
def merkleLevel : List Bytes → List Bytes
  | a :: b :: t => shake256 ((1 : Byte) :: (a ++ b)) :: merkleLevel t
  | l => l

/-- The root, level by level. -/
def merkleRoot : Nat → List Bytes → Bytes
  | 0, l => nth [] l 0
  | n + 1, l => if l.length ≤ 1 then nth [] l 0 else merkleRoot n (merkleLevel l)

/-- The leaves: DIGEST fields of the shard table, then of the auxiliary table. -/
def merkleLeaves (m : Bytes) : List Bytes :=
  (List.range (shardCount m)).map (fun i => sliceBytes (shardEnt m i) 16 32) ++ (List.range (auxCount m)).map fun i => sliceBytes (auxEnt m i) 16 32

/-- The image digest. -/
def imageDigest (m : Bytes) : Bytes :=
  shake256 (sliceBytes m 0 52 ++ manifest m ++ sliceBytes m (leAt m 32 8) (64 * shardCount m) ++ sliceBytes m (leAt m 40 8) (64 * auxCount m))

/-! ### Metadata checks (R390) -/

/-- No two intervals (start, length) overlap. -/
def apart : List (Nat × Nat) → Bool
  | [] => true
  | x :: t => t.all (fun y => !meets x.1 (x.1 + x.2) y.1 (y.1 + y.2)) && apart t

/-- Header fields of R381. -/
def imgHeaderOk (m : Bytes) : Bool :=
  decide (64 ≤ m.length ∧ m.length ≤ imgLen m) && leAt m 0 4 == 0x3142_5244 && leAt m 4 2 == 1 && decide (leAt m 6 2 < 2)
  && leAt m 24 4 == 1152 && zeros m 50 52 && leAt m 60 4 == (if imgSigned m then 2820 else 0) && (imgSigned m || leAt m 52 8 == 0)
  && decide (1 ≤ shardCount m ∧ shardCount m ≤ 98304 ∧ 1 ≤ auxCount m)
  && decide (manOff m + 1152 ≤ m.length ∧ leAt m 32 8 + 64 * shardCount m ≤ m.length ∧ leAt m 40 8 + 64 * auxCount m ≤ m.length
      ∧ leAt m 52 8 + leAt m 60 4 ≤ m.length)

/-- The manifest's fields of R382: reserved fields 0, and each member's entries contiguous and in member order. -/
def manifestOk (m : Bytes) : Bool :=
  let f := manifest m
  let n := imgMembers m
  decide (1 ≤ n ∧ n ≤ 16 ∧ leAt f 21 1 < 8) && zeros f 22 24 && (imgSigned m || zeros f 96 128)
  && ((List.range 16).all fun i => if i < n then zeros (memberRec m i) 56 64 else zeros (memberRec m i) 0 64)
  && ((List.range n).all fun i =>
    let first (o k : Nat) : Nat := (List.range i).foldl (fun t j => t + leAt (memberRec m j) o k) 0
    let r := memberRec m i
    leAt r 12 4 == first 16 4 && leAt r 20 2 == first 22 2
    && ((List.range (leAt r 16 4)).all fun j => (secOf true (shardEnt m (leAt r 12 4 + j))).member == i)
    && ((List.range (leAt r 22 2)).all fun j => (secOf false (auxEnt m (leAt r 20 2 + j))).member == i))
  && (List.range n).foldl (fun t j => t + leAt (memberRec m j) 16 4) 0 == shardCount m
  && (List.range n).foldl (fun t j => t + leAt (memberRec m j) 22 2) 0 == auxCount m

/-- Table entries of R383: reserved fields, lengths, places, and the order of the shards. -/
def tablesOk (m : Bytes) : Bool :=
  ((List.range (shardCount m)).all fun i =>
    let b := shardEnt m i
    let e := secOf true b
    decide (leAt b 12 1 < 16 ∧ leAt b 13 1 < 96 ∧ leAt b 14 1 < 64 ∧ leAt b 15 1 < 2 ∧ e.len = 11489280 ∧ e.member < imgMembers m) && zeros b 48 64)
  && ((List.range (auxCount m)).all fun i =>
    let b := auxEnt m i
    let e := secOf false b
    decide (leAt b 12 1 < 16 ∧ leAt b 14 1 < 7 ∧ e.member < imgMembers m) && zeros b 15 16 && zeros b 52 64
    && (e.kind == 1 || e.kind == 2 || e.load == 0))
  && ((sectionsOf m).all fun e => decide (e.off % 64 = 0 ∧ m.length ≤ e.off ∧ e.off + e.len ≤ imgLen m))
  && apart ((sectionsOf m).map fun e => (e.off, e.len))
  && rising ((shardsOf m).map fun e => (e.member * 96 + e.unit) * 64 + e.kind)

/-- The auxiliary sections that R387 requires, as far as the tables show. -/
def auxesOk (m : Bytes) : Bool :=
  let l := auxesOf m
  let count (mem k u : Nat) : Nat := (l.filter fun e => e.member == mem && e.kind == k && e.unit == u).length
  ((List.range (imgMembers m)).all fun i =>
    count i 0 0 == 1 && ((l.filter fun e => e.member == i && e.kind == 0).length == 1)
    && ((List.range 96).all fun c => [1, 2, 6].all fun k => count i k c == if (memberCores m i).getLsbD c then 1 else 0)
    && decide (count i 3 24 ≤ 1 ∧ count i 3 25 ≤ 1))
  && (l.all fun e => match e.kind with
    | 3 => e.unit == 24 || e.unit == 25
    | 4 => e.unit == 0
    | 5 => decide (e.unit < 8)
    | 0 => true
    | _ => decide (e.unit < 96))
  && allSame ((l.filter fun e => e.kind == 4 || e.kind == 5).map SecEnt.member)
  && decide ((l.filter fun e => e.kind == 4).length ≤ 1) && decide (((l.filter fun e => e.kind == 5).map SecEnt.unit).Nodup)

/-- Check 1 of R390. -/
def formatOk (m : Bytes) : Bool :=
  imgHeaderOk m && manifestOk m && tablesOk m && auxesOk m
  && merkleRoot (shardCount m + auxCount m) (merkleLeaves m) == sliceBytes (manifest m) 56 32

/-- Check 2 of R390 (R386). -/
def State.signatureOk (s : State) (m : Bytes) : Bool :=
  let keys := s.fw.nv.keys.filter fun k => k.modelId == imgModel m
  if imgSigned m then
    match keys.find? fun k => shake256 k.key == sliceBytes (manifest m) 96 32 with
    | some k => Config.xmssVerify k.key (imageDigest m) (sliceBytes m (leAt m 52 8) 2820)
    | none => false
  else !(keys.any OwnerKey.require)

/-- Members of the group, 1 for a package alone. -/
def State.groupSize (s : State) : Nat := max 1 s.grp.record.members

/-- Check 3 of R390. -/
def State.matchOk (s : State) (m : Bytes) : Bool :=
  imgMembers m == s.groupSize && (leAt (manifest m) 21 1).testBit s.fuses.grade
  && (memberCores m s.member &&& ~~~s.fuses.coreMap) == 0
  && ((shardsOf m).all fun e => e.member != s.member || (memberCores m s.member).getLsbD e.unit)
  && imgGen m != 0 && imgGen m != s.genActive

/-- Members whose sections a member holds besides its own: the one whose buddy it is (R403); as the buddy of a group of one, that group's. -/
def State.serves (s : State) (m : Nat) : Bool :=
  s.load.escrowOnly || (decide (2 ≤ s.groupSize) && (m + 1) % s.groupSize == s.member && m != s.member)

/-- A section of this member's own share of the image (R390). -/
def State.ownPart (s : State) (e : SecEnt) : Bool := !s.load.escrowOnly && e.member == s.member

/-- Bytes of the sections of an image that this member stages, its own and the escrow. -/
def State.stageBytes (s : State) (m : Bytes) : Nat :=
  ((sectionsOf m).filter fun e => s.ownPart e || s.serves e.member).foldl (fun t e => t + e.len) 0

/-- Check 6 of R390 (R404). -/
def State.spaceOk (s : State) (m : Bytes) : Bool :=
  decide (s.stageBytes m + s.load.oldEscrow.foldl (fun t e => t + e.2.length) 0 ≤ s.load.area * 2 ^ 30)

/-- The status of a member's metadata checks (R390), 0 for none. -/
def State.metaStatus (s : State) (m : Bytes) : Nat :=
  if !formatOk m then 1 else if !s.signatureOk m then 2 else if !s.load.escrowOnly && !s.matchOk m then 3 else if !s.spaceOk m then 6 else 0

/-! ### Section checks (R391) -/

/-- Cell (r, j) of array p of a shard (R384). -/
def shardCell (bs : Bytes) (p r j : Nat) : Bool := (nth 0 bs (179520 * p + 165 * r + j / 8)).getLsbD (j % 8)

/-- Logical row r of an array written from a shard, through its maps. -/
def ArrayInfo.fromShard (x : ArrayInfo) (bs : Bytes) (p : Nat) : ArrayInfo :=
  (List.range 1088).foldl (fun x r => x.putRow r fun j => shardCell bs p r j) x

/-- The values that R391 allows in a bank of MXFP4 weights. -/
def fp4Stored : List Nat := [0, 4, 6, 8, 9, 10, 11, 12, 13, 14, 15, 16, 18, 20, 24]

/-- The row checks of R391 for one array of a shard. -/
def shardArrayOk (fp4 : Bool) (bs : Bytes) (p : Nat) : Bool :=
  let x := (arrayDefault 0).fromShard bs p
  ((List.range 1024).all fun r =>
    ((List.range 8).all fun h =>
      x.slices r (256 + h) 5 == (List.range 32).foldl (fun t i => t + x.stored fp4 r (32 * h + i)) 0 % 31)
    && ((List.range 256).all fun c => if fp4 then fp4Stored.contains (x.stored true r c) else !x.cell r (5 * c + 4)))
  && ((List.range 64).all fun r => x.parityOk (1024 + r) && (List.range 40).all fun j => !x.cell (1024 + r) (1280 + j))
  && ((List.range 32).all fun b => (List.range 256).all fun c => x.scale b c != 0xFF)

/-- The content check of a shard but for the column tops. -/
def shardOk (fp4 : Bool) (bs : Bytes) : Bool := (List.range 64).all fun p => shardArrayOk fp4 bs p

/-- Own staged sections of an image with their entries. -/
def ownSections (m : Bytes) (member : Nat) (own : SMap Bytes) : List (SecEnt × Bytes) :=
  (enum (sectionsOf m)).filterMap fun x => if x.2.member = member then some (x.2, smGet (fun _ => []) own x.1) else none

/-- The auxiliary sections among own sections. -/
def auxSecs (l : List (SecEnt × Bytes)) : List AuxSec :=
  l.filterMap fun x => if x.1.shard then none else some ⟨x.1.kind, x.1.unit, x.1.load, x.2⟩

/-- The shard of a core and bank. -/
def shardAt (l : List (SecEnt × Bytes)) (core bank : Nat) : Option (SecEnt × Bytes) :=
  l.find? fun x => x.1.shard && x.1.unit == core && x.1.kind == bank

/-- Largest weight unit exponent of column j of logical array a over its blocks; `none` without a shard (R92, R391). -/
def columnMax (l : List (SecEnt × Bytes)) (core a j : Nat) : Option Int :=
  match shardAt l core (a / 64) with
  | none => none
  | some x =>
    let arr := (arrayDefault 0).fromShard x.2 (a % 64)
    some ((List.range 32).foldl (fun m b => max m (unitExp (arr.scale b j) (wgtF x.1.fp4))) (unitExp (arr.scale 0 j) (wgtF x.1.fp4)))

/-- The column tops of one layer of a core (R388, R391): entry i of the layer directory of constants section k. -/
def layerTopsOk (l : List (SecEnt × Bytes)) (core : Nat) (k : Bytes) (i : Nat) : Bool :=
  let d := 0x20_0000 + 16 * i
  let base := leAt k d 2 % 4096
  let ks := leAt k (d + 2) 1 % 128
  let cols := leAt k (d + 12) 2
  let rb := alignUp (cols + cols / 32) 64
  (List.range (cols / 256)).all fun g => (List.range 256).all fun j =>
    let arrs := (List.range ks).map fun q => base + g * ks + q
    let c := 256 * g + j
    let stat := (List.range (leAt k (d + 3) 1 % 128)).map fun r => unitExp (leAt k (leAt k (d + 8) 4 + r * rb + cols + c / 32) 1) 6
    match (arrs.filterMap fun a => columnMax l core a j) ++ stat with
    | [] => true
    | t :: ts =>
      let top := ts.foldl max t
      arrs.all fun a => (shardAt l core (a / 64)).isNone || sext 16 (leAt k (512 * a + 2 * j) 2) == top

/-- A recipe is legal (R124) for a layer with n static channels. -/
def recipeOk (bs : Bytes) (n : Nat) : Bool :=
  decide (leAt bs 0 1 % 4 ≠ 3 ∧ leAt bs 0 1 < 128 ∧ leAt bs 1 1 < 16) && zeros bs 2 8 && decide (leAt bs 8 8 < 2 ^ n)

/-- An attention layer table is legal (R310). -/
def attnTableOk (bs : Bytes) : Bool :=
  bs.length % 16 == 0 && (List.range (bs.length / 16)).all fun i =>
    let b := sliceBytes bs (16 * i) 16
    let l := layerRecOf b
    decide (leAt b 0 2 < 1024 ∧ leAt b 3 1 < 64 ∧ leAt b 4 1 < 8 ∧ leAt b 5 1 < 16 ∧ leAt b 6 2 < 1024)
    && decide (1 ≤ l.hkv ∧ 1 ≤ l.hq ∧ l.hq ≤ 128 ∧ l.hq % l.hkv = 0 ∧ l.hq / l.hkv ≤ 8 ∧ l.newFmt ≤ 2 ∧ l.agedFmt ≤ 2 ∧ l.newFmt ≤ l.agedFmt ∧ l.age ≤ 511)

/-- A sampler record is legal (R389). -/
def samplerOk (bs : Bytes) : Bool :=
  let h := leAt bs 0 1
  bs.length == 64 && decide (1 ≤ h ∧ h ≤ 8) && zeros bs 1 4 && zeros bs 40 64
  && decide (32 ≤ leAt bs 4 4 ∧ leAt bs 4 4 ≤ 65536 ∧ leAt bs 4 4 % 32 = 0)
  && (List.range 8).all fun i => if i < h then decide (2 ≤ leAt bs (8 + 4 * i) 4 ∧ leAt bs (8 + 4 * i) 4 ≤ 262144) else leAt bs (8 + 4 * i) 4 == 0

/-- The sampler record and its embedding tables agree (R387, R389). -/
def embeddingsOk (aux : List AuxSec) : Bool :=
  match auxOf aux 4 0 with
  | none => !(aux.any fun a => a.kind == 5)
  | some x => (List.range 8).all fun h => match auxOf aux 5 h with
    | some e => decide (h < leAt x.content 0 1) && e.content.length == leAt x.content (8 + 4 * h) 4 * alignUp (2 * leAt x.content 4 4) 64
    | none => decide (leAt x.content 0 1 ≤ h)

/-- One core of an image's almanac: its program, constants and recipes (R387). -/
def coreSectionsOk (a : Almanac) (aux : List AuxSec) (e : CoreEnt) : Bool :=
  (match auxOf aux 2 e.core with | some p => decide (p.loadAddr = e.progBase ∧ p.content.length = e.progLen) | none => false)
  && (match auxOf aux 1 e.core with
    | some k => decide (k.loadAddr % 64 = 0 ∧ 0x10_0000 ≤ k.loadAddr) &&
      (match auxOf aux 6 e.core with
        | some r => r.content.length == 16 * e.layers && (List.range e.layers).all fun i =>
            recipeOk (sliceBytes r.content (16 * i) 16) (leAt k.content (0x20_0000 + 16 * i + 3) 1 % 128)
        | none => false)
    | none => false)
  && decide (a.cores.length ≤ 96)

/-- Check 4 of R390 over all own sections of a member, once all have arrived. -/
def State.ownOk (s : State) (m : Bytes) (own : SMap Bytes) : Bool :=
  let l := ownSections m s.member own
  let aux := auxSecs l
  match auxOf aux 0 0 with
  | none => false
  | some x =>
    let a := almOf x.content
    s.almOk x.content aux s.member && almCoreMap x.content == memberCores m s.member
    && shake256 x.content == sliceBytes (memberRec m s.member) 24 32
    && (decide (2 ≤ s.groupSize) || shake256 x.content == sliceBytes (manifest m) 24 32)
    && a.cores.all (coreSectionsOk a aux)
    && ((List.range 96).all fun c => !(memberCores m s.member).getLsbD c || a.cores.any fun e => e.core == c)
    && (aux.all fun y => match y.kind with
      | 3 => attnTableOk y.content
      | 4 => samplerOk y.content
      | _ => true)
    && embeddingsOk aux
    && ((auxOf aux 4 0).isNone || a.routes.all fun r => r.kind != 3 || r.destMember == s.member)
    && (l.all fun y => !(!y.1.shard && y.1.kind == 1) || (List.range 16).all fun i => layerTopsOk l y.1.unit y.2 i)

end Sys2Proof.Machine
end

