-- ==== Sys2Proof/Machine/Load.lean ====
section
/-! DEFINITION. Image loads and generations on a member (R392 to R407), migration, and the scrubbing of DRAM (R303, R333, R404). -/
namespace Sys2Proof.Machine

/-! ### Sections and their holders -/

/-- A bit of SRV_LOAD_EVT (R407). -/
def State.loadBit (s : State) (i : Nat) : State := { s with load := { s.load with evt := setBit s.load.evt i } }

/-- Entry of section i of the load in progress. -/
def State.section? (s : State) (i : Nat) : Option SecEnt := (sectionsOf s.load.metadata)[i]?

/-- The member index that stands for the buddy of a member (R403); for a group of one, 1 stands for the package at ESCROW_POS. -/
def State.buddyOf (s : State) (m : Nat) : Option Nat :=
  if 2 ≤ s.groupSize then some ((m + 1) % s.groupSize) else if s.load.escrowPos = 0xFFFF then none else some 1

/-- Holders of a section (R394). -/
def State.holders (s : State) (e : SecEnt) : List Nat :=
  match s.buddyOf e.member with
  | some b => if b = e.member then [e.member] else [e.member, b]
  | none => [e.member]

/-- Address of a holder of sections (R394, R403). -/
def State.holderAddr (s : State) (h : Nat) : BitVec 16 :=
  if s.groupSize = 1 ∧ h = 1 then BitVec.ofNat 16 (64 * s.fab.rack.toNat + s.load.escrowPos) else s.memberAddr h

/-- Every package that takes part in a load besides its reader: the other members, and the buddy of a group of one (R393, R403). -/
def State.loadPeers (s : State) : List (BitVec 16) :=
  if s.groupSize = 1 then (if s.load.escrowPos = 0xFFFF then [] else [s.holderAddr 1]) else s.others.map s.memberAddr

/-- The reader sends a message of the load to every other package that takes part. -/
def State.tellPeers (s : State) (msg : LoadMsg) : State := s.sendFrames (s.loadPeers.map fun a => .load a msg)

/-- A package that is not the reader answers it. -/
def State.tellReader (s : State) (msg : LoadMsg) : State := s.sendFrames [.load (s.memberAddr s.load.readerMember) msg]

/-- Sections of an image that this member stages have all been staged. -/
def State.allStaged (s : State) : Bool :=
  (enum (sectionsOf s.load.metadata)).all fun x =>
    (!s.ownPart x.2 || s.load.own.any fun y => y.1 == x.1) && (!s.serves x.2.member || s.load.escrow.any fun y => y.1 == x.1)

/-! ### The end of a load before its write phase -/

/-- Commands of the load that wait for their answer complete with a status. -/
def State.answerAll (s : State) (st : Nat) : State :=
  let s := match s.load.begin with | some h => s.completeCmd h 0x20 st [] | none => s
  let s := match s.load.endCmd with | some h => s.completeCmd h 0x22 st [] | none => s
  let s := s.load.feeds.foldl (fun s f => s.completeCmd f.cmd 0x21 st []) s
  { s with load := { s.load with begin := none, endCmd := none, feeds := [] } }

/-- The load ends with a status before the write phase (R390, R397); the rest follows at the next apply point. -/
def State.endLoad (s : State) (st : Nat) : State :=
  if s.load.ended.isSome || decide (s.loadPhase ≠ 1 ∧ s.loadPhase ≠ 2) then s
  else
    let s := s.answerAll st
    let g := imgGen s.load.metadata
    let s := if s.load.reader then s.tellPeers (.ended st) else s
    let s := { s with load := { s.load with ended := some st, lastStatus := st, staged := false } }
    (s.loadBit 1).post 0x05 1 26 (leBytes 1 st ++ leBytes 4 g.toNat)

/-- QUEUED requests whose GEN_REQ names a generation end with status GENERATION (R397, R399). -/
def State.endQueued (s : State) (g : W32) : State :=
  s.reqIds.foldl (fun s i => let r := s.req i; if r.state == .queued && r.genReq == g then s.freeReq i 5 else s) s

/-- The end that the reader has sent reaches this package, with its status (R390, R397; free, log 28). -/
def State.peerEnded (s : State) : State :=
  if !s.load.reader && s.load.ended.isNone then s.endLoad (1 + Config.peerLoadEnd s.tick.count.toNat % 9) else s

/-- LOAD_ABANDON (R397): at the apply point after the end, the staged sections go and the generation in force stays. On a package that is not the reader the command brings the reader's end. -/
def execLoadAbandon (s : State) : Out :=
  if s.power ≠ 0 || s.tick.phase ≠ .applied || s.peerEnded.load.ended.isNone then .next s
  else
    let s := s.peerEnded
    let g := imgGen s.load.metadata
    let s := s.endQueued g
    .next { s with
      loadPhase := 0, genStaged := 0
      grp := { s.grp with record := { s.grp.record with staged := 0 } }
      load := { s.load with
        reader := false, failures := 0, answers := [], metadata := [], almanacs := [], fed := [], own := [], escrow := [], escrowOnly := false, resident := []
        ended := none } }

/-! ### Beginning -/

/-- A member takes part in a load: STAGING, nothing staged, nothing found resident. -/
def State.startLoad (s : State) (reader : Bool) (readerMember : Nat) (m : Bytes) (drain : Nat) (escrowPos : Nat) : State :=
  { s with
    loadPhase := 1
    load := { s.load with
      reader := reader, readerMember := readerMember, failures := 0, answers := [], metadata := m, drainTicks := drain, escrowPos := escrowPos, feeds := [], fed := [], almanacs := []
      own := [], escrow := [], staged := false, writtenVote := false, resident := [], bankDone := [], ended := none } }

/-- IMG_BEGIN (R393): the metadata region goes to every member; the command completes when they have answered. -/
def execImgBegin (h : HostCmd) (descAddr : W64) (metaLen drainTicks : W32) (escrowPos : BitVec 16) (s : State) : Out :=
  if !s.handles h 0x20 then .next s
  else if !s.inCarve descAddr.toNat metaLen.toNat then .next (s.completeCmd h 0x20 0x102 [])
  else if s.loadPhase ≠ 0 then .next (s.completeCmd h 0x20 7 [])
  else if s.loadHeld then .next (s.completeCmd h 0x20 0x103 [])
  else
    let m := readBytes (s.carve (s.ring h.set.val).owner) descAddr.toNat metaLen.toNat
    let s := (s.begins h 0x20).startLoad true s.member m drainTicks.toNat escrowPos.toNat
    .next ({ s with load := { s.load with begin := some h } }.tellPeers (.metadata m))

/-- The answers to IMG_BEGIN are complete: the lowest member's status ends the load, or the command completes with OK (R393). -/
def State.takeAnswers (s : State) : State :=
  match s.load.begin with
  | none => s
  | some h =>
    let ms := List.range s.groupSize
    if ms.all fun m => s.load.answers.any fun a => a.1 == m then
      match (ms.filterMap fun m => s.load.answers.find? fun a => a.1 == m && a.2 != 0) with
      | a :: _ => s.endLoad a.2
      | [] => { s with load := { s.load with begin := none } }.completeCmd h 0x20 0 []
    else s

/-- A package that is not the reader takes the metadata region, or answers why it does not (R390, R393). Alone in its group, it takes part as the buddy of another group of one (R403). -/
def State.takeMetadata (s : State) (reader : Nat) (image : Bytes) (drain : Nat) : State :=
  let s1 := { s with load := { s.load with escrowOnly := decide (s.groupSize = 1), readerMember := reader } }
  let st := s1.metaStatus image
  let s := if st = 0 then s1.startLoad false reader image drain 0xFFFF else { s with load := { s.load with readerMember := reader } }
  s.tellReader (.status st)

/-- METADATA_CHECK (R390, R393): on the reader, this member's checks, or another member's answer, which may also come later, when a section fails its content check. On any other package `member` is
the reader, and the metadata region is what has arrived. -/
def execMetadataCheck (member peerStatus : Nat) (image : Bytes) (drainTicks : W32) (s : State) : Out :=
  if s.power ≠ 0 || !s.fw.sec.runs then .next s
  else if s.load.reader then
    if s.load.begin.isNone && member ≠ s.member && decide (member < s.groupSize) && peerStatus == 4 then .next (s.endLoad 4)
    else if s.load.begin.isNone || decide (s.groupSize ≤ member) || s.load.answers.any fun a => a.1 == member then .next s
    else
      let st := if member = s.member then s.metaStatus s.load.metadata else peerStatus
      .next ({ s with load := { s.load with answers := s.load.answers ++ [(member, st)] } }.takeAnswers)
  else if decide (s.loadPhase ≠ 0 ∨ s.groupSize ≤ member) || (decide (2 ≤ s.groupSize) && member == s.member) then .next s
  else .next (s.takeMetadata member image drainTicks.toNat)

/-- MEMBER_ANSWER_TIMEOUT (R393, R396): a member has not answered the metadata checks or IMG_END within 20 ms. -/
def execMemberAnswerTimeout (member : Nat) (s : State) : Out :=
  let waits := (s.load.begin.isSome && !(s.load.answers.any fun a => a.1 == member)) || s.load.endCmd.isSome
  if s.power ≠ 0 || !s.load.reader || decide (s.groupSize ≤ member) || !waits then .next s
  else .next (s.endLoad 8)

/-! ### Sections -/

/-- What R387 requires of the almanacs together: an attention layer table on each serving die that a member's almanac sends requests to, and a sampler record on the serving member. -/
def State.groupFormOk (s : State) : Bool :=
  let m := s.load.metadata
  let has (mem kind unit : Nat) : Bool := (auxesOf m).any fun e => e.member == mem && e.kind == kind && e.unit == unit
  (List.range (imgMembers m)).all fun i => (almOf (smGet (fun _ => []) s.load.almanacs i)).routes.all fun r =>
    if r.kind = 2 ∨ r.kind = 4 then has r.destMember 3 r.destDie else if r.kind = 3 then has r.destMember 4 0 else true

/-- The almanacs of all members, as the reader has fed them, name one serving member between them, and have the group almanac digest of the manifest (R338, R385, R390). -/
def State.groupAlmOk (s : State) : Bool :=
  let m := s.load.metadata
  let as := (List.range (imgMembers m)).map fun i => smGet (fun _ => []) s.load.almanacs i
  let named := as.foldl (fun l a => ((almOf a).routes.filter fun r => r.kind == 3).foldl (fun l r => addNew l r.destMember) l) []
  decide (named.length = 1) && shake256 as.flatten == sliceBytes (manifest m) 24 32

/-- Every section is fed and acknowledged: IMG_END completes, and the reader votes STAGED (R396, R399), unless a section that the members' almanacs need is missing:
FORMAT (R387), or the almanacs do not agree: INVALID (R338, R390). -/
def State.takeEnd (s : State) : State :=
  match s.load.endCmd with
  | none => s
  | some h =>
    if (List.range (sectionsOf s.load.metadata).length).all fun i => s.load.fed.contains i then
      if !s.groupFormOk then s.endLoad 1
      else if !s.groupAlmOk then s.endLoad 4
      else { s with load := { s.load with endCmd := none, staged := true } }.completeCmd h 0x22 0 []
    else s

/-- The bytes of a fed section, read from ADDR of the carve-out of its ring's owner (R392, R395). -/
def State.fedBytes (s : State) (f : Feed) : Bytes :=
  readBytes (s.carve (s.ring f.cmd.set.val).owner) f.addr (match s.section? f.index with | some e => e.len | none => 0)

/-- A fed section goes to the holders that have not answered ACK (R394, R396). -/
def State.sendSection (s : State) (f : Feed) : State :=
  match s.section? f.index with
  | none => s
  | some e => s.sendFrames (((s.holders e).filter fun h => h != s.member && !f.acks.contains h).map fun h => .load (s.holderAddr h) (.content f.index (s.fedBytes f)))

/-- A section counts a failure (R396): the third ends the load with SHARD, any other sends it again. -/
def State.sectionFails (s : State) (f : Feed) : State :=
  let s := { s with load := { s.load with
    failures := s.load.failures + 1
    feeds := s.load.feeds.map fun (x : Feed) => if x.index == f.index then { x with fails := x.fails + 1 } else x } }
  if 3 ≤ f.fails + 1 then s.endLoad 5 else (s.loadBit 0).sendSection f

/-- A holder's ACK: with every holder's, the feed completes (R395). -/
def State.sectionAcked (s : State) (f : Feed) (e : SecEnt) (holder : Nat) : State :=
  let acks := addNew f.acks holder
  if (s.holders e).all fun x => acks.contains x then
    let s := s.completeCmd f.cmd 0x21 0 []
    ({ s with load := { s.load with feeds := s.load.feeds.filter (fun x => x.index != f.index), fed := addNew s.load.fed f.index } }).takeEnd
  else { s with load := { s.load with feeds := s.load.feeds.map fun (x : Feed) => if x.index == f.index then { x with acks := acks } else x } }

/-- The load takes sections. -/
def State.staging (s : State) : Bool := s.power == 0 && s.loadPhase == 1 && s.load.begin.isNone && s.load.ended.isNone

/-- A fed almanac is kept for the checks at IMG_END. -/
def keepAlmanac (m : SMap Bytes) (e : SecEnt) (content : Bytes) : SMap Bytes :=
  if e.shard || decide (e.kind ≠ 0) then m else smSet (fun _ => []) m e.member content

/-- IMG_FEED (R395): the section at ADDR goes to its holders. -/
def execImgFeed (h : HostCmd) (index : W32) (addr : W64) (s : State) : Out :=
  if !s.handles h 0x21 then .next s
  else if !(s.staging && s.load.reader) then .next (s.completeCmd h 0x21 0x103 [])
  else match s.section? index.toNat with
    | none => .next (s.completeCmd h 0x21 0x103 [])
    | some e =>
      if !s.inCarve addr.toNat e.len then .next (s.completeCmd h 0x21 0x102 [])
      else if s.load.fed.contains index.toNat then .next (s.completeCmd h 0x21 0 [])
      else if 64 ≤ s.load.feeds.length || s.load.feeds.any fun f => f.index == index.toNat then .next s
      else
        let content := readBytes (s.carve (s.ring h.set.val).owner) addr.toNat e.len
        let f : Feed := ⟨h, index.toNat, addr.toNat, [], 0⟩
        let s := s.begins h 0x21
        .next ({ s with load := { s.load with
          feeds := s.load.feeds ++ [f], almanacs := keepAlmanac s.load.almanacs e content } }.sendSection f)

/-- A section staged by this member as holder, if its digest is good. -/
def State.stageSection (s : State) (i : Nat) (e : SecEnt) (content : Bytes) : Option State :=
  if content.length ≠ e.len || digest content != e.digest then none
  else if s.ownPart e then some { s with load := { s.load with own := smSet (fun _ => []) s.load.own i content } }
  else some { s with load := { s.load with escrow := smSet (fun _ => []) s.load.escrow i content } }

/-- The content checks of this member after a section was staged (R390, R391): the load ends with INVALID. -/
def State.contentBad (s : State) (e : SecEnt) (content : Bytes) : Bool :=
  if !s.ownPart e then false
  else if e.shard && !shardOk e.fp4 content then true
  else ((enum (sectionsOf s.load.metadata)).all fun x => !s.ownPart x.2 || s.load.own.any fun y => y.1 == x.1)
    && !s.ownOk s.load.metadata s.load.own

/-- A holder that is not the reader: the section is staged and the answer goes to the reader; a content that fails ends the load (R390, R394). -/
def State.holdSection (s : State) (i : Nat) (e : SecEnt) (content : Bytes) : State :=
  match s.stageSection i e content with
  | none => s.tellReader (.answer i false)
  | some s =>
    if s.contentBad e content then (s.tellReader (.status 4)).endLoad 4
    else { s.tellReader (.answer i true) with load := { s.load with staged := s.load.staged || s.allStaged } }

/-- SECTION_ARRIVAL (R394 to R396): this package stages the section and answers, or another holder's answer arrives. -/
def execSectionArrival (index holder : Nat) (content : Bytes) (peerAck : Bool) (s : State) : Out :=
  match s.section? index with
  | none => .next s
  | some e =>
    let fd := s.load.feeds.find? fun f => f.index == index
    if !s.staging then .next s
    else if !s.load.reader then
      if s.serves e.member || s.ownPart e then .next (s.holdSection index e content) else .next s
    else if !(s.holders e).contains holder then .next s
    else if holder = s.member then
      match s.stageSection index e content with
      | none => .next (match fd with | some f => s.sectionFails f | none => s)
      | some s =>
        if s.contentBad e content then .next (s.endLoad 4)
        else match fd with
          | some f => .next (s.sectionAcked f e holder)
          | none => .next s
    else match fd with
      | some f => .next (if peerAck then s.sectionAcked f e holder else s.sectionFails f)
      | none => .next s

/-- SECTION_TIMEOUT (R396). -/
def execSectionTimeout (index holder : Nat) (s : State) : Out :=
  match s.section? index, s.load.feeds.find? fun f => f.index == index with
  | some e, some f =>
    if !s.staging || !s.load.reader || f.acks.contains holder || !(s.holders e).contains holder then .next s
    else .next (s.sectionFails f)
  | _, _ => .next s

/-- IMG_END (R396): sections still outstanding are reported missing; the command completes when every section is acknowledged. -/
def execImgEnd (h : HostCmd) (s : State) : Out :=
  if !s.handles h 0x22 then .next s
  else if !(s.staging && s.load.reader) || s.load.endCmd.isSome then .next (s.completeCmd h 0x22 0x103 [])
  else
    let s := { s.begins h 0x22 with load := { s.load with endCmd := some h } }
    .next ((s.load.feeds.foldl (fun s f => s.sectionFails f) s).takeEnd)

/-- IMG_ABORT (R397): refused once the write phase has begun. -/
def execImgAbort (h : HostCmd) (s : State) : Out :=
  if !s.handles h 0x23 then .next s
  else if !s.load.reader || decide (s.loadPhase ≠ 1 ∧ s.loadPhase ≠ 2) || s.load.ended.isSome then .next (s.completeCmd h 0x23 0x103 [])
  else .next ((s.endLoad 9).completeCmd h 0x23 0 [])

/-- ESC_FEED (R404, R442): a lost escrow section of the generation in force is restored if its digest is good; a replacement that waits for it is sent it. -/
def execEscFeed (h : HostCmd) (index : W32) (addr : W64) (s : State) : Out :=
  if !s.handles h 0x24 then .next s
  else match (sectionsOf s.load.oldMeta)[index.toNat]? with
    | none => .next (s.completeCmd h 0x24 0x103 [])
    | some e =>
      if !s.inCarve addr.toNat e.len then .next (s.completeCmd h 0x24 0x102 [])
      else if !s.load.lost.contains index.toNat then .next (s.completeCmd h 0x24 0x103 [])
      else
        let bs := readBytes (s.carve (s.ring h.set.val).owner) addr.toNat e.len
        if digest bs ≠ e.digest then .next (s.completeCmd h 0x24 4 [])
        else
          let s := { s with load := { s.load with
            oldEscrow := smSet (fun _ => []) s.load.oldEscrow index.toNat bs, lost := s.load.lost.filter (· != index.toNat) } }
          let s := if s.grp.inFailover && s.grp.fencedOut.contains e.member then s.sendFrames [.escrow (s.memberAddr e.member) index.toNat bs] else s
          .next (s.completeCmd h 0x24 0 [])

/-- DRAM_SCRUB (R303, R333, R404): an uncorrectable word of a page marks it LOST; one of an escrow section marks the section lost. -/
def execDramScrub (sv : ServeId) (addr : Nat) (uncorrectable : Bool) (s : State) : Out :=
  if s.power ≠ 0 || !uncorrectable then .next s
  else match s.pageAt sv.val addr with
    | some p => .next (s.losePage sv.val p.1 p.2.1 p.2.2)
    | none => match Config.escrowAt sv.val addr with
      | some i =>
        if s.load.oldEscrow.any fun e => e.1 == i then
          .next ({ s with load := { s.load with lost := addNew s.load.lost i } }.loadBit 3)
        else .next s
      | none => .next s

/-! ### Banks -/

/-- The bytes of a bank as its cells hold them (R384, R401). -/
def State.bankBytes (s : State) (c : CoreId) (b : Nat) : Bytes :=
  (List.range 64).flatMap fun p =>
    let x := (s.core c).arr (s.phys c (64 * b + p))
    (List.range 1088).flatMap fun r => (List.range 165).map fun i =>
      BitVec.ofNat 8 ((List.range 8).foldl (fun v j => v + if x.cell r (8 * i + j) then 2 ^ j else 0) 0)

/-- Own shard of a core and bank in the load in progress, with its content. -/
def State.ownShard (s : State) (c b : Nat) : Option (SecEnt × Bytes) := shardAt (ownSections s.load.metadata s.member s.load.own) c b

/-- Every row-read of logical array a under R71 and R84: the events of those that fail, and whether each was read at most at its second try. -/
def State.compareArray (s : State) (c : CoreId) (faults : List ReadFault) (a : Nat) : State × Bool :=
  let p := s.phys c a
  let x := (s.core c).arr p
  let fp4 := smGet (fun _ => false) (s.core c).fp4 a
  (s.modCore c fun k => k.noteReads x fp4 p (List.range 1088) faults, (List.range 1088).all fun r => x.readable fp4 faults p r)

/-- BANK_COMPARE (R71, R84, R401): a bank whose digest equals its shard's is resident. A row that fails twice leaves the comparison without a digest. -/
def execBankCompare (c : CoreId) (b : BankRead) (s : State) : Out :=
  let key := 64 * c.val + b.bank.val
  if !s.coreActs c || decide (s.loadPhase ≠ 1 ∧ s.loadPhase ≠ 2) then .next s
  else match (shardsOf s.load.metadata).find? fun e => s.ownPart e && e.unit == c.val && e.kind == b.bank.val with
    | none => .next s
    | some e =>
      let l := s.load.resident.filter (· != key)
      let same := decide (digest (s.bankBytes c b.bank.val) = e.digest)
      let r := (List.range 64).foldl (fun (r : State × Bool) i => let t := r.1.compareArray c b.faults (64 * b.bank.val + i); (t.1, t.2 && r.2))
        (s.spendReads c (64 * 1088), same)
      .next { r.1 with load := { r.1.load with resident := if r.2 then l ++ [key] else l } }

/-- Physical array p of a core written from a shard as logical array a (R141, R401). -/
def State.writeArray (s : State) (c : CoreId) (p a : Nat) (e : SecEnt) (content : Bytes) : State :=
  s.modCore c fun k =>
    let k := k.modArr p fun x => (x.fromShard content (a % 64)).worn 1
    { k with fp4 := smSet (fun _ => false) k.fp4 a e.fp4 }

/-- A bank written through the array map, with the energy of its row writes. -/
def State.writeBank (s : State) (c : CoreId) (b : Nat) (e : SecEnt) (content : Bytes) : State :=
  let s := (List.range 64).foldl (fun s i => s.writeArray c (s.phys c (64 * b + i)) (64 * b + i) e content) s
  let s := s.spendWrites c (64 * 1120)
  { s with load := { s.load with bankDone := s.load.bankDone ++ [64 * c.val + b], written := s.load.written + 1 } }

/-- Banks of this member that the write phase has still to write (R401). -/
def State.banksLeft (s : State) : List (SecEnt × Bytes) :=
  (ownSections s.load.metadata s.member s.load.own).filter fun x =>
    x.1.shard && !s.load.resident.contains (64 * x.1.unit + x.1.kind) && !s.load.bankDone.contains (64 * x.1.unit + x.1.kind)

/-- Every bank left whose half is not in the Critical band is written (R144, R402). -/
def State.writeBanks (s : State) : State :=
  s.banksLeft.foldl (fun s x =>
    let c := asCore x.1.unit
    if s.critical c then s.modCore c fun k => k.marginEvent 4 else s.writeBank c x.1.kind x.1 x.2) s

/-! ### Writing a row (R74, R141 to R144) -/

/-- The array is written by the load in its write phase (R74, R401): it serves a bank of this member's shards that is not resident. -/
def State.loading (s : State) (c : CoreId) (p : Nat) : Bool :=
  decide (s.loadPhase = 3) && match s.logicalOf c p with
    | some a => (shardsOf s.load.metadata).any (fun e => e.member == s.member && e.unit == c.val && e.kind == a / 64)
        && !s.load.resident.contains (64 * c.val + a / 64)
    | none => (s.core c).mapNext.any fun m => m.2 == p

/-- The array may be written (R74): on holiday, as the copy's spare or in its service step, a free spare, or being loaded. -/
def State.writable (s : State) (c : CoreId) (p : Nat) : Bool :=
  ((s.core c).holidays.any fun h => (h.spare == p && (h.step == .reserve || h.step == .copy)) || (h.orig == p && h.step == .service))
  || s.isFree c p || s.loading c p

/-- An array of which some rows are written and not all: its write is under way until it is whole or scanned (DESIGN CHOICE, log 66). -/
def ArrayInfo.halfWritten (x : ArrayInfo) : Bool := x.wrote != 0 && !x.whole

/-- The write controller of the quarter takes a row of array p (R143): at most 4 arrays of a quarter are written at the same time. -/
def State.writeSlot (s : State) (c : CoreId) (p : Nat) : Bool :=
  ((s.core c).arr p).halfWritten
  || decide (((s.core c).arrays.filter fun e => quarterOf e.1 == quarterOf p && e.2.halfWritten).length < 4)

/-- ROW_WRITE (R74, R141 to R144): refused on an array in service, with BOUND_HIT (R455, R456); suspended in the Critical band; it waits while 4 other arrays of the quarter are being written. A pulse beyond the limits of
the controller is not applied, and the write fails (R143). -/
def execRowWrite (c : CoreId) (array row : Nat) (content : List Bool) (failing : List Nat) (s : State) : Out :=
  if !s.coreActs c || decide (4224 ≤ array ∨ 1088 ≤ row) then .next s
  else if !s.writable c array then .next (s.boundHit 4)
  else if s.critical c then .next (s.modCore c fun k => k.marginEvent 4)
  else if !s.writeSlot c array then .next s
  else .next ((s.modArr c array fun x => x.writeRow row content failing).spendWrites c 1)

/-! ### Phases (R399) -/

/-- Every member's stamp of the previous eve carries a load vote. -/
def State.loadVotes (s : State) (v : Nat) : Bool :=
  (List.range s.groupSize).all fun m => s.grp.stamps.any fun x => x.tick == s.tick.count - 1 && x.member == m && x.loadVote == v

/-- DRAINING (R399): every member voted STAGED. -/
def execDraining (s : State) : Out :=
  if s.power ≠ 0 || s.tick.phase ≠ .applied || decide (s.loadPhase ≠ 1) || s.load.escrowOnly || s.load.ended.isSome || s.loadHeld || !s.loadVotes 1 then .next s
  else
    let g := imgGen s.load.metadata
    .next { s with
      loadPhase := 2, genStaged := g, load := { s.load with drainSince := s.tick.count }
      grp := { s.grp with record := { s.grp.record with staged := g } } }

/-- A request of the generation in force. -/
def State.oldRequest (s : State) (i : Nat) : Bool :=
  let r := s.req i
  r.state != .free && r.state != .queued && r.gen == s.genActive

/-- MIGRATE (R400): DRAIN_TICKS after DRAINING began, the requests of the old generation end with status MIGRATED. -/
def execMigrate (s : State) : Out :=
  if s.power ≠ 0 || s.tick.phase ≠ .applied || decide (s.loadPhase ≠ 2) || s.load.drainTicks == 0 || s.load.ended.isSome
      || decide ((s.tick.count - s.load.drainSince).toNat < s.load.drainTicks) || !(s.reqIds.any s.oldRequest) then .next s
  else
    let s := s.reqIds.foldl (fun s i =>
      if !s.oldRequest i || (s.req i).migrate then s
      else
        let s := s.modReq i fun r => { r with migrate := true }
        if s.stepInFlight i then s.modReq i fun r => { r.cutStep with state := .ending } else s.finish i .migrated) s
    .next (s.loadBit 2)

/-- Own auxiliary sections of the load in progress. -/
def State.ownAux (s : State) : List AuxSec := auxSecs (ownSections s.load.metadata s.member s.load.own)

/-- WRITING (R399): with no request of the old generation and no lane in flight, no almanac is in force, and the arrays are written. -/
def execWriting (s : State) : Out :=
  if s.power ≠ 0 || s.tick.phase ≠ .applied || decide (s.loadPhase ≠ 2) || s.load.ended.isSome || s.loadHeld || s.reqIds.any s.oldRequest
      || !s.srv.lanes.isEmpty then .next s
  else
    let s := s.refusePatch
    let s := s.endQueued s.genActive
    let s := (List.range 96).foldl (fun s i => s.abandonCopies (asCore i)) s
    let s := { s with alm := none, aux := s.ownAux, loadPhase := 3, load := { s.load with bankDone := [], written := 0, writtenVote := false } }
    .next s.writeBanks

/-- The arrays of written banks that are graded D, and wait for a replacement (R401). -/
def State.badWritten (s : State) : List (SecEnt × Bytes × Nat) :=
  ((ownSections s.load.metadata s.member s.load.own).filter fun x => x.1.shard && s.load.bankDone.contains (64 * x.1.unit + x.1.kind)).flatMap fun x =>
    ((List.range 64).map (64 * x.1.kind + ·)).filterMap fun a =>
      let k := s.core (asCore x.1.unit)
      if (k.arr (s.physNext (asCore x.1.unit) a)).recorded == .d then some (x.1, x.2, a) else none

/-- Replacements of R401: the content goes onto the free spare with the lowest number; without one the member cannot finish (R402). No write starts in the Critical band (R143). -/
def State.replaceBad (s : State) : State :=
  s.badWritten.foldl (fun s x =>
    let c := asCore x.1.unit
    if s.critical c then s.modCore c fun k => k.marginEvent 4
    else match s.freeSpare c (quarterOf (s.phys c x.2.2)) with
    | some sp =>
      let s := (s.writeArray c sp x.2.2 x.1 x.2.1).spendWrites c 1120
      s.modCore c fun k => { k with mapNext := k.mapNext ++ [(x.2.2, sp)] }
    | none => (s.loadBit 4).packageFault 4) s

/-- Every array written by the load has been scanned and graded (R401). -/
def State.allScanned (s : State) : Bool :=
  (List.range 96).all fun i => (s.core (asCore i)).arrays.all fun e => !e.2.whole

/-- A whole-core logic test runs on a core that an almanac names (R518): it withholds the votes for that almanac. -/
def State.coreTested (s : State) (a : Almanac) : Bool :=
  s.pow.tests.any fun t => t.state == 3 && t.kind == 4 && a.cores.any fun e => unitCore t.unit == some (asCore e.core)

/-- MEMBER_WRITTEN (R401, R402): the banks left are written, D arrays replaced; with all written and graded the member votes WRITTEN, unless a test of one of its cores runs (R518). -/
def execMemberWritten (s : State) : Out :=
  if s.power ≠ 0 || decide (s.loadPhase ≠ 3) || s.load.writtenVote then .next s
  else if !s.banksLeft.isEmpty then .next s.writeBanks
  else if !s.badWritten.isEmpty then .next s.replaceBad
  else if !s.allScanned || (auxOf s.aux 0 0).any (fun x => s.coreTested (almOf x.content)) then .next s
  else .next { s with load := { s.load with writtenVote := true } }

/-- The buddy of a group of one keeps the staged escrow as that of the generation in force, and frees the old one (R403; DESIGN CHOICE: the command COMMITTED brings the group's commit to it, log 28). -/
def State.keepEscrow (s : State) : State :=
  { s with
    loadPhase := 0
    load := { s.load with
      failures := 0, metadata := [], escrow := [], escrowOnly := false, oldMeta := s.load.metadata, oldEscrow := s.load.escrow, lost := [], staged := false } }

/-- COMMITTED (R399, R401): every member voted WRITTEN; the array map changes of the write phase, the new almanac and generation come into force, and a leap tick follows. No layer is lost
any more (R158). -/
def execCommitted (s : State) : Out :=
  if s.power ≠ 0 || s.tick.phase ≠ .applied then .next s
  else if s.load.escrowOnly && s.load.staged && decide (s.loadPhase = 1) then .next s.keepEscrow
  else if decide (s.loadPhase ≠ 3) || s.loadHeld || !s.loadVotes 2 then .next s
  else match auxOf s.aux 0 0 with
    | none => .next s
    | some x =>
      let m := s.load.metadata
      let s := if s.load.reader && s.groupSize == 1 then s.tellPeers (.ended 0) else s
      let s := (List.range 96).foldl (fun s i => (s.takeMaps (asCore i)).modCore (asCore i) fun k => { k with lostArrays := [] }) s
      let s := s.installAlmanac (almOf x.content) s.aux
      let s := { s with
        genActive := imgGen m, genStaged := 0, loadPhase := 0
        tick := { s.tick with seq := 0, leapNext := true }
        srv := { s.srv with fills := [], ledger := [] }
        fw := { s.fw with modelId := imgModel m }
        grp := { s.grp with ready := true, record := { s.grp.record with
          generation := imgGen m, staged := 0, almanacDigest := BitVec.ofNat 256 (leAt (manifest m) 24 32), patchEpoch := 0 } }
        load := { s.load with
          reader := false, lastStatus := 0, failures := 0, metadata := [], almanacs := [], fed := [], own := [], escrow := [], oldMeta := m, oldEscrow := s.load.escrow
          lost := [], staged := false, writtenVote := false, bankDone := [] } }
      .next (s.post 0x05 1 26 (leBytes 1 0 ++ leBytes 4 (imgGen m).toNat))

end Sys2Proof.Machine
end

