-- ==== Sys2Proof/Machine/Power.lean ====
section
/-! DEFINITION. Power and thermal emergencies, the regulator link, the ceiling monitor, self-tests (R484, R490 to R494, R516 to R518). -/
namespace Sys2Proof.Machine

/-! ### Emergencies (R484) -/

/-- A half of a weight die is in the Critical band. -/
def State.anyCritical (s : State) : Bool :=
  (List.range 24).any fun d => (s.die (asDie d)).west.band == .critical || (s.die (asDie d)).east.band == .critical

/-- Cause bits of a power or thermal emergency, in the order of R484's list; a PMBus fault is reported while its bit of PWRG_EVT stands, and a
regulator warning counts with it (R490). -/
def State.emergBits (s : State) : Nat :=
  bit s.anyCritical + 2 * bit (s.tick.stretch == 50) + 4 * bit (decide (1024 < s.pow.limitTicks))
  + 8 * bit (s.pow.pmbusWarn || s.pow.evt.getLsbD 3) + 16 * bit s.pow.trip

/-- The emergency begins or ends, and EMERGENCY is posted (R465). -/
def State.emergUpdate (s : State) : State :=
  let b := s.emergBits
  if s.fw.emerg && b == 0 then
    ({ s with fw := { s.fw with emerg := false } }).post 0x0A 5 26 (leBytes 1 0 ++ leBytes 1 s.fw.emergCause)
  else if b ≠ 0 then
    let was := s.fw.emerg
    let s := { s with fw := { s.fw with emerg := true, emergCause := b, clearTicks := 0 } }
    if was then s else s.post 0x0A 5 26 (leBytes 1 1 ++ leBytes 1 b)
  else s

/-- A bit of PWRG_EVT (R519). -/
def State.powBit (s : State) (i : Nat) : State := { s with pow := { s.pow with evt := setBit s.pow.evt i } }

/-- PMBUS_WARN (R490): a regulator warning begins, or ends. -/
def execPmbusWarn (on : Bool) (s : State) : Out :=
  if s.power ≠ 0 then .next s
  else
    let s := { s with pow := { s.pow with pmbusWarn := on } }
    .next (if on then s.powBit 2 else s).emergUpdate

/-- PMBUS_FAULT (R490): three transactions in a row went unacknowledged. -/
def execPmbusFault (s : State) : Out := .next (if s.power ≠ 0 then s else (s.powBit 3).emergUpdate)

/-- RAIL_SHUTDOWN (R490, R575): the effect of an unplanned power loss. -/
def execRailShutdown (_r : Rail) (s : State) : Out := .next (if s.power ≠ 0 then s else s.shutdown)

/-- CEILING_TRIP (R494): every tick that ended in the last 50 µs lies above 2.4 kW. -/
def execCeilingTrip (s : State) : Out :=
  if s.power ≠ 0 || s.pow.ceiling.isEmpty || s.pow.ceiling.any (fun e => !e.2) then .next s
  else .next ({ s with pow := { s.pow with refuseNext := true } }.powBit 1)

/-- LIMIT_HOLD_EMERGENCY (R484): the governor has held power at the limit for more than 1,024 consecutive ticks. -/
def execLimitHoldEmergency (s : State) : Out :=
  .next (if s.power ≠ 0 || decide (s.pow.limitTicks ≤ 1024) then s else s.emergUpdate)

/-! ### Self-tests (R516 to R518) -/

/-- Array field of a UNIT. -/
def unitArray (u : W32) : Nat := field u.toNat 19 7

/-- UNIT and KIND name something to test (R516). -/
def State.testUnit (s : State) (u : W32) (kind : Nat) : Bool :=
  let core := match unitCore u with
    | some c => s.good c
    | none => false
  (if kind ≤ 1 then core && (decide (unitArray u < 4224) || unitArray u == 0x1FFF)
    else if kind = 4 then core else decide (kind = 2 ∨ kind = 3 ∨ kind = 5))

/-- A test ends with its own status; RESULT holds the tick and the detail code (R516). -/
def State.endTest (s : State) (h : HostCmd) (st detail : Nat) : State :=
  s.completeCmd h 0x70 st (leBytes 6 s.tick.count.toNat ++ leBytes 2 detail)

/-- Arrays of a test have a holiday queued for it (R145, R516), spares too, unless they have one already. -/
def State.queueTest (s : State) (t : SelfTest) : State :=
  match unitCore t.unit with
  | none => s
  | some c => if 1 < t.kind then s
    else t.todo.foldl (fun s p =>
      if (s.core c).holidays.any (fun h => h.orig == p && h.reason == t.kind + 6)
          || (s.core c).holidayQueue.any (fun q => q.arr == p && q.reason == t.kind + 6) then s
      else s.modCore c fun k => k.queueHoliday p 5 (t.kind + 6)) s

/-- SELFTEST KIND 15 (R516): the queued and waiting tests of UNIT end with CANCELLED, and then the cancel itself ends with PASSED. -/
def State.cancelTests (s : State) (h : HostCmd) (u : W32) : State :=
  let ts := s.pow.tests.filter fun t => t.unit == u && t.state != 3
  let s := { s with pow := { s.pow with tests := s.pow.tests.filter fun t => !(t.unit == u && t.state != 3) } }
  let s := ts.foldl (fun s t =>
    let s := s.endTest t.cmd 2 0
    match unitCore u with
    | some c => if t.kind ≤ 1 then s.modCore c fun k => { k with
        holidayQueue := k.holidayQueue.filter fun q => !(t.todo.contains q.arr && q.reason == t.kind + 6) } else s
    | none => s) s
  s.endTest h 0 0

/-- SELFTEST (R516): RESERVED for a reserved bit of UNIT (R464), NO_UNIT, REFUSED beyond 64 tests, or the test is queued. A test of KIND 5 asks for its leap tick (R181). -/
def execSelftest (h : HostCmd) (unit : W32) (kind : BitVec 16) (s : State) : Out :=
  if !s.handles h 0x70 then .next s else
  if 2 ^ 20 ≤ unit.toNat then .next (s.completeCmd h 0x70 0x101 [])
  else if kind = 15 then .next (s.cancelTests h unit)
  else if !s.testUnit unit kind.toNat then .next (s.endTest h 3 0)
  else if 64 ≤ (s.pow.tests.filter fun t => t.state != 3).length then .next (s.completeCmd h 0x70 0x103 [])
  else
    let todo := if 1 < kind.toNat then [] else if unitArray unit = 0x1FFF then List.range 4224 else [unitArray unit]
    let t : SelfTest := ⟨h, unit, kind.toNat, 1, todo⟩
    let s := { s.begins h 0x70 with pow := { s.pow with tests := s.pow.tests ++ [t] } }
    .next (if kind = 5 then s.askLeap 3 else s.queueTest t)

/-- SELFTEST_CANCEL (R516). -/
def execSelftestCancel (h : HostCmd) (unit : W32) (s : State) : Out :=
  if !s.handles h 0x70 then .next s
  else if 2 ^ 20 ≤ unit.toNat then .next (s.completeCmd h 0x70 0x101 [])
  else .next (s.cancelTests h unit)

/-- A core is free (R518); a spare holds no generation (R437, R444). -/
def State.coreFree (s : State) (c : CoreId) : Bool :=
  (s.coreEnt c).isNone || s.genActive == 0 || s.grp.fenced

/-- The conditions under which a test starts (R516 to R518); one of KIND 0 or 1 ends with the holidays of its arrays, and a running one ends. -/
def State.testRuns (s : State) (t : SelfTest) : Bool :=
  let calm := s.emergBits == 0
  if t.state = 3 then true
  else if t.kind ≤ 1 then t.todo.isEmpty
  else if t.kind = 4 then calm && (match unitCore t.unit with | some c => s.coreFree c | none => false)
  else if t.kind = 5 then calm && s.tick.leap
  else true

/-- SELFTEST_RUN (R517, R518): the first test whose conditions hold. A test of KIND 4 or 5 starts, and completes with the next SELFTEST_RUN; any other completes. Whole-core tests of
busy cores show as waiting. -/
def execSelftestRun (passed : Bool) (detail : BitVec 16) (s : State) : Out :=
  if s.power ≠ 0 || !s.fw.pwr.runs then .next s
  else
    let s := s.pow.tests.foldl State.queueTest s
    let s := { s with pow := { s.pow with tests := s.pow.tests.map fun (t : SelfTest) =>
      if t.kind == 4 && t.state != 3 then { t with state := if (unitCore t.unit).any s.coreFree then 1 else 2 } else t } }
    match s.pow.tests.find? s.testRuns with
    | none => .next s
    | some t => if t.state ≠ 3 ∧ 4 ≤ t.kind then
        .next { s with pow := { s.pow with tests := s.pow.tests.map fun x => if x = t then { x with state := 3 } else x } }
      else
      let s := { s with pow := { s.pow with tests := s.pow.tests.erase t } }
      .next (s.endTest t.cmd (if passed then 0 else 1) (if passed then 0 else detail.toNat))

end Sys2Proof.Machine
end

