-- ==== Sys2Proof/Machine/Fabric.lean ====
section
/-! DEFINITION. Fabric links, frames and the timing fibre (R36, R408 to R426). -/
namespace Sys2Proof.Machine

/-! ### Links -/

/-- A bit of FAB_GRP_EVT (R450). -/
def State.grpBit (s : State) (i : Nat) : State := { s with grp := { s.grp with evt := setBit s.grp.evt i } }

/-- State of fabric link k replaced. -/
def State.setLink (s : State) (k v : Nat) : State := { s with fab := { s.fab with link := smSet (fun _ => 0) s.fab.link k v } }

/-- Position one step on in a torus direction (R408). -/
def neighbourPos (p d : Nat) : Nat :=
  let unit := if d < 2 then 1 else if d < 4 then 4 else 16
  let x := p / unit % 4
  p - x * unit + ((if d % 2 = 0 then x + 1 else x + 3) % 4) * unit

/-- The check of R412 for the far end of fabric link k. -/
def State.peerOk (s : State) (k : Nat) (p : Peer) : Bool :=
  let rack := p.addr.toNat / 64
  p.lane == k % 4 &&
  (if k < 24 then rack == s.fab.rack.toNat && p.addr.toNat % 64 == neighbourPos s.fab.pos.toNat (k / 4) && p.dir == (if k / 4 % 2 = 0 then k / 4 + 1 else k / 4 - 1)
   else rack != s.fab.rack.toNat)

/-- FABRIC_LINK_TRAINING (R409 to R412): the link comes up on 8 or 4 lanes if its far end passes the check, and is down otherwise. Training enables a
port that the eye-safety limit had disabled (R455). A failed optical die trains nothing, nor does an unassigned package. -/
def execFabricLinkTraining (k : Fin 32) (r : LaneResult) (peer : Option Peer) (s : State) : Out :=
  if s.power ≠ 0 || !s.fab.launch || !s.fab.present || s.fab.rack == 1023 || s.fab.optFailed.contains (k.val % 4) then .next s
  else
    let s := { s with fab := { s.fab with eyeOff := s.fab.eyeOff.filter fun e => e ≠ (k.val % 4, k.val / 4) } }
    match r, peer with
    | .down, _ => .next (s.setLink k.val 0)
    | _, none => .next (s.setLink k.val 0)
    | r, some p =>
      if p.addr = s.addr then .next ((s.setLink k.val 0).grpBit 1)
      else if !s.peerOk k.val p then .next ((s.setLink k.val 0).grpBit 0)
      else
        let s := { s with fab := { s.fab with peers := smSet (fun _ => 0) s.fab.peers k.val p.addr.toNat } }
        .next (s.setLink k.val (if r = .lanes8 then 2 else 1))

/-- Link k degrades or goes down; the end with the higher Skeist address raises a package fault if the running almanac uses it (R17, R410). -/
def State.linkLoss (s : State) (k v : Nat) : State :=
  if s.flink k ∈ [1, 2] then
    let s1 := s.setLink k v
    if s.usesLink (1024 + k) && decide (smGet (fun _ => 0) s.fab.peers k < s.addr.toNat) then s1.packageFault 0 else s1
  else s

/-- FABRIC_LANE_FAIL (R410): the link goes on with 4 lanes, or is down. -/
def execFabricLaneFail (k : Fin 32) (fourLeft : Bool) (s : State) : Out :=
  if s.power ≠ 0 then .next s else .next (s.linkLoss k.val (if fourLeft then 1 else 0))

/-- EYE_SAFETY_DISABLE (R36): position `port` of the optical die's housing goes dark: fabric link 4 × port + o below position 8; at position 8 FE0, the management port or FE1, while the
timing fibre of O2 only receives (R577). -/
def execEyeSafetyDisable (o : Fin 4) (port : Nat) (s : State) : Out :=
  if s.power ≠ 0 || decide (9 ≤ port) || (decide (port = 8) && o == 2) then .next s
  else
    let s := { s with fab := { s.fab with eyeOff := addNew s.fab.eyeOff (o.val, port) } }
    .next (if port < 8 then s.linkLoss (4 * port + o.val) 0 else s)

/-- OPTICAL_DIE_FAIL (R36): its links are down; O2 takes the timing input with it, and any other die raises a package fault. -/
def execOpticalDieFail (o : Fin 4) (s : State) : Out :=
  if s.power ≠ 0 || s.fab.optFailed.contains o.val then .next s
  else
    let s := { s with fab := { s.fab with optFailed := s.fab.optFailed ++ [o.val] } }
    if o = 2 then .next ((List.range 8).foldl (fun s j => s.linkLoss (4 * j + o.val) 0) s).enterHoldover
    else .next (((List.range 8).foldl (fun s j => s.setLink (4 * j + o.val) 0) s).packageFault 0)

/-! ### Frames -/

/-- The tag in force in the tick with a low half of the count: this tick or the one before (R420). -/
def State.tagIn (s : State) (t : BitVec 16) : Option W32 :=
  if t = s.tick.count.setWidth 16 then some (recordTag s.grp.tickRecord)
  else if t = (s.tick.count - 1).setWidth 16 then some (recordTag s.grp.prevRecord)
  else none

/-- Flits of a frame enter the network at the optical die of its lane, each from its own sender. -/
def State.takeFlits (s : State) (f : Frame) : State :=
  f.flits.foldl (fun s b => s.inject (1000 * b.hdr.srcMember + b.hdr.srcCore) (asDie (28 + f.link.val % 4)) 0 none none [b]) s

/-- DATA_FRAME (R300, R420): the receiving optical die checks the frame's words; a frame for this package with the tag of its tick hands it its flits, and any other DATA frame counts in
TAG_DROP. -/
def execDataFrame (i : FrameIn) (s : State) : Out :=
  let f := i.frame
  if s.power ≠ 0 || f.typ ≠ 0 || f.dest ≠ s.addr || !decide (s.flink f.link.val ∈ [1, 2]) then .next s
  else .next (checkWords s (asDie (28 + f.link.val % 4)) i.ecc fun s => if s.tagIn f.tick = some f.tag then s.takeFlits f else s.grpBit 2)

/-- VC of a transit frame on its way out by an exit, having come in on a link: D0 again on a turn, D1 past a dateline; VC C stays (R415). -/
def transitVc (pos fvc link code : Nat) : Nat :=
  if fvc = 0 then 0
  else if crossesDateline pos code then 2
  else if decide (code < 6) && link / 4 / 2 == code / 2 then fvc else 1

/-- The flits of a frame in transit at the optical die of its lane, to leave by the frame's link (R416): control flits in VC C. -/
def State.takeTransit (s : State) (g : Frame) (arrival : Fin 32) : State :=
  s.injectVia (4000 + arrival.val) (asDie (28 + arrival.val % 4)) (g.flits.map fun b => { b with hdr := { b.hdr with vc := if g.fvc = 0 then 0 else 1 } }) { g with flits := [] }

/-- TRANSIT_FRAME (R300, R413 to R416, R418): a frame for another address passes the check of its words and waits at the optical die of its lane for slots of its exit port, which its flits are
granted in their own classes; one with no way on, with 32 hops, or of a type that R420 does not list is discarded. -/
def execTransitFrame (i : FrameIn) (s : State) : Out :=
  let f := i.frame
  let code := s.exitCode f.dest
  let k := exitLink code (f.link.val % 4)
  if s.power ≠ 0 || f.dest = s.addr || !s.fab.present || decide (8 ≤ code) || !decide (s.flink k ∈ [1, 2]) || !decide (s.flink f.link.val ∈ [1, 2])
      || decide (32 ≤ f.hops + 1) || decide (5 < f.typ) then .next s
  else
    let g := { f with hops := f.hops + 1, link := asLink k, fvc := transitVc s.fab.pos.toNat f.fvc f.link.val code }
    .next (checkWords s (asDie (28 + f.link.val % 4)) i.ecc fun s => s.takeTransit g f.link)

/-- STAMP_FRAME (R420, R421): a member's stamp with the tag of its tick is recorded for the next apply point. -/
def execStampFrame (tag : W32) (p : Stamp) (s : State) : Out :=
  let known := s.grp.stamps.any fun x => x.tick == p.tick && x.member == p.member
  if s.power ≠ 0 || s.grp.state == .spare || known || decide (p.member = s.member) || decide (s.grp.record.members ≤ p.member) then .next s
  else if s.tagIn (p.tick.setWidth 16) = some tag then .next { s with grp := { s.grp with stamps := s.grp.stamps ++ [p] } }
  else .next s

/-! ### Timing (R422 to R426) -/

/-- A time message of 16 bytes: its timing count, if it begins with K28.5 and 0x01 and its CRC holds (R422). -/
def timeCount (bs : Bytes) : Option W64 :=
  if bs.length = 16 ∧ leAt bs 0 2 = 0x01BC ∧ BitVec.ofNat 32 (leAt bs 12 4) = crc32 (sliceBytes bs 1 11) then some (BitVec.ofNat 64 (leAt bs 2 8))
  else none

/-- TIME_MESSAGE (R422, R423): a good message clears the count of bad ones, and gives its timing count, corrected by TRIM, to a locked package that follows no group's epoch. -/
def execTimeMessage (bytes : Bytes) (s : State) : Out :=
  if s.power ≠ 0 then .next s
  else match timeCount bytes with
    | some t =>
      let take := s.fab.lock && s.grp.state == .spare
      .next { s with fab := { s.fab with badMsgs := 0, count := if take then t + BitVec.ofNat 64 (s.fab.trim.toNat % 2 ^ 16 / 128) else s.fab.count } }
    | none => .next { s with fab := { s.fab with badMsgs := s.fab.badMsgs + 1 } }

/-- TIMING_LOCK (R422, R426): the package locks; out of holdover it slews back within 50 ns, and otherwise asks for a leap tick in which it steps. -/
def execTimingLock (within50ns : Bool) (s : State) : Out :=
  if s.power ≠ 0 || s.fab.optFailed.contains 2 then .next s
  else
    let was := s.fab.holdover
    let s := { s with fab := { s.fab with lock := true, badMsgs := 0 } }
    if !was then .next s
    else if within50ns then .next { s with fab := { s.fab with holdover := false } }
    else .next ({ s with fab := { s.fab with stepDue := true } }.askLeap 2)

/-- HOLDOVER (R422, R426): two time messages in a row were missing or bad, or O2 has failed. -/
def execHoldover (s : State) : Out :=
  if s.power ≠ 0 || !(decide (2 ≤ s.fab.badMsgs) || s.fab.optFailed.contains 2) then .next s else .next s.enterHoldover

end Sys2Proof.Machine
end

