-- ==== Sys2Proof/Machine/Patch.lean ====
section
/-! DEFINITION. Almanac patches (R123, R124, R197 to R200, R430). -/
namespace Sys2Proof.Machine

/-! ### Staging -/

/-- The bytes of a section that begins at `base` with a write at address a laid over them. -/
def overlay (base : Nat) (content : Bytes) (a : Nat) (bs : Bytes) : Bytes :=
  (enum content).map fun x => if a ≤ base + x.1 ∧ base + x.1 < a + bs.length then nth 0 bs (base + x.1 - a) else x.2

/-- Core-store address of an auxiliary section of a core: constants, program, recipes (R387). -/
def sectionBase (a : Almanac) (x : AuxSec) : Nat :=
  match a.cores.find? fun e => e.core == x.unit with
  | some e => if x.kind = 2 then e.progBase else if x.kind = 6 then 16 * e.recipeTab else x.loadAddr
  | none => x.loadAddr

/-- The sections in force with the writes of a patch laid over those of the cores' stores. -/
def patchAux (a : Almanac) (aux : List AuxSec) (ws : List (Nat × Nat × Bytes)) : List AuxSec :=
  aux.map fun (x : AuxSec) =>
    if x.kind = 1 ∨ x.kind = 2 ∨ x.kind = 6 then
      ws.foldl (fun (x : AuxSec) w => if w.1 = x.unit then { x with content := overlay (sectionBase a x) x.content w.2.1 w.2.2 } else x) x
    else x

/-- The writes of a patch in the cores' stores and in the sections in force. -/
def State.patchStores (s : State) (a : Almanac) (ws : List (Nat × Nat × Bytes)) : State :=
  let s := { s with aux := patchAux a s.aux ws }
  ws.foldl (fun s w => s.modCore (asCore w.1) fun k => k.storeAt w.2.1 w.2.2) s

/-- The bytes of a core's recipe i, and the static channels of its layer: from the sections of the image, or where there is none from what the core store holds. -/
def State.recipeIn (s : State) (e : CoreEnt) (i : Nat) : Bytes × Nat :=
  let k := s.core (asCore e.core)
  ((match auxOf s.aux 6 e.core with
    | some r => sliceBytes r.content (16 * i) 16
    | none => readBytes k.store (16 * e.recipeTab + 16 * i) 16),
   match auxOf s.aux 1 e.core with
    | some c => leAt c.content (0x20_0000 + 16 * i + 3) 1 % 128
    | none => (k.layerDir i).scnt)

/-- Every recipe is legal (R124). -/
def State.recipesOk (s : State) (a : Almanac) : Bool :=
  a.cores.all fun e => (List.range e.layers).all fun i => recipeOk (s.recipeIn e i).1 (s.recipeIn e i).2

/-- Every stamp path of a record is short enough for a period in 12.5 ns steps (R430). -/
def pathsOk (r : GroupRecord) (p : Nat) : Bool :=
  (List.range r.members).all fun i => (List.range r.members).all fun j =>
    i == j || decide (Config.pathDelay (nth 0 r.memberPos i).toNat (nth 0 r.memberPos j).toNat + 1024 ≤ 128 * p)

/-- The patch is structural (R200). -/
def isStructural (a b : Almanac) (ws : List (Nat × Nat × Bytes)) : Bool :=
  a.slots != b.slots || a.stages != b.stages || a.routes != b.routes || a.period != b.period
  || ws.any fun w => b.cores.any fun e => e.core == w.1 && decide (w.2.1 < e.progBase + e.progLen ∧ e.progBase < w.2.1 + w.2.2.length)

/-- ALM_PATCH (R197): staged with its target and validated; BUSY while a patch or an activation is staged (R482). -/
def execAlmPatch (h : HostCmd) (addr : W64) (len : W32) (target : W48) (s : State) : Out :=
  if !s.handles h 0x30 then .next s
  else if !s.inCarve addr.toNat len.toNat then .next (s.completeCmd h 0x30 0x102 [])
  else if s.tick.patch.isSome || s.fw.act.isSome then .next (s.completeCmd h 0x30 0x108 [])
  else match s.alm with
    | none => .next (s.completeCmd h 0x30 0x103 [])
    | some a =>
      let bs := readBytes (s.carve (s.ring h.set.val).owner) addr.toNat len.toNat
      let raw := Config.patchAlmanac a.raw bs
      let ws := Config.patchWrites bs
      let b := almOf raw
      let t := s.patchStores b ws
      let p : Patch :=
        { alm := some b, writes := ws, target := target, moves := 0, structural := isStructural a b ws, agreed := false, cmd := h
          valid := t.almOk raw t.aux s.member && t.recipesOk b && pathsOk s.grp.record b.period }
      .next ({ s with tick := { s.tick with patch := some p } }.completeCmd h 0x30 0 [])

/-! ### Applying -/

/-- The bytes of an almanac with a PATCH_EPOCH. -/
def withEpoch (raw : Bytes) (n : W32) : Bytes := raw.take 48 ++ leBytes 4 n.toNat ++ raw.drop 52

/-- The group almanac digest after a patch (R199, R385): over the members' almanacs in member order, those of the others as they hold them (free, log 17). -/
def State.groupDigest (s : State) (raw : Bytes) (epoch : W32) : BitVec 256 :=
  digest ((List.range (max 1 s.grp.record.members)).flatMap fun m =>
    if m = s.member || s.grp.record.members ≤ 1 then raw else Config.peerAlmanac m epoch.toNat)

/-- A patch applies (R199, R200, R330): the patched almanac with its epoch, the writes, the windows and receive maps, the digest; a change of P sets the
budgets, but for a die whose budget a change set at the same apply point (R539). -/
def State.applyPatch (s : State) (p : Patch) : State :=
  match s.alm, p.alm with
  | some a, some b =>
    let raw := withEpoch b.raw (a.patchEpoch + 1)
    let b := almOf raw
    let s := s.patchStores b p.writes
    let s := if p.structural then b.cores.foldl (fun s e => s.placeCore b s.aux e) s else s
    let newP := decide (b.period ≠ s.tick.basePeriod)
    let s := { s with
      alm := some b
      tick := { s.tick with patch := none, basePeriod := b.period }
      grp := { s.grp with record := { s.grp.record with almanacDigest := s.groupDigest raw b.patchEpoch, patchEpoch := b.patchEpoch } } }
    let s := if newP then [0, 1].foldl (fun s d => if s.tick.budgetSet.contains d then s else s.modSd d fun x => { x with budget := attnBudget b.period }) s else s
    s.patchEnd 0
  | _, _ => s

/-- Stamps of the previous eve from the members that stamp: the vote of each, 0 for one that is missing. -/
def State.votes (s : State) (ms : List Nat) : List Nat :=
  ms.map fun m => match s.grp.stamps.find? fun x => x.tick == s.tick.count - 1 && x.member == m with
    | some x => x.patchVote
    | none => 0

/-- A staged patch at an apply point (R198, R200): before its target it waits; then it applies with READY from every member, is refused by any REFUSE, or
its target moves. A structural patch waits for STRUCTURAL_PATCH_APPLY, and its moves count only in an empty pipeline. -/
def State.patchStep (s : State) (ms : List Nat) : State :=
  match s.tick.patch with
  | none => s
  | some p =>
    let n := s.tick.count + 1
    let vs := s.votes ms
    let ready := vs.all (· == 1)
    let put (q : Patch) : State := { s with tick := { s.tick with patch := some q } }
    if laterThan p.target n || decide (16 < p.moves) then put { p with agreed := p.agreed || (p.structural && ready) }
    else if vs.any (· == 2) then s.refusePatch
    else if ready then (if p.structural then put { p with agreed := true, target := n } else s.applyPatch p)
    else
      let counts := !p.structural || s.srv.lanes.isEmpty
      put { p with target := if p.moves < 16 ∨ !counts then n + 1 else p.target, moves := if counts then p.moves + 1 else p.moves }

/-- The verdict taken at this apply point was lost: the current tick is void (R176). -/
def State.lostNow (s : State) : Bool := s.tick.hist.any fun r => r.tick == s.tick.count && r.void

/-- STRUCTURAL_PATCH_APPLY (R200, R528): at the first apply point with no lane in flight and no lost verdict; a leap tick follows. -/
def execStructuralPatchApply (s : State) : Out :=
  match s.tick.patch with
  | none => .next s
  | some p =>
    if s.power ≠ 0 || s.tick.phase ≠ .applied || !p.structural || !p.agreed || laterThan p.target (s.tick.count + 1) || !s.srv.lanes.isEmpty || s.lostNow
    then .next s
    else
      let s := s.applyPatch p
      .next { s with tick := { s.tick with leapNext := true }, reducers := [] }

/-- PATCH_ROLLBACK (R198, R482, R484): the patch, or the activation, could not apply after 16 moves; an activation with AUTO is pending again. -/
def execPatchRollback (s : State) : Out :=
  let ended (s : State) : State := ({ s with tick := { s.tick with event := setBit s.tick.event 8 } }).patchEnd 2
  if s.power ≠ 0 || s.tick.phase ≠ .applied then .next s
  else match s.tick.patch, s.fw.act with
    | some p, _ => if p.moves ≤ 16 then .next s else .next (ended { s with tick := { s.tick with patch := none } })
    | none, some a => if a.moves ≤ 16 then .next s
      else .next (ended { s with fw := { s.fw with act := none, pendingAuto := s.fw.pendingAuto || a.auto } })
    | none, none => .next s

end Sys2Proof.Machine
end

