-- ==== Sys2Proof/Machine/Group.lean ====
section
/-! DEFINITION. Model groups: stamps that are due, skews, convenings, rulings, fencing, failover (R425 to R445, R530 to R532). -/
namespace Sys2Proof.Machine

/-! ### Members and stamps -/

/-- The members whose stamps the package expects: of the record of the current tick, but for those whose place a failover fills and whose replacement has not begun to stamp. -/
def State.stampers (s : State) : List Nat :=
  if s.grp.state == .spare then [s.member]
  else (List.range s.grp.tickRecord.members).filter fun m => !(s.grp.inFailover && s.grp.fencedOut.contains m && !(s.grp.stamps.any fun x => x.member == m))

/-- A member's stamp of a tick. -/
def State.stampOf (s : State) (t : W48) (m : Nat) : Option Stamp := s.grp.stamps.find? fun x => x.tick == t && x.member == m

/-! ### Skews (R425) -/

/-- Index of the lowest Skeist address among the members of a record: the reference member. -/
def referenceMember (r : GroupRecord) : Nat := nth 0 (memberOrder r) 0

/-- Direction or bundle of the links that join two packages directly: 0 to 5 by their positions, 6 and 7 for the trunk bundles, whose far ends the rack wiring sets (R408, R409; free, log 21). -/
def joinedBy (a b : Nat) : Option Nat :=
  if a / 64 = b / 64 then (List.range 6).find? fun d => neighbourPos (a % 64) d == b % 64
  else ([6, 7] : List Nat).find? fun d => Config.trunkEnd a (d - 6) == some b

/-- Members joined directly to a member of a record, with the offset that the member's stamp of tick t gives: rising member index. -/
def State.linkOffsets (s : State) (t : W48) (m : Nat) : List (Nat × Int) :=
  let r := s.grp.tickRecord
  let a := (nth 0xFFFF r.memberPos m).toNat
  match s.stampOf t m with
  | none => []
  | some x => (List.range r.members).filterMap fun v =>
      let b := (nth 0xFFFF r.memberPos v).toNat
      if v = m then none else ((joinedBy a b).bind fun d => nth none x.offs d).map fun o => (v, o)

/-- An offset as its stamp holds it: 16 bits with a sign, and 0x8000 for none (R421; DESIGN CHOICE, log 21: a larger one saturates). -/
def publishedOffset (v : Int) : Int := max (-32767) (min 32767 v)

/-- The offset θ to the member at the far end of direction or bundle d, in phase units (R425): `none` where no member lies there or its stamp of the eve before is missing. -/
def State.offset (s : State) (d : Nat) : Option Int :=
  let t := s.tick.count
  match s.others.find? fun v => joinedBy s.addr.toNat (s.memberAddr v).toNat == some d with
  | none => none
  | some v => (s.stampOf (t - 1) v).map fun x =>
      let fore := Config.linkTime t.toNat d true - x.tTx
      let back := Config.linkTime (t - 1).toNat d false - x.tRx
      publishedOffset (Int.ediv (fore.toInt + back.toInt) 2)

/-- One sweep of the breadth-first tree: members reached, with their offsets from the reference member, own eve minus the reference's. -/
def State.spread (s : State) (t : W48) (known : List (Nat × Int)) : List (Nat × Int) :=
  known.foldl (fun l u => (s.linkOffsets t u.1).foldl (fun (l : List (Nat × Int)) v =>
    if l.any fun x => x.1 == v.1 then l else l ++ [(v.1, u.2 - v.2)]) l) known

/-- The offsets of the members from the reference member by the stamps of tick t. -/
def State.treeOffsets (s : State) (t : W48) : List (Nat × Int) :=
  (List.range 16).foldl (fun l _ => s.spread t l) [(referenceMember s.grp.tickRecord, 0)]

/-- The skew of a member: its offset minus the lower median of all; `none` where no tree reaches it. -/
def State.skewOf (s : State) (t : W48) (m : Nat) : Option Int :=
  let os := s.treeOffsets t
  (os.find? fun x => x.1 == m).map fun x => x.2 - lowerMedian (os.map Prod.snd)

/-- A skew of more than 50 ns. -/
def skewBad (x : Option Int) : Bool := match x with | some v => decide (512 < v.natAbs) | none => false

/-- SKEW_SLEW (R425): the own skew is kept, and the eve phase moves toward zero skew by at most 1 ns, in hundredths of a phase unit. -/
def State.slew (s : State) (t : W48) : State :=
  match s.skewOf t s.member with
  | none => s
  | some v =>
    let d : Int := min (100 * v.natAbs) 1024
    let move : Int := if v.natAbs ≤ 512 then (if 0 ≤ v then -d else d) else 0
    { s with fab := { s.fab with skew := v, evePhase := s.fab.evePhase + move } }

/-! ### Calling a convening (R431) -/

/-- The stamps of tick t, or a request, call a convening. A hold tick's CONVENING flag calls none. -/
def State.mustConvene (s : State) (t : W48) : Bool :=
  let wasHold := s.tick.hist.any fun r => r.tick == t && r.hold
  let known := s.tick.hist.any fun r => r.tick == t
  let eve := (s.stampOf t s.member).map Stamp.eveCount
  s.grp.forming.isSome || s.grp.newSpares.isSome ||
  (s.grp.state != .spare &&
    (!s.grp.left.isEmpty || known && s.stampers.any fun m => match s.stampOf t m with
      | none => true
      | some x => (x.convening && !wasHold) || x.fault || (eve.isSome && some x.eveCount != eve) || skewBad (s.skewOf t m)))

/-- CONVENING_CALL (R431, R432): a convening hold from the next tick. A load that has not begun to write ends with MEMBER (R531). -/
def State.callConvening (s : State) : State :=
  let s := match s.grp.forming with
    | some r => { s with
        member := r.memberPos.findIdx (· == s.addr)
        grp := { s.grp with record := r, forming := none } }
    | none => s
  let s := { s with grp := { s.grp with state := .convening, holdFrom := s.tick.count + 1, holdSteps := 0, round := 0, ruling := none, rulingOut := none } }
  let s := (s.grpBit 3).post 0x07 2 26 (leBytes 1 0 ++ leBytes 4 s.grp.record.epoch.toNat)
  s.endLoad 8

/-- The CONVENE frame of the package in the current tick (R420). -/
def State.ownConvene (s : State) : Convene :=
  { groupId := s.grp.record.groupId, member := s.member, record := s.grp.record, tick := s.tick.count, lastCommit := s.grp.lastCommit
    eveCount := s.fab.count.setWidth 32, fault := s.grp.fault, holdover := s.fab.holdover }

/-- CONVENE frames kept: the latest of each other member, and the last four of the own. -/
def keepConvene (own : Nat) (l : List Convene) (f : Convene) : List Convene :=
  if f.member = own then
    let mine := l.filter fun x => x.member == own
    (l.filter fun x => x.member != own) ++ mine.drop (mine.length - 3) ++ [f]
  else (l.filter fun x => x.member != f.member) ++ [f]

/-- CONVENE_SEND (R432): a CONVENE frame to every member of the record in every tick of a convening hold. -/
def State.sendConvene (s : State) : State :=
  if s.grp.state != .convening then s
  else
    let f := s.ownConvene
    { s.sendFrames (s.others.map fun m => .convene (s.memberAddr m) f) with
      grp := { s.grp with convenes := keepConvene s.member s.grp.convenes f } }

/-- CONVENE_FRAME (R432): a frame of the own group is kept. -/
def execConveneFrame (f : Convene) (s : State) : Out :=
  let r := s.grp.record
  if s.power ≠ 0 || f.groupId ≠ r.groupId || r.members == 0 || decide (r.members ≤ f.member) || f.member == s.member then .next s
  else .next { s with grp := { s.grp with convenes := keepConvene s.member s.grp.convenes f } }

/-! ### Rulings (R433 to R435) -/

/-- The leader marks member m KEEP (R434). A member's TICK agrees when an own frame carries the same tick count at the same timing count. -/
def State.keeps (s : State) (m : Nat) : Bool :=
  match (s.grp.convenes.filter fun f => f.member == m).reverse with
  | [] => false
  | f :: _ => f.record == s.grp.record && !f.fault && !skewBad (s.skewOf (s.tick.count - 1) m)
      && s.grp.convenes.any fun g => g.member == s.member && g.tick == f.tick && g.eveCount == f.eveCount

/-- The first spare of a list that qualifies for a member's place (R438). -/
def State.pickSpare (s : State) (old : BitVec 16) (l : List (BitVec 16)) : Option (BitVec 16) :=
  l.find? fun a => a != 0xFFFF && a.toNat / 64 == old.toNat / 64 && Config.spareFit a.toNat s.tick.count.toNat

/-- A record with the members of a list replaced by qualifying spares; NO_SPARE is set where none qualifies (R438). -/
def State.replaceMembers (s : State) (r : GroupRecord) (ms : List Nat) : State × GroupRecord :=
  ms.foldl (fun (x : State × GroupRecord) m =>
    match x.1.pickSpare (nth 0xFFFF x.2.memberPos m) x.2.sparePos with
    | some a =>
      let l := x.2.sparePos.erase a
      (x.1, { x.2 with memberPos := x.2.memberPos.set m a, sparePos := l ++ List.replicate (4 - l.length) 0xFFFF })
    | none => (x.1.grpBit 8, x.2)) (s, r)

/-- The earliest of some ticks (R164). -/
def minTick (a b : W48) : W48 := if laterThan a b then b else a

/-- REVERT (R436): the smallest LAST_COMMIT of the members kept. -/
def State.revertTick (s : State) (keep : List Nat) : W48 :=
  let cs := keep.filterMap fun m => (s.grp.convenes.filter fun f => f.member == m).reverse.head?.map Convene.lastCommit
  cs.foldl minTick s.grp.lastCommit

/-- Almanac sequence number of a tick (DEDUCED, log 29); that of now where the tick is no longer recorded. -/
def State.seqAt (s : State) (t : W48) : W48 :=
  match s.tick.hist.find? fun r => r.tick == t with
  | some r => r.seq
  | none => s.tick.seq

/-- The ruling of this leader for the members kept (R433, R434, R438). -/
def State.makeRuling (s : State) (keep : List Nat) (at_ : W48) : State × Ruling :=
  let r := s.grp.record
  let r := match s.grp.newSpares with | some l => { r with sparePos := l } | none => r
  let x := s.replaceMembers r ((List.range r.members).filter fun m => !keep.contains m)
  let t := s.revertTick keep
  (x.1, { groupId := r.groupId, sender := s.member, record := { x.2 with epoch := r.epoch + 1, tickEpoch := at_ + 1 }
          keep := BitVec.ofNat 16 (keep.foldl (fun v m => v + 2 ^ m) 0), revert := t, seq := s.seqAt t, round := s.grp.round, leader := s.member })

/-- CONVENING_RULING (R433 to R435): at its apply point the round's leader rules, if it has a quorum and raises no fault. -/
def execConveningRuling (s : State) : Out :=
  let r := s.grp.record
  let due := s.tick.count == s.grp.holdFrom + BitVec.ofNat 48 (7 + 16 * s.grp.round)
  if s.power ≠ 0 || s.tick.phase ≠ .applied || s.grp.state != .convening || !due || roundLeader r s.grp.round != s.member || s.grp.fault
      || !s.fw.sch.runs || s.grp.rulingOut.isSome then .next s
  else
    let keep := (List.range r.members).filter s.keeps
    let n := 2 * keep.length
    if n < r.members || (n == r.members && referenceMember r != s.member) then .next s
    else
      let at_ := s.tick.count + 2
      let x := s.makeRuling keep at_
      if !pathsOk x.2.record s.tick.basePeriod then .next s
      else .next { x.1 with grp := { x.1.grp with rulingOut := some x.2, ruling := some x.2, rulingAt := at_, newSpares := none } }

/-- RULING (R433): kept only from the leader of the current round, or in a failover hold from the leader that rules again (R438). -/
def execRuling (f : Ruling) (s : State) : Out :=
  let r := s.grp.record
  if s.power ≠ 0 || f.groupId ≠ r.groupId || r.members == 0 || f.sender ≠ f.leader then .next s
  else if s.grp.state == .convening then
    if f.sender ≠ roundLeader r s.grp.round || f.round ≠ s.grp.round then .next s
    else .next { s with grp := { s.grp with ruling := some f, rulingAt := s.grp.holdFrom + BitVec.ofNat 48 (9 + 16 * s.grp.round) } }
  else if s.grp.state == .failover then .next { s with grp := { s.grp with ruling := some f, rulingAt := s.tick.count + 1 } }
  else .next s

/-- The pending RULING goes to every member of the record (R433). -/
def State.sendRuling (s : State) : State :=
  match s.grp.rulingOut with
  | none => s
  | some f => { s.sendFrames (s.others.map fun m => .ruling (s.memberAddr m) f (s.tick.count.setWidth 16)) with grp := { s.grp with rulingOut := none } }

/-- CONVENING_ROUND_END (R433, R435): the last tick of a round ends with no ruling; after 16 rounds they begin again. -/
def execConveningRoundEnd (s : State) : Out :=
  let last := s.tick.count == s.grp.holdFrom + BitVec.ofNat 48 (15 + 16 * s.grp.round)
  if s.power ≠ 0 || s.tick.phase ≠ .applied || s.grp.state != .convening || !last || s.grp.ruling.isSome then .next s
  else if s.grp.round + 1 < 16 then .next { s with grp := { s.grp with round := s.grp.round + 1 } }
  else .next { s with grp := { s.grp with round := 0, holdFrom := s.tick.count + 1 } }

/-! ### Fencing (R437) -/

/-- The scheduler core's queued commands are lost (R530). -/
def State.dropQueue (s : State) : State :=
  let q := nth [] s.rings.queues 0
  let s := q.foldl (fun s (e : QCmd) => let r := s.ring e.set; s.setRing e.set { r with reserved := r.reserved - 1 }) s
  { s with rings := { s.rings with queues := s.rings.queues.set 0 [], begun := s.rings.begun.filter fun e => queueOf e.opcode != 0 } }

/-- What a member of a group holds for its model goes: requests, lanes, staged effects, pages, the almanac, the generation, loads. Flits in transit stay (R437). -/
def State.dropModel (s : State) : State :=
  let s := [0, 1].foldl (fun s d => s.modSd d fun x => { x with dirs := [], pages := [], alloc := [], resv := [], jobs := [], reports := [] }) s
  { s with
    alm := none, aux := [], genActive := 0, genStaged := 0, loadPhase := 0, reducers := [], inbox := [], outbound := [], wire := []
    flits := s.flits.filter fun f => f.via.isSome
    grp := { s.grp with reqEscrow := [], reqSent := [] }
    srv := { s.srv with reqs := [], lanes := [], fills := [], draws := [], kept := [], kv := [], refusals := [], ledger := [], laneLog := [] }
    tick := { s.tick with patch := none, recovery := none, leapNext := false, leapReqs := s.tick.leapReqs.filter (· != 4) }
    load := { s.load with
      reader := false, begin := none, endCmd := none, answers := [], metadata := [], almanacs := [], feeds := [], fed := [], own := [], escrow := [], escrowOnly := false, oldMeta := []
      oldEscrow := [], lost := [], staged := false, writtenVote := false, resident := [], bankDone := [], ended := none } }

/-- FENCE (R437): the package stops its group frames and is a spare with no generation in force. -/
def State.fence (s : State) : State :=
  let ep := s.grp.record.epoch
  let s := s.dropQueue.dropModel
  let s := { s with
    fw := { s.fw with act := none }
    grp := { s.grp with
      record := noRecord, state := .spare, fenced := true, stamps := [], convenes := [], ruling := none, rulingOut := none, left := [], forming := none
      newSpares := none, joining := none, sentJoins := [], unfilled := [], inFailover := false, restoring := false, escrowMissing := false
      fencedOut := [], ready := false } }
  (s.grpBit 4).post 0x07 2 26 (leBytes 1 2 ++ leBytes 4 ep.toNat)

/-- GROUP_SPLIT (R435): no ruling has applied 1 s after the hold began. -/
def execGroupSplit (s : State) : Out :=
  if s.power ≠ 0 || s.grp.state != .convening || decide (s.grp.holdSteps < 80_000_000) then .next s
  else
    let ep := s.grp.record.epoch
    .next ((s.fence.grpBit 5).post 0x07 2 26 (leBytes 1 5 ++ leBytes 4 ep.toNat))

/-! ### Applying a ruling (R436, R438, R532) -/

/-- NEXT of a request after a ruling (R436): the lowest position in flight at the end of tick REVERT, or entered since; NEXT where none was. -/
def State.revertNext (s : State) (t : W48) (i : Nat) : Nat :=
  let old := match s.srv.laneLog.find? fun e => e.1 == t with
    | some e => e.2
    | none => []
  let since := (s.srv.laneLog.filter fun e => laterThan e.1 t).flatMap Prod.snd ++ s.srv.lanes.map Lane.tag
  ((old ++ since).filter fun x => x.req == i).foldl (fun n x => min n x.pos) (s.req i).next

/-- Requests after a ruling (R327, R331, R436): NEXT reverts, pending positions, steps and everything staged go, PEND is 0; the ledger counts no lane that is entered again. -/
def State.revertRequests (s : State) (t : W48) : State :=
  let s := (s.srv.reqs.map Prod.fst).foldl (fun s i =>
    let n := s.revertNext t i
    let s := [0, 1].foldl (fun s d => s.modSd d fun x => (x.dropFrom i (x.dir i).len).modDir i fun h => { h with pend := 0 }) s
    s.modReq i fun r => { r with next := n, step := none }) s
  { s.eachCore (fun k => { k with fails := [] }) with
    srv := { s.srv with lanes := [], draws := [], kv := [], refusals := [], kept := [], fills := [], ledger := [] } }

/-- R532: every staged patch, activation and armed group change is discarded; an activation with AUTO is pending again (R484). -/
def State.dropStaged (s : State) : State :=
  let s := s.refusePatch
  let auto := match s.fw.act with | some a => a.auto | none => false
  let s := { s with fw := { s.fw with act := none, pendingAuto := s.fw.pendingAuto || auto } }
  if s.chg.group && s.chg.armed.isSome then { s with chg := { s.chg with armed := none, aMoves := 0, result := 3 } } else s

/-- Members that a ruling replaces, with their new addresses. -/
def replaced (old new : GroupRecord) : List (Nat × BitVec 16) :=
  (List.range old.members).filterMap fun m => if nth 0xFFFF old.memberPos m ≠ nth 0xFFFF new.memberPos m then some (m, nth 0xFFFF new.memberPos m) else none

/-- A JOIN to each of some replacements (R438): N0 lies eight ticks after the current one. -/
def State.sendJoins (s : State) (l : List (Nat × BitVec 16)) : State :=
  let js := l.map fun x : Nat × BitVec 16 =>
    (⟨x.2, s.grp.record, x.1, s.tick.count + 8, s.fab.count + BitVec.ofNat 64 (8 * s.tick.pEff), s.tick.seq⟩ : Join)
  { s.sendFrames (js.map fun j => .join j (s.tick.count.setWidth 16)) with grp := { s.grp with sentJoins := s.grp.sentJoins ++ js } }

/-- The leader's JOINs after its ruling, and the members whose place stays theirs (R438). -/
def State.leadFailover (s : State) (f : Ruling) (old : GroupRecord) (fs : List Nat) : State :=
  if f.leader ≠ s.member then s
  else
    let l := replaced old f.record
    let s := { s with grp := { s.grp with
      sentJoins := s.grp.sentJoins.filter fun j => !fs.contains j.member
      unfilled := (s.grp.unfilled.filter fun m => !fs.contains m) ++ fs.filter fun m => !(l.any fun x => x.1 == m) } }
    s.sendJoins l

/-- A fenced member in whose place no spare qualified becomes the replacement itself once its reload has completed: the leader sends it a JOIN (R438). -/
def State.rejoinFenced (s : State) : State :=
  let ms := s.grp.unfilled.filter fun m => Config.spareFit (s.memberAddr m).toNat s.tick.count.toNat
  if s.grp.state != .failover || ms.isEmpty then s
  else { s.sendJoins (ms.map fun m => (m, s.memberAddr m)) with grp := { (s.sendJoins (ms.map fun m => (m, s.memberAddr m))).grp with unfilled := s.grp.unfilled.filter fun m => !ms.contains m } }

/-- Places of the bank positions in the order of R439: 0, 16, 32, 48, 1, 17, …, 63. -/
def bankOrder : List Nat := (List.range 16).flatMap fun j => (List.range 4).map fun q => 16 * q + j

/-- The escrow sections of a member that an image's metadata and a staged area hold (R403, R439): the metadata region under the first index beyond the sections, then the auxiliary
sections, then each bank position of every core before the next. -/
def escrowFrames (dest : BitVec 16) (meta_ : Bytes) (held : SMap Bytes) (member : Nat) : List OutFrame :=
  let es := (enum (sectionsOf meta_)).filter fun x => x.2.member == member && held.any fun h => h.1 == x.1
  let frame (x : Nat × SecEnt) : OutFrame := .escrow dest x.1 (smGet (fun _ => []) held x.1)
  .escrow dest (sectionsOf meta_).length meta_ :: (es.filter fun x => !x.2.shard).map frame
    ++ bankOrder.flatMap fun b => (es.filter fun x => x.2.shard && x.2.kind == b).map frame

/-- The buddy of a member that a ruling replaces sends the replacement the member's sections, in the write phase of a load the new ones, and the request escrow if it keeps one (R403, R439, R440). -/
def State.sendRestores (s : State) (old : GroupRecord) (l : List (Nat × BitVec 16)) : State :=
  l.foldl (fun s x =>
    if (x.1 + 1) % old.members ≠ s.member ∨ x.1 = s.member then s
    else s.sendFrames ((if s.loadPhase = 3 then escrowFrames x.2 s.load.metadata s.load.escrow x.1 else escrowFrames x.2 s.load.oldMeta (s.load.oldEscrow.filter fun e => !s.load.lost.contains e.1) x.1)
      ++ (if s.grp.reqEscrow.isEmpty then [] else [OutFrame.requests x.2 s.grp.reqEscrow]))) s

/-- The request escrow at an apply point (R440): the home dies of the serving member send its buddy the entries that have changed since they were sent, with their history and sampling
state; the buddy keeps what it is sent (free, log 28). -/
def State.requestEscrow (s : State) : State :=
  let n := s.grp.record.members
  if s.grp.state != .serving || s.alm.isNone || decide (n < 2) then s
  else if s.servingMember = s.member then
    let changed := (s.srv.reqs.filter fun e => smGet reqDefault s.grp.reqSent e.1 != e.2)
      ++ (s.grp.reqSent.filter fun e => !(s.srv.reqs.any fun x => x.1 == e.1)).map fun e => (e.1, reqDefault e.1)
    if changed.isEmpty then s
    else { s.sendFrames [.requests (s.memberAddr ((s.member + 1) % n)) changed] with grp := { s.grp with reqSent := s.srv.reqs } }
  else if (s.servingMember + 1) % n = s.member then
    { s with grp := { s.grp with reqEscrow := (Config.peerRequests s.tick.count.toNat).foldl (fun m e => smSet reqDefault m e.1 e.2) s.grp.reqEscrow } }
  else s

/-- The restore of a fenced member has no escrow to draw on (R442): its buddy is fenced too, or is this package and has lost a section. -/
def State.escrowGone (s : State) (members : Nat) (fs : List Nat) : Bool :=
  fs.any fun m => fs.contains ((m + 1) % members) || ((m + 1) % members == s.member && !s.load.lost.isEmpty)

/-- RULING_APPLY (R436 to R438, R532): a member marked KEEP takes the record and reverts; any other is fenced. With no member fenced the next tick is a leap
tick; otherwise a failover hold begins. -/
def execRulingApply (s : State) : Out :=
  match s.grp.ruling with
  | none => .next s
  | some f =>
    if s.power ≠ 0 || s.tick.phase ≠ .applied || s.tick.count ≠ s.grp.rulingAt then .next s
    else if !f.keep.getLsbD s.member then .next s.fence
    else
      let old := s.grp.record
      let fs := (List.range old.members).filter fun m => !f.keep.getLsbD m
      let s := (s.dropStaged).revertRequests f.revert
      let s := { s with
        flits := s.flits.filter (fun f => f.via.isSome), reducers := [], inbox := [], outbound := [], wire := []
        tick := { s.tick with seq := f.seq, recovery := none, leapNext := fs.isEmpty && !s.grp.inFailover }
        grp := { s.grp with
          record := f.record, ruling := none, rulingOut := none, convenes := [], left := [], newSpares := none
          state := if fs.isEmpty && !s.grp.inFailover then .serving else .failover, inFailover := s.grp.inFailover || !fs.isEmpty
          fencedOut := s.grp.fencedOut ++ fs.filter fun m => !s.grp.fencedOut.contains m, ready := !s.grp.restoring || s.grp.ready
          stamps := s.grp.stamps.filter fun x => !fs.contains x.member
          reqSent := if fs.contains ((s.member + 1) % old.members) then [] else s.grp.reqSent } }
      let s := s.post 0x07 2 26 (leBytes 1 1 ++ leBytes 4 f.record.epoch.toNat)
      if fs.isEmpty then .next s
      else
        let s := if s.escrowGone old.members fs then { s.grpBit 9 with grp := { (s.grpBit 9).grp with escrowMissing := true } } else s
        let s := (s.grpBit 7).post 0x07 2 26 (leBytes 1 3 ++ leBytes 4 f.record.epoch.toNat)
        .next ((s.leadFailover f old fs).sendRestores old (replaced old f.record))

/-! ### Joining and restoring (R438 to R442) -/

/-- A spare takes its place (R438): member index, record, tick count before N0, timing count, sequence number; it restores in the failover hold. -/
def State.takeJoin (s : State) : State :=
  match s.grp.joining with
  | none => s
  | some f =>
    if f.dest ≠ s.addr || s.grp.state != .spare then s
    else
      let s := s.dropModel
      { s with
        member := f.member
        tick := { s.tick with count := f.n0 - 1, seq := f.seq, hist := [] }
        fab := { s.fab with count := f.t0 - BitVec.ofNat 64 s.tick.pEff }
        grp := { s.grp with
          record := f.record, tickRecord := f.record, prevRecord := f.record, state := .failover, fenced := false, fault := false, stamps := []
          joining := none, inFailover := true, restoring := true, fencedOut := [], ready := false, lastCommit := f.n0 - 1 } }

/-- JOIN (R438): named at this package's address, it takes force between two ticks. -/
def execJoin (f : Join) (s : State) : Out :=
  if s.power ≠ 0 || s.grp.state != .spare || f.dest ≠ s.addr || s.fab.rack == 1023 then .next s
  else
    let s := { s with grp := { s.grp with joining := some f } }
    .next (if s.tick.phase = .applied then s.takeJoin else s)

/-- The member of a JOIN that this leader sent has not begun to stamp at N0 (R438). -/
def State.overdue (s : State) (j : Join) : Bool :=
  (s.tick.count == j.n0 || laterThan s.tick.count j.n0) && !(s.grp.stamps.any fun x => x.member == j.member && (x.tick == j.n0 || laterThan x.tick j.n0))

/-- JOIN_TIMEOUT (R438): a spare has sent no stamp since N0; the leader rules again with the next spare. -/
def execJoinTimeout (s : State) : Out :=
  let late := (s.grp.sentJoins.filter s.overdue).map Join.member
  if s.power ≠ 0 || s.tick.phase ≠ .applied || s.grp.state != .failover || late.isEmpty || s.grp.rulingOut.isSome || s.grp.ruling.isSome || !s.fw.sch.runs then .next s
  else
    let at_ := s.tick.count + 2
    let x := s.makeRuling ((List.range s.grp.record.members).filter fun m => !late.contains m) at_
    .next { x.1 with grp := { x.1.grp with rulingOut := some x.2, ruling := some x.2, rulingAt := at_ } }

/-- The replacement's sections have all arrived, every array of them is written and graded (R439). -/
def State.restored (s : State) : Bool :=
  !s.load.metadata.isEmpty && ((enum (sectionsOf s.load.metadata)).all fun x => x.2.member != s.member || s.load.fed.contains x.1)
  && s.badWritten.isEmpty && s.allScanned

/-- ESCROW_BANK_ARRIVAL (R439): the metadata region, and then each section: its digest is checked, an auxiliary section is placed, a bank is written;
writes pause while the half is in the Critical band (R144). With everything written and graded the replacement is READY. -/
def execEscrowBankArrival (index : Nat) (content : Bytes) (s : State) : Out :=
  if s.power ≠ 0 || !s.grp.restoring || s.grp.ready || decide (s.loadPhase ≠ 0) then .next s
  else if s.load.metadata.isEmpty then
    if formatOk content && imgGen content == s.grp.record.generation then
      .next { s with load := { s.load with metadata := content, own := [], fed := [], bankDone := [], resident := [] } }
    else .next s
  else
    let done (s : State) : Out := .next (if s.badWritten.isEmpty then (if s.restored then { s with grp := { s.grp with ready := true } } else s) else s.replaceBad)
    match s.section? index with
    | none => done s
    | some e =>
      if e.member ≠ s.member || s.load.fed.contains index || content.length ≠ e.len || digest content ≠ e.digest then done s
      else if e.shard && s.critical (asCore e.unit) then .next (s.modCore (asCore e.unit) fun k => k.marginEvent 4)
      else
        let s := { s with load := { s.load with own := smSet (fun _ => []) s.load.own index content, fed := s.load.fed ++ [index] } }
        let s := if e.shard then s.writeBank (asCore e.unit) e.kind e content
          else { s with aux := s.aux ++ [(⟨e.kind, e.unit, e.load, content⟩ : AuxSec)] }
        done s

/-- Requests whose KV lay on a member that was lost: the rebuild starts at position 0 (R371, R441). A replacement takes the place of the lost one. -/
def State.orderRebuilds (s : State) : State :=
  let lost := if s.grp.restoring then [s.member] else s.grp.fencedOut
  let hit := s.memberAlms.any fun x => x.2.depths.any fun d => lost.contains d.member
  if !hit then s
  else (s.srv.reqs.map Prod.fst).foldl (fun s i =>
    let r := s.req i
    if r.state == .free || r.state == .queued || r.state == .ending then s else s.modReq i fun r => { r with rebuildAt := some 0 }) s

/-- The replacement's almanac and generation come into force (R439). -/
def State.enterService (s : State) : State :=
  if s.alm.isSome || s.load.metadata.isEmpty then s
  else match auxOf s.aux 0 0 with
    | none => s
    | some x =>
      let m := s.load.metadata
      let s := s.installAlmanac (almOf x.content) s.aux
      { s with
        genActive := imgGen m, fw := { s.fw with modelId := imgModel m }
        load := { s.load with metadata := [], oldMeta := m, own := [], fed := [], bankDone := [] } }

/-- One request of the escrow on the replacement of the serving member (R440): its entry with its history, its reservations made anew; REQ_MOVED is posted. -/
def State.moveRequest (s : State) (i : Nat) (r : Req) : State :=
  if r.state = .free then s
  else
    let s := s.setReq i { r with step := none }
    let s := if r.state = .queued then s else match s.reserve 0 i r, s.reserve 1 i r with
      | some x0, some x1 => ((s.setSd 0 x0.1).setSd 1 x1.1).modReq i fun r => { r with histAddr := BitVec.ofNat 64 (4096 * (if homeOf i = 0 then x0.2 else x1.2)) }
      | _, _ => s
    s.post 0x04 0 (24 + homeOf i) (leBytes 2 i ++ leBytes 4 r.ticket.toNat ++ leBytes 4 r.prod.toNat)

/-- The replacement of the serving member takes the request escrow from its buddy (R440; free, log 28). -/
def State.takeRequests (s : State) : State :=
  if s.alm.isNone || !s.grp.restoring || decide (s.servingMember ≠ s.member) then s
  else
    let s := (Config.peerRequests s.tick.count.toNat).foldl (fun s e => s.moveRequest e.1 e.2) s
    { s with grp := { s.grp with reqSent := s.srv.reqs } }

/-- FAILOVER_HOLD_END (R439 to R441): every member's stamp carries READY; a leap tick follows. -/
def execFailoverHoldEnd (s : State) : Out :=
  let ready := (List.range s.grp.record.members).all fun m => match s.stampOf (s.tick.count - 1) m with
    | some x => x.ready
    | none => false
  if s.power ≠ 0 || s.tick.phase ≠ .applied || s.grp.state != .failover || !ready then .next s
  else
    let s := s.enterService.takeRequests.orderRebuilds
    let s := { s with tick := { s.tick with leapNext := true }, grp := { s.grp with
      state := .serving, fencedOut := [], sentJoins := [], unfilled := [], inFailover := false, restoring := false, escrowMissing := false } }
    .next (s.post 0x07 2 26 (leBytes 1 4 ++ leBytes 4 s.grp.record.epoch.toNat))

/-- ESCROW_REFILL (R442): this replacement, as the buddy of the member before it, fills its escrow by row-reads of that member's arrays. -/
def execEscrowRefill (s : State) : Out :=
  if s.power ≠ 0 || s.grp.state != .serving || s.load.oldMeta.isEmpty || !s.load.oldEscrow.isEmpty then .next s
  else
    let es := (enum (sectionsOf s.load.oldMeta)).filter fun x => s.serves x.2.member
    let m := es.foldl (fun m x => smSet (fun _ => []) m x.1 (Config.peerSection s.genActive x.1)) s.load.oldEscrow
    .next { s with load := { s.load with oldEscrow := m } }

/-! ### Leaving (R445) -/

/-- LEAVE to every other member. -/
def State.sendLeave (s : State) : State :=
  s.sendFrames (s.others.map fun m => .leave (s.memberAddr m) s.grp.record.groupId s.member (s.tick.count.setWidth 16))

/-- LEAVE (R445): a member of the group is leaving; the next apply point calls a convening (R431). -/
def execLeave (groupId : BitVec 16) (member : Nat) (s : State) : Out :=
  if s.power ≠ 0 || s.grp.state == .spare || groupId ≠ s.grp.record.groupId || decide (s.grp.record.members ≤ member) || member == s.member then .next s
  else .next { s with grp := { s.grp with left := addNew s.grp.left member } }

/-- PRESENCE_BREAK (R445, R576): LEAVE goes out, and then nothing is sent or forwarded. -/
def execPresenceBreak (s : State) : Out :=
  if s.power ≠ 0 || !s.fab.present then .next s else .next { s.sendLeave with fab := { s.sendLeave.fab with present := false } }

/-- GROUP_LEAVE (R445, R463): LEAVE without removal. -/
def execGroupLeave (h : HostCmd) (s : State) : Out :=
  if !s.handles h 0x41 then .next s
  else if s.grp.state == .spare then .next (s.completeCmd h 0x41 0x103 [])
  else .next (s.sendLeave.completeCmd h 0x41 0 [])

/-- A record that the host may form a group with on this package (R411, R427, R429, R430). -/
def State.formOk (s : State) (bs : Bytes) : Bool :=
  let r := recordOf bs
  zeros bs 3 4 && zeros bs 60 64 && zeros bs 110 128 && decide (1 ≤ r.members ∧ r.members ≤ 16) && s.fab.rack != 1023
  && (r.memberPos.take r.members).contains s.addr && pathsOk r s.tick.basePeriod

/-- GROUP_FORM (R429): a forming convening with a record at EPOCH 0, or a new SPARE_POS list for the group in force. -/
def execGroupForm (h : HostCmd) (recordAddr : W64) (s : State) : Out :=
  if !s.handles h 0x40 then .next s
  else if !s.inCarve recordAddr.toNat 128 then .next (s.completeCmd h 0x40 0x102 [])
  else
    let bs := readBytes (s.carve (s.ring h.set.val).owner) recordAddr.toNat 128
    let r := recordOf bs
    if !s.formOk bs || s.held then .next (s.completeCmd h 0x40 0x103 [])
    else if s.grp.state == .serving then
      if r.groupId ≠ s.grp.record.groupId then .next (s.completeCmd h 0x40 0x103 [])
      else .next ({ s with grp := { s.grp with newSpares := some r.sparePos } }.completeCmd h 0x40 0 [])
    else if r.epoch ≠ 0 || s.grp.forming.isSome then .next (s.completeCmd h 0x40 0x103 [])
    else .next ({ s with grp := { s.grp with forming := some r, fenced := false } }.completeCmd h 0x40 0 [])

end Sys2Proof.Machine
end

