-- ==== Sys2Proof/Machine/Firmware.lean ====
section
/-! DEFINITION. Firmware: resets and boot, bundles, restarts, activations, attestation, the owner key registry (R468 to R488, R551, R573 to R575). -/
namespace Sys2Proof.Machine

/-! ### Resets -/

/-- The entries of a fused map for one array of a core (R77). -/
def fusedFor (l : List (Nat × Nat × Nat × Nat)) (c p : Nat) : List (Nat × Nat) :=
  (l.filter fun e => e.1 == c && e.2.1 == p).map fun e => e.2.2

/-- An array after a package reset: its cells and wear stay, and with them the converters and spares that are retired for good (R78, R149, R551); the maps are those of the fuse table (R77), and what else
a control core knew is gone. -/
def ArrayInfo.afterReset (x : ArrayInfo) (rowMap colMap : List (Nat × Nat)) : ArrayInfo :=
  { arrayDefault 0 with
    rows := x.rows, wear := x.wear, wearSince := x.wearSince, retired := x.retired, dead := x.dead, rowMap := rowMap, colMap := colMap }

/-- A core after a package reset: its arrays, those that the fuse table names among them. -/
def Core.afterReset (f : Fuses) (c : Nat) (k : Core) : Core :=
  let named := (f.rowMaps ++ f.colMaps).filterMap fun e => if e.1 = c then some e.2.1 else none
  { coreDefault c with
    arrays := (k.arrays.map Prod.fst ++ named).foldl (fun m p =>
      smSet arrayDefault m p ((k.arr p).afterReset (fusedFor f.rowMaps c p) (fusedFor f.colMaps c p))) [] }

/-- PACKAGE_RESET (R551): every register, shadow, lock and buffer takes its reset value; the fuse table, the cells, the wear counters, DRAM, the NV region and the thermal
latch stay, and an optical die that failed has failed. -/
def State.packageReset (s : State) : State :=
  let r := State.reset
  { r with
    pending := s.pending, free := s.free, fuses := s.fuses
    cores := (List.range 96).foldl (fun m i => smSet coreDefault m i ((smGet coreDefault s.cores i).afterReset s.fuses i)) []
    dies := (List.range 32).foldl (fun m i => smSet dieDefault m i { dieDefault i with latch := (smGet dieDefault s.dies i).latch }) []
    serve := [0, 1].foldl (fun m i => smSet serveDefault m i { serveDefault i with dram := (smGet serveDefault s.serve i).dram }) []
    rings := { r.rings with carve0 := s.rings.carve0, carve1 := s.rings.carve1 }
    fw := { r.fw with nv := s.fw.nv }
    pow := { r.pow with base := s.fuses.baseMax, vcore := s.pow.vcore }
    fab := { r.fab with present := s.fab.present, optFailed := s.fab.optFailed } }

/-- POWER_ON_RESET (R551, R573): VDD_AON rises. The thermal latch is cleared and DRAM is new; a package that was running has lost power without an
orderly power-down (R154). RST_N stays low until the boot. -/
def execPowerOnReset (s : State) : Out :=
  let p := s.packageReset
  .next { p with
    power := 2
    pow := { p.pow with vcore := 750 }
    cores := p.cores.map fun e => (e.1, { e.2 with arrays := e.2.arrays.map fun a => (a.1, { a.2 with wear := 0, wearSince := 0 }) })
    dies := []
    serve := []
    rings := { p.rings with carve0 := [], carve1 := [] }
    fw := { p.fw with nv := { s.fw.nv with orderly := s.fw.nv.orderly && s.power != 0 } } }

/-- ORDERLY_POWER_DOWN (R574): RST_N falls on a running package: wear counters are written back, the optics go dark, and the package reset takes effect. -/
def execOrderlyPowerDown (s : State) : Out :=
  if s.power ≠ 0 then .next s
  else
    let s := s.cores.foldl (fun s e => e.2.arrays.foldl (fun s a => s.saveWear (asCore e.1) a.1) s) s
    let p := s.packageReset
    .next { p with power := 2, fab := { p.fab with launch := false }, fw := { p.fw with nv := { p.fw.nv with orderly := true } } }

/-- UNPLANNED_POWER_LOSS (R575): a rail is lost before an orderly power-down has completed. -/
def execUnplannedPowerLoss (s : State) : Out := .next (if s.power ≠ 0 then s else s.shutdown)

/-! ### Bundles (R470, R471) -/

/-- Entry i of a bundle's section table: kind, length, offset, digest. -/
def bundleEntry (raw : Bytes) (i : Nat) : Bytes := sliceBytes raw (64 + 48 * i) 48

/-- The entries of a bundle's section table. -/
def bundleEntries (raw : Bytes) : List Bytes := (List.range (leAt raw 6 1)).map (bundleEntry raw)

/-- The header and the section table. -/
def bundleHead (raw : Bytes) : Bytes := raw.take (64 + 48 * leAt raw 6 1)

/-- MAGIC, VERSION, reserved fields, lengths and offsets are right, and no sections overlap. -/
def bundleFormat (raw : Bytes) : Bool :=
  let n := leAt raw 6 1
  let sig := leAt raw 24 4
  let es := bundleEntries raw
  decide (leAt raw 0 4 = 0x31574642 ∧ leAt raw 4 2 = 1 ∧ 1 ≤ n ∧ n ≤ 16 ∧ leAt raw 7 1 < 2 ∧ leAt raw 20 4 = raw.length ∧ sig + 2820 = raw.length)
  && zeros raw 28 64 && (es.all fun e => zeros e 1 4 && decide (leAt e 0 1 ≤ 4 ∧ 64 + 48 * n ≤ leAt e 8 8 ∧ leAt e 8 8 + leAt e 4 4 ≤ sig))
  && apart (es.map fun e => (leAt e 8 8, leAt e 4 4))

/-- The signature over the header and table holds, and every section has its digest. -/
def bundleSigned (raw : Bytes) : Bool :=
  Config.xmssVerify Config.vexsorKey (sliceBytes (shake256 (bundleHead raw)) 0 32) (sliceBytes raw (leAt raw 24 4) 2820)
  && (bundleEntries raw).all fun e => sliceBytes (shake256 (sliceBytes raw (leAt e 8 8) (leAt e 4 4))) 0 32 == sliceBytes e 16 32

/-- Status of a bundle against a minimum SVN (R471). -/
def bundleStatus (minSvn : W32) (raw : Bytes) : Nat :=
  let kinds := (bundleEntries raw).map fun e => leAt e 0 1
  if !bundleFormat raw then 1
  else if !bundleSigned raw then 2
  else if leAt raw 16 4 < minSvn.toNat then 3
  else if (List.range 5).any fun k => (kinds.filter (· == k)).length != 1 then 4 else 0

/-- A bundle from its bytes. -/
def bundleOf (raw : Bytes) : Bundle :=
  { raw := raw, version := BitVec.ofNat 64 (leAt raw 8 8), svn := BitVec.ofNat 32 (leAt raw 16 4), raise := leAt raw 7 1 % 2 == 1, digest := digest (bundleHead raw) }

/-- The result of FW_STAGE: FW_VERSION and SVN (R481). -/
def stageResult (raw : Bytes) : Bytes := sliceBytes raw 8 8 ++ sliceBytes raw 16 4

/-- The security core answers a bundle that FW_STAGE brought (R481). A pending activation request is cancelled (R484). -/
def State.stageBundle (s : State) (h : HostCmd) (raw : Bytes) : State :=
  let st := bundleStatus s.fw.nv.minSvn raw
  let s := { s with fw := { s.fw with staged := if st = 0 then some (bundleOf raw) else s.fw.staged, pendingAuto := false } }
  s.completeCmd h 0x50 st (stageResult raw)

/-! ### Boot (R468, R469) -/

/-- A new fetch of an object. -/
def newFetch (object : Nat) (cmd : Option (Nat × W32)) : Fetch :=
  { object := object, soliciting := true, length := 0, nextOff := 0, reads := [], got := 0, data := [], cmd := cmd }

/-- The bundle that boots: it is active, and its version is in force. -/
def State.bootBundle (s : State) (b : Bundle) (fallback : Bool) : State :=
  { s with fw := { s.fw with active := some b, version := b.version, fallback := fallback, goodTicks := 0, saved := fallback } }

/-- The last-good bundle boots if it passes its checks; if not, the boot ROM solicits again (R471). -/
def State.bootLastGood (s : State) : State :=
  match s.fw.nv.lastGood with
  | some b => if bundleStatus s.fw.nv.minSvn b.raw = 0 then s.bootBundle b true else { s with fw := { s.fw with fetch := some (newFetch 0 none) } }
  | none => { s with fw := { s.fw with fetch := some (newFetch 0 none) } }

/-- Step 5 (R29, R468, R489): VDD_CORE at VCORE_FUSE, and a write of PWRG_DOM_CTRL of every weight die that asks for each domain it may. -/
def State.bootPower (s : State) : State :=
  let s := { s with fw := { s.fw with bootStep := 5, fetch := none }, pow := { s.pow with vcore := s.fuses.vcore, railsUp := true } }
  (List.range 24).foldl (fun s d => s.bufferWrite .firmware (0x10_0000 + d * 0x1_0000 + 0x100) (BitVec.ofNat 32 (s.domMask (asDie d)))) s

/-- A message of the device on the management network, while its port works (R35). -/
def State.sendMgmt (s : State) (m : MgmtOut) : State := if s.mgmtUp then { s with fw := { s.fw with out := s.fw.out ++ [m] } } else s

/-- Links that train after a package reset (R15, R411, R444): those between edge dies, for every PHY domain is off (R29), and the fabric links of an assigned package that is present. -/
def State.trainAtReset (s : State) : State :=
  let s := (List.range 8).foldl (fun s d => s.startTraining (24 + d) (List.range 6)) s
  if s.fab.rack = 1023 || !s.fab.present then s
  else { s with fab := { s.fab with link := (List.range 32).foldl (fun m k =>
    if s.fab.optFailed.contains (k % 4) then m else smSet (fun _ => 0) m k 3) s.fab.link } }

/-- BOOT (R15, R37, R411, R468, R573, R575): RST_N rises; the fuse table is copied, the straps are sampled, the management port links up, and the fetch begins. With an uncorrectable error in the copy no core
leaves reset, and the boot ends in step 1 with a report of it. A set thermal latch holds the package. -/
def execBoot (straps : Straps) (fuseError : Bool) (s : State) : Out :=
  if (s.power == 0 && s.fw.bootStep != 0) || (List.range 32).any fun d => (s.die (asDie d)).latch then .next s
  else
    let p := s.packageReset
    let p := ({ p with
      fuses := { p.fuses with bad := fuseError }
      fab := { p.fab with pos := straps.pos, rack := straps.rack, launch := true }
      fw := { p.fw with bootStep := 1, cfg := s.fw.nv.bootCfg } }).trainAtReset
    .next (if fuseError then p.sendMgmt .fuseFailure else { p with fw := { p.fw with bootStep := 2, fetch := some (newFetch 0 none) } })

/-- The fetch in progress replaced. -/
def State.setFetch (s : State) (f : Fetch) : State := { s with fw := { s.fw with fetch := some f } }

/-- SOLICIT (R469). -/
def execSolicit (s : State) : Out :=
  match s.fw.fetch with
  | some f => .next (if s.power == 0 && f.soliciting && s.mgmtUp then s.sendMgmt (.solicit f.object) else s)
  | none => .next s

/-- READs go out until 16 are outstanding (R469). -/
def State.issueReads (s : State) (f : Fetch) : State :=
  let one (x : State × Fetch) : State × Fetch :=
    let f := x.2
    if 16 ≤ f.reads.length ∨ f.length ≤ f.nextOff then x
    else
      let n := min 1024 (f.length - f.nextOff)
      (x.1.sendMgmt (.read f.object f.nextOff n), { f with reads := f.reads ++ [⟨f.nextOff, n, 0⟩], nextOff := f.nextOff + n })
  let x := (List.range 16).foldl (fun x _ => one x) (s, f)
  x.1.setFetch x.2

/-- The object is complete: DONE, and what the fetch was for (R468, R470, R471, R481). -/
def State.fetched (s : State) (f : Fetch) : State :=
  let raw := readBytes f.data 0 f.length
  if f.object = 0 then
    let st := bundleStatus s.fw.nv.minSvn raw
    let s := s.sendMgmt (.done 0 st)
    match f.cmd with
    | some c => ({ s with fw := { s.fw with fetch := none } }).stageBundle ⟨⟨c.1 % 16, by omega⟩, c.2⟩ raw
    | none =>
      let s := { s with fw := { s.fw with bootResult := st, bootStep := max s.fw.bootStep 3, fetch := some (newFetch 1 none) } }
      if st = 0 then s.bootBundle (bundleOf raw) false else s.bootLastGood
  else
    let s := s.sendMgmt (.done 1 0)
    let s := { s with fw := { s.fw with custDigest := digest raw, fetch := none } }
    s.bootPower

/-- OFFER (R469): the first for the object, of at most 4 MiB. -/
def execOffer (object : Byte) (length : W32) (s : State) : Out :=
  match s.fw.fetch with
  | none => .next s
  | some f =>
    if s.power ≠ 0 || !s.mgmtUp || !f.soliciting || f.object ≠ object.toNat || decide (0x40_0000 < length.toNat) then .next s
    else
      let f := { f with soliciting := false, length := length.toNat, nextOff := 0, reads := [], got := 0, data := [] }
      .next (if f.length = 0 then s.fetched f else s.issueReads f)

/-- DATA (R469): the bytes of an outstanding READ; with the last of them the object is complete. -/
def execData (offset : W32) (bytes : Bytes) (s : State) : Out :=
  match s.fw.fetch with
  | none => .next s
  | some f => match f.reads.find? fun r => r.offset == offset.toNat && r.len == bytes.length with
    | none => .next s
    | some r =>
      if s.power ≠ 0 || !s.mgmtUp then .next s
      else
        let f := { f with reads := f.reads.erase r, got := f.got + r.len, data := writeBytes f.data r.offset bytes }
        .next (if f.got = f.length then s.fetched f else s.issueReads f)

/-- READ_RETRY (R469): a READ unanswered for 100 ms is sent again; with its eighth failure the device solicits again. -/
def execReadRetry (offset : W32) (s : State) : Out :=
  match s.fw.fetch with
  | none => .next s
  | some f => match f.reads.find? fun r => r.offset == offset.toNat with
    | none => .next s
    | some r =>
      if s.power ≠ 0 then .next s
      else if 8 ≤ r.fails + 1 then .next (s.setFetch (newFetch f.object f.cmd))
      else
        let s := s.setFetch { f with reads := f.reads.map fun (x : ReadReq) => if x.offset == r.offset then { x with fails := x.fails + 1 } else x }
        .next (s.sendMgmt (.read f.object r.offset r.len))

/-- FETCH_TIMEOUT (R468, R471): the boot's fetch has not finished within 10 s: the last-good bundle boots. -/
def execFetchTimeout (s : State) : Out :=
  match s.fw.fetch with
  | none => .next s
  | some f =>
    if s.power ≠ 0 || f.cmd.isSome then .next s
    else
      let s := { s with fw := { s.fw with bootStep := max s.fw.bootStep 3, fetch := none } }
      let s := s.bootLastGood
      .next (if s.fw.fetch.isSome then s else s.bootPower)

/-- FW_STAGE, BOOT_CFG and OWNER_KEY from a set that FW_RING_ADMIN does not allow (R463); the ring engine has let a command in its queue pass. -/
def State.denied (s : State) (h : HostCmd) (op : Nat) : Bool :=
  !(decide ((⟨h.set.val, h.tag, op⟩ : QCmd) ∈ nth [] s.rings.queues (queueOf op))) && !s.rings.ringAdmin.getLsbD h.set.val

/-- FW_STAGE (R481): from the server with SRC 0, from the carve-out with SRC 1. It waits while a fetch is under way. -/
def execFwStage (h : HostCmd) (src : Byte) (addr : W64) (len : W32) (s : State) : Out :=
  if !s.handles h 0x50 then .next s
  else if s.denied h 0x50 then .next (s.completeCmd h 0x50 0x106 [])
  else if !s.fw.sec.runs then .next (s.completeCmd h 0x50 0x107 [])
  else if src = 0 then
    if s.fw.fetch.isSome then .next s
    else .next { s.begins h 0x50 with fw := { s.fw with fetch := some (newFetch 0 (some (h.set.val, h.tag))), pendingAuto := false } }
  else if src ≠ 1 then .next (s.completeCmd h 0x50 0x103 [])
  else if !s.inCarve addr.toNat len.toNat then .next (s.completeCmd h 0x50 0x102 [])
  else .next (s.stageBundle h (readBytes (s.carve (s.ring h.set.val).owner) addr.toNat len.toNat))

/-! ### Activation (R482 to R484) -/

/-- ACT_REFUSED (R487). -/
def State.actRefused (s : State) : State := { s with rings := { s.rings with fwEvt := setBit s.rings.fwEvt 3 } }

/-- FW_ACTIVATE (R482, R484): BUSY in WRITING or beside a staged change; in an emergency EMERGENCY, or DEFERRED with AUTO 1; else staged. -/
def execFwActivate (h : HostCmd) (target : W48) (auto : Byte) (s : State) : Out :=
  if !s.handles h 0x51 then .next s
  else
    let s := { s with fw := { s.fw with pendingAuto := false } }
    if s.loadPhase = 3 || s.tick.patch.isSome || s.fw.act.isSome then .next (s.actRefused.completeCmd h 0x51 0x108 [])
    else if s.emergBits ≠ 0 then
      if auto = 0 then .next (s.actRefused.completeCmd h 0x51 0x105 [])
      else .next (({ s with fw := { s.fw with pendingAuto := true } }).completeCmd h 0x51 0x109 [])
    else .next (({ s with fw := { s.fw with act := some ⟨target, auto != 0, 0⟩ } }).completeCmd h 0x51 0 [])

/-- AUTO_ACTIVATION (R484): after 1,024 ticks clear of emergency a pending request is staged 64 ticks ahead. -/
def execAutoActivation (s : State) : Out :=
  if s.power ≠ 0 || s.tick.phase ≠ .applied || !s.fw.pendingAuto || decide (s.fw.clearTicks < 1024) || s.fw.emerg || s.tick.patch.isSome || s.fw.act.isSome
      || decide (s.loadPhase = 3) then .next s
  else .next { s with fw := { s.fw with pendingAuto := false, act := some ⟨s.tick.count + 64, true, 0⟩ } }

/-- Codes of the firmware processors in events: processor and core (R465). -/
def procCode : Proc → Nat × Nat
  | .security => (0, 0) | .power => (1, 0) | .scheduler => (2, 0) | .control c => (3, c.val)

/-- Codes of restart causes (R465). -/
def causeCode : RestartCause → Nat
  | .watchdog => 0 | .codeError => 1 | .boundTrap => 2 | .takeover => 3

/-- State of a firmware processor. -/
def State.proc (s : State) : Proc → ProcState
  | .security => s.fw.sec
  | .power => s.fw.pwr
  | .scheduler => s.fw.sch
  | .control c => smGet procDefault s.fw.ctrl c.val

/-- State of a firmware processor replaced. -/
def State.setProc (s : State) (p : Proc) (x : ProcState) : State :=
  match p with
  | .security => { s with fw := { s.fw with sec := x } }
  | .power => { s with fw := { s.fw with pwr := x } }
  | .scheduler => { s with fw := { s.fw with sch := x } }
  | .control c => { s with fw := { s.fw with ctrl := smSet procDefault s.fw.ctrl c.val x } }

/-- Every firmware processor. -/
def State.procs (s : State) : List Proc :=
  [.security, .power, .scheduler] ++ ((List.range 96).filter fun i => s.good (asCore i)).map fun i => .control (asCore i)

/-- The activation applies (R483): the version in force changes, the processors restart into the new bundle, FW_ACTIVATED is posted. -/
def State.applyActivation (s : State) : State :=
  match s.fw.staged with
  | none => { s with fw := { s.fw with act := none } }
  | some b =>
    let s := { s with
      fw := { s.fw with active := some b, version := b.version, staged := none, act := none, goodTicks := 0, saved := false }
      grp := { s.grp with record := { s.grp.record with fwVersion := b.version } } }
    let s := s.procs.foldl (fun s p => if (s.proc p).state = 3 then s else s.setProc p { s.proc p with state := 1 }) s
    (s.post 0x09 3 26 (leBytes 8 b.version.toNat)).patchEnd 0

/-- A staged activation at an apply point: as a patch under R198 (R482). -/
def State.actStep (s : State) (ms : List Nat) : State :=
  match s.fw.act with
  | none => s
  | some a =>
    let n := s.tick.count + 1
    let vs := s.votes ms
    if laterThan a.target n || decide (16 < a.moves) then s
    else if vs.any (· == 2) then
      ({ s with tick := { s.tick with event := setBit s.tick.event 7 }, fw := { s.fw with act := none } }).patchEnd 1
    else if vs.all (· == 1) then s.applyActivation
    else { s with fw := { s.fw with act := some { a with target := if a.moves < 16 then n + 1 else a.target, moves := a.moves + 1 } } }

/-- PATCH_VOTE of the package's stamp (R197, R482, R484, R518): for a patch whether it is valid, withheld while a core that it names is tested; for an activation whether a bundle is staged, withheld in an
emergency and in a convening hold. -/
def State.patchVote (s : State) : Nat :=
  match s.tick.patch, s.fw.act with
  | some p, _ => if !p.valid then 2 else if p.alm.any s.coreTested then 0 else 1
  | none, some _ => if s.emergBits ≠ 0 || s.grp.state == .convening then 0 else if s.fw.staged.isSome then 1 else 2
  | none, none => 0

/-! ### Restarts (R479, R480) -/

/-- A firmware processor that cannot act: the control core of a fused-off core, or of one whose core logic is off (R3, R24, R39). -/
def State.absent (s : State) : Proc → Bool
  | .control c => !s.good c || !(s.die (dieOf c)).domUse.getLsbD (16 + c.val % 4)
  | _ => false

/-- One restart counted (R487), and FW_RESTART posted. -/
def State.restarted (s : State) (p : Proc) (cause : RestartCause) : State :=
  let c := procCode p
  let s := { s with fw := { s.fw with restartCnt := s.fw.restartCnt.set c.1 (satAdd 0xFF (nth 0 s.fw.restartCnt c.1) 1), goodTicks := 0 } }
  let x := s.proc p
  (s.setProc p { x with recent := (s.tick.time :: x.recent).take 3 }).post 0x08 3 26 (leBytes 1 c.1 ++ leBytes 1 c.2 ++ leBytes 1 (causeCode cause))

/-- The processor runs again from its section's entry point: on C0, or on C1 after a takeover (R454, R480). A control core takes its holidays up under R152. -/
def State.startProc (s : State) (p : Proc) : State :=
  let x := s.proc p
  let s := s.setProc p { x with state := if x.onC1 then 2 else 0 }
  match p with
  | .control c => s.restartHolidays c
  | _ => s

/-- WATCHDOG (R479): the watchdog of a running processor expires; the processor is down until its section is loaded again. -/
def execWatchdog (p : Proc) (s : State) : Out :=
  if s.power ≠ 0 || s.absent p || !(s.proc p).runs then .next s
  else
    let s := s.restarted p .watchdog
    let s := { s with rings := { s.rings with fwEvt := setBit s.rings.fwEvt 1 } }
    .next (s.setProc p { s.proc p with state := 1 })

/-- FW_RESTART (R479): a running processor restarts for a cause; one that is down has its section loaded and starts. -/
def execFwRestart (p : Proc) (cause : RestartCause) (s : State) : Out :=
  let x := s.proc p
  if s.power ≠ 0 || s.absent p || x.state = 3 then .next s
  else if x.runs then .next ((s.restarted p cause).startProc p)
  else .next (s.startProc p)

/-- Three restarts within 1 s (R480). -/
def ProcState.failing (x : ProcState) (now : Nat) : Bool :=
  match x.recent with
  | [_, _, t] => decide (now - t ≤ 80_000_000)
  | _ => false

/-- TAKEOVER (R480): the standby on C1 takes over; a standby that fails so raises a package fault; a control core that does leaves the slots too. -/
def execTakeover (p : Proc) (s : State) : Out :=
  let x := s.proc p
  if s.power ≠ 0 || s.absent p || x.state = 3 || !x.failing s.tick.time then .next s
  else match p with
    | .control _ => .next ((s.setProc p { x with state := 3 }).packageFault 3)
    | _ =>
      if x.onC1 then .next ((s.setProc p { x with state := 3 }).packageFault 3)
      else
        let s := s.setProc p ⟨2, true, []⟩
        let s := { s with rings := { s.rings with fwEvt := setBit s.rings.fwEvt 2 } }
        .next (s.post 0x08 3 27 (leBytes 1 (procCode p).1 ++ leBytes 1 0 ++ leBytes 1 3))

/-- LAST_GOOD_BUNDLE (R474): after 1,024 ticks with no restart the active bundle is saved, and RAISE_SVN raises the minimum SVN. -/
def execLastGoodBundle (s : State) : Out :=
  match s.fw.active with
  | none => .next s
  | some b =>
    if s.power ≠ 0 || s.fw.saved || decide (s.fw.goodTicks < 1024) || !s.fw.sec.runs then .next s
    else
      let nv := s.fw.nv
      let svn := if b.raise ∧ nv.minSvn.toNat < b.svn.toNat then b.svn else nv.minSvn
      .next { s with fw := { s.fw with saved := true, nv := { nv with lastGood := some b, minSvn := svn } } }

/-- COMMAND_DIE_FAIL (R480): a package fault. -/
def execCommandDieFail (_east : Bool) (s : State) : Out := .next (if s.power ≠ 0 then s else s.packageFault 5)

/-! ### Commands of the security core (R472, R475, R477, R478) -/

/-- The attestation report (R477); its grade byte is the GRADE field (DEDUCED, log 30). -/
def State.attestReport (s : State) (nonce : Bytes) : Bytes :=
  sliceBytes nonce 0 32 ++ leBytes 8 s.fuses.serial.toNat ++ leBytes 12 s.fuses.coreMap.toNat ++ leBytes 1 s.fuses.grade
  ++ leBytes 3 0 ++ leBytes 8 s.fw.version.toNat ++ leBytes 4 s.fw.nv.minSvn.toNat
  ++ leBytes 32 (match s.fw.active with | some b => b.digest.toNat | none => 0) ++ leBytes 32 s.fw.custDigest.toNat
  ++ leBytes 4 s.genActive.toNat ++ leBytes 32 s.grp.record.almanacDigest.toNat ++ leBytes 16 s.fw.modelId.toNat ++ leBytes 6 s.tick.count.toNat
  ++ leBytes 2 s.grp.record.groupId.toNat ++ leBytes 64 0

/-- ATTEST (R477, R478): the NV region holds the next index before the signature is released. -/
def execAttest (h : HostCmd) (nonceAddr outAddr : W64) (s : State) : Out :=
  if !s.handles h 0x60 then .next s
  else if !s.fw.sec.runs then .next (s.completeCmd h 0x60 0x107 [])
  else if !s.inCarve nonceAddr.toNat 32 || !s.inCarve outAddr.toNat 5861 then .next (s.completeCmd h 0x60 0x102 [])
  else
    let i := s.fw.nv.xmssIdx
    if 2 ^ 40 ≤ i then .next (s.completeCmd h 0x60 0x103 [])
    else
      let own := (s.ring h.set.val).owner
      let rep := s.attestReport (readBytes (s.carve own) nonceAddr.toNat 32)
      let sig := sliceBytes (Config.xmssSign i (sliceBytes (shake256 rep) 0 32)) 0 5605
      let s := { s with fw := { s.fw with nv := { s.fw.nv with xmssIdx := i + 1 } } }
      .next ((s.writeCarve own outAddr.toNat (rep ++ sig)).completeCmd h 0x60 0 (leBytes 8 i))

/-- OWNER_KEY with DELETE 0 (R475). -/
def execOwnerKeyAdd (h : HostCmd) (modelId : BitVec 128) (keyAddr : W64) (require : Byte) (s : State) : Out :=
  if !s.handles h 0x61 then .next s
  else if s.denied h 0x61 then .next (s.completeCmd h 0x61 0x106 [])
  else if !s.fw.sec.runs then .next (s.completeCmd h 0x61 0x107 [])
  else if !s.inCarve keyAddr.toNat 68 then .next (s.completeCmd h 0x61 0x102 [])
  else if 256 ≤ s.fw.nv.keys.length then .next (s.completeCmd h 0x61 0x103 [])
  else
    let k : OwnerKey := ⟨modelId, readBytes (s.carve (s.ring h.set.val).owner) keyAddr.toNat 68, require != 0⟩
    .next (({ s with fw := { s.fw with nv := { s.fw.nv with keys := s.fw.nv.keys ++ [k] } } }).completeCmd h 0x61 0 [])

/-- OWNER_KEY with DELETE 1 (R475). -/
def execOwnerKeyDelete (h : HostCmd) (modelId : BitVec 128) (s : State) : Out :=
  if !s.handles h 0x61 then .next s
  else if s.denied h 0x61 then .next (s.completeCmd h 0x61 0x106 [])
  else if !s.fw.sec.runs then .next (s.completeCmd h 0x61 0x107 [])
  else .next (({ s with fw := { s.fw with nv := { s.fw.nv with keys := s.fw.nv.keys.filter fun k => k.modelId != modelId } } }).completeCmd h 0x61 0 [])

/-- BOOT_CFG (R472): the record goes to the NV region and is used from the next boot. While the security core is down the command waits. -/
def execBootCfg (h : HostCmd) (cfgAddr : W64) (s : State) : Out :=
  if !s.handles h 0x62 then .next s
  else if s.denied h 0x62 then .next (s.completeCmd h 0x62 0x106 [])
  else if !s.fw.sec.runs then .next s
  else if !s.inCarve cfgAddr.toNat Config.bootLen then .next (s.completeCmd h 0x62 0x102 [])
  else
    let bs := readBytes (s.carve (s.ring h.set.val).owner) cfgAddr.toNat Config.bootLen
    .next (({ s with fw := { s.fw with nv := { s.fw.nv with bootCfg := bs } } }).completeCmd h 0x62 0 [])

end Sys2Proof.Machine
end

