-- ==== Sys2Proof/Machine/Quantiser.lean ====
section
/-! DEFINITION. The quantiser (R96 to R101, R257, R258). -/
namespace Sys2Proof.Machine

/-- m × 2^e ≤ n × 2^f. -/
def dyLe (m : Nat) (e : Int) (n : Nat) (f : Int) : Bool :=
  let q := min e f
  decide (m <<< (e - q).toNat ≤ n <<< (f - q).toNat)

/-- Significand and exponent of a finite BF16 magnitude (R115). -/
def bf16Mag (code : Nat) : Nat × Int :=
  match fpDecode bf16 (code % 2 ^ 15) with
  | .fin _ m e => (m, e)
  | _ => (0, 0)

/-- A BF16 code is NaN or an infinity. -/
def bf16NonFinite (code : Nat) : Bool := field code 14 7 == 255

/-- emax of R98. -/
def emaxOf : ActW → Int
  | .int4 => 0 | .fp4 => 2 | .int8 => 0

/-- Vmax of R98 as significand and exponent. -/
def vmaxOf : ActW → Nat × Int
  | .int4 => (7, -2) | .fp4 => (6, 0) | .int8 => (127, -6)

/-- The rule exponent for a BF16 magnitude (R98). -/
def ruleExp (aw : ActW) (up : Bool) (code : Nat) : Int :=
  let p := bf16Mag code
  if p.1 = 0 then -127
  else
    let e0 := (Nat.log2 p.1 : Int) + p.2 - emaxOf aw
    if up && !dyLe p.1 p.2 (vmaxOf aw).1 ((vmaxOf aw).2 + e0) then e0 + 1 else e0

/-- Round half to even of m × 2^e as an integer. -/
def roundInt (m : Nat) (e : Int) : Nat := if 0 ≤ e then m <<< e.toNat else roundShift m (-e).toNat false

/-- One element quantised at exponent E (R97): its code and whether it was clamped. -/
def quantElem (aw : ActW) (E : Int) (code : Nat) : Nat × Bool :=
  let p := bf16Mag code
  let neg := code.testBit 15
  let x := p.2 - E
  let clamp := !dyLe p.1 x (vmaxOf aw).1 (vmaxOf aw).2
  match aw with
  | .fp4 =>
    let r := (roundCode e2m1 false p.1 x false).1
    (if r = 0 then 0 else (if neg then 8 else 0) + r, clamp)
  | .int4 =>
    let n : Int := min 7 (roundInt p.1 (x + 2))
    (toBits 4 (if neg then -n else n), clamp)
  | .int8 =>
    let n : Int := min 127 (roundInt p.1 (x + 6))
    (toBits 8 (if neg then -n else n), clamp)

/-- One element of a group on its way through R97: index in the vector, BF16 code, static, in range. -/
structure QElem where
  idx : Nat
  code : Nat
  static : Bool
  real : Bool
  captured : Bool
deriving DecidableEq, Repr

/-- The code that remains in the stream (R97): 0 for static, captured and missing elements. -/
def QElem.left (x : QElem) : Nat := if x.static || x.captured || !x.real then 0 else x.code

/-- A block's quantisation: scale byte, status byte, element codes; counts of clamps; marked, zero-flagged. -/
structure QBlock where
  scale : Nat
  codes : List Nat
  clamps : Nat
  zero : Bool
  marked : Bool
deriving DecidableEq, Repr

/-- Status byte of a block (R96). -/
def QBlock.status (b : QBlock) : Nat := b.clamps + (if b.zero then 64 else 0) + (if b.marked then 128 else 0)

/-- The third-largest of a list of magnitudes, repeats counted (R97). -/
def thirdLargest (l : List Nat) : Nat :=
  let p := l.foldl (fun (a : Nat × Nat × Nat) x =>
    if a.1 < x then (x, a.1, a.2.1) else if a.2.1 < x then (a.1, x, a.2.1) else if a.2.2 < x then (a.1, a.2.1, x) else a) (0, 0, 0)
  p.2.2

/-- Insert by magnitude descending, then index ascending (R97). -/
def insertCand (x : QElem) : List QElem → List QElem
  | [] => [x]
  | y :: t =>
    let a := x.code % 2 ^ 15
    let b := y.code % 2 ^ 15
    if b < a ∨ (a = b ∧ x.idx < y.idx) then x :: y :: t else y :: insertCand x t

/-- A block that holds a NaN or an infinity is marked (R99). -/
def markedBlock (b : List QElem) : Bool := b.any fun x => x.real && bf16NonFinite x.code

/-- The candidates of a block that is not marked (R97). -/
def candidates (aw : ActW) (r : Recipe) (b : List QElem) : List QElem :=
  let a3 := thirdLargest (b.map fun x => x.left % 2 ^ 15)
  if a3 = 0 || markedBlock b then []
  else
    let t := ruleExp aw r.roundUp a3 + r.dynT
    b.filter fun x => !x.static && x.real && !dyLe (bf16Mag x.code).1 (bf16Mag x.code).2 1 t

/-- A group of up to 1,024 elements cut into blocks of 32. -/
def blocksOf32 (g : List QElem) : List (List QElem) := chunk 32 (ceilDiv g.length 32) g

/-- The captured elements of a group in order, and how many candidates were left over (R97, R101). -/
def captures (aw : ActW) (r : Recipe) (g : List QElem) : List QElem × Nat :=
  if !r.dynEn then ([], 0)
  else
    let c := ((blocksOf32 g).flatMap (candidates aw r)).foldl (fun l x => insertCand x l) []
    (c.take 16, c.length - 16)

/-- One block at its span's exponent (R97, R99, R100). -/
def quantBlock (aw : ActW) (E : Int) (b : List QElem) : QBlock :=
  if markedBlock b then ⟨255, b.map fun _ => 0, 0, false, true⟩
  else
    let q := b.map fun x => quantElem aw E x.left
    ⟨(E + 127).toNat, q.map Prod.fst, (q.filter Prod.snd).length,
      b.any (fun x => x.left % 2 ^ 15 != 0) && q.all (fun p => p.1 == 0), false⟩

/-- The blocks of a group after capture, span by span (R97). -/
def quantGroup (aw : ActW) (r : Recipe) (g : List QElem) : List QBlock :=
  (chunk r.span (ceilDiv g.length r.span) g).flatMap fun sp =>
    let bs := blocksOf32 sp
    let amax := ((bs.filter fun b => !markedBlock b).flatten).foldl (fun m x => max m (x.left % 2 ^ 15)) 0
    let E := max (-127) (min 127 (ruleExp aw r.roundUp amax))
    bs.map (quantBlock aw E)

/-- One row quantised: its blocks, the captured outliers of each group, candidates left over, unit exponents that take part in XTOP. -/
structure QRow where
  blocks : List QBlock
  lists : List (List QElem)
  lost : Nat
  tops : List Int
deriving DecidableEq, Repr

/-- R97 over one row of BF16 codes, for a record of n elements; `stat` holds the K indices of the enabled static channels. -/
def quantRow (aw : ActW) (r : Recipe) (stat : List Nat) (n : Nat) (row : List Nat) : QRow :=
  let es := (List.range n).map fun i => (⟨i, nth 0 row i, stat.contains i && decide (i < row.length), decide (i < row.length), false⟩ : QElem)
  let gs := chunk 1024 (ceilDiv n 1024) es
  let res := gs.map fun g =>
    let cp := captures aw r g
    let g' := g.map fun x => if cp.1.any (fun y => y.idx == x.idx) then { x with captured := true } else x
    (quantGroup aw r g', cp)
  let bs := res.flatMap Prod.fst
  let caps := res.flatMap fun p => p.2.1
  { blocks := bs, lists := res.map fun p => p.2.1, lost := res.foldl (fun a p => a + p.2.2) 0
    tops := (bs.filter fun b => !b.marked).map (fun b => unitExp b.scale (actF aw)) ++ caps.map (fun x => (bf16Mag x.code).2)
      ++ (es.filter fun x => x.static && !bf16NonFinite x.code).map fun x => (bf16Mag x.code).2 }

/-- XTOP (R96, R258): the largest unit exponent that takes part, else −127 − f. -/
def xtopOf (aw : ActW) (tops : List Int) : Int :=
  match tops with
  | [] => -127 - actF aw
  | t :: ts => ts.foldl max t

/-- Element codes packed (R96). -/
def packCodes (aw : ActW) (codes : List Nat) : Bytes :=
  match aw with
  | .int8 => codes.map (BitVec.ofNat 8)
  | _ => (List.range (codes.length / 2)).map fun i => BitVec.ofNat 8 (nth 0 codes (2 * i) + 16 * nth 0 codes (2 * i + 1))

/-- One record written (R96, R227). Its padding is not written (DESIGN CHOICE, log 9). -/
def Core.putRecord (k : Core) (n : W48) (d : Desc) (j : Nat) (aw : ActW) (q : QRow) : Core :=
  let a := d.rowAt n j
  let side := a + mxElems d.fmt d.len0
  let lst := side + mxSide d.len0
  let k := k.unitWrite a (packCodes aw (q.blocks.flatMap QBlock.codes))
  let k := k.unitWrite side (q.blocks.flatMap fun b => leBytes 1 b.scale ++ leBytes 1 b.status)
  k.unitWrite lst (q.lists.flatMap fun l =>
    (List.range 16).flatMap fun e => match l[e]? with
      | some x => leBytes 2 x.idx ++ leBytes 2 x.code
      | none => leBytes 4 0)

/-- K indices of the static channels that a recipe enables (R114, R258, R388): 1,024 × K-array position + data row. -/
def State.staticIndices (s : State) (c : CoreId) (rsel : Nat) (r : Recipe) : List Nat :=
  match s.slotRec c with
  | none => []
  | some sr =>
    let k := s.core c
    let d := k.layerDir (sr.recipe + rsel)
    ((List.range d.scnt).filter r.mask.testBit).map fun j => let ch := k.staticChan d j; 1024 * ch.2 + ch.1

/-- The width that ACT_FMT codes (R123). -/
def actwOfFmt : Nat → ActW
  | 0 => .int4 | 1 => .fp4
  | _ => .int8

/-- `qnt` (R258). -/
def execQnt (c : CoreId) (g : Guard) (td ta : TReg) (sa : SReg) (rsel : BitVec 4) (s : State) : Out :=
  .next (fire c (.qnt c g td ta sa rsel) g (fun t s =>
    let k := s.core c
    let n := s.tick.seq
    let dd := descOf (k.treg td)
    let da := descOf (k.treg ta)
    match s.slotRecipe c rsel.toNat with
    | none =>
      match firstExc [k.checkDesc n da [1] true false, k.checkDesc n dd [3, 4, 5] false true] with
      | some x => .halt x s
      | none => .halt xDesc s
    | some r =>
      let aw := actwOfFmt r.actFmt
      let bad := if dd.fmt ≠ 3 + r.actFmt ∨ dd.len1 ≠ da.len1 ∨ dd.len0 < da.len0 then some xDesc else none
      let stat := s.staticIndices c rsel.toNat r
      unitOp c .quant [(da, [1])] [(dd, [3, 4, 5])] bad t
        (8 + ceilDiv da.count 128 + 6 * (da.len1 * ceilDiv da.len0 1024)) (some sa) (fun k =>
          let qs := (k.rows n da).map (quantRow aw r stat dd.len0)
          let bs := qs.flatMap QRow.blocks
          let cl := bs.foldl (fun a b => a + b.clamps) 0
          let zb := (bs.filter QBlock.zero).length
          let ov := qs.foldl (fun a q => a + q.lost) 0
          let k := (qs.zip (List.range qs.length)).foldl (fun k p => k.putRecord n dd p.2 aw p.1) k
          let k := k.setS sa (BitVec.ofInt 64 (xtopOf aw (qs.flatMap QRow.tops)))
          let k := k.flagIf (cl != 0) stQclamp
          let k := k.flagIf (zb != 0) stQzero
          let k := k.flagIf (bs.any QBlock.marked) stQnonfinite
          let k := k.flagIf (ov != 0) stOutlierOvf
          { k with clamps := satAdd 0x7FFF_FFFF k.clamps cl, zeroBlocks := satAdd 0xFFFF k.zeroBlocks zb
                   outlierOvf := satAdd 0x7FFF k.outlierOvf ov }) s) s)

end Sys2Proof.Machine
end

