-- ==== Sys2Proof/Machine/Scalar.lean ====
section
/-! DEFINITION. Aithal classes 0x1, 0x2, 0x3 and 0xE: scalars, loads and stores, predicates and status (R250 to R252). -/
namespace Sys2Proof.Machine

/-- A scalar operation (R250): s[RD] becomes f(s[RA], s[RB] + IMM), usable after `lat` cycles (R233). -/
def alu (c : CoreId) (rd ra rb : SReg) (imm : W32) (lat : Nat) (f : W64 → W64 → W64) (t : Nat) (s : State) : Fire :=
  onCore c (fun k => (k.setS rd (f (k.sreg ra) (k.opB rb imm))).readyS rd (t + lat)) s

/-- Unsigned quotient; all ones for a divisor of 0 (R210). -/
def divU (a b : W64) : W64 := if b = 0 then BitVec.allOnes 64 else a / b
/-- Unsigned remainder; the dividend for a divisor of 0 (R210). -/
def remU (a b : W64) : W64 := if b = 0 then a else a % b
/-- Signed quotient, truncated toward zero; −2^63 / −1 is −2^63 (R250); all ones for a divisor of 0 (R210). -/
def divS (a b : W64) : W64 := if b = 0 then BitVec.allOnes 64 else BitVec.ofInt 64 (a.toInt.tdiv b.toInt)
/-- Signed remainder with the sign of the dividend (R250); the dividend for a divisor of 0 (R210). -/
def remS (a b : W64) : W64 := if b = 0 then a else BitVec.ofInt 64 (a.toInt.tmod b.toInt)
/-- Shift amount b mod 64 (R250). -/
def shAmt (b : W64) : Nat := b.toNat % 64

/-- `add` (R250): s[RA] + b. -/
def execAdd (c : CoreId) (g : Guard) (rd ra rb : SReg) (imm : W32) (s : State) : Out :=
  .next (fire c (.add c g rd ra rb imm) g (alu c rd ra rb imm 1 (fun a b => a + b)) s)

/-- `sub` (R250): s[RA] − b. -/
def execSub (c : CoreId) (g : Guard) (rd ra rb : SReg) (imm : W32) (s : State) : Out :=
  .next (fire c (.sub c g rd ra rb imm) g (alu c rd ra rb imm 1 (fun a b => a - b)) s)

/-- `mul` (R250): low 64 bits of s[RA] × b. -/
def execMul (c : CoreId) (g : Guard) (rd ra rb : SReg) (imm : W32) (s : State) : Out :=
  .next (fire c (.mul c g rd ra rb imm) g (alu c rd ra rb imm 3 (fun a b => a * b)) s)

/-- `divu` (R250): unsigned quotient. -/
def execDivu (c : CoreId) (g : Guard) (rd ra rb : SReg) (imm : W32) (s : State) : Out :=
  .next (fire c (.divu c g rd ra rb imm) g (alu c rd ra rb imm 24 (divU)) s)

/-- `remu` (R250): unsigned remainder. -/
def execRemu (c : CoreId) (g : Guard) (rd ra rb : SReg) (imm : W32) (s : State) : Out :=
  .next (fire c (.remu c g rd ra rb imm) g (alu c rd ra rb imm 24 (remU)) s)

/-- `divs` (R250): signed quotient. -/
def execDivs (c : CoreId) (g : Guard) (rd ra rb : SReg) (imm : W32) (s : State) : Out :=
  .next (fire c (.divs c g rd ra rb imm) g (alu c rd ra rb imm 24 (divS)) s)

/-- `rems` (R250): signed remainder. -/
def execRems (c : CoreId) (g : Guard) (rd ra rb : SReg) (imm : W32) (s : State) : Out :=
  .next (fire c (.rems c g rd ra rb imm) g (alu c rd ra rb imm 24 (remS)) s)

/-- `and` (R250): s[RA] AND b. -/
def execAnd (c : CoreId) (g : Guard) (rd ra rb : SReg) (imm : W32) (s : State) : Out :=
  .next (fire c (.and c g rd ra rb imm) g (alu c rd ra rb imm 1 (fun a b => a &&& b)) s)

/-- `or` (R250): s[RA] OR b. -/
def execOr (c : CoreId) (g : Guard) (rd ra rb : SReg) (imm : W32) (s : State) : Out :=
  .next (fire c (.or c g rd ra rb imm) g (alu c rd ra rb imm 1 (fun a b => a ||| b)) s)

/-- `xor` (R250): s[RA] XOR b. -/
def execXor (c : CoreId) (g : Guard) (rd ra rb : SReg) (imm : W32) (s : State) : Out :=
  .next (fire c (.xor c g rd ra rb imm) g (alu c rd ra rb imm 1 (fun a b => a ^^^ b)) s)

/-- `shl` (R250): left shift by b mod 64. -/
def execShl (c : CoreId) (g : Guard) (rd ra rb : SReg) (imm : W32) (s : State) : Out :=
  .next (fire c (.shl c g rd ra rb imm) g (alu c rd ra rb imm 1 (fun a b => a <<< shAmt b)) s)

/-- `shr` (R250): logical right shift by b mod 64. -/
def execShr (c : CoreId) (g : Guard) (rd ra rb : SReg) (imm : W32) (s : State) : Out :=
  .next (fire c (.shr c g rd ra rb imm) g (alu c rd ra rb imm 1 (fun a b => a >>> shAmt b)) s)

/-- `sra` (R250): arithmetic right shift by b mod 64. -/
def execSra (c : CoreId) (g : Guard) (rd ra rb : SReg) (imm : W32) (s : State) : Out :=
  .next (fire c (.sra c g rd ra rb imm) g (alu c rd ra rb imm 1 (fun a b => a.sshiftRight (shAmt b))) s)

/-- `min` (R250): signed minimum. -/
def execMin (c : CoreId) (g : Guard) (rd ra rb : SReg) (imm : W32) (s : State) : Out :=
  .next (fire c (.min c g rd ra rb imm) g (alu c rd ra rb imm 1 (fun a b => if a.slt b then a else b)) s)

/-- `max` (R250): signed maximum. -/
def execMax (c : CoreId) (g : Guard) (rd ra rb : SReg) (imm : W32) (s : State) : Out :=
  .next (fire c (.max c g rd ra rb imm) g (alu c rd ra rb imm 1 (fun a b => if a.slt b then b else a)) s)

/-- `movhi` (R250): IMM, zero-extended, shifted left 32, OR the low 32 bits of s[RA]. -/
def execMovhi (c : CoreId) (g : Guard) (rd ra : SReg) (imm : W32) (s : State) : Out :=
  .next (fire c (.movhi c g rd ra imm) g (fun t s =>
    onCore c (fun k => (k.setS rd (imm.setWidth 64 <<< 32 ||| (k.sreg ra &&& 0xFFFF_FFFF#64))).readyS rd (t + 1)) s) s)

/-- A scalar load of n bytes (R251): ALIGN, then BOUNDS, then WORD; it waits for an earlier write of these bytes (R232). -/
def loadOp (c : CoreId) (ra : SReg) (imm : W32) (n : Nat) (put : Core → Nat → Core) (s : State) : Fire :=
  let k := s.core c
  let a := k.addr ra imm
  if a % n ≠ 0 then .halt xAlign s
  else match k.access false a (a + n) with
    | some x => .halt x s
    | none =>
      if k.badRange a (a + n) then .halt xWord s
      else if k.inflight.any (fun e => e.writes.any (Extent.overlaps ⟨false, a, a + n⟩)) then .hold
      else .go (s.setCore c (put k (readNat k.store a n))) 1 none

/-- Bytes lo to hi − 1, stored in cycle t, are usable to a dependent instruction from cycle n on (R233); stores that are usable by then are forgotten. -/
def Core.usableFrom (k : Core) (lo hi t n : Nat) : Core :=
  { k with stored := (k.stored.filter fun e => decide (t < e.2)) ++ [(⟨false, lo, hi⟩, n)] }

/-- A scalar store of bytes (R251): ALIGN, then BOUNDS or WRITE_PROTECT; it waits for an earlier access of these bytes (R232). -/
def storeOp (c : CoreId) (ra : SReg) (imm : W32) (bs : Core → Bytes) (t : Nat) (s : State) : Fire :=
  let k := s.core c
  let a := k.addr ra imm
  let n := (bs k).length
  if a % n ≠ 0 then .halt xAlign s
  else match k.access true a (a + n) with
    | some x => .halt x s
    | none =>
      if k.inflight.any (fun e => (e.reads ++ e.writes).any (Extent.overlaps ⟨false, a, a + n⟩)) then .hold
      else .go (s.setCore c ((k.storeAt a (bs k)).usableFrom a (a + n) t (t + 4))) 1 none

/-- `ld` (R251). -/
def execLd (c : CoreId) (g : Guard) (rd ra : SReg) (imm : W32) (s : State) : Out :=
  .next (fire c (.ld c g rd ra imm) g (fun t =>
    loadOp c ra imm 8 (fun k v => (k.setS rd (BitVec.ofNat 64 v)).readyS rd (t + 4))) s)

/-- `st` (R251). -/
def execSt (c : CoreId) (g : Guard) (rb ra : SReg) (imm : W32) (s : State) : Out :=
  .next (fire c (.st c g rb ra imm) g (storeOp c ra imm (fun k => leBytes 8 (k.sreg rb).toNat)) s)

/-- `ldw` (R251): 4 bytes, zero-extended. -/
def execLdw (c : CoreId) (g : Guard) (rd ra : SReg) (imm : W32) (s : State) : Out :=
  .next (fire c (.ldw c g rd ra imm) g (fun t =>
    loadOp c ra imm 4 (fun k v => (k.setS rd (BitVec.ofNat 64 v)).readyS rd (t + 4))) s)

/-- `stw` (R251): the low 4 bytes. -/
def execStw (c : CoreId) (g : Guard) (rb ra : SReg) (imm : W32) (s : State) : Out :=
  .next (fire c (.stw c g rb ra imm) g (storeOp c ra imm (fun k => leBytes 4 (k.sreg rb).toNat)) s)

/-- `ldd` (R251): a descriptor register from 16 bytes. -/
def execLdd (c : CoreId) (g : Guard) (td : TReg) (ra : SReg) (imm : W32) (s : State) : Out :=
  .next (fire c (.ldd c g td ra imm) g (fun t =>
    loadOp c ra imm 16 (fun k v => (k.setT td (BitVec.ofNat 128 v)).readyT td (t + 4))) s)

/-- `std` (R251). -/
def execStd (c : CoreId) (g : Guard) (tb : TReg) (ra : SReg) (imm : W32) (s : State) : Out :=
  .next (fire c (.std c g tb ra imm) g (storeOp c ra imm (fun k => leBytes 16 (k.treg tb).toNat)) s)

/-- `ldx` (R251): 8 bytes at byte IMM of a resolved extent; it waits for the arrival bit of its line when BANKING is 2. -/
def execLdx (c : CoreId) (g : Guard) (rd : SReg) (ta : TReg) (imm : W32) (s : State) : Out :=
  .next (fire c (.ldx c g rd ta imm) g (fun t s =>
    let k := s.core c
    let d := descOf (k.treg ta)
    let e := d.extent s.tick.seq
    let a := e.lo + imm.toNat
    match k.checkDesc s.tick.seq d [1, 2, 3, 4, 5, 6, 7, 8, 10, 11] false false with
    | some x => .halt x s
    | none =>
      if imm.toNat % 8 ≠ 0 then .halt xAlign s
      else if imm.msb || decide (e.hi < a + 8) then .halt xBounds s
      else match k.access false a (a + 8) with
        | some x => .halt x s
        | none =>
          if k.badRange a (a + 8) then .halt xWord s
          else if k.inflight.any (fun f => f.writes.any (Extent.overlaps ⟨false, a, a + 8⟩)) then .hold
          else if d.banking = 2 ∧ k.arrived a (a + 8) = false then .hold
          else .go (s.setCore c ((k.setS rd (BitVec.ofNat 64 (readNat k.store a 8))).readyS rd (t + 4))) 1 none) s)

/-- Most and least significant bit of a descriptor field (R224). -/
def dfieldBits : DField → Nat × Nat
  | .base => (24, 0) | .fmt => (28, 25) | .banking => (30, 29) | .len0m1 => (47, 32) | .len1m1 => (63, 48)
  | .stride1 => (88, 64) | .bstride => (120, 96)

/-- `dset` (R251): one field of a descriptor register becomes s[RA] + IMM, truncated; nothing is checked. -/
def execDset (c : CoreId) (g : Guard) (td : TReg) (fld : DField) (ra : SReg) (imm : W32) (s : State) : Out :=
  .next (fire c (.dset c g td fld ra imm) g (fun t s =>
    let b := dfieldBits fld
    onCore c (fun k => (k.setT td (BitVec.ofNat 128 (setField (k.treg td).toNat b.1 b.2 (k.addr ra imm)))).readyT td (t + 1)) s) s)

/-- The comparisons of R252. -/
def cmpHolds : Cmp → W64 → W64 → Bool
  | .eq, a, b => a == b
  | .ne, a, b => a != b
  | .lt, a, b => a.slt b
  | .ge, a, b => !a.slt b
  | .ltu, a, b => a.ult b
  | .geu, a, b => !a.ult b

/-- A predicate result, usable in the next cycle (R252). -/
def putP (c : CoreId) (pd : PReg) (f : Core → Bool) (t : Nat) (s : State) : Fire :=
  onCore c (fun k => (k.setP pd (f k)).readyP pd (t + 1)) s

/-- `pcmp` (R252): s[RA] against s[RB] + IMM. -/
def execPcmp (c : CoreId) (g : Guard) (pd : PReg) (cmp : Cmp) (ra rb : SReg) (imm : W32) (s : State) : Out :=
  .next (fire c (.pcmp c g pd cmp ra rb imm) g (putP c pd (fun k => cmpHolds cmp (k.sreg ra) (k.opB rb imm))) s)

/-- `pand` (R252). -/
def execPand (c : CoreId) (g : Guard) (pd pa pb : PReg) (s : State) : Out :=
  .next (fire c (.pand c g pd pa pb) g (putP c pd (fun k => k.preg pa && k.preg pb)) s)

/-- `por` (R252). -/
def execPor (c : CoreId) (g : Guard) (pd pa pb : PReg) (s : State) : Out :=
  .next (fire c (.por c g pd pa pb) g (putP c pd (fun k => k.preg pa || k.preg pb)) s)

/-- `pxor` (R252). -/
def execPxor (c : CoreId) (g : Guard) (pd pa pb : PReg) (s : State) : Out :=
  .next (fire c (.pxor c g pd pa pb) g (putP c pd (fun k => k.preg pa != k.preg pb)) s)

/-- `pnot` (R252). -/
def execPnot (c : CoreId) (g : Guard) (pd pa : PReg) (s : State) : Out :=
  .next (fire c (.pnot c g pd pa) g (putP c pd (fun k => !k.preg pa)) s)

/-- `pset` (R252). -/
def execPset (c : CoreId) (g : Guard) (pd : PReg) (b : Bool) (s : State) : Out :=
  .next (fire c (.pset c g pd b) g (putP c pd (fun _ => b)) s)

/-- `tst` (R252): STATUS AND IMM is not 0, IMM zero-extended. -/
def execTst (c : CoreId) (g : Guard) (pd : PReg) (imm : W32) (s : State) : Out :=
  .next (fire c (.tst c g pd imm) g (putP c pd (fun k => statusTest k.status imm)) s)

/-- `rdst` (R252). -/
def execRdst (c : CoreId) (g : Guard) (rd : SReg) (s : State) : Out :=
  .next (fire c (.rdst c g rd) g (fun t =>
    onCore c (fun k => (k.setS rd (k.status.setWidth 64)).readyS rd (t + 1))) s)

/-- `clst` (R252): STATUS AND NOT IMM; the core registers of R214 keep their bits. -/
def execClst (c : CoreId) (g : Guard) (imm : W32) (s : State) : Out :=
  .next (fire c (.clst c g imm) g (fun _ => onCore c (fun k => { k with status := k.status &&& ~~~imm })) s)

end Sys2Proof.Machine
end

