-- ==== Sys2Proof/Machine/Tick.lean ====
section
/-! DEFINITION. The tick: its start, its deadlines, the power estimate, the thermal request, and the apply point (R163 to R189, R208, R491 to R503). -/
namespace Sys2Proof.Machine

/-! ### The start of a tick (R163 to R167, R208) -/

/-- The core's slot program starts at cycle 0 of sequence n in slot i (R208, R221); an idle slot, or a core whose windows or control core are down, stays idle. -/
def Core.startSlot (k : Core) (c n slot : Nat) (entry : Option Nat) : Core :=
  let k := k.recvMap.foldl (fun (k : Core) e => k.markLines (e.1 + n % 3 * e.2) (e.1 + n % 3 * e.2 + e.2) false) k
  let k := { k with sregs := [], tregs := [], preds := 1, status := 0, stack := [], cyc := 0, sReady := [], tReady := [], pReady := [], stored := [], slot := slot }
  match entry with
  | none => { k with idle := true, run := false }
  | some a => { ((k.setS 1 (BitVec.ofNat 64 n)).setS 2 (BitVec.ofNat 64 slot)).setS 3 (BitVec.ofNat 64 c) with
      idle := false, run := true, pc := BitVec.ofNat 64 a }

/-- The tick's marks of a core are cleared. -/
def Core.newTick (k : Core) : Core :=
  { k with run := false, ended := false, halted := false, idle := true, excSeen := false, inflight := [] }

/-- A core takes part in the tick's work: it is good, its core logic is in use (R26), and its control core has not failed (R480, R561). -/
def State.coreStarts (s : State) (c : CoreId) : Bool :=
  s.good c && (s.die (dieOf c)).domUse.getLsbD (16 + c.val % 4) && !(s.core c).seqSafe && (smGet procDefault s.fw.ctrl c.val).state != 3

/-- Every sequencer starts its slot program (R167, R208). -/
def State.startSlots (s : State) (a : Almanac) : State :=
  let n := s.tick.seq.toNat
  let slot := if a.slots = 0 then 0 else n % a.slots
  a.cores.foldl (fun s e =>
    let c := asCore e.core
    if s.coreStarts c then
      let entry := match e.slots[slot]? with
        | some r => if r.entry = 0xFFFF_FFFF then none else some r.entry
        | none => none
      s.modCore c fun k => k.startSlot c.val n slot entry
    else s) s

/-- The lanes that were entered for this sequence number are delivered (R346). -/
def State.startLanes (s : State) (a : Almanac) : State :=
  let n := s.tick.seq
  match s.entrySlot (if a.slots = 0 then 0 else n.toNat % a.slots), s.srv.fills.find? fun f => f.seq == n with
  | some r, some f => s.deliverLanes n (r.decLanes + r.preLanes) f.lanes
  | _, _ => s

/-- Records of earlier ticks that are kept: the last 1,024, of hold ticks the last few alone. -/
def keepRecs (now : W48) (l : List TickRec) : List TickRec :=
  (l.filter fun r => !r.hold || decide ((now - r.tick).toNat < 4)).take 1024

/-- The tick with its counters advanced (R163, R165, R180): `leap` for a leap tick, `idle` for one of a hold or of WRITING, or with no almanac. -/
def Tick.next (k : Tick) (leap idle : Bool) : Tick :=
  let count := k.count + 1
  let seq := if leap || idle then k.seq else k.seq + 1
  { k with
    count := count, seq := seq, leap := leap, idle := idle, leapNext := false, phase := .work
    time := k.time + k.pEff, pEff := effPeriod k.basePeriod k.stretch
    notices := [], prevLagging := k.lagging, lagging := []
    leapReqs := if leap then k.leapReqs.filter fun r => !k.leapTaken.contains r else k.leapReqs
    lastLeap := if leap then some count else k.lastLeap
    hist := ⟨count, seq, leap, idle, false⟩ :: keepRecs count k.hist }

/-- The fabric and the group at the start of a tick (R420, R423, R424, R426): the timing count advances, the records in force shift, a due step is taken in a leap tick, onto the corrected boundary. -/
def State.startGroup (s : State) (leap : Bool) (elapsed : Nat) : State :=
  let step := leap && s.fab.stepDue
  { s with
    fab := { s.fab with
      frames := [], count := s.fab.count + BitVec.ofNat 64 elapsed, holdover := s.fab.holdover && !step, stepDue := s.fab.stepDue && !step
      evePhase := if step then -(100 * ((s.fab.trim.toNat % 128 : Nat) : Int)) else s.fab.evePhase }
    grp := { s.grp with
      prevRecord := s.grp.tickRecord, tickRecord := s.grp.record
      holdSteps := if s.grp.state == .convening then s.grp.holdSteps + effPeriod s.tick.basePeriod s.tick.stretch else s.grp.holdSteps }
    pow := { s.pow with refuse := s.pow.refuseNext, refuseNext := false } }

/-- REDUCER_ARM and LANE_FILL, which close the apply point before the tick that follows (R195, R289): nothing is armed for a tick without almanac work, and no lane is assigned while a structural patch that
is READY on every member waits (R200). -/
def State.prepare (s : State) : State :=
  match s.alm with
  | none => { s with reducers := [] }
  | some a =>
    if s.tick.leapNext || s.tick.recovery.isSome || s.held || decide (s.loadPhase = 3) then { s with reducers := [] }
    else
      let n := s.tick.seq + 1
      let slot := if a.slots = 0 then 0 else n.toNat % a.slots
      let s := (slotReductions a slot).foldl (fun (s : State) i => match a.routes[i]? with
        | some r => if r.destMember = s.member && s.netOn r.destDie (r.destUnit / 4) then
            s.setReducer r.destDie r.destUnit { reducerDefault 0 with armed := true, route := i, seq := n.setWidth 8 } else s
        | none => s) { s with reducers := [] }
      let assign := match s.tick.patch with | some p => !(p.structural && p.agreed) | none => true
      s.enterLanes n (s.tick.count + 1) assign s.placeBudget

/-- The slot index of a tick on every core (R243), the lines that the scheduler core rewrites before a core's next slot (R239, R303), and the entries freed before (R364). -/
def State.openTick (s : State) : State :=
  let slot (k : Core) : Nat := match s.alm with
    | some a => if a.slots = 0 then 0 else s.tick.seq.toNat % a.slots
    | none => k.slot
  let s := { s with srv := { s.srv with freed := [], stage := 0 } }
  let s := if s.fw.sch.runs then s.eachCore Core.rewrite else s
  (List.range 96).foldl (fun s i => s.modCore (asCore i) fun k => { k.newTick with slot := slot k }) s

/-- TICK_START (R163 to R167, R180, R208, R432): reducers are armed and lanes filled, then a leap tick when one is scheduled or a recovery hold lasts; the ledger entries that it delays move with it (R331). -/
def execTickStart (s : State) : Out :=
  if s.power ≠ 0 || s.tick.phase ≠ .applied then .next s
  else
    let stop := s.held || decide (s.loadPhase = 3)
    let leap := !stop && (s.tick.leapNext || s.tick.recovery.isSome)
    let idle := stop || (s.alm.isNone && !leap)
    let s := s.prepare.startGroup leap s.tick.pEff
    let s := { s with tick := s.tick.next leap idle }
    let s := if leap then { s with srv := { s.srv with ledger := ledgerShift s.srv.ledger s.tick.count 1 } } else s
    let s := s.openTick
    let s := match s.alm with
      | some a => if leap || idle then s else (s.startSlots a).startLanes a
      | none => s
    .next s.sendConvene.sendRuling.rejoinFenced

/-! ### The deadlines (R167, R172, R173, R209) -/

/-- The instruction at the PC is an array issue that the issue gate refuses (R209): it waits for nothing else, and could fire before DLN. -/
def State.gateHolds (s : State) (c : CoreId) : Bool :=
  let k := s.core c
  k.inProgram k.pc && !k.badRange k.pc.toNat (k.pc.toNat + 8) && match decodeAithal c k.fetch with
    | some (.mvm c' g o f) =>
      let d := depsOf (.mvm c' g o f)
      let gd : Deps := ⟨[], [], [g.pred]⟩
      let t := k.fireCycle s.tick.seq (.mvm c' g o f) g
      let u := issueSetup c o s
      !k.pendingReg gd && !k.pendingReg d && k.enabled g && decide (t < s.dln c)
        && (s.mvmExc c o).isNone && !s.mvmWaits c o && !tooManyRows o u && s.gateRefuses c o t u
    | _ => false

/-- An issue that still runs at the issue deadline: its verdicts are not all in, or its end lies after DLN. -/
def UnitInst.late (u : UnitInst) (dln : Nat) : Bool :=
  match u.issue, u.done with
  | some i, some d => !i.todo.isEmpty || !i.due.isEmpty || decide (dln < d)
  | some _, none => true
  | none, _ => false

/-- The issue deadline of one core, in cycle DLN: running issues are aborted with cause 1, their accumulator entries as at their start (DESIGN CHOICE, log 31), and a program that has
not fired `end` overruns (R172, R209). -/
def State.coreDeadline (s : State) (c : CoreId) : State :=
  let k := s.core c
  let dln := s.dln c
  let lates := k.inflight.filter fun u => u.late dln
  let cause := if s.gateHolds c then 0 else 2
  let s := if lates.isEmpty then s
    else
      let s := s.modCore c fun k =>
        let k := lates.reverse.foldl (fun (k : Core) u => match u.issue with | some i => k.putAccs i.undo | none => k) k
        { k with inflight := k.inflight.filter (fun u => !u.late dln), cyc := dln }
      overrun c 1 s
  if k.run then overrun c cause (s.modCore c fun k => { k with cyc := dln }) else s

/-- ISSUE_DEADLINE (R172, R209): no work starts after it. -/
def execIssueDeadline (s : State) : Out :=
  if s.power ≠ 0 || s.tick.phase ≠ .work then .next s
  else
    let s := (List.range 96).foldl (fun s i => s.coreDeadline (asCore i)) s
    .next { s with tick := { s.tick with phase := .drain } }

/-- Units of a core at the work deadline (R173, R209): an unfinished quantiser, vector or move instruction forms a notice with cause 9; those that have completed show their conditions (R214), the
others stop. -/
def State.unitsDeadline (s : State) (c : CoreId) : State :=
  let k := s.core c
  let w := s.wdl c
  let open9 := k.inflight.any fun u => (u.unit == .quant || u.unit == .vector || u.unit == .move) && (match u.done with | some d => decide (w < d) | none => true)
  let s := if open9 then s.lose 9 (dieOf c).val else s
  if k.inflight.isEmpty && !k.run then s else s.modCore c fun k =>
    { k.inflight.foldl (fun k u => if u.settled && u.done.any (decide <| · ≤ w) then k.showFlags u.flags else k) k with run := false, inflight := [] }

/-- Flits of the current sequence that are still in the network are discarded (R188, R300); a frame in transit keeps its flits (R416). -/
def State.flitsDeadline (s : State) : State :=
  let cur (f : Flit) : Bool := f.via.isNone && f.body.hdr.seq == s.tick.seq.setWidth 8
  let s := (s.flits.filter cur).foldl (fun s f => (s.lose (if f.body.hdr.kind = 1 then 4 else 2) f.die.val).modDie f.die fun d => d.red 8) s
  { s with flits := s.flits.filter fun f => !cur f }

/-- The reduction is incomplete at the work deadline (R295): its count is not PARTIALS, it has failed, or its result has not been delivered (R167, R171). -/
def State.incomplete (s : State) (r : Reducer) : Bool :=
  r.armed && (r.failed || !r.delivered || match s.route r.route with
    | some e => r.count != e.partials
    | none => true)

/-- Incomplete reductions (R295). -/
def State.reducersDeadline (s : State) : State :=
  s.reducers.foldl (fun s e => if s.incomplete e.2 then (s.lose 4 (e.1 / 16)).modDie (asDie (e.1 / 16)) fun d => d.red 0 else s) s

/-- The serving die that a request waits at: a `samp` goes to its home die (R339). -/
def ServeReq.at (q : ServeReq) : Nat := if q.kind = .samp ∨ q.kind = .gfence then homeOf (tagReq q.tag) else q.die - 24

/-- Requests to serving dies that are not answered (R171, R329): cause 8, LATE, and nothing of the answer is written. -/
def State.servesDeadline (s : State) : State :=
  let late (s : State) (d : Nat) : State := (s.lose 8 (24 + d)).modSd d fun x => x.attnBit 9
  let s := (s.inbox ++ s.wire).foldl (fun s q => late s (q.at % 2)) s
  let s := [0, 1].foldl (fun s d => if (s.sd d).jobs.isEmpty then s else (late s d).modSd d fun x => { x with jobs := [] }) s
  let s := s.outbound.foldl (fun s q => s.lose 8 (24 + q.at % 2)) s
  { s with inbox := [], wire := [], outbound := [] }

/-! ### Power (R491 to R494) -/

/-- E of an estimate in tenths of a picojoule, plus a base load in W, exceeds a limit in W over p steps of 12.5 ns. -/
def overPower (e base limit p : Nat) : Bool := decide (limit * p * 125000 < e + base * p * 125000)

/-- The power request (R493): `none` when no stretch qualifies. -/
def powerRequest (e base limit p : Nat) : Option Nat := (List.range 51).find? fun x => !overPower e base limit (effPeriod p x)

/-- Dynamic energy of the tick in tenths of a picojoule (R491). -/
def State.tickEnergy (s : State) : Nat := (List.range 24).foldl (fun a d => a + (s.die (asDie d)).west.energy + (s.die (asDie d)).east.energy) 0

/-- POWER_ESTIMATE (R491 to R494): the request rests on the 16 ticks that ended before this one; the ceiling monitor keeps the last 50 µs. -/
def State.powerEstimate (s : State) : State :=
  let e := s.tickEnergy
  let p := s.tick.pEff
  let w := s.pow
  let req := powerRequest (w.energies.foldl max 0) w.base w.limit s.tick.basePeriod
  let s := if req.isNone then s.powBit 0 else s
  let now := s.tick.time + p
  let sPwr := req.getD 50
  let s := { s with pow := { s.pow with
    est := min 4095 (e / (p * 125000) + w.base), sPwr := sPwr, energies := (e :: w.energies).take 16
    limitTicks := if sPwr = 0 then 0 else w.limitTicks + 1
    ceiling := (now, overPower e s.fuses.baseMax 2400 p) :: w.ceiling.filter fun x => decide (now < x.1 + 4000) } }
  (List.range 24).foldl (fun s d => s.modDie (asDie d) fun x => { x with west := { x.west with energy := 0 }, east := { x.east with energy := 0 } }) s

/-! ### Thermal control (R187, R501 to R503) -/

/-- Excess over the throttle point in eighths of a degree. -/
def State.excess (s : State) (t : Option Int) : Nat := match t with
  | some t => (t - 8 * (s.pow.throttle : Int)).toNat
  | none => 0

/-- Thermal demand D in percent (R501). -/
def State.demand (s : State) (t : Option Int) : Nat := ceilDiv (s.pow.slope * s.excess t) 8

/-- The largest 25 MHz step no higher than 1.6 GHz × 100 / (100 + D), at least 0.8 GHz (R502). -/
def targetClock (d : Nat) : Nat := max 32 (6400 / (100 + d))

/-- The clock that a half of weight die d needs in ticks of p steps with settle count e (R187): its own slots, and the seam of both halves. -/
def State.clockNeed (s : State) (d : Nat) (east : Bool) (p e : Nat) : Nat :=
  match s.alm with
  | none => 32
  | some a =>
    let w := windowOf p a.guardSteps
    let far := ((List.range 33).map (32 + ·)).find? fun f => (halfSlots a d (!east)).all fun r => fitsWindow w a.reserve r.seamFlits f
    max (requiredClock a d east p e 64) (far.getD 64)

/-- Thermal control of one half (R502): its next clock, and its request. -/
def State.halfDemand (s : State) (d : Nat) (east : Bool) (h : Half) (t : Option Int) : Half × Nat :=
  let dm := s.demand t
  let f := if dm = 0 then 64 else targetClock dm
  ({ h with nextClk := some f }, if dm ≠ 0 ∧ f < s.clockNeed d east s.tick.basePeriod (settle h.band) then dm else 0)

/-- THERMAL_REQUEST (R501 to R503): while the power core is down the request follows the hottest sensor and the clocks hold. -/
def State.thermalRequest (s : State) : State :=
  if !s.fw.pwr.runs then
    { s with pow := { s.pow with sTh := min 50 (ceilDiv (2 * s.excess (hottest s.allTemps)) 8) } }
  else
    let x := (List.range 24).foldl (fun (x : State × Nat) d =>
      let die := x.1.die (asDie d)
      let w := s.halfDemand d false die.west die.hotW
      let e := s.halfDemand d true die.east die.hotE
      (x.1.setDie (asDie d) { die with west := w.1, east := e.1 }, max x.2 (max w.2 e.2))) (s, 0)
    let m := (List.range 8).foldl (fun m i => max m (s.demand (s.die (asDie (24 + i))).hotW)) x.2
    { x.1 with pow := { x.1.pow with sTh := min 50 m } }

/-! ### The stamp (R421) -/

/-- The own stamp of the current tick; its times are those of the link towards an address. -/
def State.ownStamp (s : State) (dest : BitVec 16) : Stamp :=
  let link := s.exitCode dest
  let k := s.tick
  { tick := k.count, member := s.member, stretch := min 50 (max s.pow.sPwr s.pow.sTh), leap := !k.leapReqs.isEmpty, fault := s.grp.fault, patchVote := s.patchVote
    loadVote := if s.load.staged && s.loadPhase == 1 then 1 else if s.load.writtenVote && s.loadPhase == 3 then 2 else 0
    changeNak := s.chg.group && s.chg.armed.isSome && s.chg.aNak, convening := s.grp.state == .convening
    ready := s.grp.state == .failover && s.grp.ready, notices := k.notices.take 8, noticeOvf := decide (8 < k.notices.length)
    tTx := Config.linkTime k.count.toNat link false, tRx := Config.linkTime k.count.toNat link true
    eveCount := (s.fab.count + BitVec.ofNat 64 ((10 * k.pEff - 64) / 10)).setWidth 32
    offs := (List.range 8).map fun d => s.offset d }

/-- STAMP_FRAME_SEND (R167, R421): to every other member, and kept for the next apply point. -/
def State.sendStamps (s : State) : State :=
  let s := if s.grp.restoring && !s.grp.ready && s.restored then { s with grp := { s.grp with ready := true } } else s
  { s.sendFrames (s.others.map fun m => .stamp (s.memberAddr m) (s.ownStamp (s.memberAddr m))) with
    grp := { s.grp with stamps := s.grp.stamps ++ [s.ownStamp s.addr] } }

/-- WORK_DEADLINE (R167, R173, R295, R300, R329, R421, R491, R502). -/
def execWorkDeadline (s : State) : Out :=
  if s.power ≠ 0 || s.tick.phase ≠ .drain then .next s
  else
    let s := (List.range 96).foldl (fun s i => s.unitsDeadline (asCore i)) s
    let s := s.flitsDeadline.reducersDeadline.servesDeadline
    let s := s.powerEstimate.thermalRequest.sendStamps
    .next { s with tick := { s.tick with phase := .eve } }

/-! ### The verdict (R174 to R179) -/

/-- Loss notices of the verdict on tick t: those that the stamps of eve t carry, and a notice with cause 6 for each stamp that is missing. The first of them is the
lowest member's first one, and a missing stamp's comes last (DESIGN CHOICE, log 66: R206 gives no order). -/
def State.verdictNotices (s : State) (t : W48) : List Notice :=
  (s.stampers.flatMap fun m => match s.stampOf t m with | some x => x.notices | none => [])
  ++ (s.stampers.filter fun m => (s.stampOf t m).isNone).map fun m => ⟨6, m, 0⟩

/-- LOSS_VERDICT (R176, R178, R179): the verdict on tick t, whose sequence number was q, is lost with notices ns. -/
def State.loseTick (s : State) (t q : W48) (ns : List Notice) : State :=
  let now := s.tick.count
  let s := (s.discardTick t).discardTick now
  let k := s.tick
  let n := match k.streak with
    | some x => if x.1 = q then x.2 + 1 else 1
    | none => 1
  let first := nth ⟨0, 0, 0⟩ ns 0
  let lag := ns.any fun x => x.cause == 7
  let k := { k with
    seq := q - 1, event := setBit (setBit k.event 1) 2
    hist := k.hist.map fun r => if r.tick == now then { r with void := true } else r
    lossInfo := BitVec.ofNat 32 (t.toNat % 2 ^ 16 + 2 ^ 16 * (first.cause % 16) + 2 ^ 20 * (first.member % 16) + 2 ^ 24 * (first.die % 256))
    losses := satAdd 0x7FFF_FFFF k.losses 1, streak := some (q, n)
    emergCall := k.emergCall || n == 3, repeatFault := k.repeatFault || (n == 8 && ns.any fun x => x.member == s.member) }
  let k := if lag && k.recovery.isNone then { k with recovery := some ⟨now + 1, k.prevLagging, q⟩, event := setBit k.event 4 } else k
  { s with tick := k, srv := { s.srv with ledger := ledgerShift s.srv.ledger t 2 } }

/-- The verdict on the tick before the current one, with its commit or discard (R174, R175): leap ticks, hold ticks and void ticks are never lost. -/
def State.verdict (s : State) : State :=
  let t := s.tick.count - 1
  match s.tick.hist.find? fun r => r.tick == t with
  | none => s
  | some r =>
    let ns := s.verdictNotices t
    let s := if s.stampers.any fun m => (s.stampOf t m).isNone then { s with tick := { s.tick with event := setBit s.tick.event 6 } } else s
    if r.void then s
    else if r.leap || r.hold then
      let s := s.commitTick t
      if r.leap then { s with grp := { s.grp with lastCommit := t } } else s
    else if ns.isEmpty then
      let s := s.commitTick t
      { s with tick := { s.tick with streak := none }, grp := { s.grp with lastCommit := t } }
    else s.loseTick t r.seq ns

/-! ### Stretch and leap ticks (R182, R185) -/

/-- GROUP_STRETCH (R178, R185). -/
def State.groupStretch (s : State) : State :=
  let t := s.tick.count - 1
  let reqs := s.stampers.filterMap fun m => (s.stampOf t m).map Stamp.stretch
  let em := match s.tick.emergUntil with
    | some u => !(s.tick.count == u || laterThan s.tick.count u)
    | none => false
  { s with tick := { s.tick with stretch := if em then 50 else min 50 (reqs.foldl max (s.tick.stretch - 2)) } }

/-- LEAP_TICK_SCHEDULING (R182): a request in the stamps of the previous eve makes the next tick a leap tick, or is deferred. -/
def State.leapSchedule (s : State) : State :=
  let t := s.tick.count - 1
  let asked := !s.tick.leap && s.tick.recovery.isNone && s.stampers.any fun m => match s.stampOf t m with | some x => x.leap | none => false
  let near := match s.tick.lastLeap with
    | some l => decide ((s.tick.count - l).toNat ≤ 62)
    | none => false
  let s := { s with tick := { s.tick with leapTaken := s.tick.leapReqs } }
  if !asked then s
  else if s.lostNow || s.held || (near && !s.emergency) then { s with tick := { s.tick with event := setBit s.tick.event 5 } }
  else { s with tick := { s.tick with leapNext := true } }

/-! ### Maps, grades, bands, clocks (R18, R21, R62, R138, R187) -/

/-- ARRAY_MAP_CHANGE, HANDOVER, HOLIDAY_RELEASE and GRADE_CHANGE on one core (R21, R135, R136, R147); the map changes of a write phase wait for its commit (R401). -/
def State.coreEve (s : State) (c : CoreId) : State :=
  let s := if s.loadPhase = 3 then s else s.takeMaps c
  ((s.holidayEve c).critEve c).modCore c Core.gradeEve

/-- Rank of a band, and its lower boundary in eighths of a degree. -/
def Band.rank : Band → Nat
  | .cold => 0 | .nominal => 1 | .warm => 2 | .hot => 3 | .critical => 4

/-- Lower boundary of a band. -/
def Band.lower : Band → Int
  | .cold => -1000 | .nominal => 320 | .warm => 560 | .hot => 720 | .critical => 840

/-- BAND_CHANGE (R138): up at once, down with 2 °C of hysteresis. -/
def nextBand (b : Band) (t : Option Int) : Band := match t with
  | none => b
  | some t => if b.rank < (bandOf t).rank then bandOf t else if t < b.lower - 16 then bandOf (t + 16) else b

/-- Bands of every weight die (R138). -/
def State.bandEve (s : State) : State :=
  (List.range 24).foldl (fun s d => s.modDie (asDie d) fun x =>
    { x with west := { x.west with band := nextBand x.west.band x.hotW }, east := { x.east with band := nextBand x.east.band x.hotE } }) s

/-- HALF_CLOCK_SWITCH (R18, R187, R502): to the larger of the target and what the next tick needs. -/
def State.clockEve (s : State) : State :=
  let p := effPeriod s.tick.basePeriod s.tick.stretch
  let sw (d : Nat) (east : Bool) (h : Half) : Half := match h.nextClk with
    | some f => { h with clk := min 64 (max f (s.clockNeed d east p (settle h.band))), nextClk := none }
    | none => h
  (List.range 24).foldl (fun t d => t.modDie (asDie d) fun x => { x with west := sw d false x.west, east := sw d true x.east }) s

/-! ### The apply point (R169, R524) -/

/-- Steps 1 to 3 of R169. -/
def State.applyVerdict (s : State) : State :=
  let s := { s with tick := { s.tick with budgetSet := [] } }
  s.verdict.groupStretch.leapSchedule

/-- Steps 4 and 5 of R169; a change that is refused is refused before a patch (R27). -/
def State.applyChanges (s : State) : State × List BufWrite :=
  let ms := s.stampers
  let p := ((s.refuseChanges.patchStep ms).actStep ms).applyPending
  let a := p.1.applyArmed
  (a.1.joinLate, p.2 ++ a.2)

/-- Steps 6 to 9 of R169: map changes and handovers, grades and bands, the power domains of the writes that step 5 applied, clocks. -/
def State.applyCores (r : State × List BufWrite) : State :=
  let s := (List.range 96).foldl (fun s i => s.coreEve (asCore i)) r.1
  (s.bandEve.domainEve r.2).applyTrims.clockEve

/-- The group at an apply point (R425, R431): skews and slew, and the call of a convening. -/
def State.applyGroup (s : State) : State :=
  let t := s.tick.count - 1
  let s := { s with srv := { s.srv with laneLog := if s.held then s.srv.laneLog else ((s.tick.count, s.srv.lanes.map Lane.tag) :: s.srv.laneLog).take 1024 } }
  let s := if s.grp.state == .spare then s else s.slew t
  let s := if s.grp.state != .convening && s.mustConvene t then s.callConvening else s
  { s with grp := { s.grp with stamps := s.grp.stamps.filter fun x => decide ((s.tick.count - x.tick).toNat < 8) } }

/-- The device reads CONS of every request with a ring at an apply point: one above PROD sets RING_WAIT (R362). -/
def State.readCons (s : State) : State :=
  s.reqIds.foldl (fun s i =>
    let r := s.req i
    if r.state ≠ .free ∧ r.prod.toNat < s.cons r then s.modSd (homeOf i) fun x => x.serveBit 4 else s) s

/-- What the host interface, the home dies and the firmware do at an apply point (R362, R440, R457, R466, R474, R484). -/
def State.applyHost (s : State) : State :=
  let s := (List.range 16).foldl State.flushLost s.requestEscrow.readCons.applyRings
  let s := { s with fw := { s.fw with goodTicks := min 1024 (s.fw.goodTicks + 1), clearTicks := if s.fw.emerg then 0 else min 1024 (s.fw.clearTicks + 1) } }
  s.emergUpdate

/-- APPLY_POINT (R169). -/
def execApplyPoint (s : State) : Out :=
  if s.power ≠ 0 || s.tick.phase ≠ .reported then .next s
  else
    let s := (State.applyCores s.applyVerdict.applyChanges).applyGroup.applyHost
    let s := { s with tick := { s.tick with phase := .applied } }
    .next s.takeJoin

/-! ### Emergency stretch and recovery hold (R178, R179) -/

/-- EMERGENCY_STRETCH (R178): the same sequence number was lost 3 times in a row; 50 % from the next apply point, for 1,024 ticks. -/
def execEmergencyStretch (s : State) : Out :=
  if s.power ≠ 0 || s.tick.phase ≠ .applied || !s.tick.emergCall then .next s
  else .next { s with tick := { s.tick with
    emergCall := false, emergUntil := some (s.tick.count + 1025), event := setBit s.tick.event 3 } }

/-- EMERGENCY_STRETCH_END (R178): the last of its ticks has run. -/
def execEmergencyStretchEnd (s : State) : Out :=
  match s.tick.emergUntil with
  | none => .next s
  | some u =>
    if s.power ≠ 0 || s.tick.phase ≠ .applied || !(s.tick.count == u || laterThan s.tick.count u) then .next s
    else .next { s with tick := { s.tick with emergUntil := none } }

/-- REPEAT_LOSS_FAULT (R178): this package was named as a source in the eighth set of loss notices. -/
def execRepeatLossFault (s : State) : Out :=
  if s.power ≠ 0 || !s.tick.repeatFault then .next s
  else .next ({ s with tick := { s.tick with repeatFault := false } }.packageFault 2)

/-- A lagging logical array a, served by physical array p, has handed over to one whose effective mode reaches the compiled mode (R179). -/
def State.handedOver (s : State) (c : CoreId) (a p : Nat) : Bool :=
  s.phys c a != p && decide (s.compiledRank ≤ (effective (match s.alm with
      | some a => if a.mode = 0 then .reference else if a.mode = 1 then .standard else .brisk
      | none => .reference) ((s.core c).arr (s.phys c a)).grade).1)

/-- RECOVERY_HOLD_END (R179): after the handover of every lagging array of this package; the lost slot is replayed in the next tick. -/
def execRecoveryHoldEnd (s : State) : Out :=
  match s.tick.recovery with
  | none => .next s
  | some r =>
    if s.power ≠ 0 || s.tick.phase ≠ .applied || !(r.arrays.all fun x => s.handedOver (asCore x.1) x.2.1 x.2.2) then .next s
    else .next { s with tick := { s.tick with recovery := none } }

/-- A lagging array still waits for a spare, and the quarter of the array that serves it has none free (R179). -/
def State.noSpareFor (s : State) (c : CoreId) (a p : Nat) : Bool :=
  let q := s.phys c a
  !s.handedOver c a p && !((s.core c).holidays.any fun h => h.orig == q) && (s.freeSpare c (quarterOf q)).isNone

/-- RECOVERY_HOLD_TIMEOUT (R179): the hold has lasted 1,024 ticks, or no spare of the quarter is free: a package fault. -/
def execRecoveryHoldTimeout (s : State) : Out :=
  match s.tick.recovery with
  | none => .next s
  | some r =>
    if s.power ≠ 0 || s.tick.phase ≠ .applied || s.grp.fault
        || !(decide (1024 ≤ (s.tick.count - r.since + 1).toNat) || r.arrays.any fun x => s.noSpareFor (asCore x.1) x.2.1 x.2.2) then .next s
    else .next (s.packageFault 1)

end Sys2Proof.Machine
end

