-- ==== Sys2Proof/Machine/Dispatch.lean ====
section
/-! DEFINITION. The meaning of every command: one arm for each constructor of Instr. -/
namespace Sys2Proof.Machine

def exec (i : Instr) (s : State) : Host.Outcome State Fault Refusal :=
  match i with
  | .br c g ra cond off => Sys2Proof.Machine.execBr c g ra cond off s
  | .call c g off => Sys2Proof.Machine.execCall c g off s
  | .ret c g => Sys2Proof.Machine.execRet c g s
  | .endProg c g => Sys2Proof.Machine.execEndProg c g s
  | .rds c g rd sp => Sys2Proof.Machine.execRds c g rd sp s
  | .wait c g mask => Sys2Proof.Machine.execWait c g mask s
  | .waitd c g ta => Sys2Proof.Machine.execWaitd c g ta s
  | .nop c g => Sys2Proof.Machine.execNop c g s
  | .add c g rd ra rb imm => Sys2Proof.Machine.execAdd c g rd ra rb imm s
  | .sub c g rd ra rb imm => Sys2Proof.Machine.execSub c g rd ra rb imm s
  | .mul c g rd ra rb imm => Sys2Proof.Machine.execMul c g rd ra rb imm s
  | .divu c g rd ra rb imm => Sys2Proof.Machine.execDivu c g rd ra rb imm s
  | .remu c g rd ra rb imm => Sys2Proof.Machine.execRemu c g rd ra rb imm s
  | .divs c g rd ra rb imm => Sys2Proof.Machine.execDivs c g rd ra rb imm s
  | .rems c g rd ra rb imm => Sys2Proof.Machine.execRems c g rd ra rb imm s
  | .and c g rd ra rb imm => Sys2Proof.Machine.execAnd c g rd ra rb imm s
  | .or c g rd ra rb imm => Sys2Proof.Machine.execOr c g rd ra rb imm s
  | .xor c g rd ra rb imm => Sys2Proof.Machine.execXor c g rd ra rb imm s
  | .shl c g rd ra rb imm => Sys2Proof.Machine.execShl c g rd ra rb imm s
  | .shr c g rd ra rb imm => Sys2Proof.Machine.execShr c g rd ra rb imm s
  | .sra c g rd ra rb imm => Sys2Proof.Machine.execSra c g rd ra rb imm s
  | .min c g rd ra rb imm => Sys2Proof.Machine.execMin c g rd ra rb imm s
  | .max c g rd ra rb imm => Sys2Proof.Machine.execMax c g rd ra rb imm s
  | .movhi c g rd ra imm => Sys2Proof.Machine.execMovhi c g rd ra imm s
  | .ld c g rd ra imm => Sys2Proof.Machine.execLd c g rd ra imm s
  | .st c g rb ra imm => Sys2Proof.Machine.execSt c g rb ra imm s
  | .ldw c g rd ra imm => Sys2Proof.Machine.execLdw c g rd ra imm s
  | .stw c g rb ra imm => Sys2Proof.Machine.execStw c g rb ra imm s
  | .ldd c g td ra imm => Sys2Proof.Machine.execLdd c g td ra imm s
  | .std c g tb ra imm => Sys2Proof.Machine.execStd c g tb ra imm s
  | .ldx c g rd ta imm => Sys2Proof.Machine.execLdx c g rd ta imm s
  | .dset c g td fld ra imm => Sys2Proof.Machine.execDset c g td fld ra imm s
  | .pcmp c g pd cmp ra rb imm => Sys2Proof.Machine.execPcmp c g pd cmp ra rb imm s
  | .pand c g pd pa pb => Sys2Proof.Machine.execPand c g pd pa pb s
  | .por c g pd pa pb => Sys2Proof.Machine.execPor c g pd pa pb s
  | .pxor c g pd pa pb => Sys2Proof.Machine.execPxor c g pd pa pb s
  | .pnot c g pd pa => Sys2Proof.Machine.execPnot c g pd pa s
  | .pset c g pd b => Sys2Proof.Machine.execPset c g pd b s
  | .tst c g pd imm => Sys2Proof.Machine.execTst c g pd imm s
  | .rdst c g rd => Sys2Proof.Machine.execRdst c g rd s
  | .clst c g imm => Sys2Proof.Machine.execClst c g imm s
  | .mvm c g o faults => Sys2Proof.Machine.execMvm c g o faults s
  | .passVerdict c issue p codes => Sys2Proof.Machine.execPassVerdict c issue p codes s
  | .rereadPass c issue => Sys2Proof.Machine.execRereadPass c issue s
  | .mvs c g td ta sa tile => Sys2Proof.Machine.execMvs c g td ta sa tile s
  | .accclr c g td => Sys2Proof.Machine.execAccclr c g td s
  | .accrd c g td ta rsel => Sys2Proof.Machine.execAccrd c g td ta rsel s
  | .accst c g td ta => Sys2Proof.Machine.execAccst c g td ta s
  | .accld c g td ta => Sys2Proof.Machine.execAccld c g td ta s
  | .accadd c g td ta => Sys2Proof.Machine.execAccadd c g td ta s
  | .qnt c g td ta sa rsel => Sys2Proof.Machine.execQnt c g td ta sa rsel s
  | .vadd c g td ta tb => Sys2Proof.Machine.execVadd c g td ta tb s
  | .vsub c g td ta tb => Sys2Proof.Machine.execVsub c g td ta tb s
  | .vmul c g td ta tb => Sys2Proof.Machine.execVmul c g td ta tb s
  | .vfma c g td ta tb => Sys2Proof.Machine.execVfma c g td ta tb s
  | .vmax c g td ta tb => Sys2Proof.Machine.execVmax c g td ta tb s
  | .vmin c g td ta tb => Sys2Proof.Machine.execVmin c g td ta tb s
  | .vscl c g td ta sa => Sys2Proof.Machine.execVscl c g td ta sa s
  | .vcvt c g td ta => Sys2Proof.Machine.execVcvt c g td ta s
  | .vsum c g td ta => Sys2Proof.Machine.execVsum c g td ta s
  | .vmaxr c g td ta => Sys2Proof.Machine.execVmaxr c g td ta s
  | .vnorm c g td ta tb k => Sys2Proof.Machine.execVnorm c g td ta tb k s
  | .vexp c g td ta => Sys2Proof.Machine.execVexp c g td ta s
  | .vrcp c g td ta => Sys2Proof.Machine.execVrcp c g td ta s
  | .vrsqrt c g td ta => Sys2Proof.Machine.execVrsqrt c g td ta s
  | .vsilu c g td ta => Sys2Proof.Machine.execVsilu c g td ta s
  | .vgelu c g td ta => Sys2Proof.Machine.execVgelu c g td ta s
  | .vtanh c g td ta => Sys2Proof.Machine.execVtanh c g td ta s
  | .vsigm c g td ta => Sys2Proof.Machine.execVsigm c g td ta s
  | .vrope c g td ta tb sa => Sys2Proof.Machine.execVrope c g td ta tb sa s
  | .mov c g td ta => Sys2Proof.Machine.execMov c g td ta s
  | .mfill c g td sa => Sys2Proof.Machine.execMfill c g td sa s
  | .mgath c g td ta tb => Sys2Proof.Machine.execMgath c g td ta tb s
  | .send c g ta route sa => Sys2Proof.Machine.execSend c g ta route sa s
  | .red c g ta route sa opMax => Sys2Proof.Machine.execRed c g ta route sa opMax s
  | .attn c g ta tb route sa layer => Sys2Proof.Machine.execAttn c g ta tb route sa layer s
  | .kvw c g ta tb route sa layer => Sys2Proof.Machine.execKvw c g ta tb route sa layer s
  | .samp c g ta route sa => Sys2Proof.Machine.execSamp c g ta route sa s
  | .gfence c g sa pd => Sys2Proof.Machine.execGfence c g sa pd s
  | .unitInstructionComplete c id => Sys2Proof.Machine.execUnitInstructionComplete c id s
  | .tickStart => Sys2Proof.Machine.execTickStart s
  | .issueDeadline => Sys2Proof.Machine.execIssueDeadline s
  | .workDeadline => Sys2Proof.Machine.execWorkDeadline s
  | .changeReport => Sys2Proof.Machine.execChangeReport s
  | .applyPoint => Sys2Proof.Machine.execApplyPoint s
  | .structuralPatchApply => Sys2Proof.Machine.execStructuralPatchApply s
  | .patchRollback => Sys2Proof.Machine.execPatchRollback s
  | .changeRollback => Sys2Proof.Machine.execChangeRollback s
  | .emergencyStretch => Sys2Proof.Machine.execEmergencyStretch s
  | .emergencyStretchEnd => Sys2Proof.Machine.execEmergencyStretchEnd s
  | .repeatLossFault => Sys2Proof.Machine.execRepeatLossFault s
  | .recoveryHoldEnd => Sys2Proof.Machine.execRecoveryHoldEnd s
  | .recoveryHoldTimeout => Sys2Proof.Machine.execRecoveryHoldTimeout s
  | .flitHopReceive flit ecc => Sys2Proof.Machine.execFlitHopReceive flit ecc s
  | .flitDelivery flit => Sys2Proof.Machine.execFlitDelivery flit s
  | .reducerCombine flit => Sys2Proof.Machine.execReducerCombine flit s
  | .reducerDelivery d unit => Sys2Proof.Machine.execReducerDelivery d unit s
  | .scrub d w uncorrectable => Sys2Proof.Machine.execScrub d w uncorrectable s
  | .dramScrub sv addr uncorrectable => Sys2Proof.Machine.execDramScrub sv addr uncorrectable s
  | .linkTraining d port r => Sys2Proof.Machine.execLinkTraining d port r s
  | .linkDegrade d port down => Sys2Proof.Machine.execLinkDegrade d port down s
  | .fabricLinkTraining k r peer => Sys2Proof.Machine.execFabricLinkTraining k r peer s
  | .fabricLaneFail k fourLeft => Sys2Proof.Machine.execFabricLaneFail k fourLeft s
  | .eyeSafetyDisable o port => Sys2Proof.Machine.execEyeSafetyDisable o port s
  | .opticalDieFail o => Sys2Proof.Machine.execOpticalDieFail o s
  | .dataFrame f => Sys2Proof.Machine.execDataFrame f s
  | .transitFrame f => Sys2Proof.Machine.execTransitFrame f s
  | .stampFrame tag p => Sys2Proof.Machine.execStampFrame tag p s
  | .conveneFrame f => Sys2Proof.Machine.execConveneFrame f s
  | .conveningRuling => Sys2Proof.Machine.execConveningRuling s
  | .ruling f => Sys2Proof.Machine.execRuling f s
  | .rulingApply => Sys2Proof.Machine.execRulingApply s
  | .conveningRoundEnd => Sys2Proof.Machine.execConveningRoundEnd s
  | .groupSplit => Sys2Proof.Machine.execGroupSplit s
  | .join f => Sys2Proof.Machine.execJoin f s
  | .joinTimeout => Sys2Proof.Machine.execJoinTimeout s
  | .escrowBankArrival index content => Sys2Proof.Machine.execEscrowBankArrival index content s
  | .failoverHoldEnd => Sys2Proof.Machine.execFailoverHoldEnd s
  | .escrowRefill => Sys2Proof.Machine.execEscrowRefill s
  | .leave groupId member => Sys2Proof.Machine.execLeave groupId member s
  | .presenceBreak => Sys2Proof.Machine.execPresenceBreak s
  | .timeMessage bytes => Sys2Proof.Machine.execTimeMessage bytes s
  | .timingLock within50ns => Sys2Proof.Machine.execTimingLock within50ns s
  | .holdover => Sys2Proof.Machine.execHoldover s
  | .attentionRequest sv => Sys2Proof.Machine.execAttentionRequest sv s
  | .pageTask sv engine wordFailsTwice => Sys2Proof.Machine.execPageTask sv engine wordFailsTwice s
  | .attentionAnswer sv id => Sys2Proof.Machine.execAttentionAnswer sv id s
  | .kvWrite sv => Sys2Proof.Machine.execKvWrite sv s
  | .pageAgeing sv req layer page wordFailsTwice => Sys2Proof.Machine.execPageAgeing sv req layer page wordFailsTwice s
  | .sampling sv => Sys2Proof.Machine.execSampling sv s
  | .generationFenceQuery sv => Sys2Proof.Machine.execGenerationFenceQuery sv s
  | .refusalReport sv => Sys2Proof.Machine.execRefusalReport sv s
  | .heldExit req => Sys2Proof.Machine.execHeldExit req s
  | .requestFaultEnd req => Sys2Proof.Machine.execRequestFaultEnd req s
  | .rebuildStart req => Sys2Proof.Machine.execRebuildStart req s
  | .queueDeparture => Sys2Proof.Machine.execQueueDeparture s
  | .requestEnd req => Sys2Proof.Machine.execRequestEnd req s
  | .endingCompletion => Sys2Proof.Machine.execEndingCompletion s
  | .hideApply req => Sys2Proof.Machine.execHideApply req s
  | .migrate => Sys2Proof.Machine.execMigrate s
  | .admitReq h recordAddr => Sys2Proof.Machine.execAdmitReq h recordAddr s
  | .cancel h req ticket => Sys2Proof.Machine.execCancel h req ticket s
  | .draft h req ticket base idsAddr => Sys2Proof.Machine.execDraft h req ticket base idsAddr s
  | .hide h req ticket lo hi => Sys2Proof.Machine.execHide h req ticket lo hi s
  | .imgBegin h descAddr metaLen drainTicks escrowPos => Sys2Proof.Machine.execImgBegin h descAddr metaLen drainTicks escrowPos s
  | .metadataCheck member peerStatus image drainTicks => Sys2Proof.Machine.execMetadataCheck member peerStatus image drainTicks s
  | .imgFeed h index addr => Sys2Proof.Machine.execImgFeed h index addr s
  | .imgEnd h => Sys2Proof.Machine.execImgEnd h s
  | .imgAbort h => Sys2Proof.Machine.execImgAbort h s
  | .escFeed h index addr => Sys2Proof.Machine.execEscFeed h index addr s
  | .sectionArrival index holder content peerAck => Sys2Proof.Machine.execSectionArrival index holder content peerAck s
  | .sectionTimeout index holder => Sys2Proof.Machine.execSectionTimeout index holder s
  | .bankCompare c b => Sys2Proof.Machine.execBankCompare c b s
  | .loadAbandon => Sys2Proof.Machine.execLoadAbandon s
  | .draining => Sys2Proof.Machine.execDraining s
  | .writing => Sys2Proof.Machine.execWriting s
  | .memberWritten => Sys2Proof.Machine.execMemberWritten s
  | .committed => Sys2Proof.Machine.execCommitted s
  | .almPatch h addr len target => Sys2Proof.Machine.execAlmPatch h addr len target s
  | .almLoad h addr len => Sys2Proof.Machine.execAlmLoad h addr len s
  | .groupForm h recordAddr => Sys2Proof.Machine.execGroupForm h recordAddr s
  | .groupLeave h => Sys2Proof.Machine.execGroupLeave h s
  | .fwStage h src addr len => Sys2Proof.Machine.execFwStage h src addr len s
  | .fwActivate h target auto => Sys2Proof.Machine.execFwActivate h target auto s
  | .autoActivation => Sys2Proof.Machine.execAutoActivation s
  | .attest h nonceAddr outAddr => Sys2Proof.Machine.execAttest h nonceAddr outAddr s
  | .ownerKeyAdd h modelId keyAddr require => Sys2Proof.Machine.execOwnerKeyAdd h modelId keyAddr require s
  | .ownerKeyDelete h modelId => Sys2Proof.Machine.execOwnerKeyDelete h modelId s
  | .bootCfg h cfgAddr => Sys2Proof.Machine.execBootCfg h cfgAddr s
  | .selftest h unit kind => Sys2Proof.Machine.execSelftest h unit kind s
  | .selftestCancel h unit => Sys2Proof.Machine.execSelftestCancel h unit s
  | .selftestRun passed detail => Sys2Proof.Machine.execSelftestRun passed detail s
  | .cmdNop h => Sys2Proof.Machine.execCmdNop h s
  | .commandTake set => Sys2Proof.Machine.execCommandTake set s
  | .eventsLost set => Sys2Proof.Machine.execEventsLost set s
  | .dbCommandTail set index => Sys2Proof.Machine.execDbCommandTail set index s
  | .dbCompletionConsumed set index => Sys2Proof.Machine.execDbCompletionConsumed set index s
  | .dbEventConsumed set index => Sys2Proof.Machine.execDbEventConsumed set index s
  | .mgmtRead m => Sys2Proof.Machine.execMgmtRead m s
  | .mgmtWrite m words => Sys2Proof.Machine.execMgmtWrite m words s
  | .registerWrite p addr v => Sys2Proof.Machine.execRegisterWrite p addr v s
  | .lowWordRead p addr => Sys2Proof.Machine.execLowWordRead p addr s
  | .leapReq p => Sys2Proof.Machine.execLeapReq p s
  | .hold p on => Sys2Proof.Machine.execHold p on s
  | .arm p => Sys2Proof.Machine.execArm p s
  | .discard p => Sys2Proof.Machine.execDiscard p s
  | .strobe p d groups => Sys2Proof.Machine.execStrobe p d groups s
  | .drop p d groups => Sys2Proof.Machine.execDrop p d groups s
  | .checkLock p c => Sys2Proof.Machine.execCheckLock p c s
  | .ladderExhaustedClear p c => Sys2Proof.Machine.execLadderExhaustedClear p c s
  | .exceptionRecordClear p c => Sys2Proof.Machine.execExceptionRecordClear p c s
  | .configFaultClear p d => Sys2Proof.Machine.execConfigFaultClear p d s
  | .fsCountClear p c => Sys2Proof.Machine.execFsCountClear p c s
  | .clampsClear p c => Sys2Proof.Machine.execClampsClear p c s
  | .qeventClear p c => Sys2Proof.Machine.execQeventClear p c s
  | .lossesClear p => Sys2Proof.Machine.execLossesClear p s
  | .correctedClear p d => Sys2Proof.Machine.execCorrectedClear p d s
  | .retriesClear p d => Sys2Proof.Machine.execRetriesClear p d s
  | .draftsClear p sv => Sys2Proof.Machine.execDraftsClear p sv s
  | .readmissionRequest p d sensor => Sys2Proof.Machine.execReadmissionRequest p d sensor s
  | .sensorReadmission d sensor => Sys2Proof.Machine.execSensorReadmission d sensor s
  | .hskRequest p d r => Sys2Proof.Machine.execHskRequest p d r s
  | .hskUrgentRequest p d r => Sys2Proof.Machine.execHskUrgentRequest p d r s
  | .conversionDone d east sense => Sys2Proof.Machine.execConversionDone d east sense s
  | .idleBandgapConversion d east sense => Sys2Proof.Machine.execIdleBandgapConversion d east sense s
  | .converterRetire d refWest refEast => Sys2Proof.Machine.execConverterRetire d refWest refEast s
  | .referenceConversion d east refCode gndCode bandgap => Sys2Proof.Machine.execReferenceConversion d east refCode gndCode bandgap s
  | .calibration d block core index trim => Sys2Proof.Machine.execCalibration d block core index trim s
  | .lightCheck c array errorMilli => Sys2Proof.Machine.execLightCheck c array errorMilli s
  | .sensorSample readings => Sys2Proof.Machine.execSensorSample readings s
  | .railReading baseWatts => Sys2Proof.Machine.execRailReading baseWatts s
  | .pmbusWarn on => Sys2Proof.Machine.execPmbusWarn on s
  | .pmbusFault => Sys2Proof.Machine.execPmbusFault s
  | .railShutdown r => Sys2Proof.Machine.execRailShutdown r s
  | .ceilingTrip => Sys2Proof.Machine.execCeilingTrip s
  | .limitHoldEmergency => Sys2Proof.Machine.execLimitHoldEmergency s
  | .marginScan c array e => Sys2Proof.Machine.execMarginScan c array e s
  | .scanLate c array => Sys2Proof.Machine.execScanLate c array s
  | .failureCountLimit c array => Sys2Proof.Machine.execFailureCountLimit c array s
  | .failureWindowRestart => Sys2Proof.Machine.execFailureWindowRestart s
  | .holidayStart c => Sys2Proof.Machine.execHolidayStart c s
  | .holidayCopyDone c orig r unrepairable => Sys2Proof.Machine.execHolidayCopyDone c orig r unrepairable s
  | .holidayServiceDone c orig r cal => Sys2Proof.Machine.execHolidayServiceDone c orig r cal s
  | .rowWrite c array row content failing => Sys2Proof.Machine.execRowWrite c array row content failing s
  | .ladderRepeatFault c array => Sys2Proof.Machine.execLadderRepeatFault c array s
  | .wearWriteback c array => Sys2Proof.Machine.execWearWriteback c array s
  | .newYearSweep c scans rescans time100us => Sys2Proof.Machine.execNewYearSweep c scans rescans time100us s
  | .quarterScan c quarter scans rescans => Sys2Proof.Machine.execQuarterScan c quarter scans rescans s
  | .domainReady d bit => Sys2Proof.Machine.execDomainReady d bit s
  | .configParityCheck p addr => Sys2Proof.Machine.execConfigParityCheck p addr s
  | .powerOnReset => Sys2Proof.Machine.execPowerOnReset s
  | .boot straps fuseError => Sys2Proof.Machine.execBoot straps fuseError s
  | .orderlyPowerDown => Sys2Proof.Machine.execOrderlyPowerDown s
  | .solicit => Sys2Proof.Machine.execSolicit s
  | .offer object length => Sys2Proof.Machine.execOffer object length s
  | .data offset bytes => Sys2Proof.Machine.execData offset bytes s
  | .readRetry offset => Sys2Proof.Machine.execReadRetry offset s
  | .fetchTimeout => Sys2Proof.Machine.execFetchTimeout s
  | .watchdog p => Sys2Proof.Machine.execWatchdog p s
  | .fwRestart p cause => Sys2Proof.Machine.execFwRestart p cause s
  | .takeover p => Sys2Proof.Machine.execTakeover p s
  | .lastGoodBundle => Sys2Proof.Machine.execLastGoodBundle s
  | .unplannedPowerLoss => Sys2Proof.Machine.execUnplannedPowerLoss s
  | .memberAnswerTimeout member => Sys2Proof.Machine.execMemberAnswerTimeout member s
  | .commandDieFail east => Sys2Proof.Machine.execCommandDieFail east s

end Sys2Proof.Machine
end

