-- ==== Sys2Proof/Safety.lean ====
section
/-! DEFINITION. What a safe run is: the canonical form of every memory, and the terms that statements about runs use. -/
namespace Sys2Proof.Machine

/-- Every addressed memory of the block is in canonical form: the core stores, the serving dies' DRAM and the two carve-outs. -/
def State.canonical (s : State) : Prop :=
  (∀ c, Memory.wf (s.core c).store = true) ∧ (∀ n, Memory.wf (s.sd n).dram = true) ∧
  Memory.wf s.rings.carve0 = true ∧ Memory.wf s.rings.carve1 = true

/-- A run of n steps that goes through to a state. -/
def runsTo (s : State) : Nat → State → Prop
  | 0, t => s = t
  | n + 1, t => ∃ m, step s = .next m ∧ runsTo m n t

/-- Safety: no step of the block stops; each answers a next state. -/
def neverStops (s : State) : Prop := ∀ n t, runsTo s n t → ∃ u, step t = .next u

/-- The half-clock cycle in which instruction i with guard g fires on core c, if nothing but registers and stores holds it (R232, R233). -/
def State.fireAt (s : State) (c : CoreId) (i : Instr) (g : Guard) : Nat :=
  (s.core c).fireCycle s.tick.seq i g

/-- The slot program of core c runs, the word at its PC is instruction i, whose guard g lets it execute, no register of it is the
destination of an instruction in flight, and it fires before DLN (R207 to R211, R229 to R233). -/
structure Ready (c : CoreId) (i : Instr) (g : Guard) (s : State) : Prop where
  runs : (s.core c).run = true
  work : s.tick.phase = .work
  inside : (s.core c).inProgram (s.core c).pc = true
  sound : (s.core c).badRange (s.core c).pc.toNat ((s.core c).pc.toNat + 8) = false
  word : decodeAithal c (s.core c).fetch = some (asWord i)
  enabled : (s.core c).enabled g = true
  guardFree : (s.core c).pendingReg ⟨[], [], [g.pred]⟩ = false
  regsFree : (s.core c).pendingReg (depsOf i) = false
  inTime : s.fireAt c i g < s.dln c

/-- Command i answers the state with core c alone replaced, by one that meets `post`. -/
def turnsCore (i : Instr) (c : CoreId) (s : State) (post : Core → Prop) : Prop := ∃ k', exec i s = .next (s.setCore c k') ∧ post k'

/-- Apart from the PC, CYC and scalar registers the two cores are the same. -/
def Core.sameButS (k k' : Core) : Prop := { k' with sregs := k.sregs, sReady := k.sReady, pc := k.pc, cyc := k.cyc } = k
/-- Apart from the PC, CYC and descriptor registers the two cores are the same. -/
def Core.sameButT (k k' : Core) : Prop := { k' with tregs := k.tregs, tReady := k.tReady, pc := k.pc, cyc := k.cyc } = k
/-- Apart from the PC, CYC and predicate registers the two cores are the same. -/
def Core.sameButP (k k' : Core) : Prop := { k' with preds := k.preds, pReady := k.pReady, pc := k.pc, cyc := k.cyc } = k
/-- Apart from the PC, CYC and the core store with its failing words and latest stores the two cores are the same. -/
def Core.sameButStore (k k' : Core) : Prop := { k' with store := k.store, badStore := k.badStore, stored := k.stored, pc := k.pc, cyc := k.cyc } = k

/-- Instruction i, when ready, writes v into s[RD], which is usable after `lat` cycles: s0 stays 0, every other scalar register and all
else of the core stays as it was, the PC goes on by 8 and the instruction costs 1 cycle. -/
def writesS (i : Instr) (c : CoreId) (g : Guard) (rd : SReg) (lat : Nat) (s : State) (v : Core → W64) : Prop :=
  Ready c i g s → turnsCore i c s fun k' =>
    k'.sreg rd = (if rd.val = 0 then 0 else v (s.core c)) ∧ (∀ r, r ≠ rd → k'.sreg r = (s.core c).sreg r) ∧
    smGet (fun _ => 0) k'.sReady rd.val = s.fireAt c i g + lat ∧
    k'.pc = (s.core c).pc + 8 ∧ k'.cyc = s.fireAt c i g + 1 ∧ (s.core c).sameButS k'

/-- Instruction i, when ready, writes v into t[TD], usable after `lat` cycles, and changes nothing else of the core but the PC and CYC. -/
def writesT (i : Instr) (c : CoreId) (g : Guard) (td : TReg) (lat : Nat) (s : State) (v : Core → BitVec 128) : Prop :=
  Ready c i g s → turnsCore i c s fun k' =>
    k'.treg td = v (s.core c) ∧ (∀ r, r ≠ td → k'.treg r = (s.core c).treg r) ∧
    smGet (fun _ => 0) k'.tReady td.val = s.fireAt c i g + lat ∧
    k'.pc = (s.core c).pc + 8 ∧ k'.cyc = s.fireAt c i g + 1 ∧ (s.core c).sameButT k'

/-- Instruction i, when ready, writes v into p[PD]: p0 stays 1, every other predicate register and all else of the core stays. -/
def writesP (i : Instr) (c : CoreId) (g : Guard) (pd : PReg) (s : State) (v : Core → Bool) : Prop :=
  Ready c i g s → turnsCore i c s fun k' =>
    k'.preg pd = (if pd.val = 0 then true else v (s.core c)) ∧ (∀ r, r ≠ pd → k'.preg r = (s.core c).preg r) ∧
    smGet (fun _ => 0) k'.pReady pd.val = s.fireAt c i g + 1 ∧
    k'.pc = (s.core c).pc + 8 ∧ k'.cyc = s.fireAt c i g + 1 ∧ (s.core c).sameButP k'

/-- The operands of a unit instruction pass the checks of R226, its unit has room, and neither an extent in flight nor an arrival bit holds
it (R207, R222, R232). `rd` and `wr` pair the operands that are read and written with the formats they accept. -/
structure OperandsGood (c : CoreId) (u : UnitKind) (rd wr : List (Desc × List Nat)) (s : State) : Prop where
  reads : ∀ p ∈ rd, (s.core c).checkDesc s.tick.seq p.1 p.2 true false = none
  writes : ∀ p ∈ wr, (s.core c).checkDesc s.tick.seq p.1 p.2 false true = none
  free : (s.core c).busy u (extentsOf s.tick.seq (rd.map Prod.fst)) (extentsOf s.tick.seq (wr.map Prod.fst)) [] = false
  arrived : ∀ p ∈ rd, (s.core c).ready2 s.tick.seq p.1 = true

/-- Unit instruction i, ready and with good operands, is in flight on its unit for `ut` cycles, the PC goes on by 8, and `eff` holds of
core c before and after and of the STATUS bits that become visible when the instruction completes (R214, R252); nothing outside core c
changes. -/
def unitRuns (i : Instr) (c : CoreId) (g : Guard) (u : UnitKind) (rd wr : List (Desc × List Nat)) (ut : Nat) (sd : Option SReg) (s : State)
    (eff : Core → Core → W32 → Prop) : Prop :=
  Ready c i g s → OperandsGood c u rd wr s → turnsCore i c s fun k' => ∃ fl : W32,
    eff (s.core c) k' fl ∧
    k'.inflight = (s.core c).inflight ++ [⟨(s.core c).nextId, u, some (s.fireAt c i g + ut - 1), extentsOf s.tick.seq (rd.map Prod.fst),
      extentsOf s.tick.seq (wr.map Prod.fst), sd, none, [], (s.core c).pc, none, fl⟩] ∧
    k'.pc = (s.core c).pc + 8 ∧ k'.cyc = s.fireAt c i g + 1

/-- Apart from what a unit instruction writes when it fires (core store, its failing words and arrival bits, ARR_EVENT_STAT, instructions in
flight), the PC and CYC, the two cores are the same: STATUS among them, whose new bits show when the instruction completes. -/
def Core.sameButUnit (k k' : Core) : Prop :=
  { k' with
    store := k.store, badStore := k.badStore, arrival := k.arrival, eventStat := k.eventStat
    inflight := k.inflight, nextId := k.nextId, pc := k.pc, cyc := k.cyc } = k

/-- As `sameButUnit`, for an instruction that also writes the accumulator file. -/
def Core.sameButAcc (k k' : Core) : Prop := k.sameButUnit { k' with acc := k.acc, badAcc := k.badAcc }

/-- Every byte of the core store outside the extent of descriptor d reads as before. -/
def Core.storeOutside (k k' : Core) (n : W48) (d : Desc) : Prop :=
  ∀ a, a < (d.extent n).lo ∨ (d.extent n).hi ≤ a → memGet k'.store a = memGet k.store a

/-- Element i of row j of a plain-format operand, as a number (R225, R226). -/
def Core.elem (k : Core) (n : W48) (d : Desc) (j i : Nat) : Fp :=
  fpDecode (fmtOf d.fmt) (readNat k.store (d.rowAt n j + elemBytes d.fmt * i) (elemBytes d.fmt))

/-- Element of a second operand that R259 pairs with element i of row j: broadcast over rows if it has one row, over all if one element. -/
def Core.elemB (k : Core) (n : W48) (d : Desc) (j i : Nat) : Fp :=
  k.elem n d (if d.len1 = 1 then 0 else j) (if d.len1 = 1 ∧ d.len0 = 1 then 0 else i)

/-- The destination of a vector instruction holds, at element i of row j, FP32 code `v j i` converted to its format (R259); the STATUS bits
that its completion shows are VINVALID if a result is NaN with no NaN among its operands `ops j i`, and VOVF if one is infinite, in FP32 or
in the format, though all of them are finite (R214). -/
def vectorWrites (n : W48) (d : Desc) (ops : Nat → Nat → List Fp) (v : Nat → Nat → Nat) (k k' : Core) (fl : W32) : Prop :=
  let code (j i : Nat) : Nat := (fpEncode (fmtOf d.fmt) (fpDecode fp32 (v j i))).1
  let invalid (j i : Nat) : Prop := (fpDecode fp32 (v j i)).isNan = true ∧ ∀ x ∈ ops j i, x.isNan = false
  let tooBig (j i : Nat) : Prop :=
    ((fpDecode fp32 (v j i)).isInf = true ∨ (fpDecode (fmtOf d.fmt) (code j i)).isInf = true) ∧ ∀ x ∈ ops j i, x.isFin = true
  k'.store = (k.putRows n d ((List.range d.len1).map fun j => (List.range d.len0).map (code j))).store ∧
  (fl.getLsbD 14 = true ↔ ∃ j i, j < d.len1 ∧ i < d.len0 ∧ invalid j i) ∧
  (fl.getLsbD 15 = true ↔ ∃ j i, j < d.len1 ∧ i < d.len0 ∧ tooBig j i) ∧
  (∀ b, b ≠ 14 → b ≠ 15 → fl.getLsbD b = false) ∧
  k.storeOutside k' n d ∧ k.sameButUnit k'

end Sys2Proof.Machine
end

