-- ==== Sys2Proof/WellFormed.lean ====
section
/-! DEFINITION. What the manual's tables allow in a command's operands beyond what their types say. The machine is total: it does not call this check. -/
namespace Sys2Proof

/-- A failing row-read names an array, an addressed row, and one or two reads (R53, R70). -/
def readFaultOk (f : ReadFault) : Bool := decide (f.array < 4096 ∧ f.row < 1088 ∧ 1 ≤ f.times)
/-- A pass: logical array, plane, first row, group size (R49, R54). -/
def passOk (p : PassId) : Bool := decide (p.array < 4096 ∧ p.plane < 8 ∧ p.lo < 1024 ∧ p.g ≤ 256)
/-- A code of a converter's conversion slot: 9 bits at most (R49, R50). -/
def codeOk (e : CodeErr) : Bool := decide (e.conv < 168 ∧ e.slot < 16 ∧ e.code < 512)
/-- A flit has five words (R276, R298). -/
def eccOk : Ecc → Bool
  | .corrected n => decide (1 ≤ n ∧ n ≤ 5)
  | _ => true
/-- Addresses of the scrubbed storages (R216, R218, R287). -/
def scrubOk : ScrubWord → Bool
  | .store _ a => decide (a < 2 ^ 25)
  | .acc _ a => decide (a < 2 ^ 18)
  | .reducer u => decide (u < 16)
/-- A lane and a direction of the far end (R408, R412). -/
def peerShape : Option Peer → Bool
  | some p => decide (p.lane < 4 ∧ p.dir < 8)
  | none => true
/-- A DATA frame: 1 to 8 flits of 64 payload bytes, a VC, hops (R276, R418). -/
def frameOk (f : Frame) : Bool :=
  decide (f.fvc < 3 ∧ f.hops < 32 ∧ 1 ≤ f.flits.length ∧ f.flits.length ≤ 8) && f.flits.all fun x => decide (x.data.length = 64)
/-- A stamp's fields (R421). -/
def stampShape (p : Stamp) : Bool :=
  decide (p.member < 16 ∧ p.stretch ≤ 50 ∧ p.patchVote ≤ 2 ∧ p.loadVote ≤ 2 ∧ p.notices.length ≤ 8 ∧ p.offs.length = 8)
  && p.notices.all fun x => decide (x.cause ≤ 9 ∧ x.member < 16 ∧ x.die < 256)
/-- A group record's fields (R427). -/
def recordShape (r : GroupRecord) : Bool := decide (r.members ≤ 16 ∧ r.memberPos.length = 16 ∧ r.sparePos.length = 4)
/-- A request-table index (R338). -/
def reqOk (i : Nat) : Bool := decide (i < 4096)
/-- A control address of a word (R542). -/
def addrOk (a : Nat) : Bool := decide (a < 2 ^ 41 ∧ a % 4 = 0)
/-- A physical array or spare of a core (R21, R22). -/
def arrayOk (p : Nat) : Bool := decide (p < 4224)
/-- The edges of the rows of a scan (R130, R131). -/
def edgesOk (l : List RowEdges) : Bool := l.all fun e => decide (e.row < 1120 ∧ e.q1 ≤ 64 ∧ -1 ≤ e.q0 ∧ e.q0 ≤ 63)
/-- A failing row-read of a holiday, a sweep or a compare names a physical array (R70). -/
def rowFaultOk (f : ReadFault) : Bool := decide (f.array < 4224 ∧ f.row < 1120 ∧ 1 ≤ f.times)
/-- A converter's calibration (R513, R515). -/
def calOk (x : ConvCal) : Bool := decide (x.conv < 168)
/-- The scans of a sweep. -/
def scansOk (l : List (Nat × List RowEdges)) : Bool := l.all fun x => arrayOk x.1 && edgesOk x.2

/-- The operands of a command lie in the ranges that the manual gives them. -/
def wellFormed : Instr → Bool
  | .mvm _ _ o faults => o.tile.legal && faults.all readFaultOk
  | .passVerdict _ _ p codes => passOk p && codes.all codeOk
  | .mvs _ _ _ _ _ tile => tile.legal
  | .flitHopReceive _ ecc => eccOk ecc
  | .scrub _ w _ => scrubOk w
  | .dramScrub _ addr _ => decide (addr < 2 ^ 38)
  | .fabricLinkTraining _ _ peer => peerShape peer
  | .eyeSafetyDisable _ port => decide (port < 9)
  | .dataFrame f => frameOk f.frame && eccOk f.ecc
  | .transitFrame f => frameOk f.frame && eccOk f.ecc
  | .stampFrame _ p => stampShape p
  | .conveneFrame f => decide (f.member < 16) && recordShape f.record
  | .ruling f => decide (f.sender < 16 ∧ f.leader < 16 ∧ f.round < 16) && recordShape f.record
  | .join f => decide (f.member < 16) && recordShape f.record
  | .leave _ member => decide (member < 16)
  | .timeMessage bytes => decide (bytes.length = 16)
  | .pageAgeing _ req layer page _ => reqOk req && decide (layer < 1024 ∧ page < 512)
  | .heldExit req => reqOk req
  | .requestFaultEnd req => reqOk req
  | .rebuildStart req => reqOk req
  | .requestEnd req => reqOk req
  | .hideApply req => reqOk req
  | .metadataCheck member _ _ _ => decide (member < 16)
  | .sectionArrival _ holder _ _ => decide (holder < 16)
  | .sectionTimeout _ holder => decide (holder < 16)
  | .bankCompare _ b => b.faults.all rowFaultOk
  | .mgmtRead m => decide (m.addr < 2 ^ 41)
  | .mgmtWrite m words => decide (m.addr < 2 ^ 41) && decide (words.length ≤ 256)
  | .registerWrite _ addr _ => addrOk addr
  | .lowWordRead _ addr => addrOk addr
  | .calibration _ block core _ _ => decide (block < 7 ∧ core < 4)
  | .lightCheck _ array _ => arrayOk array
  | .sensorSample readings => readings.all fun r => decide (r.sensor < 36)
  | .railReading baseWatts => decide (baseWatts < 4096)
  | .marginScan _ array e => arrayOk array && edgesOk e
  | .scanLate _ array => arrayOk array
  | .failureCountLimit _ array => arrayOk array
  | .holidayCopyDone _ orig r _ => arrayOk orig && edgesOk r.edges && r.faults.all rowFaultOk
  | .holidayServiceDone _ orig r cal => arrayOk orig && edgesOk r.edges && r.faults.all rowFaultOk && cal.all calOk
  | .rowWrite _ array row content _ => arrayOk array && decide (row < 1088 ∧ content.length = 1344)
  | .ladderRepeatFault _ array => arrayOk array
  | .wearWriteback _ array => arrayOk array
  | .newYearSweep _ scans rescans _ => scansOk scans.edges && scansOk rescans && scans.faults.all rowFaultOk
  | .quarterScan _ _ scans rescans => scansOk scans.edges && scansOk rescans && scans.faults.all rowFaultOk
  | .configParityCheck _ addr => addrOk addr
  | .data _ bytes => decide (bytes.length ≤ 1024)
  | .memberAnswerTimeout member => decide (member < 16)
  | .br _ _ _ _ _ | .call _ _ _ | .ret _ _ | .endProg _ _ | .rds _ _ _ _ | .wait _ _ _ | .waitd _ _ _ | .nop _ _ | .add _ _ _ _ _ _ => true
  | .sub _ _ _ _ _ _ | .mul _ _ _ _ _ _ | .divu _ _ _ _ _ _ | .remu _ _ _ _ _ _ | .divs _ _ _ _ _ _ | .rems _ _ _ _ _ _ | .and _ _ _ _ _ _ => true
  | .or _ _ _ _ _ _ | .xor _ _ _ _ _ _ | .shl _ _ _ _ _ _ | .shr _ _ _ _ _ _ | .sra _ _ _ _ _ _ | .min _ _ _ _ _ _ | .max _ _ _ _ _ _ => true
  | .movhi _ _ _ _ _ | .ld _ _ _ _ _ | .st _ _ _ _ _ | .ldw _ _ _ _ _ | .stw _ _ _ _ _ | .ldd _ _ _ _ _ | .std _ _ _ _ _ | .ldx _ _ _ _ _ => true
  | .dset _ _ _ _ _ _ | .pcmp _ _ _ _ _ _ _ | .pand _ _ _ _ _ | .por _ _ _ _ _ | .pxor _ _ _ _ _ | .pnot _ _ _ _ | .pset _ _ _ _ | .tst _ _ _ _ => true
  | .rdst _ _ _ | .clst _ _ _ | .rereadPass _ _ | .accclr _ _ _ | .accrd _ _ _ _ _ | .accst _ _ _ _ | .accld _ _ _ _ | .accadd _ _ _ _ => true
  | .qnt _ _ _ _ _ _ | .vadd _ _ _ _ _ | .vsub _ _ _ _ _ | .vmul _ _ _ _ _ | .vfma _ _ _ _ _ | .vmax _ _ _ _ _ | .vmin _ _ _ _ _ | .vscl _ _ _ _ _ => true
  | .vcvt _ _ _ _ | .vsum _ _ _ _ | .vmaxr _ _ _ _ | .vnorm _ _ _ _ _ _ | .vexp _ _ _ _ | .vrcp _ _ _ _ | .vrsqrt _ _ _ _ | .vsilu _ _ _ _ => true
  | .vgelu _ _ _ _ | .vtanh _ _ _ _ | .vsigm _ _ _ _ | .vrope _ _ _ _ _ _ | .mov _ _ _ _ | .mfill _ _ _ _ | .mgath _ _ _ _ _ | .send _ _ _ _ _ => true
  | .red _ _ _ _ _ _ | .attn _ _ _ _ _ _ _ | .kvw _ _ _ _ _ _ _ | .samp _ _ _ _ _ | .gfence _ _ _ _ | .unitInstructionComplete _ _ | .tickStart => true
  | .issueDeadline | .workDeadline | .changeReport | .applyPoint | .structuralPatchApply | .patchRollback | .changeRollback | .emergencyStretch => true
  | .emergencyStretchEnd | .repeatLossFault | .recoveryHoldEnd | .recoveryHoldTimeout | .flitDelivery _ | .reducerCombine _ | .reducerDelivery _ _ => true
  | .linkTraining _ _ _ | .linkDegrade _ _ _ | .fabricLaneFail _ _ | .opticalDieFail _ | .conveningRuling | .rulingApply | .conveningRoundEnd => true
  | .groupSplit | .joinTimeout | .escrowBankArrival _ _ | .failoverHoldEnd | .escrowRefill | .presenceBreak | .timingLock _ | .holdover => true
  | .attentionRequest _ | .pageTask _ _ _ | .attentionAnswer _ _ | .kvWrite _ | .sampling _ | .generationFenceQuery _ | .refusalReport _ => true
  | .queueDeparture | .endingCompletion | .migrate | .admitReq _ _ | .cancel _ _ _ | .draft _ _ _ _ _ | .hide _ _ _ _ _ | .imgBegin _ _ _ _ _ => true
  | .imgFeed _ _ _ | .imgEnd _ | .imgAbort _ | .escFeed _ _ _ | .loadAbandon | .draining | .writing | .memberWritten | .committed => true
  | .almPatch _ _ _ _ | .almLoad _ _ _ | .groupForm _ _ | .groupLeave _ | .fwStage _ _ _ _ | .fwActivate _ _ _ | .autoActivation | .attest _ _ _ => true
  | .ownerKeyAdd _ _ _ _ | .ownerKeyDelete _ _ | .bootCfg _ _ | .selftest _ _ _ | .selftestCancel _ _ | .selftestRun _ _ | .cmdNop _ => true
  | .commandTake _ | .eventsLost _ | .dbCommandTail _ _ | .dbCompletionConsumed _ _ | .dbEventConsumed _ _ | .leapReq _ | .hold _ _ | .arm _ => true
  | .discard _ | .strobe _ _ _ | .drop _ _ _ | .checkLock _ _ | .ladderExhaustedClear _ _ | .exceptionRecordClear _ _ | .configFaultClear _ _ => true
  | .fsCountClear _ _ | .clampsClear _ _ | .qeventClear _ _ | .lossesClear _ | .correctedClear _ _ | .retriesClear _ _ | .draftsClear _ _ => true
  | .readmissionRequest _ _ _ | .sensorReadmission _ _ | .hskRequest _ _ _ | .hskUrgentRequest _ _ _ | .conversionDone _ _ _ => true
  | .idleBandgapConversion _ _ _ | .converterRetire _ _ _ | .referenceConversion _ _ _ _ _ | .pmbusWarn _ | .pmbusFault | .railShutdown _ => true
  | .ceilingTrip | .limitHoldEmergency | .failureWindowRestart | .holidayStart _ | .domainReady _ _ | .powerOnReset | .boot _ _ => true
  | .orderlyPowerDown | .solicit | .offer _ _ | .readRetry _ | .fetchTimeout | .watchdog _ | .fwRestart _ _ | .takeover _ | .lastGoodBundle => true
  | .unplannedPowerLoss | .commandDieFail _ => true

end Sys2Proof
end

