-- ==== Sys2Proof/Certificates/Slice0/Obligations.lean ====
section
/-! DEFINITION. The statements about the model. -/
open Sys2Proof Sys2Proof.Machine

/-- A step runs the command at the front of the queue on the state with the queue's rest; with nothing waiting the block idles, which
is the model's own choice (DESIGN CHOICE, log 32). -/
def Obligations.StepRunsTheFrontCommand : Prop :=
  (∀ (c : Instr) (rest : List Instr) (s : State), s.pending = c :: rest → step s = exec c { s with pending := rest }) ∧
  (∀ s : State, s.pending = [] → step s = .next s)

/-- Scalar arithmetic (R250, R210): what each operation leaves in s[RD], with b = s[RB] + IMM, IMM sign-extended. A write to s0 is ignored
(`writesS`); nothing else of the state but the PC, CYC and the register's ready cycle changes. -/
def Obligations.ScalarArithmetic : Prop :=
  ∀ (c : CoreId) (g : Guard) (rd ra rb : SReg) (imm : W32) (s : State),
    let a : Core → W64 := fun k => k.sreg ra
    let b : Core → W64 := fun k => k.sreg rb + imm.signExtend 64
    writesS (.add c g rd ra rb imm) c g rd 1 s (fun k => a k + b k) ∧
    writesS (.sub c g rd ra rb imm) c g rd 1 s (fun k => a k - b k) ∧
    writesS (.mul c g rd ra rb imm) c g rd 3 s (fun k => a k * b k) ∧
    writesS (.divu c g rd ra rb imm) c g rd 24 s (fun k => if b k = 0 then BitVec.allOnes 64 else BitVec.ofNat 64 ((a k).toNat / (b k).toNat)) ∧
    writesS (.remu c g rd ra rb imm) c g rd 24 s (fun k => if b k = 0 then a k else BitVec.ofNat 64 ((a k).toNat % (b k).toNat)) ∧
    writesS (.divs c g rd ra rb imm) c g rd 24 s (fun k => if b k = 0 then BitVec.allOnes 64 else (a k).sdiv (b k)) ∧
    writesS (.rems c g rd ra rb imm) c g rd 24 s (fun k => if b k = 0 then a k else (a k).srem (b k)) ∧
    writesS (.and c g rd ra rb imm) c g rd 1 s (fun k => a k &&& b k) ∧
    writesS (.or c g rd ra rb imm) c g rd 1 s (fun k => a k ||| b k) ∧
    writesS (.xor c g rd ra rb imm) c g rd 1 s (fun k => a k ^^^ b k) ∧
    writesS (.shl c g rd ra rb imm) c g rd 1 s (fun k => a k <<< ((b k).toNat % 64)) ∧
    writesS (.shr c g rd ra rb imm) c g rd 1 s (fun k => a k >>> ((b k).toNat % 64)) ∧
    writesS (.sra c g rd ra rb imm) c g rd 1 s (fun k => (a k).sshiftRight ((b k).toNat % 64)) ∧
    writesS (.min c g rd ra rb imm) c g rd 1 s (fun k => if (a k).toInt < (b k).toInt then a k else b k) ∧
    writesS (.max c g rd ra rb imm) c g rd 1 s (fun k => if (a k).toInt < (b k).toInt then b k else a k) ∧
    writesS (.movhi c g rd ra imm) c g rd 1 s (fun k => imm ++ (a k).setWidth 32)

/-- Scalar loads (R251): an aligned access inside a window of bytes that keep their code and that no unit is writing puts the bytes, low
address first, into the destination 4 cycles later, zero-extended, and leaves the memory as it was.
`ldx` reads 8 bytes at byte IMM of the resolved extent of t[TA] (R222, R226). -/
def Obligations.ScalarLoads : Prop :=
  (∀ (c : CoreId) (g : Guard) (rd ra : SReg) (td : TReg) (imm : W32) (s : State) (n : Nat),
    let k := s.core c
    let a := (k.sreg ra + imm.signExtend 64).toNat
    a % n = 0 → k.access false a (a + n) = none → k.badRange a (a + n) = false →
    k.inflight.any (fun e => e.writes.any (Extent.overlaps ⟨false, a, a + n⟩)) = false →
    (n = 8 → writesS (.ld c g rd ra imm) c g rd 4 s (fun k => BitVec.ofNat 64 (leNat (readBytes k.store a 8)))) ∧
    (n = 4 → writesS (.ldw c g rd ra imm) c g rd 4 s (fun k => BitVec.ofNat 64 (leNat (readBytes k.store a 4)))) ∧
    (n = 16 → writesT (.ldd c g td ra imm) c g td 4 s (fun k => BitVec.ofNat 128 (leNat (readBytes k.store a 16))))) ∧
  (∀ (c : CoreId) (g : Guard) (rd : SReg) (ta : TReg) (imm : W32) (s : State),
    let k := s.core c
    let d := descOf (k.treg ta)
    let e := d.extent s.tick.seq
    let a := e.lo + imm.toNat
    k.checkDesc s.tick.seq d [1, 2, 3, 4, 5, 6, 7, 8, 10, 11] false false = none → imm.toNat % 8 = 0 → imm.toNat < 2 ^ 31 → a + 8 ≤ e.hi →
    k.access false a (a + 8) = none → k.badRange a (a + 8) = false →
    k.inflight.any (fun f => f.writes.any (Extent.overlaps ⟨false, a, a + 8⟩)) = false → (d.banking = 2 → k.arrived a (a + 8) = true) →
    writesS (.ldx c g rd ta imm) c g rd 4 s (fun k => BitVec.ofNat 64 (leNat (readBytes k.store a 8))))

/-- Scalar stores (R251, R233): the bytes of the source, lowest first, stand at the address, usable to a dependent instruction after 4 cycles; every other byte of the core store, every register
and everything outside the core is as before.
`dset` (R224): bits HI..LO of the named field of t[TD] become the low bits of s[RA] + IMM; every other bit stays. -/
def Obligations.ScalarStores : Prop :=
  (∀ (c : CoreId) (g : Guard) (rb ra : SReg) (tb : TReg) (imm : W32) (s : State) (n : Nat),
    let k := s.core c
    let a := (k.sreg ra + imm.signExtend 64).toNat
    let stores := fun (i : Instr) (v : Nat) => Ready c i g s → turnsCore i c s fun k' =>
      readBytes k'.store a n = leBytes n v ∧ (∀ x, x < a ∨ a + n ≤ x → memGet k'.store x = memGet k.store x) ∧
      (∃ old, k'.stored = old ++ [(⟨false, a, a + n⟩, s.fireAt c i g + 4)]) ∧
      k'.pc = k.pc + 8 ∧ k'.cyc = s.fireAt c i g + 1 ∧ k.sameButStore k'
    a % n = 0 → k.access true a (a + n) = none →
    k.inflight.any (fun e => (e.reads ++ e.writes).any (Extent.overlaps ⟨false, a, a + n⟩)) = false →
    (n = 8 → stores (.st c g rb ra imm) (k.sreg rb).toNat) ∧ (n = 4 → stores (.stw c g rb ra imm) (k.sreg rb).toNat) ∧
    (n = 16 → stores (.std c g tb ra imm) (k.treg tb).toNat)) ∧
  (∀ (c : CoreId) (g : Guard) (td : TReg) (f : DField) (ra : SReg) (imm : W32) (s : State),
    Ready c (.dset c g td f ra imm) g s → turnsCore (.dset c g td f ra imm) c s fun k' =>
      let k := s.core c
      let hl : Nat × Nat := match f with
        | .base => (24, 0) | .fmt => (28, 25) | .banking => (30, 29) | .len0m1 => (47, 32) | .len1m1 => (63, 48)
        | .stride1 => (88, 64) | .bstride => (120, 96)
      (∀ j, (k'.treg td).getLsbD j =
        if hl.2 ≤ j ∧ j ≤ hl.1 then (k.sreg ra + imm.signExtend 64).getLsbD (j - hl.2) else (k.treg td).getLsbD j) ∧
      (∀ r, r ≠ td → k'.treg r = k.treg r) ∧ k'.pc = k.pc + 8 ∧ k.sameButT k')

/-- Predicates, STATUS and special values (R252, R211, R212, R214): what each instruction leaves in p[PD], s[RD] or STATUS; `rds` reads TCNT, SEQ, SLOT,
EPOCH of the almanac in force, CORE, CYC at the instruction, and DLN. -/
def Obligations.PredicatesAndStatus : Prop :=
  (∀ (c : CoreId) (g : Guard) (pd pa pb : PReg) (b : Bool) (ra rb rd : SReg) (imm : W32) (s : State),
    let x : Core → W64 := fun k => k.sreg ra
    let y : Core → W64 := fun k => k.sreg rb + imm.signExtend 64
    writesP (.pcmp c g pd .eq ra rb imm) c g pd s (fun k => decide (x k = y k)) ∧
    writesP (.pcmp c g pd .ne ra rb imm) c g pd s (fun k => decide (x k ≠ y k)) ∧
    writesP (.pcmp c g pd .lt ra rb imm) c g pd s (fun k => decide ((x k).toInt < (y k).toInt)) ∧
    writesP (.pcmp c g pd .ge ra rb imm) c g pd s (fun k => decide ((y k).toInt ≤ (x k).toInt)) ∧
    writesP (.pcmp c g pd .ltu ra rb imm) c g pd s (fun k => decide ((x k).toNat < (y k).toNat)) ∧
    writesP (.pcmp c g pd .geu ra rb imm) c g pd s (fun k => decide ((y k).toNat ≤ (x k).toNat)) ∧
    writesP (.pand c g pd pa pb) c g pd s (fun k => k.preg pa && k.preg pb) ∧
    writesP (.por c g pd pa pb) c g pd s (fun k => k.preg pa || k.preg pb) ∧
    writesP (.pxor c g pd pa pb) c g pd s (fun k => k.preg pa ^^ k.preg pb) ∧
    writesP (.pnot c g pd pa) c g pd s (fun k => !k.preg pa) ∧
    writesP (.pset c g pd b) c g pd s (fun _ => b) ∧
    writesP (.tst c g pd imm) c g pd s (fun k => decide (k.status &&& imm ≠ 0#32)) ∧
    writesS (.rdst c g rd) c g rd 1 s (fun k => k.status.setWidth 64) ∧
    (Ready c (.clst c g imm) g s → turnsCore (.clst c g imm) c s fun k' =>
      (∀ j, k'.status.getLsbD j = ((s.core c).status.getLsbD j && !imm.getLsbD j)) ∧
      { k' with status := (s.core c).status, pc := (s.core c).pc, cyc := (s.core c).cyc } = s.core c ∧ k'.pc = (s.core c).pc + 8)) ∧
  (∀ (c : CoreId) (g : Guard) (rd : SReg) (s : State),
    writesS (.rds c g rd .tcnt) c g rd 1 s (fun _ => s.tick.count.setWidth 64) ∧
    writesS (.rds c g rd .seq) c g rd 1 s (fun _ => s.tick.seq.setWidth 64) ∧
    writesS (.rds c g rd .slot) c g rd 1 s (fun k => BitVec.ofNat 64 k.slot) ∧
    (∀ a, s.alm = some a → writesS (.rds c g rd .epoch) c g rd 1 s (fun _ => a.patchEpoch.setWidth 64)) ∧
    writesS (.rds c g rd .core) c g rd 1 s (fun _ => BitVec.ofNat 64 c.val) ∧
    writesS (.rds c g rd .cyc) c g rd 1 s (fun _ => BitVec.ofNat 64 (s.fireAt c (.rds c g rd .cyc) g % 2 ^ 16)) ∧
    writesS (.rds c g rd .dln) c g rd 1 s (fun _ => BitVec.ofNat 64 (s.dln c % 2 ^ 16)))

/-- Control (R249, R215, R209, R232, R233): branches, calls and returns with the return stack, `end`, waits and `nop`; costs 3 cycles for a
transfer of control and 1 otherwise. -/
def Obligations.ControlFlow : Prop :=
  ∀ (c : CoreId) (g : Guard) (ra : SReg) (cond : Cond) (off : W32) (mask : BitVec 6) (ta : TReg) (s : State),
    let k := s.core c
    let dest : W64 := k.pc + 8 * off.signExtend 64
    let v := (k.sreg ra).toInt
    let taken : Prop := match cond with
      | .always => True | .z => v = 0 | .nz => v ≠ 0 | .lt => v < 0 | .ge => 0 ≤ v | .gt => 0 < v | .le => v ≤ 0
    let onward := fun (i : Instr) => turnsCore i c s fun k' => k' = { k with pc := k.pc + 8, cyc := s.fireAt c i g + 1 }
    (Ready c (.br c g ra cond off) g s → taken → turnsCore (.br c g ra cond off) c s fun k' =>
      k' = { k with pc := dest, cyc := s.fireAt c (.br c g ra cond off) g + 3 }) ∧
    (Ready c (.br c g ra cond off) g s → ¬ taken → onward (.br c g ra cond off)) ∧
    (Ready c (.call c g off) g s → k.stack.length < 8 → turnsCore (.call c g off) c s fun k' =>
      k' = { k with stack := (k.pc + 8) :: k.stack, pc := dest, cyc := s.fireAt c (.call c g off) g + 3 }) ∧
    (∀ p rest, Ready c (.ret c g) g s → k.stack = p :: rest → turnsCore (.ret c g) c s fun k' =>
      k' = { k with stack := rest, pc := p, cyc := s.fireAt c (.ret c g) g + 3 }) ∧
    (Ready c (.endProg c g) g s → turnsCore (.endProg c g) c s fun k' =>
      k' = { k with run := false, ended := true, pc := k.pc + 8, cyc := s.fireAt c (.endProg c g) g + 1 }) ∧
    (Ready c (.wait c g mask) g s → (∀ u ∈ k.inflight, mask ≠ 0 ∧ mask.getLsbD (unitBit u.unit) = false) → onward (.wait c g mask)) ∧
    (Ready c (.waitd c g ta) g s →
      k.checkDesc s.tick.seq (descOf (k.treg ta)) [1, 2, 3, 4, 5, 6, 7, 8, 10, 11] false false = none →
      (∀ u ∈ k.inflight, ∀ e ∈ u.writes, ((descOf (k.treg ta)).extent s.tick.seq).overlaps e = false) →
      k.arrived ((descOf (k.treg ta)).extent s.tick.seq).lo ((descOf (k.treg ta)).extent s.tick.seq).hi = true → onward (.waitd c g ta)) ∧
    (Ready c (.nop c g) g s → onward (.nop c g))

/-- A guard that is off (R211): the instruction takes one cycle and does nothing else, whatever it is.
A unit instruction that has completed by its last cycle leaves its unit, its STATUS bits become visible, with those of ARR_NUM_STAT, and CYC is past its completion
cycle (R247, R214). -/
def Obligations.FiringAndCompletion : Prop :=
  (∀ (c : CoreId) (g : Guard) (i : Instr) (body : Nat → State → Fire) (s : State),
    let k := s.core c
    k.run = true → s.tick.phase = .work → k.inProgram k.pc = true → k.badRange k.pc.toNat (k.pc.toNat + 8) = false →
    decodeAithal c k.fetch = some (asWord i) → k.pendingReg ⟨[], [], [g.pred]⟩ = false → k.regsReady ⟨[], [], [g.pred]⟩ < s.dln c →
    k.enabled g = false →
    fire c i g body s = s.setCore c { k with pc := k.pc + 8, cyc := k.regsReady ⟨[], [], [g.pred]⟩ + 1 }) ∧
  (∀ (c : CoreId) (u : UnitInst) (d : Nat) (s : State),
    let k := s.core c
    k.inflight.find? (fun v => v.id == u.id) = some u → u.done = some d → u.settled = true → d ≤ s.lastCycle c u →
    (s.tick.phase = .work ∨ s.tick.phase = .drain) →
    exec (.unitInstructionComplete c u.id) s =
      .next (s.setCore c { k with inflight := k.inflight.filter (fun e => e.id != u.id), cyc := max k.cyc (d + 1)
                                  status := k.status ||| u.flags, numStat := k.numStat ||| (u.flags &&& 0x3FF#32) }))

/-- Where scalar accesses and control trap (R251, R217, R215, R238): a misaligned access halts with ALIGN, one that R217 refuses with
BOUNDS or WRITE_PROTECT, a call on a full and a return on an empty stack with FETCH.
The halt response (R238, R240, R236): the slot program stops; flits of the core that are not injected by the cycle it has reached stay unsent, and no other flit goes; the exception is recorded with its word index, code,
tick and slot when the record is free; a loss notice of the exception's cause stands among those of the tick; nothing of the core's
registers, memories or arrays changes, and no other core does. -/
def Obligations.HaltsAndTraps : Prop :=
  (∀ (c : CoreId) (g : Guard) (rd ra : SReg) (imm : W32) (s : State),
    let k := s.core c
    let a := (k.sreg ra + imm.signExtend 64).toNat
    let traps := fun (i : Instr) (code : Nat) => Ready c i g s → exec i s = .next (haltCore c code k.pc s)
    (a % 8 ≠ 0 → traps (.ld c g rd ra imm) 0x15 ∧ traps (.st c g rd ra imm) 0x15) ∧
    (a % 4 ≠ 0 → traps (.ldw c g rd ra imm) 0x15 ∧ traps (.stw c g rd ra imm) 0x15) ∧
    (∀ x, a % 8 = 0 → k.access false a (a + 8) = some x → traps (.ld c g rd ra imm) x) ∧
    (∀ x, a % 8 = 0 → k.access true a (a + 8) = some x → traps (.st c g rd ra imm) x) ∧
    (8 ≤ k.stack.length → traps (.call c g imm) 0x11) ∧ (k.stack = [] → traps (.ret c g) 0x11)) ∧
  (∀ (c : CoreId) (code : Nat) (pc : W64) (s : State),
    let t := haltCore c code pc s
    let k := s.core c
    let k' := t.core c
    k'.run = false ∧ k'.halted = true ∧
    (∀ f, f ∈ t.flits ↔ f ∈ s.flits ∧ ¬ (f.src = 1000 * s.member + c.val ∧ ∃ i, f.inj = some i ∧ k.cyc < i)) ∧
    (k.exc0.getLsbD 31 = true → k'.exc0 = k.exc0 ||| 0x4000_0000#32 ∧ k'.exc1 = k.exc1) ∧
    (k.exc0.getLsbD 31 = false → k.excSeen = false → code < 256 → k.slot < 4096 → k.progLo ≤ pc.toNat → pc.toNat < k.progLo + 2 ^ 22 →
      k'.exc0.toNat = 2 ^ 31 + code * 2 ^ 19 + (pc.toNat - k.progLo) / 8 ∧
      k'.exc1.toNat = s.tick.count.toNat % 2 ^ 16 + k.slot * 2 ^ 16) ∧
    ⟨if code = 0x17 then 5 else if code = 0x18 then 3 else 2, s.member, (dieOf c).val⟩ ∈ t.tick.notices ∧
    { k' with run := k.run, halted := k.halted, exc0 := k.exc0, exc1 := k.exc1, excSeen := k.excSeen } = k ∧
    (∀ x, x ≠ c → t.core x = s.core x) ∧
    { t with cores := s.cores, tick := s.tick, rings := s.rings, flits := s.flits } = s)

/-- Element-wise vector arithmetic, scaling, conversion and the seven special functions (R259, R261): what every element of the destination becomes, with one
rounding to FP32. -/
def Obligations.VectorArithmetic : Prop :=
  (∀ (c : CoreId) (g : Guard) (td ta tb : TReg) (s : State),
    let k := s.core c
    let n := s.tick.seq
    let dd := descOf (k.treg td)
    let da := descOf (k.treg ta)
    let db := descOf (k.treg tb)
    let x := k.elem n da
    let y := k.elemB n db
    let runs := fun (i : Instr) (f : Fp → Fp → Fp) =>
      unitRuns i c g .vector [(da, [1, 2, 6, 7]), (db, [1, 2, 6, 7])] [(dd, [1, 2, 6, 7])] (6 + ceilDiv (da.len0 * da.len1) 512) none s
        (vectorWrites n dd (fun j i => [x j i, y j i]) fun j i => (fpEncode fp32 (f (x j i) (y j i))).1)
    dd.len0 = da.len0 → dd.len1 = da.len1 →
    ((db.len0 = da.len0 ∧ (db.len1 = da.len1 ∨ db.len1 = 1)) ∨ (db.len0 = 1 ∧ db.len1 = 1)) →
    runs (.vadd c g td ta tb) fpAdd ∧ runs (.vsub c g td ta tb) (fun a b => fpAdd a b.negate) ∧ runs (.vmul c g td ta tb) fpMul ∧
    runs (.vmax c g td ta tb) (fpMaxMin false) ∧ runs (.vmin c g td ta tb) (fpMaxMin true) ∧
    unitRuns (.vfma c g td ta tb) c g .vector [(da, [1, 2, 6, 7]), (db, [1, 2, 6, 7]), (dd, [1, 2, 6, 7])] [(dd, [1, 2, 6, 7])]
      (6 + ceilDiv (da.len0 * da.len1) 512) none s
      (vectorWrites n dd (fun j i => [x j i, y j i, k.elem n dd j i]) fun j i =>
        (fpEncode fp32 (fpAdd (fpMul (x j i) (y j i)) (k.elem n dd j i))).1)) ∧
  (∀ (c : CoreId) (g : Guard) (td ta : TReg) (sa : SReg) (s : State),
    let k := s.core c
    let n := s.tick.seq
    let dd := descOf (k.treg td)
    let da := descOf (k.treg ta)
    let x := k.elem n da
    let z := fpDecode fp32 ((k.sreg sa).toNat % 2 ^ 32)
    let runs := fun (i : Instr) (ut : Nat) (more : List Fp) (f : Fp → Nat) =>
      unitRuns i c g .vector [(da, [1, 2, 6, 7])] [(dd, [1, 2, 6, 7])] ut none s
        (vectorWrites n dd (fun j i => x j i :: more) fun j i => f (x j i))
    let six := 6 + ceilDiv (da.len0 * da.len1) 512
    let ten := 10 + ceilDiv (da.len0 * da.len1) 256
    dd.len0 = da.len0 → dd.len1 = da.len1 →
    runs (.vscl c g td ta sa) six [z] (fun a => (fpEncode fp32 (fpMul a z)).1) ∧
    runs (.vcvt c g td ta) six [] (fun a => (fpEncode fp32 a).1) ∧
    runs (.vexp c g td ta) ten [] (fun a => (fpExp a).1) ∧ runs (.vrcp c g td ta) ten [] (fun a => (fpRcp a).1) ∧
    runs (.vrsqrt c g td ta) ten [] (fun a => (fpRsqrt a).1) ∧ runs (.vsilu c g td ta) ten [] (fun a => (fpSilu a).1) ∧
    runs (.vgelu c g td ta) ten [] (fun a => (fpGelu a).1) ∧ runs (.vtanh c g td ta) ten [] (fun a => (fpTanh a).1) ∧
    runs (.vsigm c g td ta) ten [] (fun a => (fpSigmoid a).1))

/-- Row reductions and row operations (R259, R260, R262): sum and maximum over the fixed tree, normalisation, rotary embedding. -/
def Obligations.VectorRows : Prop :=
  ∀ (c : CoreId) (g : Guard) (td ta tb : TReg) (sa : SReg) (e : BitVec 6) (s : State),
    let k := s.core c
    let n := s.tick.seq
    let dd := descOf (k.treg td)
    let da := descOf (k.treg ta)
    let db := descOf (k.treg tb)
    let row := fun j => (List.range da.len0).map (k.elem n da j)
    let gain := k.elem n db 0
    let fmts := [1, 2, 6, 7]
    let red := 12 + 2 * ceilDiv (da.len0 * da.len1) 512
    (dd.len0 = 1 → dd.len1 = da.len1 →
      unitRuns (.vsum c g td ta) c g .vector [(da, fmts)] [(dd, fmts)] red none s (vectorWrites n dd (fun j _ => row j) fun j _ =>
        (fpEncode fp32 (tree (fun a b => r32 (fpAdd a b)) (row j))).1) ∧
      unitRuns (.vmaxr c g td ta) c g .vector [(da, fmts)] [(dd, fmts)] red none s (vectorWrites n dd (fun j _ => row j) fun j _ =>
        (fpEncode fp32 (tree (fpMaxMin false) (row j))).1)) ∧
    (dd.len0 = da.len0 → dd.len1 = da.len1 → db.len0 = da.len0 → db.len1 = 1 →
      unitRuns (.vnorm c g td ta tb e) c g .vector [(da, fmts), (db, fmts)] [(dd, fmts)] red none s
        (vectorWrites n dd (fun j i => gain i :: row j) fun j i =>
          let sum := tree (fun a b => r32 (fpAdd a b)) ((row j).map fun a => r32 (fpMul a a))
          (fpEncode fp32 (fpMul (fpMul (k.elem n da j i) (fpDecode fp32 (fpRsqrt (meanEps sum da.len0 e.toNat)).1)) (gain i))).1)) ∧
    (dd.len0 = da.len0 → dd.len1 = da.len1 → da.len0 = 2 * db.len0 → db.len1 = 1 →
      unitRuns (.vrope c g td ta tb sa) c g .vector [(da, fmts), (db, fmts)] [(dd, fmts)] (10 + ceilDiv (da.len0 * da.len1) 256) none s
        (vectorWrites n dd (fun j i => let m := i % db.len0; [k.elem n da j m, k.elem n da j (m + db.len0), gain m]) fun j i =>
          let m := i % db.len0
          let th := r32 (fpMul (.fin false ((k.sreg sa).toNat % 2 ^ 32) 0) (gain m))
          let cs := fpDecode fp32 (fpTrig true th)
          let sn := fpDecode fp32 (fpTrig false th)
          let x := k.elem n da j m
          let y := k.elem n da j (m + db.len0)
          (fpEncode fp32 (if i < db.len0 then fpAdd (fpMul x cs) (fpMul y sn).negate else fpAdd (fpMul x sn) (fpMul y cs))).1))

/-- The move engine (R263): copies of rows byte for byte, a fill of every element, and a gather of rows by index. -/
def Obligations.Moves : Prop :=
  ∀ (c : CoreId) (g : Guard) (td ta tb : TReg) (sa : SReg) (s : State),
    let k := s.core c
    let n := s.tick.seq
    let dd := descOf (k.treg td)
    let da := descOf (k.treg ta)
    let db := descOf (k.treg tb)
    let src := fun j => readBytes k.store (da.rowAt n j) da.rowBytes
    let leaves := fun (want : Nat → Bytes) (k k' : Core) (fl : W32) =>
      fl = 0 ∧ (∀ j, j < dd.len1 → readBytes k'.store (dd.rowAt n j) dd.rowBytes = want j) ∧ k.storeOutside k' n dd ∧ k.sameButUnit k'
    (dd.fmt = da.fmt → dd.len0 = da.len0 → dd.len1 = da.len1 →
      unitRuns (.mov c g td ta) c g .move [(da, [1, 2, 3, 4, 5, 6, 7, 8, 10, 11])] [(dd, [1, 2, 3, 4, 5, 6, 7, 8, 10, 11])]
        (4 + ceilDiv (dd.len1 * dd.rowBytes) 128) none s (leaves src)) ∧
    unitRuns (.mfill c g td sa) c g .move [] [(dd, [1, 2, 6, 7, 8, 11])] (4 + ceilDiv (dd.len1 * dd.rowBytes) 128) none s
      (leaves fun _ => (List.replicate dd.len0 (leBytes (elemBytes dd.fmt) (k.sreg sa).toNat)).flatten) ∧
    (let idx := fun i => (BitVec.ofNat 32 (readNat k.store (db.rowAt n (i / db.len0) + 4 * (i % db.len0)) 4)).toInt
     dd.fmt = da.fmt → dd.len0 = da.len0 → db.len0 * db.len1 = dd.len1 → (∀ i, i < dd.len1 → 0 ≤ idx i ∧ idx i < da.len1) →
      unitRuns (.mgath c g td ta tb) c g .move [(da, [1, 2, 6, 7, 8, 10, 11]), (db, [8])] [(dd, [1, 2, 6, 7, 8, 10, 11])]
        (8 + dd.len1 * ceilDiv dd.rowBytes 128) none s (leaves fun i => src (idx i).toNat))

/-- Accumulator entries (R255, R256, R228): clearing, storing, loading, adding and reading out; what the entries or rows of the destination
hold afterwards, from what the operands held before. -/
def Obligations.AccumulatorOperations : Prop :=
  ∀ (c : CoreId) (g : Guard) (td ta : TReg) (rsel : BitVec 4) (s : State),
    let k := s.core c
    let n := s.tick.seq
    let dd := descOf (k.treg td)
    let da := descOf (k.treg ta)
    let src := k.entries n da
    let own := k.entries n dd
    let count := da.len0 * da.len1
    unitRuns (.accclr c g td) c g .array [] [(dd, [9, 10])] (4 + ceilDiv (dd.len0 * dd.len1) 64) none s (fun k k' fl =>
      fl = 0 ∧ k'.entries n dd = List.replicate (dd.len0 * dd.len1) 0 ∧ k.sameButAcc k') ∧
    (dd.len0 * dd.len1 = count →
      unitRuns (.accst c g td ta) c g .array [(da, [9])] [(dd, [10])] (4 + ceilDiv count 64) none s (fun k k' fl =>
        fl = 0 ∧ k'.entries n dd = src ∧ k.storeOutside k' n dd ∧ k.sameButUnit k') ∧
      unitRuns (.accld c g td ta) c g .array [(da, [10])] [(dd, [9])] (4 + ceilDiv count 64) none s (fun k k' fl =>
        fl = 0 ∧ k'.entries n dd = src ∧ k'.store = k.store ∧ k.sameButAcc k') ∧
      ((∀ p ∈ own.zip src, (accOf p.1).rows + (accOf p.2).rows ≤ 65536) →
        unitRuns (.accadd c g td ta) c g .array [(dd, [9]), (da, [10])] [(dd, [9])] (6 + ceilDiv count 32) none s (fun k k' fl =>
          (∀ b, b ≠ 4 → b ≠ 5 → fl.getLsbD b = false) ∧ k'.entries n dd = (own.zip src).map (fun p => ((accOf p.1).add (accOf p.2)).bits) ∧ k'.store = k.store ∧ k.sameButAcc k')) ∧
      (∀ r, s.slotRecipe c rsel.toNat = some r → dd.fmt = (if r.fp32Out then 2 else 1) →
        unitRuns (.accrd c g td ta rsel) c g .array [(da, [9, 10])] [(dd, [1, 2])] (6 + ceilDiv count 64) none s (fun k k' fl =>
          k'.store = (k.putRows n dd ((List.range dd.len1).map fun j => (List.range dd.len0).map fun i =>
            ((accOf (nth 0 src (j * dd.len0 + i))).output (fmtOf dd.fmt)).1)).store ∧
          (fl.getLsbD 6 = true ↔ ∃ v ∈ src, ((accOf v).output (fmtOf dd.fmt)).2 = true) ∧ (∀ b, b ≠ 6 → fl.getLsbD b = false) ∧
          k.storeOutside k' n dd ∧ k.sameButUnit k')))

/-- `mvs` (R255, R115): each accumulator entry of the tile gains the exact products of the static channels enabled by the layer's recipe. -/
def Obligations.StaticChannels : Prop :=
  ∀ (c : CoreId) (g : Guard) (td ta : TReg) (sa : SReg) (tile : Tile) (d : LayerDir) (chans : List (Nat × Nat × Nat)) (s : State),
    let k := s.core c
    let n := s.tick.seq
    let dd := descOf (k.treg td)
    let da := descOf (k.treg ta)
    let st := tileStatics tile d chans
    let xs := (k.rows n da).flatten
    let x := (k.sreg sa).toInt
    s.staticOf c tile.abase.toNat = some (d, chans) → 256 * tile.nspan ≤ dd.len0 * dd.len1 → da.len0 ≤ tile.kspan * tile.rows →
    -1024 ≤ x → x ≤ 1023 →
    unitRuns (.mvs c g td ta sa tile) c g .array [(da, [1]), (dd, [9])] [(dd, [9])] (8 + ceilDiv (st.length * 256 * tile.nspan) 512) none s
      (fun k k' fl =>
        (∀ b, b ≠ 4 → b ≠ 5 → fl.getLsbD b = false) ∧ (∀ i, i < 256 * tile.nspan → k'.accGet (entryIndex dd.shape i) =
          (let ts := staticTerms k tile d st xs (i / 256) (i % 256)
           if ts = [] then k.accGet (entryIndex dd.shape i)
           else (addStatic (accOf (k.accGet (entryIndex dd.shape i))) (x + k.wtop (tile.array 0 (i / 256)) (i % 256)) ts).bits)) ∧
        (∀ e, (∀ i, i < 256 * tile.nspan → entryIndex dd.shape i ≠ e) → k'.accGet e = k.accGet e) ∧ k.sameButAcc k')

/-- `qnt` (R258, R96, R214): each row of the source becomes one MX record of the destination, XTOP goes to s[SA], the counters of clamped
elements, zero blocks and lost outliers grow by what the rows give, and QCLAMP, QZERO and OUTLIER_OVF follow them. -/
def Obligations.Quantiser : Prop :=
  ∀ (c : CoreId) (g : Guard) (td ta : TReg) (sa : SReg) (rsel : BitVec 4) (r : Recipe) (s : State),
    let k := s.core c
    let n := s.tick.seq
    let dd := descOf (k.treg td)
    let da := descOf (k.treg ta)
    let aw := actwOfFmt r.actFmt
    let qs := (k.rows n da).map (quantRow aw r (s.staticIndices c rsel.toNat r) dd.len0)
    let bs := qs.flatMap QRow.blocks
    s.slotRecipe c rsel.toNat = some r → dd.fmt = 3 + r.actFmt → dd.len1 = da.len1 → da.len0 ≤ dd.len0 →
    unitRuns (.qnt c g td ta sa rsel) c g .quant [(da, [1])] [(dd, [3, 4, 5])]
      (8 + ceilDiv (da.len0 * da.len1) 128 + 6 * (da.len1 * ceilDiv da.len0 1024)) (some sa) s (fun k k' fl =>
        k'.sreg sa = (if sa.val = 0 then 0 else BitVec.ofInt 64 (xtopOf aw (qs.flatMap QRow.tops))) ∧
        (∀ q, q ≠ sa → k'.sreg q = k.sreg q) ∧
        k'.store = ((qs.zip (List.range qs.length)).foldl (fun k p => k.putRecord n dd p.2 aw p.1) k).store ∧
        k'.clamps = min 0x7FFF_FFFF (k.clamps + bs.foldl (fun a b => a + b.clamps) 0) ∧
        k'.zeroBlocks = min 0xFFFF (k.zeroBlocks + (bs.filter QBlock.zero).length) ∧
        (fl.getLsbD 0 = true ↔ 0 < bs.foldl (fun a b => a + b.clamps) 0) ∧ (fl.getLsbD 1 = true ↔ ∃ b ∈ bs, QBlock.zero b = true) ∧
        (fl.getLsbD 3 = true ↔ 0 < qs.foldl (fun a q => a + q.lost) 0) ∧ k'.status = k.status ∧
        k'.outlierOvf = min 0x7FFF (k.outlierOvf + qs.foldl (fun a q => a + q.lost) 0) ∧
        k.storeOutside k' n dd ∧ k'.acc = k.acc ∧ k'.tregs = k.tregs ∧ k'.preds = k.preds ∧ k'.arrays = k.arrays)

/-- `mvm` (R254, R156, R28, R105, R108, R109, R116): an issue that passes its checks, the row limit and the issue gate, and whose scale rows and outlier
rows can be read, adds every group partial and outlier product to the accumulator of its output column; every other entry stays, and the
issue is in flight with all its passes awaiting a verdict. -/
def Obligations.ArrayProduct : Prop :=
  ∀ (c : CoreId) (g : Guard) (o : MvmOp) (faults : List ReadFault) (s : State),
    let k := s.core c
    let n := s.tick.seq
    let da := descOf (k.treg o.tacc)
    let dx := descOf (k.treg o.tact)
    let tl := o.tile
    let rec0 := k.mxRow n dx 0
    let outs := rec0.outliers.filter fun x => decide (x.1 / tl.rows < tl.kspan)
    let arrs := tl.arrays.map (s.arrPlan c o.mode o.rgp)
    let start := fun i => if o.clr then 0 else k.accGet (entryIndex da.shape i)
    let masked := s.maskedElems c tl outs
    let acts := (rec0.codes.zip (List.range rec0.codes.length)).map fun p => if p.2 ∈ masked then 0 else mxInt o.aw p.1
    let x := (k.sreg o.sx).toInt
    let column := fun i =>
      let a1 := addTerms ((accOf (start i)).anchor (x + k.wtop (tl.array 0 (i / 256)) (i % 256)))
        (columnTerms tl o.aw acts rec0.scales outs [] (columnArrays tl arrs (i / 256)) (i % 256))
      ({ a1 with rows := a1.rows + tl.kspan * tl.rows } : Acc).bits
    Ready c (.mvm c g o faults) g s →
    k.checkDesc n da [9] true true = none → k.checkDesc n dx [3, 4, 5] true false = none →
    dx.len1 = 1 → dx.fmt = 3 + actwCode o.aw → 256 * tl.nspan ≤ da.len0 * da.len1 → dx.len0 ≤ tl.kspan * tl.rows → -1024 ≤ x → x ≤ 1023 →
    k.busy .array [dx.extent n] [da.extent n] tl.arrays = false → k.ready2 n dx = true → s.banksReady c tl.arrays = true →
    (∀ i, i < 256 * tl.nspan → (accOf (start i)).rows + tl.kspan * tl.rows ≤ 65536) →
    issueEnd (s.fireAt c (.mvm c g o faults) g) (arrs.map fun p => (p.array, nominalTime tl o.aw (settle (s.half c).band) outs p)) ≤ s.dln c →
    s.pow.refuse = false →
    (∀ p ∈ arrs, scaleFails tl faults outs p ≠ 2 ∧ rowFails tl faults outs p ≠ 2) →
    ∃ t, exec (.mvm c g o faults) s = .next t ∧
      (∀ i, i < 256 * tl.nspan → (t.core c).accGet (entryIndex da.shape i) = column i) ∧
      (∀ e, (∀ i, i < 256 * tl.nspan → entryIndex da.shape i ≠ e) → (t.core c).accGet e = k.accGet e) ∧
      (∃ u iss, (t.core c).inflight = k.inflight ++ [u] ∧ u.unit = .array ∧ u.issue = some iss ∧ iss.todo = iss.plan ∧ iss.due = [] ∧
        (u.flags.getLsbD 10 = true ↔ ∃ p ∈ arrs, p.rank < modeRank o.mode) ∧
        iss.undo = (List.range (256 * tl.nspan)).map fun i => (entryIndex da.shape i, start i)) ∧
      (t.core c).pc = k.pc + 8 ∧ (t.core c).store = k.store ∧ (t.core c).sregs = k.sregs ∧ (t.core c).tregs = k.tregs ∧
      (t.core c).preds = k.preds ∧ (t.core c).status = k.status ∧ ∀ d, d ≠ c → t.core d = s.core d

/-- The verdict of a pass (R58, R59, R66, R68, R84, R174): a pass whose reported codes are all true and whose residues are 0, or that is not checked, releases its counts and
changes no accumulator, an unchecked one with UNCHECKED; a checked pass of more than 16 rows with a residue other than 0 makes its two halves due, one of 16 rows its retry,
and reports to the failure count; a failed retry restores the entries of the issue and halts the core.
A re-read pass (R66, R67, R86): the first due pass that can begin runs again, awaits its verdict, is counted and adds its cycles; REREAD shows when the
instruction completes. -/
def Obligations.PassVerdicts : Prop :=
  (∀ (c : CoreId) (id : Nat) (p : PassId) (u : UnitInst) (iss : Issue) (s : State),
    let k := s.core c
    let pl := s.arrPlan c iss.mode iss.rgp p.array
    let residue := fun h => passResidue pl.info pl.fp4 (activeRows iss p) [] h % 31
    let checked : Prop := k.checkDis = false ∨ iss.mode = .reference
    k.findIssue id = some (u, iss) → iss.nextOf p.array = some p → k.fsCount < 2 ^ 31 →
    ((checked → ∀ h, h < 8 → residue h = 0) → turnsCore (.passVerdict c id p []) c s fun k' =>
      { k' with inflight := k.inflight, arrays := k.arrays, eventStat := k.eventStat } = k ∧
      (checked → k'.eventStat = k.eventStat) ∧ (¬ checked → k'.eventStat.getLsbD 7 = true) ∧
      ∃ u', k'.findIssue id = some (u', { iss with todo := iss.todo.erase p }) ∧ (checked → u'.flags = u.flags) ∧ (¬ checked → u'.flags.getLsbD 11 = true)) ∧
    (checked → (∃ h, h < 8 ∧ residue h ≠ 0) → p.retry = false → p.g ∈ [16, 32, 64, 128, 256] →
      turnsCore (.passVerdict c id p []) c s fun k' =>
        k'.acc = k.acc ∧ k'.eventStat.getLsbD 0 = true ∧ k'.fails = k.fails ++ [(s.tick.count, pl.phys)] ∧
        ∃ u' iss' more, k'.findIssue id = some (u', iss') ∧ iss'.due = iss.due ++ more ∧ (∀ q, q ∈ iss'.todo ↔ q ∈ iss.todo.erase p ∨ q ∈ more) ∧
          more = (if 16 < p.g then [⟨p.array, p.plane, p.lo, p.g / 2, false⟩, ⟨p.array, p.plane, p.lo + p.g / 2, p.g / 2, false⟩]
           else [⟨p.array, p.plane, p.lo, 16, true⟩])) ∧
    (checked → (∃ h, h < 8 ∧ residue h ≠ 0) → p.retry = true →
      ∃ t, exec (.passVerdict c id p []) s = .next t ∧ (t.core c).run = false ∧ (t.core c).halted = true ∧
        (t.core c).eventStat.getLsbD 5 = true ∧ (t.core c).status.getLsbD 13 = true ∧ (∀ x ∈ (t.core c).inflight, x.id ≠ u.id) ∧
        (∀ e v, (e, v) ∈ iss.undo → (∀ w, (e, w) ∈ iss.undo → w = v) → (t.core c).accGet e = v) ∧
        (⟨3, s.member, (dieOf c).val⟩ : Notice) ∈ t.tick.notices)) ∧
  (∀ (c : CoreId) (id : Nat) (p : PassId) (u : UnitInst) (iss : Issue) (s : State),
    let k := s.core c
    let pl := s.arrPlan c iss.mode iss.rgp p.array
    let more := passCycles p.g (settle (s.half c).band) pl.twin (if p.retry then 4 else 0)
    k.findIssue id = some (u, iss) → iss.nextDue = some p →
    ∃ t, exec (.rereadPass c id) s = .next t ∧
      (t.core c).rereadCnt = k.rereadCnt + 1 ∧ (t.core c).status = k.status ∧ (t.core c).acc = k.acc ∧ (t.core c).store = k.store ∧
      (∃ u' iss', (t.core c).findIssue id = some (u', iss') ∧ iss'.due = iss.due.erase p ∧ iss'.todo = iss.todo ∧ u'.flags.getLsbD 12 = true ∧
        iss'.times = iss.times.map fun x => if x.1 = p.array then (x.1, x.2 + more) else x) ∧
      ∀ d, d ≠ c → t.core d = s.core d)

/-- The issue gate (R172, R494): an issue whose nominal end lies after DLN, or that the ceiling monitor refuses, does not start; its core overruns with cause 0, and no
accumulator entry changes.
`accadd` whose rows would pass 65,536 (R256, R111, R237): the accumulators stay, K_LIMIT and EXC_CONT are set and the program goes on. -/
def Obligations.ArrayLimits : Prop :=
  (∀ (c : CoreId) (g : Guard) (o : MvmOp) (faults : List ReadFault) (s : State),
    let k := s.core c
    let n := s.tick.seq
    let da := descOf (k.treg o.tacc)
    let dx := descOf (k.treg o.tact)
    let tl := o.tile
    let outs := (k.mxRow n dx 0).outliers.filter fun x => decide (x.1 / tl.rows < tl.kspan)
    let arrs := tl.arrays.map (s.arrPlan c o.mode o.rgp)
    let start := fun i => if o.clr then 0 else k.accGet (entryIndex da.shape i)
    let x := (k.sreg o.sx).toInt
    Ready c (.mvm c g o faults) g s →
    k.checkDesc n da [9] true true = none → k.checkDesc n dx [3, 4, 5] true false = none →
    dx.len1 = 1 → dx.fmt = 3 + actwCode o.aw → 256 * tl.nspan ≤ da.len0 * da.len1 → dx.len0 ≤ tl.kspan * tl.rows → -1024 ≤ x → x ≤ 1023 →
    k.busy .array [dx.extent n] [da.extent n] tl.arrays = false → k.ready2 n dx = true → s.banksReady c tl.arrays = true →
    (∀ i, i < 256 * tl.nspan → (accOf (start i)).rows + tl.kspan * tl.rows ≤ 65536) →
    (s.dln c < issueEnd (s.fireAt c (.mvm c g o faults) g) (arrs.map fun p => (p.array, nominalTime tl o.aw (settle (s.half c).band) outs p)) ∨
      s.pow.refuse = true) →
    ∃ t, exec (.mvm c g o faults) s = .next t ∧ (t.core c).run = false ∧ (t.core c).acc = k.acc ∧
      (∀ f ∈ t.flits, f.src = 1000 * s.member + c.val → ∀ i, f.inj = some i → i ≤ k.cyc) ∧
      (t.core c).inflight = k.inflight ∧ (⟨0, s.member, (dieOf c).val⟩ : Notice) ∈ t.tick.notices ∧ t.tick.event.getLsbD 0 = true) ∧
  (∀ (c : CoreId) (g : Guard) (td ta : TReg) (s : State),
    let k := s.core c
    let n := s.tick.seq
    let dd := descOf (k.treg td)
    let da := descOf (k.treg ta)
    Ready c (.accadd c g td ta) g s → OperandsGood c .array [(dd, [9]), (da, [10])] [(dd, [9])] s → dd.len0 * dd.len1 = da.len0 * da.len1 →
    (∃ p ∈ (k.entries n dd).zip (k.entries n da), 65536 < (accOf p.1).rows + (accOf p.2).rows) →
    turnsCore (.accadd c g td ta) c s fun k' =>
      k'.acc = k.acc ∧ k'.store = k.store ∧ k'.inflight = k.inflight ∧ k'.run = true ∧ k'.pc = k.pc + 8 ∧
      k'.status.getLsbD 9 = true ∧ k'.status.getLsbD 30 = true ∧ k'.numStat.getLsbD 9 = true)

/-- The network port (R264 to R266): `send` puts the rows of its operand, each padded to 64 bytes, into the network as one message of the route
to the route's bank; `red` puts its elements in as one partial. The core's memories stay. -/
def Obligations.NetworkPort : Prop :=
  ∀ (c : CoreId) (g : Guard) (ta : TReg) (route : BitVec 16) (sa : SReg) (opMax : Bool) (r : RouteEnt) (s : State),
    let k := s.core c
    let n := s.tick.seq
    let da := descOf (k.treg ta)
    let off := (k.sreg sa).toNat
    let bytes := (List.range da.len1).flatMap fun j => pad64 (readBytes k.store (da.rowAt n j) da.rowBytes)
    let part := k.partialBytes n da
    let goes := fun (i' : Instr) (h : Header) (step : Nat) (bs : Bytes) (ut : Nat) (fmts : List Nat) =>
      Ready c i' g s → OperandsGood c .net [(da, fmts)] [] s → ∃ t, exec i' s = .next t ∧
        (t.flits.drop s.flits.length).map Flit.body = messageOf h step (piecesOf 64 bs.length bs) ∧
        t.flits.take s.flits.length = s.flits ∧ (∀ f ∈ t.flits.drop s.flits.length, f.die = dieOf c ∧ f.router = c.val % 4 ∧ f.arrived = false) ∧
        (t.core c).store = k.store ∧ (t.core c).acc = k.acc ∧ (t.core c).sregs = k.sregs ∧ (t.core c).pc = k.pc + 8 ∧
        (t.core c).inflight = k.inflight ++ [⟨k.nextId, .net, some (s.fireAt c i' g + ut - 1), [da.extent n], [], none, none, [], k.pc, none, 0⟩] ∧
        k.sameButUnit (t.core c) ∧ (∀ i f, (t.flits.drop s.flits.length)[i]? = some f → f.inj = some (s.fireAt c i' g + 2 + i)) ∧
        ∀ d, d ≠ c → t.core d = s.core d
    s.routeInSlot c route.toNat = true → s.route route.toNat = some r →
    (r.kind = 0 → off % 64 = 0 → off + da.len1 * alignUp da.rowBytes 64 ≤ r.bankStride →
      goes (.send c g ta route sa) (headerFor s c route.toNat r off false false) 64 bytes (2 + ceilDiv (da.len1 * alignUp da.rowBytes 64) 64)
        [1, 2, 3, 4, 5, 6, 7, 8, 10, 11]) ∧
    (r.kind = 1 → redFmtOk r.form da.fmt opMax = true → off + da.len0 * da.len1 ≤ (if r.form = 2 then 512 else 4096) →
      goes (.red c g ta route sa opMax) (headerFor s c route.toNat r off opMax (da.fmt == 8)) (if r.form = 2 then 2 else 16) part
        (2 + ceilDiv (da.len0 * da.len1 * (if r.form = 2 then 32 else 4)) 64) [2, 8, 9, 10])

/-- Requests to the serving dies (R267 to R270, R276): on a lane of LCLASS 0 nothing is sent, `attn` zeroes its answer, `gfence` clears its
predicate and the instruction is over within its injection time; on any other lane the request goes out, as the flits of one message of the route that it names (`gfence`, which names
none, directly), and the instruction waits for the answer; a request to another member leaves the package. -/
def Obligations.ServingPort : Prop :=
  ∀ (c : CoreId) (g : Guard) (ta tb : TReg) (route : BitVec 16) (sa : SReg) (pd : PReg) (layer : BitVec 10) (r : RouteEnt) (s : State),
    let k := s.core c
    let n := s.tick.seq
    let da := descOf (k.treg ta)
    let db := descOf (k.treg tb)
    let tag := k.sreg sa
    let idle : Prop := tagClass tag = 0
    let rowsOf := fun (d : Desc) => (List.range d.len1).flatMap fun j => readBytes k.store (d.rowAt n j) d.rowBytes
    let asks := fun (i : Instr) (rd wr : List (Desc × List Nat)) (kind : ReqKind) (dest : Nat) (bytes : Option Bytes) (rest fill : Core → Core → Prop) =>
      Ready c i g s → OperandsGood c .serve rd wr s → ∃ t, exec i s = .next t ∧ (t.core c).pc = k.pc + 8 ∧ rest k (t.core c) ∧
        (idle → t.flits = s.flits ∧ t.wire = s.wire ∧ t.inbox = s.inbox ∧ t.outbound = s.outbound ∧ fill k (t.core c)) ∧
        (¬ idle → (t.core c).store = k.store ∧ ∃ q : ServeReq, q.id = s.nextReq ∧ q.kind = kind ∧ q.tag = tag ∧ q.core = c ∧ q.seq = n ∧ t.nextReq = s.nextReq + 1 ∧
          (match bytes with
            | none => t.flits = s.flits ∧ t.wire = s.wire ∧
              (if dest = s.member then t.inbox = s.inbox ++ [q] ∧ t.outbound = s.outbound else t.outbound = s.outbound ++ [q] ∧ t.inbox = s.inbox)
            | some bs => t.inbox = s.inbox ∧ t.flits.take s.flits.length = s.flits ∧
              (t.flits.drop s.flits.length).map Flit.body = messageOf (headerFor s c route.toNat r 0 false false) 0 (piecesOf 64 bs.length bs) ∧
              (∀ f ∈ t.flits.drop s.flits.length, f.req = some q.id ∧ f.die = dieOf c ∧ f.router = c.val % 4 ∧ f.arrived = false) ∧
              (if dest = s.member then t.wire = s.wire ++ [q] ∧ q.left = (t.flits.drop s.flits.length).length ∧ t.outbound = s.outbound
               else t.outbound = s.outbound ++ [q] ∧ t.wire = s.wire))) ∧
        (∃ u, (t.core c).inflight = k.inflight ++ [u] ∧ u.unit = .serve ∧ u.flags = 0 ∧ (¬ idle → u.done = none) ∧
          (idle → u.done = some (s.fireAt c i g + 1 + ceilDiv (rd.foldl (fun a x => a + x.1.len1 * x.1.rowBytes) 0) 64))) ∧
        ∀ d, d ≠ c → t.core d = s.core d
    (s.routeInSlot c route.toNat = true → s.route route.toNat = some r →
      (r.kind = 2 → da.len0 = db.len0 → da.len1 = db.len1 →
        asks (.attn c g ta tb route sa layer) [(da, [1])] [(db, [1, 2])] .attn r.destMember (some (rowsOf da))
          (fun k k' => k.sameButUnit k' ∧ k.storeOutside k' n db) fun k k' =>
          k'.store = (k.putRows n db (List.replicate db.len1 (List.replicate db.len0 0))).store) ∧
      (r.kind = 4 → asks (.kvw c g ta tb route sa layer) [(da, [1]), (db, [1])] [] .kvw r.destMember (some (rowsOf da ++ rowsOf db))
        Core.sameButUnit fun k k' => k'.store = k.store) ∧
      (r.kind = 3 → da.len1 ≤ 8 → da.len0 ≤ 262144 →
        asks (.samp c g ta route sa) [(da, [1, 2])] [] .samp r.destMember (some (rowsOf da)) Core.sameButUnit fun k k' => k'.store = k.store)) ∧
    asks (.gfence c g sa pd) [] [] .gfence s.servingMember none (fun k k' => k.sameButUnit { k' with preds := k.preds }) fun k k' =>
      k'.store = k.store ∧ k'.preg pd = (if pd.val = 0 then true else false)

/-- TICK_START (R163, R165, R180, R186, R208, R303, R431): the count advances; the sequence number advances but in a leap tick and in a tick without
almanac work; the effective period is that of the stretch in force; no notice stands, the failing words of a program region or constant window are rewritten (R239, R303), and nothing of a core's memories or arrays changes. In
a tick without almanac work no sequencer runs. -/
def Obligations.TickStarts : Prop :=
  ∀ s : State, s.power = 0 → s.tick.phase = .applied →
    let stop : Prop := s.grp.state = .convening ∨ s.grp.state = .failover ∨ s.loadPhase = 3
    let leap : Prop := ¬ stop ∧ (s.tick.leapNext = true ∨ s.tick.recovery.isSome = true)
    let idle : Prop := stop ∨ (s.alm = none ∧ ¬ leap)
    ∃ t, exec .tickStart s = .next t ∧
      t.tick.count = s.tick.count + 1 ∧ t.tick.phase = .work ∧ t.tick.notices = [] ∧ t.tick.leapNext = false ∧
      (leap ∨ idle → t.tick.seq = s.tick.seq) ∧ (¬ (leap ∨ idle) → t.tick.seq = s.tick.seq + 1) ∧
      (t.tick.leap = true ↔ leap) ∧ (t.tick.idle = true ↔ idle) ∧
      t.tick.pEff = min 960 (ceilDiv (s.tick.basePeriod * (100 + s.tick.stretch)) 100) ∧
      t.fab.count = s.fab.count + BitVec.ofNat 64 s.tick.pEff ∧
      (leap ∨ idle → ∀ c, (t.core c).run = false) ∧
      (∀ c, (t.core c).store = (s.core c).store ∧ (t.core c).acc = (s.core c).acc ∧ (t.core c).arrays = (s.core c).arrays ∧
        (t.core c).arrayMap = (s.core c).arrayMap ∧ (t.core c).inflight = []) ∧
      (s.fw.sch.runs = true → ∀ c w, w ∈ (t.core c).badStore ↔ w ∈ (s.core c).badStore ∧
        ¬ (((s.core c).progLo ≤ 16 * w ∧ 16 * w < (s.core c).progHi) ∨ ((s.core c).cLo ≤ 16 * w ∧ 16 * w < (s.core c).cHi))) ∧
      t.alm = s.alm ∧ t.fuses = s.fuses ∧ t.rings = s.rings ∧ t.dies = s.dies ∧ (leap ∨ idle → t.serve = s.serve ∧ t.srv.reqs = s.srv.reqs) ∧
      (∀ d, (t.sd d).dram = (s.sd d).dram ∧ (t.sd d).pages = (s.sd d).pages ∧ (t.sd d).dirs = (s.sd d).dirs ∧ (t.sd d).budget = (s.sd d).budget)

/-- A slot program starts (R167, R208): in a tick with almanac work, a good core with its logic in use (R26), whose slot record has an entry, runs from
that entry with s1, s2 and s3 at the sequence number, the slot and its number, every other scalar register 0, p0 alone true, STATUS 0, the
return stack empty. The almanac is assumed to list no core twice. -/
def Obligations.SlotProgramStarts : Prop :=
  ∀ (s : State) (a : Almanac) (c : CoreId) (e : CoreEnt) (r : SlotRec),
    let n := s.tick.seq + 1
    let slot := if a.slots = 0 then 0 else n.toNat % a.slots
    s.power = 0 → s.tick.phase = .applied → s.alm = some a → s.grp.state ≠ .convening → s.grp.state ≠ .failover → s.loadPhase ≠ 3 →
    s.tick.leapNext = false → s.tick.recovery = none →
    (a.cores.map CoreEnt.core).Nodup → (∀ x ∈ a.cores, x.core < 96) → e ∈ a.cores → e.core = c.val → e.slots[slot]? = some r → r.entry ≠ 0xFFFF_FFFF →
    s.fuses.coreMap.getLsbD c.val = true → s.fuses.bad = false → (s.die (dieOf c)).domUse.getLsbD (16 + c.val % 4) = true → (s.core c).seqSafe = false →
    (smGet procDefault s.fw.ctrl c.val).state ≠ 3 →
    ∃ t, exec .tickStart s = .next t ∧
      (t.core c).run = true ∧ (t.core c).idle = false ∧ (t.core c).pc = BitVec.ofNat 64 r.entry ∧ (t.core c).slot = slot ∧ (t.core c).cyc = 0 ∧
      (∀ q : SReg, (t.core c).sreg q =
        if q.val = 1 then n.setWidth 64 else if q.val = 2 then BitVec.ofNat 64 slot else if q.val = 3 then BitVec.ofNat 64 c.val else 0) ∧
      (∀ q : TReg, (t.core c).treg q = 0) ∧ (∀ q : PReg, (t.core c).preg q = decide (q.val = 0)) ∧
      (t.core c).status = 0 ∧ (t.core c).stack = [] ∧ (t.core c).inflight = [] ∧ (t.core c).exc0 = (s.core c).exc0

/-- The three commands between the work window and the apply point. ISSUE_DEADLINE (R172, R209): every sequencer stops, and a core whose program
had not ended sends nothing after DLN, with a notice of cause 0 or 2. WORK_DEADLINE (R171, R173, R209, R295, R300, R329, R421): units stop, an unfinished quantiser,
vector or move instruction leaves a notice of cause 9, a reduction that failed or did not deliver one of cause 4, flits of this sequence number and unanswered requests
go, and the own stamp is kept. CHANGE_REPORT (R534): the reports alone change. -/
def Obligations.TickDeadlines : Prop :=
  ∀ s : State, s.power = 0 →
    (s.tick.phase = .work → ∃ t, exec .issueDeadline s = .next t ∧ t.tick.phase = .drain ∧ t.tick.count = s.tick.count ∧ t.tick.seq = s.tick.seq ∧
      (∀ n ∈ s.tick.notices, n ∈ t.tick.notices) ∧ (∀ c, (t.core c).run = false ∧ (t.core c).store = (s.core c).store ∧ (t.core c).sregs = (s.core c).sregs) ∧
      (∀ f ∈ t.flits, f ∈ s.flits) ∧
      (∀ c, (s.core c).run = true → (∀ f ∈ t.flits, f.src = 1000 * s.member + c.val → ∀ i, f.inj = some i → i ≤ s.dln c) ∧ ((⟨0, s.member, (dieOf c).val⟩ : Notice) ∈ t.tick.notices ∨ ⟨2, s.member, (dieOf c).val⟩ ∈ t.tick.notices)) ∧
      { t with cores := s.cores, tick := s.tick, flits := s.flits } = s) ∧
    (s.tick.phase = .drain → ∃ t, exec .workDeadline s = .next t ∧ t.tick.phase = .eve ∧ t.tick.count = s.tick.count ∧ t.tick.seq = s.tick.seq ∧
      (∀ n ∈ s.tick.notices, n ∈ t.tick.notices) ∧ t.inbox = [] ∧ t.wire = [] ∧ t.outbound = [] ∧ (∀ f ∈ t.flits, f.via = none → f.body.hdr.seq ≠ s.tick.seq.setWidth 8) ∧
      (∀ e ∈ s.reducers, e.2.armed = true → (e.2.failed = true ∨ e.2.delivered = false) → (⟨4, s.member, e.1 / 16⟩ : Notice) ∈ t.tick.notices) ∧
      (∀ c, (t.core c).run = false ∧ (t.core c).inflight = [] ∧ (t.core c).store = (s.core c).store ∧ (t.core c).acc = (s.core c).acc) ∧
      (∀ c, ∀ u ∈ (s.core c).inflight, (u.unit = .quant ∨ u.unit = .vector ∨ u.unit = .move) → (∀ d, u.done = some d → s.wdl c < d) →
        (⟨9, s.member, (dieOf c).val⟩ : Notice) ∈ t.tick.notices) ∧
      (∃ p ∈ t.grp.stamps, p.tick = s.tick.count ∧ p.member = s.member ∧ p.notices = t.tick.notices.take 8)) ∧
    (s.tick.phase = .eve → ∃ t, exec .changeReport s = .next t ∧ t.tick = { s.tick with phase := .reported } ∧
      { t with tick := s.tick, chg := s.chg } = s ∧ t.chg.pending = s.chg.pending ∧ t.chg.armed = s.chg.armed ∧
      (t.chg.pNak = true ↔ ∃ w ∈ s.chg.pending, w.late = false ∧ ∃ x, s.nakOf w (s.tick.count + 1) = some x))

/-- APPLY_POINT (R169): the verdict, the stretch and the leap tick, the changes, the maps, grades and bands, the power domains, trims and clocks, the group,
and the host interface, in this order; then the next tick can start. -/
def Obligations.ApplyPointOrder : Prop :=
  ∀ s : State, s.power = 0 → s.tick.phase = .reported →
    let verdict := ({ s with tick := { s.tick with budgetSet := [] } } : State).verdict.groupStretch.leapSchedule
    let pending := ((verdict.refuseChanges.patchStep verdict.stampers).actStep verdict.stampers).applyPending
    let armed := pending.1.applyArmed
    let graded := ((List.range 96).foldl (fun s i => s.coreEve (asCore i)) armed.1.joinLate).bandEve
    let cores := (graded.domainEve (pending.2 ++ armed.2)).applyTrims.clockEve
    let ready := cores.applyGroup.applyHost
    exec .applyPoint s = .next (State.takeJoin { ready with tick := { ready.tick with phase := .applied } })

/-- A verdict on the tick before the current one (R174 to R178). Lost, the sequence number is set back so that the next tick repeats it; the lost
tick and the current one, which is void, lose their side effects; LOSSES counts to its bound and TICK_LOSS names the first notice. Not lost,
the streak of losses ends and the tick's effects are committed. -/
def Obligations.LossVerdict : Prop :=
  ∀ (s : State) (r : TickRec),
    let t := s.tick.count - 1
    let ns := s.verdictNotices t
    let u := s.verdict
    s.tick.hist.find? (fun x => x.tick == t) = some r → r.void = false → r.leap = false → r.hold = false →
    (∀ n ns', ns = n :: ns' →
      u.tick.seq = r.seq - 1 ∧ u.tick.count = s.tick.count ∧
      u.tick.losses = min 0x7FFF_FFFF (s.tick.losses + 1) ∧ u.tick.event.getLsbD 1 = true ∧ u.tick.event.getLsbD 2 = true ∧
      u.tick.lossInfo.toNat = t.toNat % 2 ^ 16 + 2 ^ 16 * (n.cause % 16) + 2 ^ 20 * (n.member % 16) + 2 ^ 24 * (n.die % 256) ∧
      (∀ x ∈ u.tick.hist, x.tick = s.tick.count → x.void = true) ∧
      u.tick.streak = some (r.seq, match s.tick.streak with | some x => if x.1 = r.seq then x.2 + 1 else 1 | none => 1) ∧
      (∀ w ∈ u.srv.kv, w.tick ≠ t ∧ w.tick ≠ s.tick.count) ∧ (∀ w ∈ u.srv.draws, w.tick ≠ t ∧ w.tick ≠ s.tick.count) ∧
      (∀ w ∈ u.srv.refusals, w.tick ≠ t ∧ w.tick ≠ s.tick.count) ∧
      (∀ c, (u.core c).fails = (s.core c).fails.filter (fun x => x.1 != t && x.1 != s.tick.count) ∧ { u.core c with fails := (s.core c).fails } = s.core c) ∧
      u.srv.lanes = s.srv.lanes ∧ u.srv.reqs = s.srv.reqs ∧ u.serve = s.serve ∧ u.rings = s.rings) ∧
    (ns = [] → u.tick.streak = none ∧ u.grp.lastCommit = t ∧ (∀ w ∈ u.srv.kv, w.tick ≠ t) ∧ (∀ w ∈ u.srv.draws, w.tick ≠ t))

/-- GROUP_STRETCH (R185): at an apply point the group stretch becomes the larger of the largest request in the stamps of the eve before and the
stretch in force less 2 points; during an emergency stretch it is 50; it depends on those stamps and that stretch alone. TICK_START takes it into the period (see
TickStarts). Requests and the stretch in force are at most 50, the bound of their fields. -/
def Obligations.GroupStretch : Prop :=
  (∀ s : State,
    let asked := s.stampers.filterMap fun m => (s.stampOf (s.tick.count - 1) m).map Stamp.stretch
    let u := s.groupStretch
    let emergency : Prop := ∃ e, s.tick.emergUntil = some e ∧ s.tick.count ≠ e ∧ laterThan s.tick.count e = false
    { u with tick := { u.tick with stretch := s.tick.stretch } } = s ∧ (emergency → u.tick.stretch = 50) ∧
    (¬ emergency → (∀ r ∈ asked, r ≤ 50) → s.tick.stretch ≤ 50 →
      (∀ r ∈ asked, r ≤ u.tick.stretch) ∧ s.tick.stretch - 2 ≤ u.tick.stretch ∧ (u.tick.stretch ∈ asked ∨ u.tick.stretch = s.tick.stretch - 2))) ∧
  (∀ s s' : State, s.stampers = s'.stampers → s.tick.count = s'.tick.count → s.tick.stretch = s'.tick.stretch → s.tick.emergUntil = s'.tick.emergUntil →
    (∀ m ∈ s.stampers, (s.stampOf (s.tick.count - 1) m).map Stamp.stretch = (s'.stampOf (s'.tick.count - 1) m).map Stamp.stretch) →
    s.groupStretch.tick.stretch = s'.groupStretch.tick.stretch)

/-- LEAP_TICK_SCHEDULING (R182): a request in the stamps of the eve before makes the next tick a leap tick, unless the verdict on that tick is lost, the group is in a
hold, or a leap tick fell within the 62 ticks before outside an emergency; then LEAP_DEFER is set. Own requests stay pending, and nothing else changes. -/
def Obligations.LeapTicks : Prop :=
  ∀ s : State, s.tick.leap = false → s.tick.recovery = none →
    let u := s.leapSchedule
    let asks : Prop := ∃ m ∈ s.stampers, ∃ p, s.stampOf (s.tick.count - 1) m = some p ∧ p.leap = true
    let near : Prop := ∃ l, s.tick.lastLeap = some l ∧ (s.tick.count - l).toNat ≤ 62
    let bars : Prop := s.lostNow = true ∨ s.held = true ∨ (near ∧ s.emergency = false)
    (asks → ¬ bars → u.tick.leapNext = true ∧ u.tick.event = s.tick.event) ∧
    (asks → bars → u.tick.leapNext = s.tick.leapNext ∧ u.tick.event.getLsbD 5 = true ∧ ∀ j, j ≠ 5 → u.tick.event.getLsbD j = s.tick.event.getLsbD j) ∧
    (¬ asks → u.tick.leapNext = s.tick.leapNext ∧ u.tick.event = s.tick.event) ∧
    u.tick.leapReqs = s.tick.leapReqs ∧
    { u with tick := { u.tick with leapNext := s.tick.leapNext, event := s.tick.event, leapTaken := s.tick.leapTaken } } = s

/-- BAND_CHANGE (R138): each half of a weight die takes the band of its hottest valid sensor T at once when that band is higher, and leaves its band for a lower one
only when T is more than 2 °C below the band's lower boundary, for the band that holds T + 2 °C. Temperatures are in eighths of a degree. A sample
sets T to the highest of the half's valid sensors. `ApplyPointOrder` says at which step of every apply point this happens. -/
def Obligations.TemperatureBands : Prop :=
  let holds : Band → Int → Prop := fun b t => match b with
    | .cold => t < 320 | .nominal => 320 ≤ t ∧ t < 560 | .warm => 560 ≤ t ∧ t < 720 | .hot => 720 ≤ t ∧ t ≤ 840 | .critical => 840 < t
  let low : Band → Option Int := fun b => match b with
    | .cold => none | .nominal => some 320 | .warm => some 560 | .hot => some 720 | .critical => some 840
  let turns : Half → Half → Option Int → Prop := fun h h' hot => ∀ t, hot = some t →
    { h' with band := h.band } = h ∧
    (∀ b, holds b t → h.band.rank < b.rank → h'.band = b) ∧
    (∀ l b, low h.band = some l → t < l - 16 → holds b (t + 16) → h'.band = b) ∧
    ((∀ b, holds b t → b.rank ≤ h.band.rank) → (∀ l, low h.band = some l → l - 16 ≤ t) → h'.band = h.band)
  ∀ (s : State) (d : DieId), d.val < 24 →
    turns (s.die d).west (s.bandEve.die d).west (s.die d).hotW ∧ turns (s.die d).east (s.bandEve.die d).east (s.die d).hotE ∧
    { s.bandEve with dies := s.dies } = s ∧
    (∀ t, (s.die d).shownTemps (halfSensors d.val false) = t → t ≠ [] → ∃ x ∈ t, ((s.setHot d).die d).hotW = some x ∧ ∀ y ∈ t, y ≤ x) ∧
    (∀ t, (s.die d).shownTemps (halfSensors d.val true) = t → t ≠ [] → ∃ x ∈ t, ((s.setHot d).die d).hotE = some x ∧ ∀ y ∈ t, y ≤ x)

/-- What may follow an apply point (R178, R179, R198, R200, R536): the emergency stretch and its end, the faults of repeated losses and of a recovery
hold that lasts, the end of the hold, the structural patch, and the rollbacks of a patch and of a change. -/
def Obligations.AfterTheApplyPoint : Prop :=
  ∀ s : State, s.power = 0 → s.tick.phase = .applied →
    (s.tick.emergCall = true → exec .emergencyStretch s = .next { s with tick := { s.tick with
      emergCall := false, emergUntil := some (s.tick.count + 1025), event := s.tick.event ||| 8#32 } }) ∧
    (∀ u, s.tick.emergUntil = some u → (s.tick.count - u).toNat < 2 ^ 47 →
      exec .emergencyStretchEnd s = .next { s with tick := { s.tick with emergUntil := none } }) ∧
    (s.tick.repeatFault = true → exec .repeatLossFault s = .next (({ s with tick := { s.tick with repeatFault := false } } : State).packageFault 2)) ∧
    (∀ r, s.tick.recovery = some r → (∀ x ∈ r.arrays, s.handedOver (asCore x.1) x.2.1 x.2.2 = true) →
      exec .recoveryHoldEnd s = .next { s with tick := { s.tick with recovery := none } }) ∧
    (∀ r, s.tick.recovery = some r → s.grp.fault = false → (1024 ≤ (s.tick.count - r.since + 1).toNat ∨ ∃ x ∈ r.arrays, s.noSpareFor (asCore x.1) x.2.1 x.2.2 = true) →
      exec .recoveryHoldTimeout s = .next (s.packageFault 1)) ∧
    (∀ p, s.tick.patch = some p → p.structural = true → p.agreed = true → laterThan p.target (s.tick.count + 1) = false → s.srv.lanes = [] → s.lostNow = false →
      ∃ t, exec .structuralPatchApply s = .next t ∧ t.tick.leapNext = true ∧ t.reducers = [] ∧ t.tick.count = s.tick.count ∧ t.tick.seq = s.tick.seq ∧
        (∀ a b, s.alm = some a → p.alm = some b → t.tick.patch = none ∧
          t.alm = some (almOf (b.raw.take 48 ++ leBytes 4 (a.patchEpoch + 1).toNat ++ b.raw.drop 52)))) ∧
    (∀ p, s.tick.patch = some p → 16 < p.moves → exec .patchRollback s = .next
      (({ s with tick := { s.tick with patch := none, event := s.tick.event ||| 256#32 } } : State).patchEnd 2)) ∧
    (∃ t, exec .changeRollback s = .next t ∧ { t with chg := s.chg } = s ∧
      (16 < s.chg.pMoves → t.chg.pending = [] ∧ t.chg.result = 3) ∧ (16 < s.chg.aMoves → t.chg.armed = none ∧ t.chg.result = 3) ∧
      (s.chg.pMoves ≤ 16 → t.chg.pending = s.chg.pending) ∧ (s.chg.aMoves ≤ 16 → t.chg.armed = s.chg.armed))

/-- A flit's hop (R19, R278, R281, R284, R298 to R300, R413, R416). At its destination's router it is marked as arrived, once no earlier flit of its sender and route is left; with no way on
it is lost. Given the next slot of its port it crosses to the next router, by way of the seam's crossing buffer of 64 flits where the seam lies between, or over a UCIe link that is up to the next
die, or leaves by a fabric link in a frame; corrected words are counted at the receiving die; a first failure is counted and the flit sent again; a second one discards it with
LINK_DISCARD and a notice of cause 5.
A delivered flit (R221, R265, R268, R276, R281): its 64 bytes stand at bank n mod 3 of its route, offset by the flit's, the arrival bit of a line of the data
window is set, the flit is gone, and no other byte, register or core changes. A flit of a request to a serving die counts, and the last one brings the request into the die's queue. -/
def Obligations.FlitHops : Prop :=
  (∀ (f : Flit) (s : State),
    let x := fun (e : Ecc) => exec (.flitHopReceive f.id e) s
    let ways := fun (t u : State) (g : Flit) (at' : DieId) =>
      x .clean = .next (t.moveFlit g) ∧
      (∀ n, x (.corrected n) = .next ((t.modDie at' fun y => { y with eccCorr := min 0x7FFF_FFFF (y.eccCorr + n) }).moveFlit g)) ∧
      x .badOnce = .next ((t.modDie at' fun y => { y with eccRetry := min 0x7FFF_FFFF (y.eccRetry + 1) }).moveFlit g) ∧
      (∃ v, x .badTwice = .next v ∧ v.flits = u.flits ∧ (⟨5, s.member, at'.val⟩ : Notice) ∈ v.tick.notices ∧ (v.die at').redEvt.getLsbD 7 = true ∧ v.cores = s.cores)
    s.flits.find? (fun g => g.id == f.id) = some f → (s.tick.phase = .work ∨ s.tick.phase = .drain ∨ f.via.isSome = true) → f.arrived = false →
    s.netOn f.die.val f.router = true →
    (f.seam = true → (s.seamBuffer f.die f.router).head? = some f → ways s (s.dropFlit f.id) { f with seam := false } f.die) ∧
    (f.seam = false →
      (s.hop f = .here → s.firstOf f = true → ∀ e, x e = .next (s.setFlit { f with arrived := true, inj := none })) ∧
      (s.hop f = .here → s.firstOf f = false → ∀ e, x e = .next s) ∧
      (s.hop f = .nowhere → ∀ e, x e = .next (s.dropFlit f.id)) ∧
      (∀ r t, s.hop f = .lane r → s.netOn f.die.val r = true → s.granted f 4 = some t →
        (r / 2 = f.router / 2 → ways t (t.dropFlit f.id) { f with router := r } f.die) ∧
        (r / 2 ≠ f.router / 2 → (s.seamBuffer f.die r).length < 64 → ∀ e, x e = .next (t.moveFlit { f with router := r, seam := true })) ∧
        (r / 2 ≠ f.router / 2 → 64 ≤ (s.seamBuffer f.die r).length → ∀ e, x e = .next s)) ∧
      (∀ p d r t, s.hop f = .link p d r → s.portUp f.die.val p = true → s.netOn d r = true → s.granted f p = some t →
        ways t (t.dropFlit f.id) { f with die := asDie d, router := r } (asDie d)) ∧
      (∀ k t, s.hop f = .fabric k → s.granted f (4 + k / 4) = some t → ∃ v, x .clean = .next v ∧ v.flits = s.flits.filter (fun g => g.id != f.id) ∧
        (f.via = none → v.fab.frames = extendFrames s.fab.frames (s.frameOf f k)) ∧
        (∀ g, f.via = some g → v.fab.frames = extendTransit s.fab.frames { g with flits := [f.body] }) ∧
        { v with flits := s.flits, fab := s.fab, free := s.free } = s))) ∧
  (∀ (f : Flit) (s : State),
    let h := f.body.hdr
    let n := fullSeq s.tick.seq h.seq
    s.flits.find? (fun g => g.id == f.id) = some f → (s.tick.phase = .work ∨ s.tick.phase = .drain) → (f.arrived = true ∨ (f.seam = false ∧ s.hop f = .here)) →
    s.firstOf f = true → s.netOn f.die.val f.router = true →
    (∀ (c : CoreId) (r : RouteEnt),
      let a := r.bankBase + n.toNat % 3 * r.bankStride + h.offset
      h.kind = 0 → s.tick.leap = false → coreAt f.die h.destUnit = some c → s.route h.route = some r → f.body.data.length = 64 →
      ∃ t, exec (.flitDelivery f.id) s = .next t ∧
        readBytes (t.core c).store a 64 = f.body.data ∧ (∀ x, x < a ∨ a + 64 ≤ x → memGet (t.core c).store x = memGet (s.core c).store x) ∧
        (a % 64 = 0 → (s.core c).dLo ≤ a → a < (s.core c).dHi → (t.core c).arrived a (a + 64) = true) ∧
        { t.core c with store := (s.core c).store, badStore := (s.core c).badStore, arrival := (s.core c).arrival } = s.core c ∧
        (∀ d, d ≠ c → t.core d = s.core d) ∧ t.flits = s.flits.filter (fun g => g.id != f.id) ∧ { t with cores := s.cores, flits := s.flits } = s) ∧
    (∀ (i : Nat) (q : ServeReq), 2 ≤ h.kind → f.req = some i → s.wire.find? (fun x => x.id == i) = some q →
      ∃ t, exec (.flitDelivery f.id) s = .next t ∧ t.flits = s.flits.filter (fun g => g.id != f.id) ∧ { t with flits := s.flits, wire := s.wire, inbox := s.inbox } = s ∧
        (q.left ≤ 1 → t.inbox = s.inbox ++ [{ q with left := 0 }] ∧ t.wire = s.wire.filter (fun x => x.id != q.id)) ∧
        (1 < q.left → t.inbox = s.inbox ∧ t.wire = s.wire.map fun x => if x.id = q.id then { x with left := x.left - 1 } else x)))

/-- The reducers (R287 to R294): a flit of the armed sequence and route is combined and its message counted with its last flit; one of an older
sequence is discarded with STALE; one of the next waits. At exactly the route's number of partials the result goes out once, on the next route. -/
def Obligations.Reductions : Prop :=
  (∀ (f : Flit) (s : State),
    let h := f.body.hdr
    let r := s.reducer f.die.val (h.destUnit % 16)
    s.flits.find? (fun g => g.id == f.id) = some f → (s.tick.phase = .work ∨ s.tick.phase = .drain) → (f.arrived = true ∨ (f.seam = false ∧ s.hop f = .here)) →
    s.firstOf f = true → s.netOn f.die.val (h.destUnit % 16 / 4) = true → h.kind = 1 → f.die.val < 24 → r.armed = true →
    (h.seq = r.seq → h.route = r.route → ∃ t, exec (.reducerCombine f.id) s = .next t ∧
      let r' := t.reducer f.die.val (h.destUnit % 16)
      r'.count = r.count + (if h.last then 1 else 0) ∧ r'.armed = true ∧ r'.route = r.route ∧ r'.seq = r.seq ∧
      (∀ i, smGet elemDefault r'.elems i =
        if h.offset ≤ i ∧ i < h.offset + f.body.used / formBytes h.form then
          (smGet elemDefault r.elems i).combine h.form h.opMax h.int (leAt f.body.data (formBytes h.form * (i - h.offset)) (formBytes h.form))
        else smGet elemDefault r.elems i) ∧
      t.flits = s.flits.filter (fun g => g.id != f.id) ∧ t.cores = s.cores ∧ t.tick = s.tick) ∧
    (h.seq ≠ r.seq → h.seq ≠ r.seq + 1 → ∃ t, exec (.reducerCombine f.id) s = .next t ∧ (t.die f.die).redEvt.getLsbD 3 = true ∧
      t.flits = s.flits.filter (fun g => g.id != f.id) ∧ t.reducers = s.reducers ∧ t.cores = s.cores ∧ t.tick = s.tick) ∧
    (h.seq = r.seq + 1 → exec (.reducerCombine f.id) s = .next s)) ∧
  (∀ (d : DieId) (u : Fin 16) (rt onw : RouteEnt) (s : State),
    let r := s.reducer d.val u.val
    s.route r.route = some rt → s.route (r.route + 1) = some onw → s.netOn d.val (u.val / 4) = true → (s.tick.phase = .work ∨ s.tick.phase = .drain) →
    r.armed = true → r.failed = false → r.delivered = false → r.bad = false → r.count = rt.partials →
    ∃ t, exec (.reducerDelivery d u) s = .next t ∧ t.reducer d.val u.val = { r with delivered := true } ∧ t.cores = s.cores ∧ t.tick = s.tick ∧
      t.flits.take s.flits.length = s.flits ∧
      (∀ f ∈ t.flits.drop s.flits.length, f.die = d ∧ f.router = u.val / 4 ∧ f.body.hdr.route = r.route + 1 ∧ f.body.hdr.seq = r.seq ∧
        f.body.hdr.destMember = onw.destMember ∧ f.body.hdr.die = onw.destDie ∧ f.body.hdr.destUnit = onw.destUnit) ∧
      (onw.kind = 0 → (t.flits.drop s.flits.length).flatMap (fun f => f.body.data) =
        pad64 ((List.range r.len).flatMap fun i => ((smGet elemDefault r.elems i).deliver rt.form onw.form (nth (false, false) r.ops 0).1 (nth (false, false) r.ops 0).2).1)))

/-- Scrubbing and in-package links (R15, R17, R24, R299, R302, R303, R305, R333): a corrected word is counted and changes nothing else; an uncorrectable one
of a core store stays bad until it is rewritten (`TickStarts`); a page that loses a word of DRAM is LOST. Training sets the state
of both ends, with PHY power at both; a degraded link that the almanac uses is a package fault. -/
def Obligations.ScrubAndLinks : Prop :=
  ∀ (d : DieId) (p : Fin 6) (c : CoreId) (a : Nat) (sv : ServeId) (w : ScrubWord) (s : State),
    let up := nth 0 (s.die d).portState p.val
    exec (.scrub d w false) s = .next (s.modDie d fun x => { x with eccCorr := min 0x7FFF_FFFF (x.eccCorr + 1) }) ∧
    (dieOf c = d → s.fuses.coreMap.getLsbD c.val = true → s.fuses.bad = false → ∃ k', exec (.scrub d (.store c a) true) s = .next (s.setCore c k') ∧
      { k' with badStore := (s.core c).badStore } = s.core c ∧ (∀ x, x ∈ k'.badStore ↔ x ∈ (s.core c).badStore ∨ x = a / 16)) ∧
    (∀ g, s.power = 0 → s.pageAt sv.val a = some g → ∃ t, exec (.dramScrub sv a true) s = .next t ∧
      ((t.sd sv.val).page g.1 g.2.1 g.2.2).lost = true ∧ (t.sd sv.val).attnEvt.getLsbD 6 = true ∧ (t.sd sv.val).dram = (s.sd sv.val).dram ∧
      { t with serve := s.serve } = s) ∧
    (∀ r, s.power = 0 → p.val < (portDies d.val).length → s.phyOn d.val p.val = true → ∃ t, exec (.linkTraining d p r) s = .next t ∧
      nth 9 (t.die d).portState p.val = (match r with | .x64 => 2 | .x32 => 1 | .down => 0) ∧
      nth 9 (t.die (asDie (nth d.val (portDies d.val) p.val))).portState (portTo (nth d.val (portDies d.val) p.val) d.val) =
        (match r with | .x64 => 2 | .x32 => 1 | .down => 0) ∧ { t with dies := s.dies } = s) ∧
    (∀ down, s.power = 0 → p.val < (portDies d.val).length → (up = 2 ∨ (up = 1 ∧ down = true)) →
      exec (.linkDegrade d p down) s = .next (if s.usesLink (16 * d.val + p.val) then (s.setPort d p.val (if down then 0 else 1)).packageFault 0
        else s.setPort d p.val (if down then 0 else 1)))

/-- Fabric links (R36, R408 to R412, R451): training brings link k up on 8 or 4 lanes when its far end passes the check of R412, and leaves it down when
not, with LINK_MISMATCH or ADDR_DUP; loss of lanes, of a port and of an optical die take links down. -/
def Obligations.FabricLinks : Prop :=
  ∀ (k : Fin 32) (p : Peer) (r : LaneResult) (four : Bool) (o : Fin 4) (port : Nat) (s : State),
    let fresh := { s with fab := { s.fab with eyeOff := s.fab.eyeOff.filter fun e => e ≠ (k.val % 4, k.val / 4) } }
    let train := exec (.fabricLinkTraining k r (some p)) s
    s.power = 0 →
    (s.fab.launch = true → s.fab.present = true → s.fab.rack ≠ 1023 → k.val % 4 ∉ s.fab.optFailed →
      (r = .down → train = .next (fresh.setLink k.val 0)) ∧
      (r ≠ .down → p.addr ≠ s.addr → s.peerOk k.val p = true → ∃ t, train = .next t ∧ t.flink k.val = (if r = .lanes8 then 2 else 1) ∧
        smGet (fun _ => 0) t.fab.peers k.val = p.addr.toNat ∧ (∀ j, j ≠ k.val → t.flink j = s.flink j) ∧ { t with fab := s.fab } = s) ∧
      (r ≠ .down → p.addr ≠ s.addr → s.peerOk k.val p = false → train = .next ((fresh.setLink k.val 0).grpBit 0)) ∧
      (r ≠ .down → p.addr = s.addr → train = .next ((fresh.setLink k.val 0).grpBit 1))) ∧
    (s.flink k.val = 2 → s.usesLink (1024 + k.val) = false → exec (.fabricLaneFail k four) s = .next (s.setLink k.val (if four then 1 else 0))) ∧
    (port = 8 → o ≠ 2 → (o.val, port) ∉ s.fab.eyeOff →
      exec (.eyeSafetyDisable o port) s = .next { s with fab := { s.fab with eyeOff := s.fab.eyeOff ++ [(o.val, port)] } }) ∧
    (port < 8 → ∃ t, exec (.eyeSafetyDisable o port) s = .next t ∧ (o.val, port) ∈ t.fab.eyeOff ∧ (s.flink (4 * port + o.val) ≤ 2 → t.flink (4 * port + o.val) = 0)) ∧
    (o.val ∉ s.fab.optFailed → o ≠ 2 → ∃ t, exec (.opticalDieFail o) s = .next t ∧ o.val ∈ t.fab.optFailed ∧ (∀ j, j < 8 → t.flink (4 * j + o.val) = 0) ∧
      (∀ j, j % 4 ≠ o.val → t.flink j = s.flink j) ∧ t.grp.fault = true ∧ t.cores = s.cores ∧ t.tick = s.tick) ∧
    (2 ∉ s.fab.optFailed → ∃ t, exec (.opticalDieFail 2) s = .next t ∧ t.fab.holdover = true ∧ t.fab.lock = (s.fab.lock && s.fab.holdover))

/-- Frames (R413 to R421): a DATA frame of its tick's tag hands its flits to the optical die of its lane, any other is dropped with TAG_DROP; a frame for
another package waits at the optical die of its lane, with one more hop, to leave in its flits' classes; one with a word that fails twice is a notice of cause 5; a member's stamp is recorded once.
The timing fibre (R422, R426): a good message sets the timing count of a locked package of no group, with TRIM's slots added, two bad ones in a row are holdover, and a lock
ends it, in a leap tick's step beyond 50 ns. -/
def Obligations.FabricFrames : Prop :=
  (∀ (f : Frame) (tag : W32) (p : Stamp) (s : State),
    let code := s.exitCode f.dest
    s.power = 0 →
    (f.typ = 0 → f.dest = s.addr → (s.flink f.link.val = 1 ∨ s.flink f.link.val = 2) →
      (s.tagIn f.tick = some f.tag → ∃ t, exec (.dataFrame ⟨f, .clean⟩) s = .next t ∧ t.flits.take s.flits.length = s.flits ∧
        (t.flits.drop s.flits.length).map Flit.body = f.flits ∧ (∀ g ∈ t.flits.drop s.flits.length, g.die.val = 28 + f.link.val % 4 ∧ g.arrived = false) ∧
        { t with flits := s.flits, nextFlit := s.nextFlit } = s) ∧
      (s.tagIn f.tick ≠ some f.tag → exec (.dataFrame ⟨f, .clean⟩) s = .next { s with grp := { s.grp with evt := s.grp.evt ||| 4#32 } }) ∧
      (∃ t, exec (.dataFrame ⟨f, .badTwice⟩) s = .next t ∧ (⟨5, s.member, 28 + f.link.val % 4⟩ : Notice) ∈ t.tick.notices ∧ t.flits = s.flits ∧ t.cores = s.cores)) ∧
    (f.dest ≠ s.addr → s.fab.present = true → code < 8 → (s.flink (4 * code + f.link.val % 4) = 1 ∨ s.flink (4 * code + f.link.val % 4) = 2) →
      (s.flink f.link.val = 1 ∨ s.flink f.link.val = 2) → f.hops + 1 < 32 → f.typ ≤ 5 →
      ∃ t g, exec (.transitFrame ⟨f, .clean⟩) s = .next t ∧ t.flits.take s.flits.length = s.flits ∧ (t.flits.drop s.flits.length).map (fun x => x.body.data) = f.flits.map FlitBody.data ∧
        (∀ x ∈ t.flits.drop s.flits.length, x.via = some g ∧ x.die.val = 28 + f.link.val % 4 ∧ x.arrived = false) ∧ { t with flits := s.flits, nextFlit := s.nextFlit } = s ∧
        g.hops = f.hops + 1 ∧ g.link.val = 4 * code + f.link.val % 4 ∧ { g with hops := f.hops, link := f.link, fvc := f.fvc, flits := f.flits } = f ∧
        (f.fvc = 0 → g.fvc = 0) ∧ (f.fvc ≠ 0 → g.fvc = (if crossesDateline s.fab.pos.toNat code then 2 else if code < 6 ∧ f.link.val / 8 = code / 2 then f.fvc else 1))) ∧
    (f.dest ≠ s.addr → (8 ≤ code ∨ 32 ≤ f.hops + 1) → ∀ e, exec (.transitFrame ⟨f, e⟩) s = .next s) ∧
    (s.grp.state ≠ .spare → p.member ≠ s.member → p.member < s.grp.record.members → s.tagIn (p.tick.setWidth 16) = some tag →
      (∀ q ∈ s.grp.stamps, q.tick = p.tick → q.member ≠ p.member) →
      exec (.stampFrame tag p) s = .next { s with grp := { s.grp with stamps := s.grp.stamps ++ [p] } })) ∧
  (∀ (bs : Bytes) (v : W64) (s : State), s.power = 0 →
    (timeCount bs = some v → s.fab.lock = true → s.grp.state = .spare →
      exec (.timeMessage bs) s = .next { s with fab := { s.fab with badMsgs := 0, count := v + BitVec.ofNat 64 (s.fab.trim.toNat % 2 ^ 16 / 128) } }) ∧
    (timeCount bs = none → exec (.timeMessage bs) s = .next { s with fab := { s.fab with badMsgs := s.fab.badMsgs + 1 } }) ∧
    ((2 ≤ s.fab.badMsgs ∨ 2 ∈ s.fab.optFailed) → s.fab.holdover = false →
      exec .holdover s = .next { s with fab := { s.fab with holdover := true, lock := false }, grp := { s.grp with evt := s.grp.evt ||| 64#32 } }) ∧
    (2 ∉ s.fab.optFailed → ∀ w,
      (s.fab.holdover = false ∨ w = true → exec (.timingLock w) s = .next { s with fab := { s.fab with lock := true, badMsgs := 0, holdover := false } }) ∧
      (s.fab.holdover = true → w = false → ∃ t, exec (.timingLock w) s = .next t ∧ t.fab = { s.fab with lock := true, badMsgs := 0, stepDue := true } ∧
        2 ∈ t.tick.leapReqs ∧ { t with fab := s.fab, tick := { t.tick with leapReqs := s.tick.leapReqs } } = s)))

/-- Convenings (R431 to R435): a CONVENE frame of the own group is kept, newest last; the round's leader rules at its apply point with a quorum; a
ruling is kept from that leader alone; a round without one ends, and the group splits 1 s after the hold began.
A ruling applies (R436 to R438, R532): a member not marked KEEP is fenced and is a spare without a model; a member that is kept takes the record and
the sequence number, loses every lane and staged effect, and goes on with a leap tick if nobody was fenced and no failover runs, or else in a failover hold. Flits
on their way through the package stay. -/
def Obligations.Convenings : Prop :=
  (∀ (f : Convene) (g : Ruling) (s : State),
    let r := s.grp.record
    let keep := (List.range r.members).filter s.keeps
    let x := s.makeRuling keep (s.tick.count + 2)
    s.power = 0 →
    (f.groupId = r.groupId → f.member < r.members → f.member ≠ s.member → ∃ t, exec (.conveneFrame f) s = .next t ∧
      (∀ m, m ≠ f.member → t.grp.convenes.filter (fun y => y.member == m) = s.grp.convenes.filter (fun y => y.member == m)) ∧
      t.grp.convenes.filter (fun y => y.member == f.member) = [f] ∧ { t with grp := { t.grp with convenes := s.grp.convenes } } = s) ∧
    (s.tick.phase = .applied → s.grp.state = .convening →
      (s.tick.count = s.grp.holdFrom + BitVec.ofNat 48 (7 + 16 * s.grp.round) → roundLeader r s.grp.round = s.member → s.grp.fault = false → s.fw.sch.runs = true →
        s.grp.rulingOut = none → (r.members < 2 * keep.length ∨ (r.members = 2 * keep.length ∧ referenceMember r = s.member)) → pathsOk x.2.record s.tick.basePeriod = true →
        exec .conveningRuling s = .next { x.1 with grp := { x.1.grp with
          rulingOut := some x.2, ruling := some x.2, rulingAt := s.tick.count + 2, newSpares := none } } ∧
        x.2.groupId = r.groupId ∧ x.2.record.epoch = r.epoch + 1 ∧ x.2.leader = s.member ∧ x.2.round = s.grp.round ∧
        (∀ m, m < 16 → (x.2.keep.getLsbD m = true ↔ m < r.members ∧ s.keeps m = true))) ∧
      (s.tick.count = s.grp.holdFrom + BitVec.ofNat 48 (15 + 16 * s.grp.round) → s.grp.ruling = none → exec .conveningRoundEnd s = .next { s with grp := { s.grp with
          round := if s.grp.round < 15 then s.grp.round + 1 else 0, holdFrom := if s.grp.round < 15 then s.grp.holdFrom else s.tick.count + 1 } })) ∧
    (s.grp.state = .convening → g.groupId = r.groupId → 1 ≤ r.members → g.sender = g.leader → g.sender = roundLeader r s.grp.round → g.round = s.grp.round →
      exec (.ruling g) s = .next { s with grp := { s.grp with
        ruling := some g, rulingAt := s.grp.holdFrom + BitVec.ofNat 48 (9 + 16 * s.grp.round) } }) ∧
    (s.grp.state = .convening → 80000000 ≤ s.grp.holdSteps → ∃ t, exec .groupSplit s = .next t ∧
      t.grp.state = .spare ∧ t.grp.fenced = true ∧ t.alm = none ∧ t.genActive = 0 ∧ (∀ x ∈ t.flits, x.via.isSome = true) ∧ t.srv.reqs = [] ∧
      t.grp.evt.getLsbD 4 = true ∧ t.grp.evt.getLsbD 5 = true ∧ t.cores = s.cores ∧ t.dies = s.dies)) ∧
  (∀ (f : Ruling) (s : State), s.power = 0 → s.tick.phase = .applied → s.grp.ruling = some f → s.tick.count = s.grp.rulingAt →
    (f.keep.getLsbD s.member = false → ∃ t, exec .rulingApply s = .next t ∧ t.grp.state = .spare ∧ t.grp.fenced = true ∧ t.grp.record = noRecord ∧
      t.alm = none ∧ t.genActive = 0 ∧ t.loadPhase = 0 ∧ t.srv.reqs = [] ∧ t.srv.lanes = [] ∧ t.flits = s.flits.filter (fun x => x.via.isSome) ∧ t.grp.evt.getLsbD 4 = true ∧ t.cores = s.cores) ∧
    (f.keep.getLsbD s.member = true → ∃ t, exec .rulingApply s = .next t ∧
      let all := ∀ m, m < s.grp.record.members → f.keep.getLsbD m = true
      t.grp.record = f.record ∧ t.tick.seq = f.seq ∧ t.grp.ruling = none ∧ t.grp.convenes = [] ∧ t.tick.patch = none ∧ t.fw.act = none ∧
      (all → s.grp.inFailover = false → t.grp.state = .serving ∧ t.tick.leapNext = true ∧ t.grp.fencedOut = s.grp.fencedOut) ∧
      (¬ all ∨ s.grp.inFailover = true → t.grp.state = .failover ∧ t.tick.leapNext = false ∧ t.grp.inFailover = true) ∧
      (∀ m, m < s.grp.record.members → f.keep.getLsbD m = false → m ∈ t.grp.fencedOut) ∧
      t.srv.lanes = [] ∧ t.srv.draws = [] ∧ t.srv.kv = [] ∧ t.srv.fills = [] ∧ t.srv.ledger = [] ∧ t.flits = s.flits.filter (fun x => x.via.isSome) ∧ t.reducers = [] ∧ t.inbox = [] ∧
      t.alm = s.alm ∧ t.genActive = s.genActive ∧ t.member = s.member ∧ t.tick.count = s.tick.count ∧ ∀ c, t.core c = { s.core c with fails := [] }))

/-- Joining and leaving (R438, R439, R441, R442, R445): a spare named by a JOIN takes its place in the failover hold at tick N0 − 1; the leader rules again if
it stays silent; sections arrive; the hold ends when every stamp carries READY; the escrow is filled again; LEAVE and a broken presence contact. -/
def Obligations.Failover : Prop :=
  ∀ (f : Join) (i m : Nat) (bs : Bytes) (s : State), s.power = 0 →
    let at2 := s.tick.count + 2
    (s.grp.state = .spare → f.dest = s.addr → s.fab.rack ≠ 1023 →
      (s.tick.phase = .applied → ∃ t, exec (.join f) s = .next t ∧ t.member = f.member ∧ t.tick.count = f.n0 - 1 ∧ t.tick.seq = f.seq ∧ t.grp.record = f.record ∧
        t.grp.state = .failover ∧ t.grp.restoring = true ∧ t.grp.fenced = false ∧ t.grp.ready = false ∧ t.grp.joining = none ∧ t.alm = none ∧ t.srv.reqs = [] ∧ t.cores = s.cores ∧ t.rings = s.rings) ∧
      (s.tick.phase ≠ .applied → exec (.join f) s = .next { s with grp := { s.grp with joining := some f } })) ∧
    (s.tick.phase = .applied → s.grp.state = .failover → f ∈ s.grp.sentJoins → (s.tick.count = f.n0 ∨ laterThan s.tick.count f.n0 = true) →
      (∀ p ∈ s.grp.stamps, p.member = f.member → p.tick ≠ f.n0 ∧ laterThan p.tick f.n0 = false) → s.grp.rulingOut = none → s.grp.ruling = none → s.fw.sch.runs = true →
      ∃ t, exec .joinTimeout s = .next t ∧
        (∃ g, t.grp.rulingOut = some g ∧ t.grp.ruling = some g ∧ g.leader = s.member ∧ g.record.epoch = s.grp.record.epoch + 1 ∧
          (f.member < 16 → g.keep.getLsbD f.member = false)) ∧ t.grp.rulingAt = at2 ∧ t.grp.sentJoins = s.grp.sentJoins ∧ t.cores = s.cores ∧ t.tick = s.tick) ∧
    (s.grp.restoring = true → s.grp.ready = false → s.loadPhase = 0 → s.load.metadata = [] → formatOk bs = true → imgGen bs = s.grp.record.generation →
      exec (.escrowBankArrival i bs) s = .next { s with load := { s.load with metadata := bs, own := [], fed := [], bankDone := [], resident := [] } }) ∧
    (s.grp.restoring = true → s.grp.ready = false → s.loadPhase = 0 → s.load.metadata ≠ [] → ∀ e, s.section? i = some e → e.member = s.member → i ∉ s.load.fed →
      bs.length = e.len → digest bs = e.digest →
      (e.shard = true → s.critical (asCore e.unit) = true → exec (.escrowBankArrival i bs) s = .next (s.modCore (asCore e.unit) fun k => k.marginEvent 4)) ∧
      (e.shard = false ∨ s.critical (asCore e.unit) = false → ∃ t, exec (.escrowBankArrival i bs) s = .next t ∧
        i ∈ t.load.fed ∧ smGet (fun _ => []) t.load.own i = bs ∧ t.load.metadata = s.load.metadata ∧
        (e.shard = false → (⟨e.kind, e.unit, e.load, bs⟩ : AuxSec) ∈ t.aux) ∧ (e.shard = true → 64 * (asCore e.unit).val + e.kind ∈ t.load.bankDone))) ∧
    (s.tick.phase = .applied → s.grp.state = .failover → (∀ j, j < s.grp.record.members → ∃ p, s.stampOf (s.tick.count - 1) j = some p ∧ p.ready = true) →
      ∃ t, exec .failoverHoldEnd s = .next t ∧ t.grp.state = .serving ∧ t.grp.fencedOut = [] ∧ t.grp.inFailover = false ∧ t.grp.restoring = false ∧ t.grp.sentJoins = [] ∧ t.tick.leapNext = true ∧ t.tick.count = s.tick.count ∧ t.grp.record = s.grp.record) ∧
    (s.grp.state = .serving → s.load.oldMeta ≠ [] → s.load.oldEscrow = [] → ∃ m, exec .escrowRefill s = .next { s with load := { s.load with oldEscrow := m } } ∧
      (∀ e, (sectionsOf s.load.oldMeta)[i]? = some e → s.serves e.member = true → smGet (fun _ => []) m i = Config.peerSection s.genActive i)) ∧
    (s.grp.state ≠ .spare → m < s.grp.record.members → m ≠ s.member → m ∉ s.grp.left →
      exec (.leave s.grp.record.groupId m) s = .next { s with grp := { s.grp with left := s.grp.left ++ [m] } }) ∧
    (s.fab.present = true → ∃ t, exec .presenceBreak s = .next t ∧ t.fab.present = false ∧
      t.fab.frames = s.fab.frames ++ (s.others.filterMap fun j => (s.ownLink (s.memberAddr j)).map fun k =>
        (k, OutFrame.leave (s.memberAddr j) s.grp.record.groupId s.member (s.tick.count.setWidth 16))) ∧
      { t with fab := s.fab } = s)

/-- Attention on a serving die (R308 to R314, R318): the next request is divided into the pages that hold an attended position; each page task forms the
states of all heads on its page; with none left the merged and normalised heads are written to the core's destination, and the request has left. -/
def Obligations.AttentionRequests : Prop :=
  ∀ (sv : ServeId) (q : ServeReq) (l : LayerRec) (s : State), (s.tick.phase = .work ∨ s.tick.phase = .drain) →
    (s.nextServe sv.val .attn = some q → s.attnRefusal sv.val q = none → s.layerRec sv.val q.layer = some l →
      ∃ t, exec (.attentionRequest sv) s = .next t ∧ t.inbox = s.inbox.filter (fun x => x.id != q.id) ∧
        (t.sd sv.val).jobs = (s.sd sv.val).jobs ++ [⟨q, attendedPages l ((s.sd sv.val).dir (tagReq q.tag)) (tagPos q.tag), []⟩] ∧
        { t with inbox := s.inbox, serve := s.serve } = s) ∧
    (∀ x, s.nextServe sv.val .attn = some q → s.attnRefusal sv.val q = some x → ∃ t, exec (.attentionRequest sv) s = .next t ∧
      t.inbox = s.inbox.filter (fun y => y.id != q.id) ∧ (t.sd sv.val).jobs = (s.sd sv.val).jobs ∧ (∀ u ∈ (t.core q.core).inflight, u.id = q.inst → u.flags.getLsbD 19 = true) ∧
      (t.sd sv.val).reports = (s.sd sv.val).reports ++ [⟨tagReq q.tag, tagPos q.tag, tagClass q.tag, x, s.tick.count⟩]) ∧
    (∀ en (j : AttnJob) i rest, (s.sd sv.val).jobs.find? (fun x => !x.todo.isEmpty) = some j → j.todo = i :: rest → s.layerRec sv.val j.q.layer = some l →
      (∀ x ∈ (s.sd sv.val).jobs, x.q.id = j.q.id → x = j) →
      (((s.sd sv.val).page (tagReq j.q.tag) j.q.layer i).lost = false → ∃ t, exec (.pageTask sv en false) s = .next t ∧ { j with todo := rest, states := j.states ++ [(i, (s.pageHeads sv.val l j.q i).1)] } ∈ (t.sd sv.val).jobs ∧
        (t.sd sv.val).jobs.length = (s.sd sv.val).jobs.length ∧ (t.sd sv.val).dram = (s.sd sv.val).dram ∧ { t with serve := s.serve } = s) ∧
      (∀ fails, fails = true ∨ ((s.sd sv.val).page (tagReq j.q.tag) j.q.layer i).lost = true → ∃ t, exec (.pageTask sv en fails) s = .next t ∧ ((t.sd sv.val).page (tagReq j.q.tag) j.q.layer i).lost = true ∧ (∀ x ∈ (t.sd sv.val).jobs, x.q.id ≠ j.q.id) ∧
        (∀ u ∈ (t.core j.q.core).inflight, u.id = j.q.inst → u.flags.getLsbD 19 = true))) ∧
    (∀ (j : AttnJob), (s.sd sv.val).jobs.find? (fun x => x.q.id == j.q.id) = some j → j.todo = [] → ∃ t, exec (.attentionAnswer sv j.q.id) s = .next t ∧
      let heads := (List.range j.q.rowsA.length).map fun h => mergeAll (j.states.map fun st => nth ⟨true, 0, 0, []⟩ st.2 h)
      (∀ x ∈ (t.sd sv.val).jobs, x.q.id ≠ j.q.id) ∧ (t.sd sv.val).attnCnt = (s.sd sv.val).attnCnt + 1 ∧
      (j.states = [] → (t.core j.q.core).store = (writeAnswer j.q (zerosFor j.q) (s.core j.q.core)).store ∧ ∀ u ∈ (t.core j.q.core).inflight, u.id = j.q.inst → u.flags.getLsbD 16 = true) ∧
      (j.states ≠ [] → (t.core j.q.core).store = (writeAnswer j.q (heads.map fun h => headOut j.q.fmtB h (nth [] j.q.rowsA 0).length) (s.core j.q.core)).store) ∧
      (∀ u ∈ (t.core j.q.core).inflight, u.id = j.q.inst → u.unit = .serve → u.done = some (max (s.core j.q.core).cyc j.q.sent)) ∧
      (∀ d, d ≠ j.q.core → t.core d = s.core d))

/-- The KV store and the home die (R321, R323, R349, R353, R368, R372): a KV write is encoded and staged and its page gets a frame; ageing re-encodes a page into
a new frame; a draw is staged; a fence answers its predicate; a report reaches the home die. -/
def Obligations.KvAndSampling : Prop :=
  ∀ (sv : ServeId) (q : ServeReq) (l : LayerRec) (x : ServeDie) (s : State),
    ((s.tick.phase = .work ∨ s.tick.phase = .drain) → s.nextServe sv.val .kvw = some q → s.kvRefusal sv.val q = none → s.layerRec sv.val q.layer = some l →
      s.kvClash sv.val q = false → (s.req (tagReq q.tag)).state ≠ .free → (s.req (tagReq q.tag)).state ≠ .queued →
      (s.sd sv.val).framed l (tagReq q.tag) (tagPos q.tag / 128) = some x → ∃ t, exec (.kvWrite sv) s = .next t ∧
        t.srv.kv = s.srv.kv ++ [(stageKv sv l q s.tick.count).1] ∧ t.inbox = s.inbox.filter (fun y => y.id != q.id) ∧
        (t.sd sv.val).alloc = x.alloc ∧ (t.sd sv.val).pages = x.pages ∧ (t.sd sv.val).dram = (s.sd sv.val).dram ∧
        (t.core q.core).store = (s.core q.core).store ∧ (∀ d, d ≠ q.core → t.core d = s.core d) ∧ t.srv.reqs = s.srv.reqs) ∧
    (∀ r layer i a y own, s.tick.phase = .applied → s.layerRec sv.val layer = some l → mayAge l ((s.sd sv.val).dir r) ((s.sd sv.val).page r layer i) i = true →
      (s.sd sv.val).take r (frameUnits l l.agedFmt) (frameUnits l l.newFmt) = some (a, y, own) → ∃ t, exec (.pageAgeing sv r layer i false) s = .next t ∧
        (t.sd sv.val).page r layer i = { (s.sd sv.val).page r layer i with frame := a, fmt := l.agedFmt } ∧
        (t.sd sv.val).dram = (reencode (s.sd sv.val).dram l ((s.sd sv.val).page r layer i).frame a).1 ∧
        (∀ e ∈ (t.sd sv.val).alloc, e.1 ≠ ((s.sd sv.val).page r layer i).frame) ∧ { t with serve := s.serve } = s) ∧
    ((s.tick.phase = .work ∨ s.tick.phase = .drain) → s.inbox.find? (fun y => y.kind == .samp && tagReq y.tag % 2 == sv.val) = some q →
      (s.req (tagReq q.tag)).state = .decode → q.rowsA.length = s.heads → (∀ h r, q.rowsA[h]? = some r → r.length = s.vocab h) → tagClass q.tag = 1 →
      ∃ t, exec (.sampling sv) s = .next t ∧ t.inbox = s.inbox.filter (fun y => y.id != q.id) ∧ t.srv.reqs = s.srv.reqs ∧
        t.srv.draws = s.srv.draws ++ [drawLane (s.req (tagReq q.tag)) (laneTagOf q.tag) [] s.tick.count (q.rowsA.map fun r => r.map (fpDecode (fmtOf q.fmtA)))]) ∧
    (∀ p, let r := s.req (tagReq q.tag)
      let fenced := r.state ≠ .free ∧ r.state ≠ .queued ∧ r.gen ≠ s.genActive
      (s.tick.phase = .work ∨ s.tick.phase = .drain) → s.nextServe sv.val .gfence = some q → q.pd = some p → p.val ≠ 0 →
      ∃ t, exec (.generationFenceQuery sv) s = .next t ∧ t.inbox = s.inbox.filter (fun y => y.id != q.id) ∧
        ((t.core q.core).preg p = true ↔ fenced) ∧ (fenced → ∀ u ∈ (t.core q.core).inflight, u.id = q.inst → u.flags.getLsbD 18 = true) ∧
        (¬ fenced → (t.sd sv.val).reports = (s.sd sv.val).reports) ∧ (∀ d, d ≠ q.core → t.core d = s.core d)) ∧
    (∀ r rest, (s.sd sv.val).reports = r :: rest → ∃ t, exec (.refusalReport sv) s = .next t ∧
      t.srv.refusals = s.srv.refusals ++ [r] ∧ (t.sd sv.val).reports = rest ∧ { t with srv := s.srv, serve := s.serve } = s)

/-- A request's life on the device (R316, R343, R363, R364, R369 to R371, R400, R524, R588): leaving the queue, leaving HELD, a rebuild or the wait for its frames, the hidden span, the
end by faults, the end, and migration; each at an apply point in the order of R524, and only when no lane of the request is in flight, where the manual says so.
The ending completion (R588): the first that waits in a set with a free slot is written and leaves the set's list. -/
def Obligations.RequestLife : Prop :=
  (∀ (i : Nat) (s : State), s.tick.phase = .applied →
    let r := s.req i
    let d := homeOf i
    (∀ x0 x1, s.srv.stage ≤ 6 → s.queueHead = some i → s.genStaged = 0 → s.genActive ≠ 0 → (r.genReq = 0 ∨ r.genReq = s.genActive) → s.reserve 0 i r = some x0 →
      s.reserve 1 i r = some x1 → ∃ t, exec .queueDeparture s = .next t ∧ t.req i = { r with
        state := .prefill, gen := s.genActive, emit := r.promptLen, next := 0, since := s.tick.count
        histAddr := BitVec.ofNat 64 (4096 * (if d = 0 then x0.2 else x1.2)) } ∧ t.sd 0 = x0.1 ∧ t.sd 1 = x1.1 ∧ t.srv.stage = 6 ∧ (∀ j, j ≠ i → t.req j = s.req j)) ∧
    (r.state = .held → s.inFlight i = false → s.causesClear i = true → r.rebuildAt = none → r.withdraws < 8 →
      exec (.heldExit i) s = .next (s.setReq i { r with state := r.back, causes := [] })) ∧
    (8 ≤ r.withdraws → r.finish = none → r.state ≠ .free → r.final = none →
      exec (.requestFaultEnd i) s = .next (s.setReq i { r with finish := some .fault, state := .ending })) ∧
    (∀ p, s.srv.stage ≤ 5 → s.inFlight i = false → (r.state = .prefill ∨ r.state = .decode ∨ r.state = .rebuild ∨ r.state = .held) → r.rebuildAt = none → s.lostStart i = some p →
      (∀ x0 x1, s.reframe i 0 = some x0 → s.reframe i 1 = some x1 → ∃ t, exec (.rebuildStart i) s = .next t ∧
        t.req i = { r with
          state := if r.emit ≤ p + 1 then .decode else .rebuild, next := min p (r.emit - 1), rebuildAt := none, causes := [], step := none } ∧
        ((t.sd 0).dir i).len = p ∧ ((t.sd 1).dir i).len = p ∧ (t.sd 0).pages = x0.pages ∧ (t.sd 1).pages = x1.pages ∧ (t.sd d).serveEvt.getLsbD 2 = true ∧
        (∀ j, j ≠ i → t.req j = s.req j)) ∧
      ((s.reframe i 0 = none ∨ s.reframe i 1 = none) → ∃ t, exec (.rebuildStart i) s = .next t ∧ (t.req i).state = .held ∧ 6 ∈ (t.req i).causes ∧
        (t.req i).next = r.next ∧ t.serve = s.serve ∧ (∀ j, j ≠ i → t.req j = s.req j))) ∧
    (∀ h, r.hide = some h → s.srv.stage ≤ 4 → s.inFlight i = false → ∃ t, exec (.hideApply i) s = .next t ∧ t.req i = { r with hide := none } ∧
      (∀ x, x < 2 → (t.sd x).dir i = { (s.sd x).dir i with hideLo := h.1, hideHi := h.2.1 }) ∧ (∀ j, j ≠ i → t.req j = s.req j)) ∧
    (s.inFlight i = false → r.state ≠ .free → (r.final.isSome = true ∨ r.finish.isSome = true) → ∃ t, exec (.requestEnd i) s = .next t ∧
      (t.req i).state = .free ∧ i ∈ t.srv.freed ∧ (∀ j, j ≠ i → t.req j = s.req j) ∧ (∀ x, x < 2 → (t.sd x).pagesOf i = [] ∧ (t.sd x).dir i = ⟨0, 0, 0, 0⟩ ∧
        (t.sd x).own i = [])) ∧
    (s.power = 0 → s.loadPhase = 2 → s.load.drainTicks ≠ 0 → s.load.ended = none → s.load.drainTicks ≤ (s.tick.count - s.load.drainSince).toNat →
      s.oldRequest i = true → s.reqIds.Nodup → i ∈ s.reqIds → r.migrate = false → r.finish = none → r.final = none →
      ∃ t, exec .migrate s = .next t ∧ t.load.evt.getLsbD 2 = true ∧ (t.req i).migrate = true ∧ (t.req i).state = .ending ∧
        (t.req i).finish = (if s.stepInFlight i then none else some .migrated))) ∧
  (∀ (i : Nat) (e : Ending) (rest : List Ending) (s : State),
    (List.range 16).find? (fun j => !(s.ring j).endings.isEmpty && decide (0 < (s.ring j).cplFree)) = some i → (s.ring i).endings = e :: rest →
    ∃ t, exec .endingCompletion s = .next t ∧ (t.ring i).endings = rest ∧ (t.ring i).cplProd = (s.ring i).cplProd + 1 ∧
      t = (s.setRing i { s.ring i with endings := rest }).putCompletion i e.tag 0x10 e.status e.result true e.tick ∧
      (∀ j, j ≠ i → t.ring j = s.ring j) ∧ { t with rings := s.rings } = s)

/-- Requests of the host (R316, R340 to R342, R355, R365, R366, R462): ADMIT takes a free entry, queues it and answers with its index, ticket and seed, or answers why it does not; CANCEL, DRAFT and
HIDE act on the request that REQ and TICKET name, and answer NO_REQUEST to any other. A processor takes each in its turn (R461). -/
def Obligations.RequestCommands : Prop :=
  ∀ (h : HostCmd) (a : W64) (q : BitVec 16) (tk base lo hi : W32) (s : State),
    let m := s.carve (s.ring h.set.val).owner
    let bs := readBytes m a.toNat 128
    let n := leAt bs 16 4
    let prompt := if 65535 < n then [] else (List.range n).map fun i => idsOf (readBytes m (leAt bs 24 8 + 32 * i) 32) s.heads
    let fits := leAt bs 24 8 + 32 * n ≤ s.rings.carveSize ∧ leAt bs 32 8 + 64 + 32 * 2 ^ (leAt bs 1 1 % 16) ≤ s.rings.carveSize
    let turnedAway (st : Nat) := (s.modSd 0 fun x => x.serveBit 0).completeCmd h 0x10 st []
    let i := s.freeEntry
    let seeded := (leAt bs 0 1).testBit 6
    let seed := if seeded then BitVec.ofNat 64 (leAt bs 8 8) else (Config.random s.free).setWidth 64
    (s.handles h 0x10 = true → s.rings.carveSize < a.toNat + 128 → exec (.admitReq h a) s = .next (turnedAway 0x102)) ∧
    (s.handles h 0x10 = true → a.toNat + 128 ≤ s.rings.carveSize →
      (s.admitStatus bs prompt ≠ 0 → exec (.admitReq h a) s = .next (turnedAway (s.admitStatus bs prompt))) ∧
      (s.admitStatus bs prompt = 0 → ¬ fits → exec (.admitReq h a) s = .next (turnedAway 0x102)) ∧
      (s.admitStatus bs prompt = 0 → fits → ∃ u : State, exec (.admitReq h a) s = .next
          (u.completeCmd h 0x10 0 (leBytes 2 i ++ leBytes 4 (s.sd (homeOf i)).ticket.toNat ++ leBytes 8 seed.toNat)) ∧
        u.req i = admitted h bs seed (s.sd (homeOf i)).ticket i s.srv.nextOrder prompt ∧ (∀ j, j ≠ i → u.req j = s.req j) ∧
        (u.sd (homeOf i)).ticket = (s.sd (homeOf i)).ticket + 1 ∧ u.srv.nextOrder = s.srv.nextOrder + 1 ∧ u.free = (if seeded then s.free else s.free + 1) ∧
        { u with srv := s.srv, serve := s.serve, free := s.free } = s)) ∧
    (s.handles h 0x11 = true → s.held = false → s.tick.phase = .applied → s.srv.stage ≤ 3 →
      (s.ticketed q tk = none → exec (.cancel h q tk) s = .next (s.completeCmd h 0x11 0x104 [])) ∧
      (∀ r, s.ticketed q tk = some r →
        let b := s.begun 3
        (r.final.isSome = true → exec (.cancel h q tk) s = .next (b.completeCmd h 0x11 0x104 [])) ∧
        (r.final = none → r.state = .queued → exec (.cancel h q tk) s = .next ((b.finish q.toNat .cancelled).completeCmd h 0x11 0 [])) ∧
        (r.final = none → r.state ≠ .queued → s.stepInFlight q.toNat = true →
          exec (.cancel h q tk) s = .next ((b.setReq q.toNat { r.cutStep with cancel := true, state := .ending }).completeCmd h 0x11 0 [])) ∧
        (r.final = none → r.state ≠ .queued → s.stepInFlight q.toNat = false →
          exec (.cancel h q tk) s = .next (((b.setReq q.toNat { r with cancel := true }).finish q.toNat .cancelled).completeCmd h 0x11 0 [])))) ∧
    (s.handles h 0x13 = true → s.held = false → s.tick.phase = .applied →
      (s.ticketed q tk = none → exec (.hide h q tk lo hi) s = .next (s.completeCmd h 0x13 0x104 [])) ∧
      (∀ r, s.ticketed q tk = some r → (r.hide.isSome = true → exec (.hide h q tk lo hi) s = .next s) ∧
        (r.hide = none → exec (.hide h q tk lo hi) s = .next ((s.begins h 0x13).setReq q.toNat { r with
          hide := some (lo.toNat % 2 ^ 17, hi.toNat % 2 ^ 17, h.set.val, h.tag) })))) ∧
    (s.handles h 0x12 = true → s.held = false →
      let ids := draftIds (readBytes m a.toNat 224) s.heads
      let good := ∀ d ∈ ids, ∀ x v, d[x]? = some v → v < s.vocab x
      (s.rings.carveSize < a.toNat + 224 → exec (.draft h q tk base a) s = .next (s.completeCmd h 0x12 0x102 [])) ∧
      (a.toNat + 224 ≤ s.rings.carveSize → s.ticketed q tk = none → exec (.draft h q tk base a) s = .next (s.completeCmd h 0x12 0x104 [])) ∧
      (a.toNat + 224 ≤ s.rings.carveSize → ∀ r, s.ticketed q tk = some r →
        (¬ good → exec (.draft h q tk base a) s = .next (s.completeCmd h 0x12 0x103 [])) ∧
        (good → exec (.draft h q tk base a) s = .next ((s.setReq q.toNat { r with draftBuf := some (base.toNat, ids) }).completeCmd h 0x12 0 []))))

/-- Beginning and feeding a load (R393 to R397, R403, R404): IMG_BEGIN starts STAGING with the metadata region, which goes to every other package that takes part, and waits for their answers;
IMG_FEED opens a feed and sends the section to its holders; IMG_END and IMG_ABORT; ESC_FEED restores a lost escrow section. -/
def Obligations.LoadCommands : Prop :=
  ∀ (h : HostCmd) (a : W64) (len drain idx : W32) (pos : BitVec 16) (s : State),
    let own := s.carve (s.ring h.set.val).owner
    (s.handles h 0x20 = true → a.toNat + len.toNat ≤ s.rings.carveSize → s.loadPhase = 0 → s.loadHeld = false → ∃ u : State,
      exec (.imgBegin h a len drain pos) s = .next (u.tellPeers (.metadata (readBytes own a.toNat len.toNat))) ∧
      u.loadPhase = 1 ∧ u.load.reader = true ∧ u.load.begin = some h ∧ u.load.metadata = readBytes own a.toNat len.toNat ∧ u.load.drainTicks = drain.toNat ∧
      u.load.answers = [] ∧ u.load.feeds = [] ∧ u.load.own = [] ∧ u.load.escrow = [] ∧ u.rings = (s.begins h 0x20).rings ∧
      { u with loadPhase := 0, load := s.load, rings := s.rings } = s) ∧
    (s.handles h 0x20 = true → a.toNat + len.toNat ≤ s.rings.carveSize → s.loadPhase ≠ 0 → exec (.imgBegin h a len drain pos) s = .next (s.completeCmd h 0x20 7 [])) ∧
    (∀ e, s.handles h 0x21 = true → s.staging = true → s.load.reader = true → s.section? idx.toNat = some e → a.toNat + e.len ≤ s.rings.carveSize →
      idx.toNat ∉ s.load.fed → s.load.feeds.length < 64 → (∀ f ∈ s.load.feeds, f.index ≠ idx.toNat) →
      let f : Feed := ⟨h, idx.toNat, a.toNat, [], 0⟩
      exec (.imgFeed h idx a) s = .next (({ s.begins h 0x21 with load := { s.load with
        feeds := s.load.feeds ++ [f], almanacs := keepAlmanac s.load.almanacs e (readBytes own a.toNat e.len) } } : State).sendSection f)) ∧
    (s.handles h 0x22 = true → s.staging = true → s.load.reader = true → s.load.endCmd = none → s.load.feeds = [] →
      (∀ i, i < (sectionsOf s.load.metadata).length → i ∈ s.load.fed) → s.groupFormOk = true → s.groupAlmOk = true →
      exec (.imgEnd h) s = .next (({ s.begins h 0x22 with load := { s.load with endCmd := none, staged := true } } : State).completeCmd h 0x22 0 [])) ∧
    (s.handles h 0x23 = true → s.load.reader = true → (s.loadPhase = 1 ∨ s.loadPhase = 2) → s.load.ended = none →
      exec (.imgAbort h) s = .next ((s.endLoad 9).completeCmd h 0x23 0 []) ∧
      (s.endLoad 9).load.ended = some 9 ∧ (s.endLoad 9).load.staged = false ∧ (s.endLoad 9).load.evt.getLsbD 1 = true ∧ (s.endLoad 9).genActive = s.genActive) ∧
    (∀ e, s.handles h 0x24 = true → (sectionsOf s.load.oldMeta)[idx.toNat]? = some e → a.toNat + e.len ≤ s.rings.carveSize → idx.toNat ∈ s.load.lost →
      digest (readBytes own a.toNat e.len) = e.digest →
      let u : State := { s with load := { s.load with
        oldEscrow := smSet (fun _ => []) s.load.oldEscrow idx.toNat (readBytes own a.toNat e.len)
        lost := s.load.lost.filter (· != idx.toNat) } }
      let waits := s.grp.inFailover && s.grp.fencedOut.contains e.member
      exec (.escFeed h idx a) s = .next
        ((if waits then u.sendFrames [.escrow (s.memberAddr e.member) idx.toNat (readBytes own a.toNat e.len)] else u).completeCmd h 0x24 0 []))

/-- Checks, sections and banks of a load (R390, R393 to R397, R401): the members' answers to IMG_BEGIN, a section that this package holds, the other holders' answers, a timeout that counts a
failure and the third that ends the load with SHARD, a member that does not answer, which ends it with MEMBER, a bank that is resident, and an ended load that is gone. -/
def Obligations.LoadSections : Prop :=
  ∀ (i w st : Nat) (bs image : Bytes) (drain : W32) (faults : List ReadFault) (c : CoreId) (b : Fin 64) (s : State), s.power = 0 →
    (s.fw.sec.runs = true → s.load.reader = true → s.load.begin.isSome = true → w < s.groupSize → (∀ x ∈ s.load.answers, x.1 ≠ w) →
      let st' := if w = s.member then s.metaStatus s.load.metadata else st
      let u : State := { s with load := { s.load with answers := s.load.answers ++ [(w, st')] } }
      ((∃ j, j < s.groupSize ∧ j ≠ w ∧ ∀ x ∈ s.load.answers, x.1 ≠ j) → exec (.metadataCheck w st image drain) s = .next u) ∧
      (∀ h, s.load.begin = some h → (∀ j, j < s.groupSize → j ≠ w → (j, 0) ∈ s.load.answers) → (∀ x ∈ s.load.answers, x.2 = 0) → st' = 0 →
        exec (.metadataCheck w st image drain) s = .next (({ u with load := { u.load with begin := none } } : State).completeCmd h 0x20 0 []))) ∧
    (s.fw.sec.runs = true → s.load.reader = false → s.loadPhase = 0 → w < s.groupSize → (2 ≤ s.groupSize → w ≠ s.member) →
      let s1 : State := { s with load := { s.load with escrowOnly := decide (s.groupSize = 1), readerMember := w } }
      (s1.metaStatus image = 0 → ∃ u : State, exec (.metadataCheck w st image drain) s = .next (u.tellReader (.status 0)) ∧ u.loadPhase = 1 ∧ u.load.metadata = image ∧
        u.load.reader = false ∧ u.load.readerMember = w ∧ u.load.own = [] ∧ u.load.escrow = [] ∧ { u with loadPhase := 0, load := s.load } = s) ∧
      (s1.metaStatus image ≠ 0 → exec (.metadataCheck w st image drain) s =
        .next (({ s with load := { s.load with readerMember := w } } : State).tellReader (.status (s1.metaStatus image))))) ∧
    (∀ e f, s.staging = true → s.load.reader = true → s.section? i = some e → s.load.feeds.find? (fun x => x.index == i) = some f →
      (s.ownPart e = true → s.member ∈ s.holders e → bs.length = e.len → digest bs = e.digest →
        let u : State := { s with load := { s.load with own := smSet (fun _ => []) s.load.own i bs } }
        u.contentBad e bs = false → ∀ ack, exec (.sectionArrival i s.member bs ack) s = .next (u.sectionAcked f e s.member)) ∧
      (w ∈ s.holders e → w ≠ s.member →
        exec (.sectionArrival i w bs true) s = .next (s.sectionAcked f e w) ∧ exec (.sectionArrival i w bs false) s = .next (s.sectionFails f)) ∧
      (∀ v, s.load.endCmd = none → (∀ x ∈ s.holders e, x = v ∨ x ∈ f.acks) → i ∈ (s.sectionAcked f e v).load.fed ∧ ∀ x ∈ (s.sectionAcked f e v).load.feeds, x.index ≠ i) ∧
      (w ∈ s.holders e → w ∉ f.acks → exec (.sectionTimeout i w) s = .next (s.sectionFails f)) ∧
      (f.fails < 2 → (s.sectionFails f).load.failures = s.load.failures + 1 ∧ (s.sectionFails f).load.evt.getLsbD 0 = true ∧
        (∃ g ∈ (s.sectionFails f).load.feeds, g.index = i ∧ g.fails = f.fails + 1) ∧ { s.sectionFails f with load := s.load, fab := s.fab } = s) ∧
      (2 ≤ f.fails → (s.sectionFails f).load.ended = some 5 ∧ (s.sectionFails f).load.feeds = [] ∧ (s.sectionFails f).genActive = s.genActive)) ∧
    (s.load.reader = true → w < s.groupSize → (s.load.endCmd.isSome = true ∨ (s.load.begin.isSome = true ∧ ∀ x ∈ s.load.answers, x.1 ≠ w)) →
      exec (.memberAnswerTimeout w) s = .next (s.endLoad 8)) ∧
    (∀ e, s.coreActs c = true → (s.loadPhase = 1 ∨ s.loadPhase = 2) →
      (shardsOf s.load.metadata).find? (fun x => s.ownPart x && x.unit == c.val && x.kind == b.val) = some e → ∃ t, exec (.bankCompare c ⟨b, faults⟩) s = .next t ∧
        (64 * c.val + b.val ∈ t.load.resident ↔ digest (s.bankBytes c b.val) = e.digest ∧ ∀ j, j < 64 → ∀ r, r < 1088 →
          let p := s.phys c (64 * b.val + j)
          ((s.core c).arr p).readable (smGet (fun _ => false) (s.core c).fp4 (64 * b.val + j)) faults p r = true) ∧
        (∀ x, x ≠ 64 * c.val + b.val → (x ∈ t.load.resident ↔ x ∈ s.load.resident)) ∧ (∀ d, d ≠ c → t.core d = s.core d) ∧ (t.core c).arrays = (s.core c).arrays) ∧
    (s.tick.phase = .applied → (s.load.ended.isSome = true ∨ (s.load.reader = false ∧ (s.loadPhase = 1 ∨ s.loadPhase = 2))) →
      ∃ t, exec .loadAbandon s = .next t ∧ t.loadPhase = 0 ∧ t.genStaged = 0 ∧ t.load.own = [] ∧ t.load.escrow = [] ∧
        t.load.metadata = [] ∧ t.load.ended = none ∧ t.genActive = s.genActive ∧ t.alm = s.alm ∧ t.cores = s.cores)

/-- The phases of a load (R399, R401 to R403): DRAINING when every stamp votes STAGED; WRITING when no request of the old generation and no lane is left, with no almanac in
force; MEMBER_WRITTEN when every array is written and graded and no test of a core holds the vote back; COMMITTED when every stamp votes WRITTEN, with the new almanac and generation in force and
no layer lost. The buddy of a group of one keeps the escrow instead (the model's choice, log 28). -/
def Obligations.LoadPhases : Prop :=
  ∀ s : State, s.power = 0 →
    (s.tick.phase = .applied → s.loadPhase = 1 → s.load.escrowOnly = false → s.load.ended = none → s.loadHeld = false →
      (∀ m, m < s.groupSize → ∃ p ∈ s.grp.stamps, p.tick = s.tick.count - 1 ∧ p.member = m ∧ p.loadVote = 1) →
      exec .draining s = .next { s with
        loadPhase := 2, genStaged := imgGen s.load.metadata, load := { s.load with drainSince := s.tick.count }
        grp := { s.grp with record := { s.grp.record with staged := imgGen s.load.metadata } } }) ∧
    (s.tick.phase = .applied → s.loadPhase = 2 → s.load.ended = none → s.loadHeld = false → (∀ i ∈ s.reqIds, s.oldRequest i = false) → s.srv.lanes = [] →
      ∃ t, exec .writing s = .next t ∧ t.loadPhase = 3 ∧ t.alm = none ∧ t.aux = s.ownAux ∧ t.tick.patch = none ∧ t.load.writtenVote = false ∧ t.genActive = s.genActive) ∧
    (s.loadPhase = 3 → s.load.writtenVote = false → (s.banksLeft ≠ [] → exec .memberWritten s = .next s.writeBanks) ∧
      (s.banksLeft = [] → s.badWritten ≠ [] → exec .memberWritten s = .next s.replaceBad) ∧
      (s.banksLeft = [] → s.badWritten = [] → s.allScanned = true → (∀ x, auxOf s.aux 0 0 = some x → s.coreTested (almOf x.content) = false) →
        exec .memberWritten s = .next { s with load := { s.load with writtenVote := true } })) ∧
    (∀ x, s.tick.phase = .applied → s.loadPhase = 3 → s.loadHeld = false → auxOf s.aux 0 0 = some x →
      (∀ m, m < s.groupSize → ∃ p ∈ s.grp.stamps, p.tick = s.tick.count - 1 ∧ p.member = m ∧ p.loadVote = 2) →
      ∃ t, exec .committed s = .next t ∧ t.loadPhase = 0 ∧ t.alm = some (almOf x.content) ∧ t.genActive = imgGen s.load.metadata ∧ t.genStaged = 0 ∧
        t.tick.seq = 0 ∧ t.tick.leapNext = true ∧ t.load.oldMeta = s.load.metadata ∧ t.load.oldEscrow = s.load.escrow ∧ t.load.metadata = [] ∧
        t.grp.record.generation = imgGen s.load.metadata ∧ t.grp.record.staged = 0 ∧ t.fuses = s.fuses ∧ ∀ c, (t.core c).lostArrays = []) ∧
    (s.tick.phase = .applied → s.loadPhase = 1 → s.load.escrowOnly = true → s.load.staged = true → ∃ t, exec .committed s = .next t ∧ t.loadPhase = 0 ∧
      t.load.oldMeta = s.load.metadata ∧ t.load.oldEscrow = s.load.escrow ∧ t.load.escrow = [] ∧ { t with loadPhase := 1, load := s.load } = s)

/-- Completions and events (R458, R461, R465, R466): a command that its processor has taken completes: its queue entry goes, its reserved slot is used, and the completion is
written; one that no processor holds completes into an enabled set with a free slot alone; an event reaches the ring of every enabled set whose mask has its class, or is counted as lost.
The rings (R459 to R461, R464, R466): the engine takes the next command of an enabled set, reserving a completion slot, and answers itself one whose opcode is unknown, whose reserved bytes are not zero, or that its set may not issue;
a doorbell within bounds moves its index, any other is DB_INVALID; EVENTS_LOST goes first when entries are free again. -/
def Obligations.Rings : Prop :=
  ((∀ (h : HostCmd) (op st : Nat) (res : Bytes) (s : State),
    let i := h.set.val
    let r := s.ring i
    let e : QCmd := ⟨i, h.tag, op⟩
    let t := s.completeCmd h op st res
    { t with rings := s.rings } = s ∧
    (e ∈ nth [] s.rings.queues (queueOf op) → s.rings.queues.length = 4 →
      nth [] t.rings.queues (queueOf op) = (nth [] s.rings.queues (queueOf op)).erase e ∧ (∀ q, q ≠ queueOf op → nth [] t.rings.queues q = nth [] s.rings.queues q) ∧
      (t.ring i).cplProd = r.cplProd + 1 ∧ (t.ring i).reserved = r.reserved - 1 ∧ t.rings.begun = s.rings.begun.erase e ∧ (∀ j, j ≠ i → t.ring j = s.ring j)) ∧
    (e ∉ nth [] s.rings.queues (queueOf op) → r.enabled = true → 0 < r.cplFree → t = s.putCompletion i h.tag op st res false s.tick.count) ∧
    (e ∉ nth [] s.rings.queues (queueOf op) → (r.enabled = false ∨ r.cplFree = 0) → t = s)) ∧
  (∀ (code cls die : Nat) (data : Bytes) (i : Nat) (s : State),
    let r := s.ring i
    let t := s.postTo code cls die data i
    { t with rings := s.rings } = s ∧ (∀ j, j ≠ i → t.ring j = s.ring j) ∧
    (r.enabled = false ∨ r.mask.getLsbD cls = false → t = s) ∧
    (r.enabled = true → r.mask.getLsbD cls = true → r.lostSince = 0 →
      (r.evtFree = true → t.ring i = { r with evtProd := r.evtProd + 1 }) ∧
      (r.evtFree = false → t.ring i = { r with evtLost := min 0xFFFF (r.evtLost + 1), lostSince := 1 } ∧ t.rings.fwEvt.getLsbD 4 = true)))) ∧
  (∀ (n : Fin 16) (x : BitVec 16) (s : State),
    let i := n.val
    let r := s.ring i
    let bs := readBytes (s.carve r.owner) (r.cmdBase + 64 * (r.cmdHead.toNat % 2 ^ r.cmdLog2)) 64
    let op := leAt bs 0 2
    let bad := fun ring => (({ s with rings := { s.rings with fwEvt := s.rings.fwEvt ||| 64#32 } } : State).post 0x0F 3 26 (leBytes 1 i ++ leBytes 1 ring ++ leBytes 2 x.toNat))
    (s.rings.stopped = false → r.enabled = true → r.cmdHead ≠ r.cmdTail → r.cplFree ≠ 0 → r.endings = [] →
      (s.takeStatus i bs = none → (nth [] s.rings.queues (queueOf op)).length < 256 → s.rings.queues.length = 4 → ∃ t, exec (.commandTake n) s = .next t ∧
        t.ring i = { r with cmdHead := r.cmdHead + 1, reserved := r.reserved + 1 } ∧
        nth [] t.rings.queues (queueOf op) = nth [] s.rings.queues (queueOf op) ++ [⟨i, BitVec.ofNat 32 (leAt bs 4 4), op⟩] ∧ { t with rings := s.rings } = s) ∧
      (∀ st, s.takeStatus i bs = some st → ∃ t, exec (.commandTake n) s = .next t ∧ t.ring i = { r with cmdHead := r.cmdHead + 1, cplProd := r.cplProd + 1 } ∧
        t.rings.queues = s.rings.queues ∧ { t with rings := s.rings } = s)) ∧
    ((x - r.cmdHead).toNat ≤ 2 ^ r.cmdLog2 → (r.cmdTail - r.cmdHead).toNat ≤ (x - r.cmdHead).toNat → exec (.dbCommandTail n x) s = .next (s.setRing i { r with cmdTail := x })) ∧
    (2 ^ r.cmdLog2 < (x - r.cmdHead).toNat → exec (.dbCommandTail n x) s = .next (bad 0)) ∧
    ((x - r.cplUsed).toNat ≤ (r.cplProd - r.cplUsed).toNat → exec (.dbCompletionConsumed n x) s = .next (s.setRing i { r with cplUsed := x })) ∧
    ((r.cplProd - r.cplUsed).toNat < (x - r.cplUsed).toNat → exec (.dbCompletionConsumed n x) s = .next (bad 1)) ∧
    ((x - r.evtUsed).toNat ≤ (r.evtProd - r.evtUsed).toNat → exec (.dbEventConsumed n x) s = .next (s.setRing i { r with evtUsed := x })) ∧
    ((r.evtProd - r.evtUsed).toNat < (x - r.evtUsed).toNat → exec (.dbEventConsumed n x) s = .next (bad 2)) ∧
    (r.enabled = true → 0 < r.lostSince → r.evtFree = true → ∃ t, exec (.eventsLost n) s = .next t ∧
      t.ring i = { r with evtProd := r.evtProd + 1, lostSince := 0 } ∧ { t with rings := s.rings } = s))

/-- Almanac and group commands (R156, R194, R197, R241, R429, R445): ALM_PATCH stages a patch with its target; ALM_LOAD puts an almanac that is not refused into force and
refuses any other, or one that comes before the sweep has done; GROUP_FORM starts a forming; GROUP_LEAVE sends LEAVE. NOP completes with OK (R463). -/
def Obligations.AlmanacAndGroupCommands : Prop :=
  ∀ (h : HostCmd) (a : W64) (len : W32) (target : W48) (s : State),
    let bs := readBytes (s.carve (s.ring h.set.val).owner) a.toNat len.toNat
    let rec0 := readBytes (s.carve (s.ring h.set.val).owner) a.toNat 128
    (s.handles h 1 = true → exec (.cmdNop h) s = .next (s.completeCmd h 1 0 [])) ∧
    (s.handles h 0x30 = true → a.toNat + len.toNat ≤ s.rings.carveSize → s.tick.patch = none → s.fw.act = none → ∀ al, s.alm = some al →
      ∃ p : Patch, exec (.almPatch h a len target) s = .next (({ s with tick := { s.tick with patch := some p } } : State).completeCmd h 0x30 0 []) ∧
        p.target = target ∧ p.moves = 0 ∧ p.agreed = false ∧ p.cmd = h ∧ p.alm = some (almOf (Config.patchAlmanac al.raw bs)) ∧ p.writes = Config.patchWrites bs) ∧
    (s.handles h 0x31 = true → s.tick.phase = .applied → a.toNat + len.toNat ≤ s.rings.carveSize → s.genActive = 0 → s.loadPhase = 0 → s.held = false →
      exec (.almLoad h a len) s = .next (if s.allSwept = true ∧ s.almOk bs s.aux s.member = true then (s.installAlmanac (almOf bs) s.aux).completeCmd h 0x31 0 [] else s.completeCmd h 0x31 0x103 []) ∧
      (s.installAlmanac (almOf bs) s.aux).alm = some (almOf bs) ∧ (s.installAlmanac (almOf bs) s.aux).tick.basePeriod = (almOf bs).period) ∧
    (s.handles h 0x40 = true → a.toNat + 128 ≤ s.rings.carveSize → s.formOk rec0 = true →
      (s.grp.state = .spare → (recordOf rec0).epoch = 0 → s.grp.forming = none →
        exec (.groupForm h a) s = .next (({ s with grp := { s.grp with forming := some (recordOf rec0), fenced := false } } : State).completeCmd h 0x40 0 [])) ∧
      (s.grp.state = .serving → (recordOf rec0).groupId = s.grp.record.groupId →
        exec (.groupForm h a) s = .next (({ s with grp := { s.grp with newSpares := some (recordOf rec0).sparePos } } : State).completeCmd h 0x40 0 []))) ∧
    (s.handles h 0x41 = true → s.grp.state ≠ .spare → exec (.groupLeave h) s = .next ((s.sendFrames (s.others.map fun j =>
      .leave (s.memberAddr j) s.grp.record.groupId s.member (s.tick.count.setWidth 16))).completeCmd h 0x41 0 [])) ∧
    (s.handles h 0x41 = true → s.grp.state = .spare → exec (.groupLeave h) s = .next (s.completeCmd h 0x41 0x103 []))

/-- Firmware commands and self-tests (R463, R464, R472, R475, R477, R478, R481 to R484, R516 to R518): a bundle from the carve-out is staged if it passes, one from the server is fetched; an activation
waits for its target, or is refused, or deferred; a report is signed with an index that is not used again; owner keys and the boot record go to the NV region; a set that FW_RING_ADMIN does not allow is
denied; tests are queued, cancelled and run. -/
def Obligations.FirmwareCommands : Prop :=
  ∀ (h : HostCmd) (a b : W64) (len unit : W32) (kind detail : BitVec 16) (auto req src : Byte) (model : BitVec 128) (target : W48) (ok : Bool) (s : State), s.power = 0 →
    let own := s.carve (s.ring h.set.val).owner
    let raw := readBytes own a.toNat len.toNat
    (s.handles h 0x50 = true → s.denied h 0x50 = true → exec (.fwStage h src a len) s = .next (s.completeCmd h 0x50 0x106 [])) ∧
    (s.handles h 0x50 = true → s.denied h 0x50 = false → s.fw.sec.runs = true →
      (a.toNat + len.toNat ≤ s.rings.carveSize → ∃ u : State, exec (.fwStage h 1 a len) s =
          .next (u.completeCmd h 0x50 (bundleStatus s.fw.nv.minSvn raw) (sliceBytes raw 8 8 ++ sliceBytes raw 16 4)) ∧
        (bundleStatus s.fw.nv.minSvn raw = 0 → u.fw.staged = some (bundleOf raw)) ∧ (bundleStatus s.fw.nv.minSvn raw ≠ 0 → u.fw.staged = s.fw.staged) ∧ u.fw.pendingAuto = false ∧
        { u with fw := s.fw } = s) ∧
      (s.fw.fetch = none → exec (.fwStage h 0 a len) s =
        .next { s.begins h 0x50 with fw := { s.fw with fetch := some (newFetch 0 (some (h.set.val, h.tag))), pendingAuto := false } })) ∧
    (s.handles h 0x51 = true →
      let u : State := { s with fw := { s.fw with pendingAuto := false } }
      let busy := s.loadPhase = 3 ∨ s.tick.patch.isSome = true ∨ s.fw.act.isSome = true
      (busy → exec (.fwActivate h target auto) s = .next (u.actRefused.completeCmd h 0x51 0x108 [])) ∧
      (¬ busy → s.emergBits ≠ 0 → auto = 0 → exec (.fwActivate h target auto) s = .next (u.actRefused.completeCmd h 0x51 0x105 [])) ∧
      (¬ busy → s.emergBits ≠ 0 → auto ≠ 0 → exec (.fwActivate h target auto) s = .next (({ s with fw := { s.fw with pendingAuto := true } } : State).completeCmd h 0x51 0x109 [])) ∧
      (¬ busy → s.emergBits = 0 → exec (.fwActivate h target auto) s =
        .next (({ s with fw := { s.fw with pendingAuto := false, act := some ⟨target, auto != 0, 0⟩ } } : State).completeCmd h 0x51 0 []))) ∧
    (s.tick.phase = .applied → s.fw.pendingAuto = true → 1024 ≤ s.fw.clearTicks → s.fw.emerg = false → s.tick.patch = none → s.fw.act = none → s.loadPhase ≠ 3 →
      exec .autoActivation s = .next { s with fw := { s.fw with pendingAuto := false, act := some ⟨s.tick.count + 64, true, 0⟩ } }) ∧
    (s.handles h 0x60 = true → s.fw.sec.runs = true → a.toNat + 32 ≤ s.rings.carveSize → b.toNat + 5861 ≤ s.rings.carveSize → s.fw.nv.xmssIdx < 2 ^ 40 →
      let rep := s.attestReport (readBytes own a.toNat 32)
      let sig := sliceBytes (Config.xmssSign s.fw.nv.xmssIdx (sliceBytes (shake256 rep) 0 32)) 0 5605
      exec (.attest h a b) s = .next ((({ s with fw := { s.fw with nv := { s.fw.nv with xmssIdx := s.fw.nv.xmssIdx + 1 } } } : State).writeCarve (s.ring h.set.val).owner b.toNat
        (rep ++ sig)).completeCmd h 0x60 0 (leBytes 8 s.fw.nv.xmssIdx))) ∧
    (s.handles h 0x61 = true → s.denied h 0x61 = false → s.fw.sec.runs = true →
      (a.toNat + 68 ≤ s.rings.carveSize → s.fw.nv.keys.length < 256 → exec (.ownerKeyAdd h model a req) s = .next
        (({ s with fw := { s.fw with nv := { s.fw.nv with keys := s.fw.nv.keys ++ [⟨model, readBytes own a.toNat 68, req != 0⟩] } } } : State).completeCmd h 0x61 0 [])) ∧
      exec (.ownerKeyDelete h model) s = .next
        (({ s with fw := { s.fw with nv := { s.fw.nv with keys := s.fw.nv.keys.filter fun k => k.modelId != model } } } : State).completeCmd h 0x61 0 [])) ∧
    (s.handles h 0x61 = true → s.denied h 0x61 = true → exec (.ownerKeyAdd h model a req) s = .next (s.completeCmd h 0x61 0x106 []) ∧
      exec (.ownerKeyDelete h model) s = .next (s.completeCmd h 0x61 0x106 [])) ∧
    (s.handles h 0x62 = true → s.denied h 0x62 = false → s.fw.sec.runs = true → exec (.bootCfg h a) s = .next
      (if a.toNat + Config.bootLen ≤ s.rings.carveSize then
        ({ s with fw := { s.fw with nv := { s.fw.nv with bootCfg := readBytes own a.toNat Config.bootLen } } } : State).completeCmd h 0x62 0 []
      else s.completeCmd h 0x62 0x102 [])) ∧
    (s.handles h 0x62 = true → s.denied h 0x62 = true → exec (.bootCfg h a) s = .next (s.completeCmd h 0x62 0x106 [])) ∧
    (s.handles h 0x70 = true → unit.toNat < 2 ^ 20 →
      let todo := if 1 < kind.toNat then [] else if unitArray unit = 0x1FFF then List.range 4224 else [unitArray unit]
      let t : SelfTest := ⟨h, unit, kind.toNat, 1, todo⟩
      let u : State := { s.begins h 0x70 with pow := { s.pow with tests := s.pow.tests ++ [t] } }
      let waits := (s.pow.tests.filter fun t => t.state != 3).length
      (kind ≠ 15 → s.testUnit unit kind.toNat = false → exec (.selftest h unit kind) s = .next (s.endTest h 3 0)) ∧
      (kind ≠ 15 → s.testUnit unit kind.toNat = true → 64 ≤ waits → exec (.selftest h unit kind) s = .next (s.completeCmd h 0x70 0x103 [])) ∧
      (kind ≠ 15 → s.testUnit unit kind.toNat = true → waits < 64 → exec (.selftest h unit kind) s = .next (if kind = 5 then u.askLeap 3 else u.queueTest t)) ∧
      (kind = 15 → exec (.selftest h unit kind) s = .next (s.cancelTests h unit)) ∧
      exec (.selftestCancel h unit) s = .next (s.cancelTests h unit) ∧
      ((∀ t ∈ s.pow.tests, t.unit ≠ unit) → s.cancelTests h unit = s.endTest h 0 0)) ∧
    (s.fw.pwr.runs = true → ∀ t, s.pow.tests = [t] →
      (t.kind = 2 ∨ t.kind = 3 ∨ (t.state = 3 ∧ 1 < t.kind) → exec (.selftestRun ok detail) s =
        .next (({ s with pow := { s.pow with tests := [] } } : State).endTest t.cmd (if ok then 0 else 1) (if ok then 0 else detail.toNat))) ∧
      (t.kind = 4 → t.state ≠ 3 → s.emergBits = 0 → ∀ c, unitCore t.unit = some c → s.coreFree c = true → exec (.selftestRun ok detail) s =
        .next { s with pow := { s.pow with tests := [{ t with state := 3 }] } }) ∧
      (t.kind = 5 → t.state ≠ 3 → s.emergBits = 0 → s.tick.leap = true → exec (.selftestRun ok detail) s =
        .next { s with pow := { s.pow with tests := [{ t with state := 3 }] } }))

/-- Fields that act at once (R83, R84, R87, R126, R127, R181, R206, R244, R307, R379, R533, R540, R550, R552, R555, R563, R565): what each does, and nothing else. A change that is armed stays as it
is under ARM, and a write to a core that is not there is a bus error without effect. -/
def Obligations.FieldCommands : Prop :=
  ∀ (p : Path) (d : DieId) (c : CoreId) (sv : ServeId) (on : Bool) (groups : BitVec 16) (s : State), s.power = 0 →
    let k := s.core c
    let hit := fun (w : BufWrite) => w.die == d && decide (w.group ≠ 0) && groups.getLsbD w.group
    exec (.leapReq p) s = .next { s with tick := { s.tick with leapReqs := if 0 ∈ s.tick.leapReqs then s.tick.leapReqs else s.tick.leapReqs ++ [0] } } ∧
    exec (.hold p on) s = .next { s with chg := { s.chg with hold := on } } ∧
    (s.chg.armed = none → exec (.arm p) s = .next { s with chg := { s.chg with
      armed := some (s.chg.pending.map (fun w => { w with late := w.late || s.tick.phase == .reported }), s.chg.tgt0.setWidth 48 ||| (s.chg.tgt1.setWidth 48 <<< 32)), pending := [], eligible := [], aMoves := 0, pMoves := 0, moves := 0 } }) ∧
    (s.chg.armed.isSome = true → exec (.arm p) s = .next s) ∧
    exec (.discard p) s = .next { s with chg := { s.chg with pending := [], armed := none, eligible := [], pMoves := 0, aMoves := 0 } } ∧
    (∃ t, exec (.strobe p d groups) s = .next t ∧ t.chg.pending = s.chg.pending ++ (s.chg.waiting.filter hit).map (fun w => { w with late := s.afterEve }) ∧ t.chg.waiting = s.chg.waiting.filter (fun w => !hit w) ∧
      (s.chg.waiting.filter hit ≠ [] → d.val ∈ t.chg.eligible) ∧ { t with chg := { t.chg with pending := s.chg.pending, waiting := s.chg.waiting, eligible := s.chg.eligible } } = s) ∧
    exec (.drop p d groups) s = .next { s with chg := { s.chg with waiting := s.chg.waiting.filter fun w => !hit w } } ∧
    exec (.configFaultClear p d) s = .next (s.setDie d { s.die d with cfgFault := 0 }) ∧
    exec (.lossesClear p) s = .next { s with tick := { s.tick with losses := 0 } } ∧
    exec (.correctedClear p d) s = .next (s.setDie d { s.die d with eccCorr := 0 }) ∧
    exec (.retriesClear p d) s = .next (s.setDie d { s.die d with eccRetry := 0 }) ∧
    exec (.draftsClear p sv) s = .next (s.setSd sv.val { s.sd sv.val with offered := 0, accepted := 0 }) ∧
    (s.coreReach c = true →
      exec (.checkLock p c) s = .next (s.setCore c { k with checkLock := true }) ∧
      exec (.ladderExhaustedClear p c) s = .next (s.setCore c { k with eventStat := k.eventStat &&& 0xFFFF_FFDF#32, faultInfo := 0 }) ∧
      exec (.exceptionRecordClear p c) s = .next (s.setCore c { k with exc0 := 0, exc1 := 0 }) ∧
      exec (.fsCountClear p c) s = .next (s.setCore c { k with fsCount := 0 }) ∧
      exec (.clampsClear p c) s = .next (s.setCore c { k with clamps := 0 }) ∧
      exec (.qeventClear p c) s = .next (s.setCore c { k with zeroBlocks := 0, outlierOvf := 0 })) ∧
    (s.coreReach c = false → exec (.checkLock p c) s = .next s ∧ exec (.ladderExhaustedClear p c) s = .next s ∧ exec (.exceptionRecordClear p c) s = .next s ∧
      exec (.fsCountClear p c) s = .next s ∧ exec (.clampsClear p c) s = .next s ∧ exec (.qeventClear p c) s = .next s)

/-- Register access (R10, R544, R550, R552 to R555, R557, R560, R561): a write of a buffered register waits in the pending change, or for its group's strobe, with its
writable bits; an address that holds nothing is a bus error without effect; a low word latches its high word; a message for another serial number is refused; a parity
fault in a window register brings the core's safe state. -/
def Obligations.RegisterAccess : Prop :=
  ∀ (p : Path) (a : Nat) (v : W32) (m : MgmtMsg) (ws : List W32) (c : CoreId) (s : State), s.power = 0 →
    (s.readReg p a = none → exec (.registerWrite p a v) s = .next s) ∧
    (∀ d b, blockOf (placeOf a) = some (d, b) → s.rwMask (placeOf a) ≠ 0 → s.ignoresWrite p (placeOf a) = false → s.readReg p a ≠ none →
      ∃ t w, exec (.registerWrite p a v) s = .next t ∧ w = (⟨d, b, if a % 0x1_0000 < 8 ∧ 0x10_0000 ≤ a ∧ a < 0x30_0000 then 0 else (s.die d).updGroup b, a, s.entryOf p (placeOf a),
          v &&& BitVec.ofNat 32 (s.rwMask (placeOf a)), p, decide (w.group = 0) && s.afterEve⟩ : BufWrite) ∧
        (if w.group = 0 then w ∈ t.chg.pending else w ∈ t.chg.waiting) ∧ t.pow.limit = s.pow.limit ∧ t.fab.shares = s.fab.shares ∧ t.alm = s.alm) ∧
    exec (.registerWrite p 0x018 v) s = .next { s with tick := { s.tick with event := s.tick.event &&& ~~~v } } ∧
    (∃ t, exec (.lowWordRead p a) s = .next t ∧ { t with regs := s.regs } = s ∧ t.regs.sel = s.regs.sel ∧ (a = 0 → t.shadow p 4 = s.tick.count.toNat / 2 ^ 32)) ∧
    (s.answers m = true → s.keptFor m = none →
      (m.serial ≠ s.fuses.serial → exec (.mgmtRead m) s = .next (s.respond m 2 0 []) ∧ (ws.length = m.count → exec (.mgmtWrite m ws) s = .next (s.respond m 2 0 []))) ∧
      (m.serial = s.fuses.serial → ∃ (t : State) (words : List W32), exec (.mgmtRead m) s = .next (t.respond m (if words.length = m.count then 0 else 1) words.length words) ∧
        { t with regs := s.regs } = s ∧ words.length ≤ m.count) ∧
      (m.serial = s.fuses.serial → m.count = 1 → ∀ w t, ws = [w] → s.regWrite .mgmt m.addr w = some t → exec (.mgmtWrite m ws) s = .next (t.respond m 0 1 []))) ∧
    (s.answers m = true → ∀ x, s.keptFor m = some x → exec (.mgmtRead m) s = .next { s with fw := { s.fw with out := s.fw.out ++ [.response x.status x.index x.words] } }) ∧
    (a = 0x100_0000 + c.val * 0x1000 + 0x08C → s.readReg p a ≠ none → ∃ t, exec (.configParityCheck p a) s = .next t ∧
      (t.core c).prog1 = 0 ∧ (t.core c).cwin1 = 0 ∧ (t.core c).dwin1 = 0 ∧ (t.core c).seqSafe = true ∧ (t.core c).store = (s.core c).store ∧ t.grp.fault = true ∧
      (t.die (dieOf c)).cfgFault.getLsbD 22 = true ∧ ∀ e, e ≠ c → t.core e = s.core e)

/-- Sensors (R496 to R500, R504, R505): a readmission is asked for and granted after 1,000 samples; after a sample the package goes on, with the trip
output raised if any valid sensor reads 110 °C or more, or it has stopped with a latch set and the trip output raised. -/
def Obligations.Sensors : Prop :=
  ∀ (p : Path) (d : DieId) (i : Fin 36) (rs : List Reading) (s : State), s.power = 0 →
    let x := (s.die d).sensor i.val
    (i.val < sensorCount d.val → x.excluded = true →
      exec (.readmissionRequest p d i) s = .next (s.setDie d ((s.die d).modSensor i.val fun y => { y with readmit := true, agree := 0 }))) ∧
    (x.excluded = true → x.readmit = true → 1000 ≤ x.agree →
      exec (.sensorReadmission d i) s = .next (s.setDie d ((s.die d).modSensor i.val fun y => { y with excluded := false, readmit := false, agree := 0, disagree := 0 }))) ∧
    ∃ t, exec (.sensorSample rs) s = .next t ∧ t.fuses = s.fuses ∧ t.alm = s.alm ∧ t.serve = s.serve ∧
      (∀ c, (t.core c).store = (s.core c).store ∧ (t.core c).arrays = (s.core c).arrays) ∧
      (t.power = 0 ∨ (t.power = 1 ∧ t.pow.trip = true ∧ t.pow.railsUp = false ∧ ∃ e, (t.die e).latch = true)) ∧
      (t.power = 0 → (t.pow.sinceShown = s.pow.sinceShown + 1 ∧ ((∃ v ∈ t.allTemps, 880 ≤ v) → t.pow.trip = true) ∧
        (∀ e, (t.die e).latch = (s.die e).latch)))

/-- Converters and calibration (R506 to R515): requests queue in order, the urgent ones ahead; a conversion takes the first and puts its trimmed code and tag in HSK_RES (channels 6 to 8 of a die without arrays convert ground); an idle
converter compares bandgaps; four failures retire; reference conversions and calibrations stage trims and count; a light check queues a holiday. -/
def Obligations.Converters : Prop :=
  ∀ (p : Path) (d : DieId) (east : Bool) (r : HskReq) (sense : HskSense) (c : CoreId) (arr err rw re : Nat) (block core index : Nat) (trim : Int) (s : State), s.power = 0 →
    let x := s.die d
    let v := x.conv r.east
    let key := calKey d.val block core index
    (r.chan.toNat < 10 → v.retired = false →
      (v.queue.length < 16 → exec (.hskRequest p d r) s = .next (s.setDie d (x.setConv r.east { v with queue := v.queue ++ [r] }))) ∧
      (16 ≤ v.queue.length → exec (.hskRequest p d r) s = .next (s.setDie d { x with hskEvt := x.hskEvt ||| 32#32 })) ∧
      exec (.hskUrgentRequest p d r) s = .next (s.setDie d (x.setConv r.east { v with urgent := v.urgent ++ [r] }))) ∧
    (10 ≤ r.chan.toNat → exec (.hskRequest p d r) s = .next (s.setDie d { x with hskEvt := x.hskEvt ||| 32#32 })) ∧
    (∀ q rest, (x.conv east).urgent ++ (x.conv east).queue = q :: rest →
      let input := if 24 ≤ d.val ∧ 6 ≤ q.chan.toNat ∧ q.chan.toNat ≤ 8 then 0 else sense.input
      0 ≤ input → input ≤ 8190 → ∃ t, exec (.conversionDone d east sense) s = .next t ∧
      (((t.die d).conv east).urgent ++ ((t.die d).conv east).queue = rest) ∧
      ((t.die d).hskRes.toNat % 4096 = (x.conv east).trimmed ((input + 1) / 2).toNat) ∧ ((t.die d).hskRes.toNat / 4096 % 64 = q.tag.toNat) ∧
      (t.die d).hskRes.getLsbD 21 = true ∧ (∀ e, e ≠ d → t.die e = s.die e) ∧ { t with dies := s.dies } = s) ∧
    ((x.conv east).retired = false → (x.conv east).urgent = [] → (x.conv east).queue = [] →
      exec (.idleBandgapConversion d east sense) s = .next (s.setDie d (x.compare east sense.bandgap).2)) ∧
    (4 ≤ x.misses → x.convW.retired = false → x.convE.retired = false → ∃ t, exec (.converterRetire d rw re) s = .next t ∧ { t with dies := s.dies } = s ∧ (t.die d).misses = 0 ∧
      ((t.die d).convW.retired = true ↔ 8 < gapOf rw x.convW.ref ∨ gapOf re x.convE.ref ≤ 8) ∧
      ((t.die d).convE.retired = true ↔ gapOf rw x.convW.ref ≤ 8 ∨ 8 < gapOf re x.convE.ref)) ∧
    ((x.conv east).retired = false → ∃ t, exec (.referenceConversion d east rw re err) s = .next t ∧ ((t.die d).conv east).ref = rw ∧ ((t.die d).conv east).bandgap = err ∧
      (2 ^ 25 + calKey d.val (bit east) 0 0, (re : Int)) ∈ t.pow.trimsNext ∧ ((t.die d).refFault = false → (2 ^ 24 + calKey d.val (bit east) 0 0, (rw : Int)) ∈ t.pow.trimsNext) ∧
      (smGet (fun _ => (0, 0)) t.pow.cals (calKey d.val (bit east) 0 0)).2 = s.tick.count ∧ t.cores = s.cores) ∧
    (s.calBlock d block core index = true → (x.serving false).isSome = true → x.refFault = false → (block ≠ 2 ∨ trim.natAbs ≤ 24) →
      ∃ t, exec (.calibration d block core index trim) s = .next t ∧ t.pow.trimsNext = s.pow.trimsNext ++ [(key, trim)] ∧
        smGet (fun _ => (0, 0)) t.pow.cals key = (min 0xFFFF_FFFF ((smGet (fun _ => (0, 0)) s.pow.cals key).1 + 1), s.tick.count) ∧ { t with pow := s.pow } = s) ∧
    (s.coreActs c = true → arr < 4224 → ∃ t, exec (.lightCheck c arr err) s = .next t ∧ (err ≤ 100 → t.cores = s.cores) ∧
      (100 < err → s.inService c arr = true → t.core c = (s.core c).queueHoliday arr 5 5) ∧ (∀ e, e ≠ c → t.core e = s.core e) ∧
      (smGet (fun _ => (0, 0)) t.pow.cals (calKey (dieOf c).val 6 (c.val % 4) arr)).2 = s.tick.count)

/-- Power (R484, R490, R492, R494, R575): a rail reading is buffered as PWRG_BASE; a regulator's warning and fault set their bits and may begin an emergency; a tripped ceiling
refuses the array issues of the next tick; a lost rail stops the package with cells and NV region as they were. -/
def Obligations.PowerEmergencies : Prop :=
  ∀ (w : Nat) (r : Rail) (s : State), s.power = 0 →
    (s.fw.pwr.runs = true → w ≤ 0xFFF → exec (.railReading w) s = .next (s.bufferWrite .firmware 0x504 (BitVec.ofNat 32 w))) ∧
    exec (.pmbusWarn true) s = .next (({ s with pow := { s.pow with pmbusWarn := true, evt := s.pow.evt ||| 4#32 } } : State).emergUpdate) ∧
    exec (.pmbusWarn false) s = .next (({ s with pow := { s.pow with pmbusWarn := false } } : State).emergUpdate) ∧
    (∃ t, exec .pmbusFault s = .next t ∧ t.pow = { s.pow with evt := s.pow.evt ||| 8#32 } ∧ t.fw.emerg = true ∧ t.fw.clearTicks = 0 ∧ t.fw.emergCause.testBit 3 = true ∧
      { t with pow := s.pow, fw := s.fw, rings := s.rings } = s) ∧
    (s.pow.ceiling ≠ [] → (∀ e ∈ s.pow.ceiling, e.2 = true) →
      exec .ceilingTrip s = .next { s with pow := { s.pow with refuseNext := true, evt := s.pow.evt ||| 2#32 } }) ∧
    (1024 < s.pow.limitTicks → ∃ t, exec .limitHoldEmergency s = .next t ∧ t.fw.emerg = true ∧ t.fw.emergCause.testBit 2 = true ∧ { t with fw := s.fw, rings := s.rings } = s) ∧
    (∃ t, exec (.railShutdown r) s = .next t ∧ t.power = 1 ∧ t.fw.nv = { s.fw.nv with orderly := false } ∧ t.flits = [] ∧ t.serve = s.serve ∧ t.dies = s.dies ∧ t.fuses = s.fuses ∧
      (∀ c, (t.core c).run = false ∧ (t.core c).inflight = [] ∧ (t.core c).arrays = (s.core c).arrays)) ∧
    (∃ t, exec .unplannedPowerLoss s = .next t ∧ t.power = 1 ∧ t.fw.nv = { s.fw.nv with orderly := false } ∧ t.serve = s.serve ∧ (∀ c, (t.core c).arrays = (s.core c).arrays))

/-- Margin, wear, and row writes (R28, R74, R131 to R145, R153 to R158): a scan records its window, and a lower grade waits for the eve; an overdue scan asks for a leap tick; failure counts; a row
write remaps a failing row and is a hit bound on an array in service; wear is written back after 1,024 increments and never falls; the sweep of a core and of a quarter. -/
def Obligations.MarginAndWear : Prop :=
  ∀ (c : CoreId) (p row : Nat) (l : List RowEdges) (bits : List Bool) (fs : List Nat) (q : Fin 4) (scans rescans : List (Nat × List RowEdges)) (faults : List ReadFault) (time : Nat) (s : State),
    let x := (s.core c).arr p
    let g := x.gradeFor (windowM (edgesOf x.scans l))
    let bank := fun (j : Nat) => 4 * (c.val % 4) + j
    let d0 := s.die (dieOf c)
    s.coreActs c = true →
    (p < 4224 →
      (∃ t, exec (.marginScan c p l) s = .next t ∧ ((t.core c).arr p).mLast = windowM (edgesOf x.scans l) ∧ ((t.core c).arr p).lastScan = s.tick.count ∧
        ((t.core c).arr p).scanTime = s.tick.time ∧ ((t.core c).arr p).scans = x.scans + 1 ∧ ((t.core c).arr p).grade = x.grade ∧ ((t.core c).arr p).rows = x.rows ∧
        (g.rank < x.grade.rank → g ≠ .d → ((t.core c).arr p).nextGrade = some g) ∧ (∀ n, n ≠ p → (t.core c).arr n = (s.core c).arr n) ∧ (∀ d, d ≠ c → t.core d = s.core d)) ∧
      (s.scanOverdue c p = true → s.fw.sch.runs = true → ∃ t, exec (.scanLate c p) s = .next t ∧ (t.core c).marginEvt.getLsbD 0 = true ∧ 1 ∈ t.tick.leapReqs ∧
        (∀ d, d ≠ c → t.core d = s.core d)) ∧
      (8 ≤ x.failCnt → s.inService c p = false → 0 < x.scans → (x.gradeFor x.mLast).worse x.grade ≠ x.grade → ∃ t, exec (.failureCountLimit c p) s = .next t ∧
        ((t.core c).arr p).nextGrade = some ((x.gradeFor x.mLast).worse x.grade)) ∧
      (row < 1088 →
        (s.writable c p = false → exec (.rowWrite c p row bits fs) s = .next (s.boundHit 4)) ∧
        (s.writable c p = true → s.critical c = true → exec (.rowWrite c p row bits fs) s = .next (s.modCore c fun k => k.marginEvent 4)) ∧
        (s.writable c p = true → s.critical c = false → s.writeSlot c p = false → exec (.rowWrite c p row bits fs) s = .next s) ∧
        (s.writable c p = true → s.critical c = false → s.writeSlot c p = true → ∃ t, exec (.rowWrite c p row bits fs) s = .next t ∧
          (fs = [] → (t.core c).arr p = x.putRow row (fun j => nth false bits j)) ∧
          (fs ≠ [] → x.staged.rowMap.length < 16 → (∀ j ∈ fs, ((x.colFails ++ fs).filter (· == j)).length < 3) →
            ((t.core c).arr p).rowNext = some (mapPut x.staged.rowMap row (1088 + x.staged.rowMap.length)) ∧ ((t.core c).arr p).rowMap = x.rowMap) ∧
          (∀ n, n ≠ p → (t.core c).arr n = (s.core c).arr n) ∧ t.free = s.free + 1))) ∧
    (s.tick.count.toNat % 65536 = 0 → ∃ t, exec .failureWindowRestart s = .next t ∧ (∀ d n, ((t.core d).arr n).failCnt = 0 ∧ ((t.core d).arr n).rows = ((s.core d).arr n).rows) ∧
      { t with cores := s.cores } = s) ∧
    (x.crit = true → (∃ t ∈ x.exhaust, ∃ u ∈ x.exhaust, t ≠ u ∧ (t - u).toNat ≤ 1024) → exec (.ladderRepeatFault c p) s = .next (s.packageFault 1)) ∧
    (1024 ≤ x.wearSince → ∃ t, exec (.wearWriteback c p) s = .next t ∧
      (t.nvWear c p).toNat = max (s.nvWear c p).toNat x.wear.toNat ∧ (t.core c).arr p = { x with wearSince := x.wearSince - 1024 }) ∧
    (∀ r, (s.core c).sweepDone = false → s.sweepScansOk c none scans = true → ((s.takeBand c).loadWear c (scans.map Prod.fst)).sweepOver c scans rescans faults = some r →
      ((s.takeBand c).critical c = false ∨ r.2 = []) → ∃ t, exec (.newYearSweep c ⟨scans, faults⟩ rescans time) s = .next t ∧ (t.core c).sweepDone = true ∧
        (t.core c).sweepTime = min 0xFFFF time ∧ ((t.core c).sweepSlow = true ↔ 400 < time) ∧ (t.core c).refreshed = min 0x3FFF r.2.length ∧ (t.core c).arrays = (r.1.core c).arrays ∧
        (∀ j, j < 4 → d0.domPower.getLsbD (bank j) = true → (t.die (dieOf c)).domReady.getLsbD (bank j) = true) ∧ (∀ d, d ≠ c → t.core d = s.core d)) ∧
    (∀ r, d0.domPower.getLsbD (bank q.val) = true → d0.domReady.getLsbD (bank q.val) = false → s.sweepScansOk c (some q.val) scans = true →
      s.sweepOver c scans rescans faults = some r → (s.critical c = false ∨ r.2 = []) → ∃ t, exec (.quarterScan c q ⟨scans, faults⟩ rescans) s = .next t ∧
        (t.die (dieOf c)).domReady.getLsbD (bank q.val) = true ∧ (t.core c).arrays = (r.1.core c).arrays ∧
        ((∀ j, j < 4 → j ≠ q.val → d0.domPower.getLsbD (bank j) = true → d0.domReady.getLsbD (bank j) = true) → (t.core c).sweepDone = true))

/-- Holidays (R144, R146 to R151, R515 to R517): a startable holiday reserves its spare, and a test of a free spare is served at once; a copy that reads well and grades at least as high is checked, any
other fails its spare; a served array is scanned and waits for its release; the Critical band suspends writes; another core stays. -/
def Obligations.Holidays : Prop :=
  ∀ (c : CoreId) (e : List RowEdges) (faults : List ReadFault) (s : State), s.coreActs c = true →
    let k := s.core c
    (∀ q, s.tick.phase = .applied → k.holidays.length < 16 → s.nextHoliday c = some q →
      (∀ sp, s.spareTest c q = false → s.freeSpare c (quarterOf q.arr) = some sp → ∃ t, exec (.holidayStart c) s = .next t ∧
        (t.core c).holidays = k.holidays ++ [⟨q.arr, sp, q.prio, q.reason, .reserve⟩] ∧ (t.core c).holidayQueue = k.holidayQueue.erase q ∧
        ((t.core c).arr sp).hstate = .copy ∧ ((t.core c).arr q.arr).hstate = .copy ∧ (t.core c).arrayMap = k.arrayMap ∧ (∀ d, d ≠ c → t.core d = s.core d)) ∧
      (s.spareTest c q = true → ∃ t, exec (.holidayStart c) s = .next t ∧
        (t.core c).holidays = k.holidays ++ [⟨q.arr, q.arr, q.prio, q.reason, .service⟩] ∧ (t.core c).holidayQueue = k.holidayQueue.erase q ∧
        ((t.core c).arr q.arr).hstate = .service ∧ (∀ d, d ≠ c → t.core d = s.core d))) ∧
    (∀ (h : Holiday) (dead : Bool), k.holidays.find? (fun x => x.orig == h.orig && (x.step == .reserve || x.step == .copy)) = some h →
      let o := k.arr h.orig
      let fp4 := s.fp4Of c h.orig
      let noted := s.modCore c fun k => k.noteReads o fp4 h.orig (List.range 1088) faults
      let u := noted.copyInto c o h.spare e
      let y := (u.core c).arr h.spare
      let reads := ∀ r, r < 1088 → o.readable fp4 faults h.orig r = true
      (s.critical c = true → exec (.holidayCopyDone c h.orig ⟨e, faults⟩ dead) s = .next (s.modCore c fun k => k.marginEvent 4)) ∧
      (s.critical c = false → ¬ reads → exec (.holidayCopyDone c h.orig ⟨e, faults⟩ dead) s = .next ((noted.arrayFault c h.orig).abandon c h)) ∧
      (s.critical c = false → reads →
        y.rows = (((k.arr h.spare).copyFrom o).worn 1).rows ∧ y.scans = (k.arr h.spare).scans + 1 ∧ (∀ d, d ≠ c → u.core d = s.core d) ∧
        (dead = false ∧ o.grade.rank ≤ y.recorded.rank →
          exec (.holidayCopyDone c h.orig ⟨e, faults⟩ dead) s = .next (u.modCore c fun k => k.holidayStep h.orig fun x => { x with step := .checked })) ∧
        (dead = true ∨ y.recorded.rank < o.grade.rank → exec (.holidayCopyDone c h.orig ⟨e, faults⟩ dead) s = .next (u.failSpare c h)))) ∧
    (∀ (h : Holiday) (cal : List ConvCal), k.holidays.find? (fun x => x.orig == h.orig && x.step == .service) = some h →
      let o := k.arr h.orig
      let sp := k.arr h.spare
      (h.reason ≠ 5 → h.reason ≠ 6 → s.critical c = true → exec (.holidayServiceDone c h.orig ⟨e, faults⟩ cal) s = .next (s.modCore c fun k => k.marginEvent 4)) ∧
      (h.reason = 5 ∨ h.reason = 6 ∨ s.critical c = false → ∃ t, exec (.holidayServiceDone c h.orig ⟨e, faults⟩ cal) s = .next t ∧
        ((t.core c).arr h.orig).mLast = windowM (edgesOf o.scans e) ∧ ((t.core c).arr h.orig).scans = o.scans + 1 ∧
        (∀ x ∈ (t.core c).holidays, x.orig = h.orig → x.step = .regraded) ∧
        (h.reason = 5 ∨ h.reason = 6 → ((t.core c).arr h.orig).rows = o.rows ∧ t.pow.convNext = s.pow.convNext ++ calTrims c h.orig cal ∧
          (∀ x ∈ cal, ConvCal.bad x = true → x.conv ∈ ((t.core c).arr h.orig).retired)) ∧
        (h.reason ≤ 4 → ((t.core c).arr h.orig).rows = (o.refreshed sp (o.readable (s.fp4Of c h.spare) faults h.orig)).rows ∧
          ((t.core c).arr h.orig).wear = BitVec.ofNat 24 (min 0xFF_FFFF (o.wear.toNat + 1))) ∧
        (∀ d, d ≠ c → t.core d = s.core d)))

/-- Resets and the boot (R24, R30, R37, R154, R411, R468, R551, R573 to R575): power-on and an orderly power-down leave every register at its reset value and RST_N low; the boot samples the
straps and begins the fetch, or ends with a report where the fuse copy has failed; cells, DRAM and the NV region stay through a package reset. -/
def Obligations.Resets : Prop :=
  ∀ (d : DieId) (b : Fin 26) (pos : BitVec 6) (rack : BitVec 10) (s : State),
    (∃ t, exec .powerOnReset s = .next t ∧ t.power = 2 ∧ t.tick = State.reset.tick ∧ t.regs = State.reset.regs ∧ t.chg = State.reset.chg ∧ t.alm = none ∧ t.dies = [] ∧ t.serve = [] ∧
      t.fuses = s.fuses ∧ t.pending = s.pending ∧ t.fw.nv.minSvn = s.fw.nv.minSvn ∧ t.fw.nv.orderly = (s.fw.nv.orderly && s.power != 0)) ∧
    (s.power = 0 → ∃ t, exec .orderlyPowerDown s = .next t ∧ t.power = 2 ∧ t.tick = State.reset.tick ∧ t.regs = State.reset.regs ∧ t.fw.nv.orderly = true ∧ t.fab.launch = false ∧
      t.fuses = s.fuses ∧ t.pending = s.pending ∧ (∀ n, n < 2 → (t.sd n).dram = (s.sd n).dram) ∧ (∀ e, (t.die e).latch = (s.die e).latch)) ∧
    ((s.power ≠ 0 ∨ s.fw.bootStep = 0) → (∀ e, (s.die e).latch = false) → ∀ bad, ∃ t, exec (.boot ⟨pos, rack⟩ bad) s = .next t ∧ t.power = 0 ∧ t.fab.pos = pos ∧ t.fab.rack = rack ∧
      (bad = false → t.fw.bootStep = 2 ∧ t.fw.fetch = some (newFetch 0 none)) ∧
      (bad = true → t.fw.bootStep = 1 ∧ t.fw.fetch = none ∧ (1 ∉ s.fab.optFailed → .fuseFailure ∈ t.fw.out)) ∧
      t.fw.nv = s.fw.nv ∧ t.fw.cfg = s.fw.nv.bootCfg ∧ t.tick = State.reset.tick ∧ t.fuses = { s.fuses with bad := bad } ∧ (∀ n, n < 2 → (t.sd n).dram = (s.sd n).dram)) ∧
    (s.power = 0 → d.val < 24 → (s.die d).domCtrl.getLsbD b.val = true → (s.die d).domPower.getLsbD b.val = false → ∃ t, exec (.domainReady d b) s = .next t ∧
      (∀ j, j < 26 → (t.die d).domPower.getLsbD j = ((s.die d).domPower.getLsbD j || decide (j = b.val))) ∧
      (∀ j, j < 26 → (t.die d).domReady.getLsbD j = ((s.die d).domReady.getLsbD j || (decide (j = b.val) && decide (16 ≤ j)))) ∧ (∀ e, (t.die e).domUse = (s.die e).domUse) ∧
      (∀ e, e ≠ d → t.die e = s.die e) ∧ { t with dies := s.dies } = s)

/-- The fetch of a bundle (R35, R468, R469, R471), through a management port that works: SOLICIT, the first OFFER, the DATA of an outstanding READ, a repeated READ with the eighth failure starting again, and the
time limit of the boot, at which the last-good bundle boots if it passes its checks, and the boot ROM solicits again if there is none that passes. -/
def Obligations.BundleFetch : Prop :=
  ∀ (f : Fetch) (len off : W32) (bs : Bytes) (s : State), s.power = 0 → s.fw.fetch = some f →
    (s.mgmtUp = true → f.soliciting = true → exec .solicit s = .next { s with fw := { s.fw with out := s.fw.out ++ [.solicit f.object] } }) ∧
    (s.mgmtUp = true → f.soliciting = true → f.object < 2 → 0 < len.toNat → len.toNat ≤ 0x40_0000 → ∃ t, exec (.offer (BitVec.ofNat 8 f.object) len) s = .next t ∧
      (∃ g, t.fw.fetch = some g ∧ g.soliciting = false ∧ g.length = len.toNat ∧ g.got = 0 ∧ g.reads.length = min 16 (ceilDiv len.toNat 1024) ∧
        t.fw.out = s.fw.out ++ g.reads.map (fun r => .read f.object r.offset r.len)) ∧ { t with fw := s.fw } = s) ∧
    (∀ r, s.mgmtUp = true → f.reads.find? (fun x => x.offset == off.toNat && x.len == bs.length) = some r → f.got + bs.length ≠ f.length → ∃ t, exec (.data off bs) s = .next t ∧
      (∃ g, t.fw.fetch = some g ∧ g.got = f.got + bs.length ∧ g.data = writeBytes f.data off.toNat bs ∧ ∀ x ∈ g.reads, x ∈ f.reads.erase r ∨ f.nextOff ≤ x.offset) ∧ { t with fw := s.fw } = s) ∧
    (∀ r, f.reads.find? (fun x => x.offset == off.toNat) = some r →
      (r.fails < 7 → ∃ t g, exec (.readRetry off) s = .next t ∧ t.fw.fetch = some g ∧ g.got = f.got ∧ g.reads.length = f.reads.length ∧
        (s.mgmtUp = true → t.fw.out = s.fw.out ++ [.read f.object r.offset r.len]) ∧ { t with fw := s.fw } = s) ∧
      (7 ≤ r.fails → exec (.readRetry off) s = .next { s with fw := { s.fw with fetch := some (newFetch f.object f.cmd) } })) ∧
    (f.cmd = none → ∃ t, exec .fetchTimeout s = .next t ∧
      (∀ b : Bundle, s.fw.nv.lastGood = some b → bundleStatus s.fw.nv.minSvn b.raw = 0 → t.fw.active = some b ∧ t.fw.fallback = true ∧
        t.fw.version = b.version ∧ t.fw.bootStep = 5 ∧ t.fw.fetch = none ∧ t.pow.vcore = s.fuses.vcore) ∧
      ((∀ b : Bundle, s.fw.nv.lastGood = some b → bundleStatus s.fw.nv.minSvn b.raw ≠ 0) →
        t = { s with fw := { s.fw with bootStep := max s.fw.bootStep 3, fetch := some (newFetch 0 none) } }))

/-- Firmware processors (R474, R479, R480, R485): the watchdog of a running processor takes it down and counts; a processor that is down starts again; the control core of a core that is not there does nothing; three restarts within 1 s bring the
standby, and three of the standby a package fault; a bundle that ran 1,024 ticks is the last good one. -/
def Obligations.Processors : Prop :=
  ∀ (p : Proc) (x : RestartCause) (east : Bool) (s : State), s.power = 0 →
    let k := s.proc p
    (s.absent p = true → exec (.watchdog p) s = .next s ∧ exec (.fwRestart p x) s = .next s ∧ exec (.takeover p) s = .next s) ∧
    (s.absent p = false → k.runs = true → ∃ t, exec (.watchdog p) s = .next t ∧ (t.proc p).state = 1 ∧ (t.proc p).onC1 = k.onC1 ∧ (t.proc p).recent = (s.tick.time :: k.recent).take 3 ∧
      t.rings.fwEvt.getLsbD 1 = true ∧ t.fw.goodTicks = 0 ∧ t.cores = s.cores ∧ t.tick = s.tick) ∧
    (s.absent p = false → k.state = 1 → (∀ c, p ≠ .control c) → exec (.fwRestart p x) s = .next (s.setProc p { k with state := if k.onC1 then 2 else 0 })) ∧
    (s.absent p = false → k.state = 1 → ∀ c, p = .control c → (s.core c).holidays = [] → exec (.fwRestart p x) s = .next (s.setProc p { k with state := if k.onC1 then 2 else 0 })) ∧
    (s.absent p = false → k.state ≠ 3 → k.failing s.tick.time = true → (∀ c, p ≠ .control c) →
      (k.onC1 = false → ∃ t, exec (.takeover p) s = .next t ∧ t.proc p = ⟨2, true, []⟩ ∧ t.rings.fwEvt.getLsbD 2 = true ∧ t.cores = s.cores) ∧
      (k.onC1 = true → exec (.takeover p) s = .next ((s.setProc p { k with state := 3 }).packageFault 3))) ∧
    (s.absent p = false → k.state ≠ 3 → k.failing s.tick.time = true → ∀ c, p = .control c → exec (.takeover p) s = .next ((s.setProc p { k with state := 3 }).packageFault 3)) ∧
    (∀ b, s.fw.active = some b → s.fw.saved = false → 1024 ≤ s.fw.goodTicks → s.fw.sec.runs = true → ∃ t, exec .lastGoodBundle s = .next t ∧ t.fw.nv.lastGood = some b ∧ t.fw.saved = true ∧
      (t.fw.nv.minSvn.toNat = if b.raise = true then max s.fw.nv.minSvn.toNat b.svn.toNat else s.fw.nv.minSvn.toNat) ∧ { t with fw := s.fw } = s) ∧
    exec (.commandDieFail east) s = .next (s.packageFault 5)

/-- Decode of encode (R229 to R231, R246): every Aithal instruction whose tile is one the manual allows has a word, and that word decodes to it, with every operand at every
value that its field holds. The row-read faults that the surroundings bring to an `mvm` are no part of its word (`asWord`). -/
def Obligations.EncodingRoundTrip : Prop :=
  ∀ (i : Instr) (c : CoreId), coreOf i = some c → wellFormed i = true → ∃ w, encode i = some w ∧ decodeAithal c w = some (asWord i)

/-- Words written out from R229 to R231: the two worked encodings of the manual, one word of each other format, and words that are illegal. -/
def Obligations.ManualWords : Prop :=
  ∀ c : CoreId, let g : Guard := ⟨0, false⟩
    decodeAithal c 0x4002_1400_0C28_0D0F#64 = some (.mvm c g ⟨2, 1, ⟨1024, 3, 1, 0, 15⟩, .standard, .int4, .auto, 6, true⟩ []) ∧
    decodeAithal c 0x900B_0002_8000_0000#64 = some (.send c g 11 40 0) ∧
    decodeAithal c (0x10#8 ++ 0b011#3 ++ 1#1 ++ 5#5 ++ 6#5 ++ 7#5 ++ 0#5 ++ 0xFFFF_FFFF#32) = some (.add c ⟨3, true⟩ 5 6 7 0xFFFF_FFFF) ∧
    decodeAithal c (0x60#8 ++ 0#3 ++ 0#1 ++ 1#4 ++ 2#4 ++ 3#4 ++ 0#5 ++ 0#3 ++ 0#32) = some (.vadd c g 1 2 3) ∧
    decodeAithal c (0x01#8 ++ 0#3 ++ 0#1 ++ 9#5 ++ 2#4 ++ 0#11 ++ 0xFFFF_FFFE#32) = some (.br c g 9 .nz 0xFFFF_FFFE) ∧
    decodeAithal c 0#64 = none ∧ decodeAithal c (BitVec.allOnes 64) = none ∧
    decodeAithal c (0x40#8 ++ 0#12 ++ 4095#12 ++ 1#6 ++ 0#26) = none ∧ decodeAithal c (0x10#8 ++ 0#19 ++ 1#5 ++ 0#32) = none

/-- The fuse table (R37): no command and no step changes it; a boot alone records whether its copy has an uncorrectable error. -/
def Obligations.FuseTable : Prop :=
  (∀ (i : Instr) (s t : State), exec i s = .next t → { t.fuses with bad := s.fuses.bad } = s.fuses ∧ ((∀ p b, i ≠ .boot p b) → t.fuses = s.fuses)) ∧
  (∀ s t : State, step s = .next t → { t.fuses with bad := s.fuses.bad } = s.fuses)

/-- Every step keeps the canonical form of the addressed memories: the core stores, the serving dies' DRAM, the carve-outs. -/
def Obligations.CanonicalMemories : Prop :=
  ∀ s t : State, s.canonical → step s = .next t → t.canonical

/-- The state at reset: its memories are in canonical form, no command waits, and registers hold the values that the manual gives (R155, R160, R163, R165, R183, R208, R304,
R305, R334, R496, R519, R520). That memory reads 0 is the model's choice (log 6). -/
def Obligations.ResetState : Prop :=
  let s := State.reset
  s.canonical ∧ s.pending = [] ∧ s.power = 0 ∧ s.tick.count = 0 ∧ s.tick.seq = 0 ∧ s.tick.phase = .applied ∧ s.tick.stretch = 0 ∧
  s.alm = none ∧ s.genActive = 0 ∧ s.loadPhase = 0 ∧ s.flits = [] ∧ s.srv.reqs = [] ∧ s.chg.hold = false ∧
  (∀ c : CoreId, (s.core c).run = false ∧ (s.core c).preg 0 = true ∧ (s.core c).sreg 0 = 0 ∧ (s.core c).status = 0 ∧ (s.core c).scanCtrl = 44 ∧
    (s.core c).eventStat = 0 ∧ (s.core c).exc0 = 0 ∧ ∀ a, memGet (s.core c).store a = 0) ∧
  (∀ n, (s.sd n).budget = 3867 ∧ (s.sd n).jobs = []) ∧ (∀ d k, nth 0 (s.die d).portState k = 0) ∧ (∀ d, (s.die d).domCtrl = 0 ∧ (s.die d).latch = false) ∧
  s.pow.limit = 2000 ∧ s.pow.throttle = 95 ∧ s.pow.slope = 2 ∧ (∀ p c, smGet shareDefault s.fab.shares (64 * p + c) = if c % 64 = 0 then 64 else 0) ∧
  ∀ n, (s.ring n).enabled = false
end

