-- ==== Sys2Proof/Laws/Ops.lean ====
section
/-! SUPPORT. Laws of sparse tables, memories and registers: reading after writing, and the canonical form. -/
namespace Sys2Proof.Machine

/-! ### Sparse tables -/

theorem smGet_smDel_same {α : Type} (d : Nat → α) (m : SMap α) (k : Nat) : smGet d (smDel m k) k = d k := by
  induction m with
  | nil => rfl
  | cons p t ih =>
    obtain ⟨j, w⟩ := p
    by_cases h : j = k
    · subst h; simp only [smDel] at ih ⊢; simpa using ih
    · have : (smDel ((j, w) :: t) k) = (j, w) :: smDel t k := by simp [smDel, h]
      rw [this, smGet, if_neg (fun e => h e.symm)]
      exact ih

theorem smGet_smDel_other {α : Type} (d : Nat → α) (m : SMap α) (k q : Nat) (hq : q ≠ k) : smGet d (smDel m k) q = smGet d m q := by
  induction m with
  | nil => rfl
  | cons p t ih =>
    obtain ⟨j, w⟩ := p
    by_cases h : j = k
    · subst h
      have : (smDel ((j, w) :: t) j) = smDel t j := by simp [smDel]
      rw [this, ih, smGet, if_neg hq]
    · have : (smDel ((j, w) :: t) k) = (j, w) :: smDel t k := by simp [smDel, h]
      rw [this, smGet, smGet, ih]

theorem smGet_smIns_other {α : Type} (d : Nat → α) (m : SMap α) (k q : Nat) (v : α) (hq : q ≠ k) :
    smGet d (smIns m k v) q = smGet d m q := by
  induction m with
  | nil => simp [smIns, smGet, hq]
  | cons p t ih =>
    obtain ⟨j, w⟩ := p
    simp only [smIns]
    split
    · simp [smGet, hq]
    · simp only [smGet, ih]

theorem smGet_smIns_same {α : Type} (d : Nat → α) (m : SMap α) (k : Nat) (v : α) (h : ∀ p ∈ m, p.1 ≠ k) :
    smGet d (smIns m k v) k = v := by
  induction m with
  | nil => simp [smIns, smGet]
  | cons p t ih =>
    obtain ⟨j, w⟩ := p
    have hj : j ≠ k := h (j, w) List.mem_cons_self
    simp only [smIns]
    split
    · simp [smGet]
    · simp only [smGet]
      rw [if_neg (fun e => hj e.symm)]
      exact ih fun p hp => h p (List.mem_cons_of_mem _ hp)

theorem smDel_ne {α : Type} (m : SMap α) (k : Nat) : ∀ p ∈ smDel m k, p.1 ≠ k := by
  intro p hp
  have := (List.mem_filter.mp hp).2
  simpa using this

/-- What was written reads back, in any table. -/
@[simp] theorem smGet_smSet_same {α : Type} [DecidableEq α] (d : Nat → α) (m : SMap α) (k : Nat) (v : α) :
    smGet d (smSet d m k v) k = v := by
  unfold smSet
  split
  · rename_i h; rw [h, smGet_smDel_same]
  · exact smGet_smIns_same d _ k v (smDel_ne m k)

/-- Every other entry reads as before, in any table. -/
theorem smGet_smSet_other {α : Type} [DecidableEq α] (d : Nat → α) (m : SMap α) (k q : Nat) (v : α) (hq : q ≠ k) :
    smGet d (smSet d m k v) q = smGet d m q := by
  unfold smSet
  split
  · exact smGet_smDel_other d m k q hq
  · rw [smGet_smIns_other d _ k q v hq, smGet_smDel_other d m k q hq]

theorem smGet_smSet {α : Type} [DecidableEq α] (d : Nat → α) (m : SMap α) (k q : Nat) (v : α) :
    smGet d (smSet d m k v) q = if q = k then v else smGet d m q := by
  split
  · rename_i h; rw [h, smGet_smSet_same]
  · rename_i h; exact smGet_smSet_other d m k q v h

theorem smDel_wf {α : Type} [DecidableEq α] (d : Nat → α) (m : SMap α) (k : Nat) (h : smWf d m = true) : smWf d (smDel m k) = true := by
  induction m with
  | nil => rfl
  | cons p t ih =>
    obtain ⟨j, w⟩ := p
    simp only [smWf, Bool.and_eq_true, decide_eq_true_eq, List.all_eq_true] at h
    by_cases hj : j = k
    · subst hj
      have : (smDel ((j, w) :: t) j) = smDel t j := by simp [smDel]
      rw [this]; exact ih h.2
    · have e : (smDel ((j, w) :: t) k) = (j, w) :: smDel t k := by simp [smDel, hj]
      rw [e]
      simp only [smWf, Bool.and_eq_true, decide_eq_true_eq, List.all_eq_true]
      exact ⟨⟨h.1.1, fun p hp => h.1.2 p (List.mem_filter.mp hp).1⟩, ih h.2⟩

theorem smIns_bound {α : Type} (m : SMap α) (k b : Nat) (v : α) (hm : ∀ p ∈ m, b < p.1) (hk : b < k) : ∀ p ∈ smIns m k v, b < p.1 := by
  induction m with
  | nil => intro p hp; simp only [smIns, List.mem_singleton] at hp; rw [hp]; exact hk
  | cons r t ih =>
    obtain ⟨j, w⟩ := r
    intro p hp
    simp only [smIns] at hp
    split at hp
    · rcases List.mem_cons.mp hp with rfl | hp
      · exact hk
      · exact hm p hp
    · rcases List.mem_cons.mp hp with rfl | hp
      · exact hm _ List.mem_cons_self
      · exact ih (fun p hp => hm p (List.mem_cons_of_mem _ hp)) p hp

theorem smIns_wf {α : Type} [DecidableEq α] (d : Nat → α) (m : SMap α) (k : Nat) (v : α) (h : smWf d m = true)
    (hk : ∀ p ∈ m, p.1 ≠ k) (hv : v ≠ d k) : smWf d (smIns m k v) = true := by
  induction m with
  | nil => simp [smIns, smWf, hv]
  | cons p t ih =>
    obtain ⟨j, w⟩ := p
    have hj : j ≠ k := hk (j, w) List.mem_cons_self
    have h0 := h
    simp only [smWf, Bool.and_eq_true, decide_eq_true_eq, List.all_eq_true] at h
    simp only [smIns]
    split
    · rename_i hlt
      unfold smWf
      simp only [Bool.and_eq_true, decide_eq_true_eq, List.all_eq_true]
      refine ⟨⟨hv, ?_⟩, h0⟩
      intro p hp
      rcases List.mem_cons.mp hp with rfl | hp
      · exact hlt
      · exact lt_trans hlt (h.1.2 p hp)
    · unfold smWf
      simp only [Bool.and_eq_true, decide_eq_true_eq, List.all_eq_true]
      exact ⟨⟨h.1.1, smIns_bound t k j v h.1.2 (by omega)⟩, ih h.2 fun p hp => hk p (List.mem_cons_of_mem _ hp)⟩

/-- A write keeps the canonical form. -/
theorem smSet_wf {α : Type} [DecidableEq α] (d : Nat → α) (m : SMap α) (k : Nat) (v : α) (h : smWf d m = true) :
    smWf d (smSet d m k v) = true := by
  unfold smSet
  split
  · exact smDel_wf d m k h
  · rename_i hv; exact smIns_wf d _ k v (smDel_wf d m k h) (smDel_ne m k) hv

/-! ### Memories -/

@[simp] theorem memGet_memSet_same (m : List Host.Cell) (a : Nat) (b : Byte) : memGet (memSet m a b) a = b :=
  smGet_smSet_same blank m a b

theorem memGet_memSet_other (m : List Host.Cell) (a x : Nat) (b : Byte) (hx : x ≠ a) :
    memGet (memSet m a b) x = memGet m x :=
  smGet_smSet_other blank m a x b hx

theorem memSet_wf (m : List Host.Cell) (a : Nat) (b : Byte) (h : Memory.wf m = true) : Memory.wf (memSet m a b) = true :=
  smSet_wf blank m a b h

/-- Writing bytes keeps the canonical form. -/
theorem writeBytes_wf (bs : Bytes) : ∀ (m : List Host.Cell) (a : Nat), Memory.wf m = true → Memory.wf (writeBytes m a bs) = true := by
  induction bs with
  | nil => intro m a h; exact h
  | cons b bs ih => intro m a h; exact ih _ _ (memSet_wf m a b h)

/-- A byte outside the written range reads as before. -/
theorem memGet_writeBytes_out (bs : Bytes) : ∀ (m : List Host.Cell) (a x : Nat), (x < a ∨ a + bs.length ≤ x) →
    memGet (writeBytes m a bs) x = memGet m x := by
  induction bs with
  | nil => intro m a x _; rfl
  | cons b bs ih =>
    intro m a x hx
    simp only [List.length_cons] at hx
    rw [writeBytes, ih _ _ _ (by omega), memGet_memSet_other m a x b (by omega)]

/-- A written byte reads back. -/
theorem memGet_writeBytes_in (bs : Bytes) : ∀ (m : List Host.Cell) (a i : Nat) (hi : i < bs.length),
    memGet (writeBytes m a bs) (a + i) = bs[i] := by
  induction bs with
  | nil => intro m a i hi; simp at hi
  | cons b bs ih =>
    intro m a i hi
    cases i with
    | zero =>
      rw [writeBytes, memGet_writeBytes_out bs _ _ _ (by omega)]
      simp
    | succ j =>
      have := ih (memSet m a b) (a + 1) j (by simpa using hi)
      rw [writeBytes, show a + (j + 1) = a + 1 + j by omega, this]
      rfl

@[simp] theorem readBytes_length (m : List Host.Cell) (a n : Nat) : (readBytes m a n).length = n := by simp [readBytes]

/-- Bytes written and read back at once. -/
theorem readBytes_writeBytes (m : List Host.Cell) (a : Nat) (bs : Bytes) :
    readBytes (writeBytes m a bs) a bs.length = bs := by
  apply List.ext_getElem
  · simp
  · intro i h1 h2
    simp only [readBytes, List.getElem_map, List.getElem_range]
    exact memGet_writeBytes_in bs m a i h2

/-! ### Registers of a core -/

@[simp] theorem Core.sreg_setS_same (k : Core) (r : SReg) (v : W64) :
    (k.setS r v).sreg r = if r.val = 0 then 0 else v := by
  by_cases hr : r.val = 0
  · simp [Core.sreg, hr]
  · simp only [Core.setS, Core.sreg, hr, if_false]
    exact smGet_smSet_same _ _ _ _

theorem Core.sreg_setS_other (k : Core) (r q : SReg) (v : W64) (hq : q ≠ r) :
    (k.setS r v).sreg q = k.sreg q := by
  by_cases hr : r.val = 0
  · simp [Core.setS, hr]
  · simp only [Core.setS, Core.sreg, hr, if_false]
    split
    · rfl
    · exact smGet_smSet_other _ _ _ _ _ (fun e => hq (Fin.ext e))

@[simp] theorem Core.treg_setT_same (k : Core) (r : TReg) (v : BitVec 128) :
    (k.setT r v).treg r = v :=
  smGet_smSet_same _ _ _ _

theorem Core.treg_setT_other (k : Core) (r q : TReg) (v : BitVec 128) (hq : q ≠ r) :
    (k.setT r v).treg q = k.treg q :=
  smGet_smSet_other _ _ _ _ _ (fun e => hq (Fin.ext e))

@[simp] theorem Core.preg_setP_same (k : Core) (r : PReg) (b : Bool) : (k.setP r b).preg r = if r.val = 0 then true else b := by
  by_cases hr : r.val = 0
  · simp [Core.preg, hr]
  · have h8 := r.isLt
    cases b <;> simp [Core.setP, Core.preg, hr, h8]

theorem Core.preg_setP_other (k : Core) (r q : PReg) (b : Bool) (hq : q ≠ r) : (k.setP r b).preg q = k.preg q := by
  have hv : q.val ≠ r.val := fun e => hq (Fin.ext e)
  have h8 := q.isLt
  by_cases hr : r.val = 0
  · simp [Core.setP, hr]
  · by_cases hz : q.val = 0
    · simp [Core.preg, hz]
    · cases b <;> simp [Core.setP, Core.preg, hr, hz, h8] <;> simp only [Fin.lt_def, Fin.le_def] <;> intros <;> omega

/-! ### Cores and dies of the state -/

@[simp] theorem State.core_setCore_same (s : State) (c : CoreId) (k : Core) : (s.setCore c k).core c = k :=
  smGet_smSet_same _ _ _ _

theorem State.core_setCore_other (s : State) (c x : CoreId) (k : Core) (hx : x ≠ c) :
    (s.setCore c k).core x = s.core x :=
  smGet_smSet_other _ _ _ _ _ (fun e => hx (Fin.ext e))

@[simp] theorem State.die_setDie_same (s : State) (d : DieId) (k : Die) : (s.setDie d k).die d = k :=
  smGet_smSet_same _ _ _ _

theorem State.die_setDie_other (s : State) (d x : DieId) (k : Die) (hx : x ≠ d) :
    (s.setDie d k).die x = s.die x :=
  smGet_smSet_other _ _ _ _ _ (fun e => hx (Fin.ext e))

end Sys2Proof.Machine
end

