-- ==== Sys2Proof/Laws/State.lean ====
section
/-! SUPPORT. One lemma for each field under each named update of the state and of a core: no later proof unfolds a record update. -/
namespace Sys2Proof.Machine

/-! ### `State.setCore` -/

@[simp] theorem State.setCore_pending (s : State) (c : CoreId) (k : Core) : (s.setCore c k).pending = s.pending := rfl
@[simp] theorem State.setCore_fab (s : State) (c : CoreId) (k : Core) : (s.setCore c k).fab = s.fab := rfl
@[simp] theorem State.setCore_grp (s : State) (c : CoreId) (k : Core) : (s.setCore c k).grp = s.grp := rfl
@[simp] theorem State.setCore_free (s : State) (c : CoreId) (k : Core) : (s.setCore c k).free = s.free := rfl
@[simp] theorem State.setCore_fuses (s : State) (c : CoreId) (k : Core) : (s.setCore c k).fuses = s.fuses := rfl
@[simp] theorem State.setCore_dies (s : State) (c : CoreId) (k : Core) : (s.setCore c k).dies = s.dies := rfl
@[simp] theorem State.setCore_tick (s : State) (c : CoreId) (k : Core) : (s.setCore c k).tick = s.tick := rfl
@[simp] theorem State.setCore_alm (s : State) (c : CoreId) (k : Core) : (s.setCore c k).alm = s.alm := rfl
@[simp] theorem State.setCore_member (s : State) (c : CoreId) (k : Core) : (s.setCore c k).member = s.member := rfl
@[simp] theorem State.setCore_flits (s : State) (c : CoreId) (k : Core) : (s.setCore c k).flits = s.flits := rfl
@[simp] theorem State.setCore_nextFlit (s : State) (c : CoreId) (k : Core) : (s.setCore c k).nextFlit = s.nextFlit := rfl
@[simp] theorem State.setCore_reducers (s : State) (c : CoreId) (k : Core) : (s.setCore c k).reducers = s.reducers := rfl
@[simp] theorem State.setCore_inbox (s : State) (c : CoreId) (k : Core) : (s.setCore c k).inbox = s.inbox := rfl
@[simp] theorem State.setCore_wire (s : State) (c : CoreId) (k : Core) : (s.setCore c k).wire = s.wire := rfl
@[simp] theorem State.setCore_outbound (s : State) (c : CoreId) (k : Core) : (s.setCore c k).outbound = s.outbound := rfl
@[simp] theorem State.setCore_nextReq (s : State) (c : CoreId) (k : Core) : (s.setCore c k).nextReq = s.nextReq := rfl
@[simp] theorem State.setCore_serve (s : State) (c : CoreId) (k : Core) : (s.setCore c k).serve = s.serve := rfl
@[simp] theorem State.setCore_srv (s : State) (c : CoreId) (k : Core) : (s.setCore c k).srv = s.srv := rfl
@[simp] theorem State.setCore_rings (s : State) (c : CoreId) (k : Core) : (s.setCore c k).rings = s.rings := rfl
@[simp] theorem State.setCore_fw (s : State) (c : CoreId) (k : Core) : (s.setCore c k).fw = s.fw := rfl
@[simp] theorem State.setCore_loadPhase (s : State) (c : CoreId) (k : Core) : (s.setCore c k).loadPhase = s.loadPhase := rfl
@[simp] theorem State.setCore_aux (s : State) (c : CoreId) (k : Core) : (s.setCore c k).aux = s.aux := rfl
@[simp] theorem State.setCore_genActive (s : State) (c : CoreId) (k : Core) : (s.setCore c k).genActive = s.genActive := rfl
@[simp] theorem State.setCore_genStaged (s : State) (c : CoreId) (k : Core) : (s.setCore c k).genStaged = s.genStaged := rfl
@[simp] theorem State.setCore_chg (s : State) (c : CoreId) (k : Core) : (s.setCore c k).chg = s.chg := rfl
@[simp] theorem State.setCore_regs (s : State) (c : CoreId) (k : Core) : (s.setCore c k).regs = s.regs := rfl
@[simp] theorem State.setCore_pow (s : State) (c : CoreId) (k : Core) : (s.setCore c k).pow = s.pow := rfl
@[simp] theorem State.setCore_load (s : State) (c : CoreId) (k : Core) : (s.setCore c k).load = s.load := rfl
@[simp] theorem State.setCore_power (s : State) (c : CoreId) (k : Core) : (s.setCore c k).power = s.power := rfl

/-! ### `State.modCore` -/

@[simp] theorem State.modCore_pending (s : State) (c : CoreId) (f : Core → Core) : (s.modCore c f).pending = s.pending := rfl
@[simp] theorem State.modCore_fab (s : State) (c : CoreId) (f : Core → Core) : (s.modCore c f).fab = s.fab := rfl
@[simp] theorem State.modCore_grp (s : State) (c : CoreId) (f : Core → Core) : (s.modCore c f).grp = s.grp := rfl
@[simp] theorem State.modCore_free (s : State) (c : CoreId) (f : Core → Core) : (s.modCore c f).free = s.free := rfl
@[simp] theorem State.modCore_fuses (s : State) (c : CoreId) (f : Core → Core) : (s.modCore c f).fuses = s.fuses := rfl
@[simp] theorem State.modCore_dies (s : State) (c : CoreId) (f : Core → Core) : (s.modCore c f).dies = s.dies := rfl
@[simp] theorem State.modCore_tick (s : State) (c : CoreId) (f : Core → Core) : (s.modCore c f).tick = s.tick := rfl
@[simp] theorem State.modCore_alm (s : State) (c : CoreId) (f : Core → Core) : (s.modCore c f).alm = s.alm := rfl
@[simp] theorem State.modCore_member (s : State) (c : CoreId) (f : Core → Core) : (s.modCore c f).member = s.member := rfl
@[simp] theorem State.modCore_flits (s : State) (c : CoreId) (f : Core → Core) : (s.modCore c f).flits = s.flits := rfl
@[simp] theorem State.modCore_nextFlit (s : State) (c : CoreId) (f : Core → Core) : (s.modCore c f).nextFlit = s.nextFlit := rfl
@[simp] theorem State.modCore_reducers (s : State) (c : CoreId) (f : Core → Core) : (s.modCore c f).reducers = s.reducers := rfl
@[simp] theorem State.modCore_inbox (s : State) (c : CoreId) (f : Core → Core) : (s.modCore c f).inbox = s.inbox := rfl
@[simp] theorem State.modCore_wire (s : State) (c : CoreId) (f : Core → Core) : (s.modCore c f).wire = s.wire := rfl
@[simp] theorem State.modCore_outbound (s : State) (c : CoreId) (f : Core → Core) : (s.modCore c f).outbound = s.outbound := rfl
@[simp] theorem State.modCore_nextReq (s : State) (c : CoreId) (f : Core → Core) : (s.modCore c f).nextReq = s.nextReq := rfl
@[simp] theorem State.modCore_serve (s : State) (c : CoreId) (f : Core → Core) : (s.modCore c f).serve = s.serve := rfl
@[simp] theorem State.modCore_srv (s : State) (c : CoreId) (f : Core → Core) : (s.modCore c f).srv = s.srv := rfl
@[simp] theorem State.modCore_rings (s : State) (c : CoreId) (f : Core → Core) : (s.modCore c f).rings = s.rings := rfl
@[simp] theorem State.modCore_fw (s : State) (c : CoreId) (f : Core → Core) : (s.modCore c f).fw = s.fw := rfl
@[simp] theorem State.modCore_loadPhase (s : State) (c : CoreId) (f : Core → Core) : (s.modCore c f).loadPhase = s.loadPhase := rfl
@[simp] theorem State.modCore_aux (s : State) (c : CoreId) (f : Core → Core) : (s.modCore c f).aux = s.aux := rfl
@[simp] theorem State.modCore_genActive (s : State) (c : CoreId) (f : Core → Core) : (s.modCore c f).genActive = s.genActive := rfl
@[simp] theorem State.modCore_genStaged (s : State) (c : CoreId) (f : Core → Core) : (s.modCore c f).genStaged = s.genStaged := rfl
@[simp] theorem State.modCore_chg (s : State) (c : CoreId) (f : Core → Core) : (s.modCore c f).chg = s.chg := rfl
@[simp] theorem State.modCore_regs (s : State) (c : CoreId) (f : Core → Core) : (s.modCore c f).regs = s.regs := rfl
@[simp] theorem State.modCore_pow (s : State) (c : CoreId) (f : Core → Core) : (s.modCore c f).pow = s.pow := rfl
@[simp] theorem State.modCore_load (s : State) (c : CoreId) (f : Core → Core) : (s.modCore c f).load = s.load := rfl
@[simp] theorem State.modCore_power (s : State) (c : CoreId) (f : Core → Core) : (s.modCore c f).power = s.power := rfl

/-! ### `State.setDie` -/

@[simp] theorem State.setDie_pending (s : State) (d : DieId) (x : Die) : (s.setDie d x).pending = s.pending := rfl
@[simp] theorem State.setDie_fab (s : State) (d : DieId) (x : Die) : (s.setDie d x).fab = s.fab := rfl
@[simp] theorem State.setDie_grp (s : State) (d : DieId) (x : Die) : (s.setDie d x).grp = s.grp := rfl
@[simp] theorem State.setDie_free (s : State) (d : DieId) (x : Die) : (s.setDie d x).free = s.free := rfl
@[simp] theorem State.setDie_fuses (s : State) (d : DieId) (x : Die) : (s.setDie d x).fuses = s.fuses := rfl
@[simp] theorem State.setDie_cores (s : State) (d : DieId) (x : Die) : (s.setDie d x).cores = s.cores := rfl
@[simp] theorem State.setDie_tick (s : State) (d : DieId) (x : Die) : (s.setDie d x).tick = s.tick := rfl
@[simp] theorem State.setDie_alm (s : State) (d : DieId) (x : Die) : (s.setDie d x).alm = s.alm := rfl
@[simp] theorem State.setDie_member (s : State) (d : DieId) (x : Die) : (s.setDie d x).member = s.member := rfl
@[simp] theorem State.setDie_flits (s : State) (d : DieId) (x : Die) : (s.setDie d x).flits = s.flits := rfl
@[simp] theorem State.setDie_nextFlit (s : State) (d : DieId) (x : Die) : (s.setDie d x).nextFlit = s.nextFlit := rfl
@[simp] theorem State.setDie_reducers (s : State) (d : DieId) (x : Die) : (s.setDie d x).reducers = s.reducers := rfl
@[simp] theorem State.setDie_inbox (s : State) (d : DieId) (x : Die) : (s.setDie d x).inbox = s.inbox := rfl
@[simp] theorem State.setDie_wire (s : State) (d : DieId) (x : Die) : (s.setDie d x).wire = s.wire := rfl
@[simp] theorem State.setDie_outbound (s : State) (d : DieId) (x : Die) : (s.setDie d x).outbound = s.outbound := rfl
@[simp] theorem State.setDie_nextReq (s : State) (d : DieId) (x : Die) : (s.setDie d x).nextReq = s.nextReq := rfl
@[simp] theorem State.setDie_serve (s : State) (d : DieId) (x : Die) : (s.setDie d x).serve = s.serve := rfl
@[simp] theorem State.setDie_srv (s : State) (d : DieId) (x : Die) : (s.setDie d x).srv = s.srv := rfl
@[simp] theorem State.setDie_rings (s : State) (d : DieId) (x : Die) : (s.setDie d x).rings = s.rings := rfl
@[simp] theorem State.setDie_fw (s : State) (d : DieId) (x : Die) : (s.setDie d x).fw = s.fw := rfl
@[simp] theorem State.setDie_loadPhase (s : State) (d : DieId) (x : Die) : (s.setDie d x).loadPhase = s.loadPhase := rfl
@[simp] theorem State.setDie_aux (s : State) (d : DieId) (x : Die) : (s.setDie d x).aux = s.aux := rfl
@[simp] theorem State.setDie_genActive (s : State) (d : DieId) (x : Die) : (s.setDie d x).genActive = s.genActive := rfl
@[simp] theorem State.setDie_genStaged (s : State) (d : DieId) (x : Die) : (s.setDie d x).genStaged = s.genStaged := rfl
@[simp] theorem State.setDie_chg (s : State) (d : DieId) (x : Die) : (s.setDie d x).chg = s.chg := rfl
@[simp] theorem State.setDie_regs (s : State) (d : DieId) (x : Die) : (s.setDie d x).regs = s.regs := rfl
@[simp] theorem State.setDie_pow (s : State) (d : DieId) (x : Die) : (s.setDie d x).pow = s.pow := rfl
@[simp] theorem State.setDie_load (s : State) (d : DieId) (x : Die) : (s.setDie d x).load = s.load := rfl
@[simp] theorem State.setDie_power (s : State) (d : DieId) (x : Die) : (s.setDie d x).power = s.power := rfl

/-! ### `State.modDie` -/

@[simp] theorem State.modDie_pending (s : State) (d : DieId) (f : Die → Die) : (s.modDie d f).pending = s.pending := rfl
@[simp] theorem State.modDie_fab (s : State) (d : DieId) (f : Die → Die) : (s.modDie d f).fab = s.fab := rfl
@[simp] theorem State.modDie_grp (s : State) (d : DieId) (f : Die → Die) : (s.modDie d f).grp = s.grp := rfl
@[simp] theorem State.modDie_free (s : State) (d : DieId) (f : Die → Die) : (s.modDie d f).free = s.free := rfl
@[simp] theorem State.modDie_fuses (s : State) (d : DieId) (f : Die → Die) : (s.modDie d f).fuses = s.fuses := rfl
@[simp] theorem State.modDie_cores (s : State) (d : DieId) (f : Die → Die) : (s.modDie d f).cores = s.cores := rfl
@[simp] theorem State.modDie_tick (s : State) (d : DieId) (f : Die → Die) : (s.modDie d f).tick = s.tick := rfl
@[simp] theorem State.modDie_alm (s : State) (d : DieId) (f : Die → Die) : (s.modDie d f).alm = s.alm := rfl
@[simp] theorem State.modDie_member (s : State) (d : DieId) (f : Die → Die) : (s.modDie d f).member = s.member := rfl
@[simp] theorem State.modDie_flits (s : State) (d : DieId) (f : Die → Die) : (s.modDie d f).flits = s.flits := rfl
@[simp] theorem State.modDie_nextFlit (s : State) (d : DieId) (f : Die → Die) : (s.modDie d f).nextFlit = s.nextFlit := rfl
@[simp] theorem State.modDie_reducers (s : State) (d : DieId) (f : Die → Die) : (s.modDie d f).reducers = s.reducers := rfl
@[simp] theorem State.modDie_inbox (s : State) (d : DieId) (f : Die → Die) : (s.modDie d f).inbox = s.inbox := rfl
@[simp] theorem State.modDie_wire (s : State) (d : DieId) (f : Die → Die) : (s.modDie d f).wire = s.wire := rfl
@[simp] theorem State.modDie_outbound (s : State) (d : DieId) (f : Die → Die) : (s.modDie d f).outbound = s.outbound := rfl
@[simp] theorem State.modDie_nextReq (s : State) (d : DieId) (f : Die → Die) : (s.modDie d f).nextReq = s.nextReq := rfl
@[simp] theorem State.modDie_serve (s : State) (d : DieId) (f : Die → Die) : (s.modDie d f).serve = s.serve := rfl
@[simp] theorem State.modDie_srv (s : State) (d : DieId) (f : Die → Die) : (s.modDie d f).srv = s.srv := rfl
@[simp] theorem State.modDie_rings (s : State) (d : DieId) (f : Die → Die) : (s.modDie d f).rings = s.rings := rfl
@[simp] theorem State.modDie_fw (s : State) (d : DieId) (f : Die → Die) : (s.modDie d f).fw = s.fw := rfl
@[simp] theorem State.modDie_loadPhase (s : State) (d : DieId) (f : Die → Die) : (s.modDie d f).loadPhase = s.loadPhase := rfl
@[simp] theorem State.modDie_aux (s : State) (d : DieId) (f : Die → Die) : (s.modDie d f).aux = s.aux := rfl
@[simp] theorem State.modDie_genActive (s : State) (d : DieId) (f : Die → Die) : (s.modDie d f).genActive = s.genActive := rfl
@[simp] theorem State.modDie_genStaged (s : State) (d : DieId) (f : Die → Die) : (s.modDie d f).genStaged = s.genStaged := rfl
@[simp] theorem State.modDie_chg (s : State) (d : DieId) (f : Die → Die) : (s.modDie d f).chg = s.chg := rfl
@[simp] theorem State.modDie_regs (s : State) (d : DieId) (f : Die → Die) : (s.modDie d f).regs = s.regs := rfl
@[simp] theorem State.modDie_pow (s : State) (d : DieId) (f : Die → Die) : (s.modDie d f).pow = s.pow := rfl
@[simp] theorem State.modDie_load (s : State) (d : DieId) (f : Die → Die) : (s.modDie d f).load = s.load := rfl
@[simp] theorem State.modDie_power (s : State) (d : DieId) (f : Die → Die) : (s.modDie d f).power = s.power := rfl

/-! ### `State.setRing` -/

@[simp] theorem State.setRing_pending (s : State) (i : Nat) (r : RingSet) : (s.setRing i r).pending = s.pending := rfl
@[simp] theorem State.setRing_fab (s : State) (i : Nat) (r : RingSet) : (s.setRing i r).fab = s.fab := rfl
@[simp] theorem State.setRing_grp (s : State) (i : Nat) (r : RingSet) : (s.setRing i r).grp = s.grp := rfl
@[simp] theorem State.setRing_free (s : State) (i : Nat) (r : RingSet) : (s.setRing i r).free = s.free := rfl
@[simp] theorem State.setRing_fuses (s : State) (i : Nat) (r : RingSet) : (s.setRing i r).fuses = s.fuses := rfl
@[simp] theorem State.setRing_cores (s : State) (i : Nat) (r : RingSet) : (s.setRing i r).cores = s.cores := rfl
@[simp] theorem State.setRing_dies (s : State) (i : Nat) (r : RingSet) : (s.setRing i r).dies = s.dies := rfl
@[simp] theorem State.setRing_tick (s : State) (i : Nat) (r : RingSet) : (s.setRing i r).tick = s.tick := rfl
@[simp] theorem State.setRing_alm (s : State) (i : Nat) (r : RingSet) : (s.setRing i r).alm = s.alm := rfl
@[simp] theorem State.setRing_member (s : State) (i : Nat) (r : RingSet) : (s.setRing i r).member = s.member := rfl
@[simp] theorem State.setRing_flits (s : State) (i : Nat) (r : RingSet) : (s.setRing i r).flits = s.flits := rfl
@[simp] theorem State.setRing_nextFlit (s : State) (i : Nat) (r : RingSet) : (s.setRing i r).nextFlit = s.nextFlit := rfl
@[simp] theorem State.setRing_reducers (s : State) (i : Nat) (r : RingSet) : (s.setRing i r).reducers = s.reducers := rfl
@[simp] theorem State.setRing_inbox (s : State) (i : Nat) (r : RingSet) : (s.setRing i r).inbox = s.inbox := rfl
@[simp] theorem State.setRing_wire (s : State) (i : Nat) (r : RingSet) : (s.setRing i r).wire = s.wire := rfl
@[simp] theorem State.setRing_outbound (s : State) (i : Nat) (r : RingSet) : (s.setRing i r).outbound = s.outbound := rfl
@[simp] theorem State.setRing_nextReq (s : State) (i : Nat) (r : RingSet) : (s.setRing i r).nextReq = s.nextReq := rfl
@[simp] theorem State.setRing_serve (s : State) (i : Nat) (r : RingSet) : (s.setRing i r).serve = s.serve := rfl
@[simp] theorem State.setRing_srv (s : State) (i : Nat) (r : RingSet) : (s.setRing i r).srv = s.srv := rfl
@[simp] theorem State.setRing_fw (s : State) (i : Nat) (r : RingSet) : (s.setRing i r).fw = s.fw := rfl
@[simp] theorem State.setRing_loadPhase (s : State) (i : Nat) (r : RingSet) : (s.setRing i r).loadPhase = s.loadPhase := rfl
@[simp] theorem State.setRing_aux (s : State) (i : Nat) (r : RingSet) : (s.setRing i r).aux = s.aux := rfl
@[simp] theorem State.setRing_genActive (s : State) (i : Nat) (r : RingSet) : (s.setRing i r).genActive = s.genActive := rfl
@[simp] theorem State.setRing_genStaged (s : State) (i : Nat) (r : RingSet) : (s.setRing i r).genStaged = s.genStaged := rfl
@[simp] theorem State.setRing_chg (s : State) (i : Nat) (r : RingSet) : (s.setRing i r).chg = s.chg := rfl
@[simp] theorem State.setRing_regs (s : State) (i : Nat) (r : RingSet) : (s.setRing i r).regs = s.regs := rfl
@[simp] theorem State.setRing_pow (s : State) (i : Nat) (r : RingSet) : (s.setRing i r).pow = s.pow := rfl
@[simp] theorem State.setRing_load (s : State) (i : Nat) (r : RingSet) : (s.setRing i r).load = s.load := rfl
@[simp] theorem State.setRing_power (s : State) (i : Nat) (r : RingSet) : (s.setRing i r).power = s.power := rfl

/-! ### `State.lose` -/

@[simp] theorem State.lose_pending (s : State) (cause d : Nat) : (s.lose cause d).pending = s.pending := rfl
@[simp] theorem State.lose_fab (s : State) (cause d : Nat) : (s.lose cause d).fab = s.fab := rfl
@[simp] theorem State.lose_grp (s : State) (cause d : Nat) : (s.lose cause d).grp = s.grp := rfl
@[simp] theorem State.lose_free (s : State) (cause d : Nat) : (s.lose cause d).free = s.free := rfl
@[simp] theorem State.lose_fuses (s : State) (cause d : Nat) : (s.lose cause d).fuses = s.fuses := rfl
@[simp] theorem State.lose_cores (s : State) (cause d : Nat) : (s.lose cause d).cores = s.cores := rfl
@[simp] theorem State.lose_dies (s : State) (cause d : Nat) : (s.lose cause d).dies = s.dies := rfl
@[simp] theorem State.lose_alm (s : State) (cause d : Nat) : (s.lose cause d).alm = s.alm := rfl
@[simp] theorem State.lose_member (s : State) (cause d : Nat) : (s.lose cause d).member = s.member := rfl
@[simp] theorem State.lose_flits (s : State) (cause d : Nat) : (s.lose cause d).flits = s.flits := rfl
@[simp] theorem State.lose_nextFlit (s : State) (cause d : Nat) : (s.lose cause d).nextFlit = s.nextFlit := rfl
@[simp] theorem State.lose_reducers (s : State) (cause d : Nat) : (s.lose cause d).reducers = s.reducers := rfl
@[simp] theorem State.lose_inbox (s : State) (cause d : Nat) : (s.lose cause d).inbox = s.inbox := rfl
@[simp] theorem State.lose_wire (s : State) (cause d : Nat) : (s.lose cause d).wire = s.wire := rfl
@[simp] theorem State.lose_outbound (s : State) (cause d : Nat) : (s.lose cause d).outbound = s.outbound := rfl
@[simp] theorem State.lose_nextReq (s : State) (cause d : Nat) : (s.lose cause d).nextReq = s.nextReq := rfl
@[simp] theorem State.lose_serve (s : State) (cause d : Nat) : (s.lose cause d).serve = s.serve := rfl
@[simp] theorem State.lose_srv (s : State) (cause d : Nat) : (s.lose cause d).srv = s.srv := rfl
@[simp] theorem State.lose_rings (s : State) (cause d : Nat) : (s.lose cause d).rings = s.rings := rfl
@[simp] theorem State.lose_fw (s : State) (cause d : Nat) : (s.lose cause d).fw = s.fw := rfl
@[simp] theorem State.lose_loadPhase (s : State) (cause d : Nat) : (s.lose cause d).loadPhase = s.loadPhase := rfl
@[simp] theorem State.lose_aux (s : State) (cause d : Nat) : (s.lose cause d).aux = s.aux := rfl
@[simp] theorem State.lose_genActive (s : State) (cause d : Nat) : (s.lose cause d).genActive = s.genActive := rfl
@[simp] theorem State.lose_genStaged (s : State) (cause d : Nat) : (s.lose cause d).genStaged = s.genStaged := rfl
@[simp] theorem State.lose_chg (s : State) (cause d : Nat) : (s.lose cause d).chg = s.chg := rfl
@[simp] theorem State.lose_regs (s : State) (cause d : Nat) : (s.lose cause d).regs = s.regs := rfl
@[simp] theorem State.lose_pow (s : State) (cause d : Nat) : (s.lose cause d).pow = s.pow := rfl
@[simp] theorem State.lose_load (s : State) (cause d : Nat) : (s.lose cause d).load = s.load := rfl
@[simp] theorem State.lose_power (s : State) (cause d : Nat) : (s.lose cause d).power = s.power := rfl

/-! ### Fields of the tick and the host interface -/

@[simp] theorem State.lose_tick_count (s : State) (cause d : Nat) : (s.lose cause d).tick.count = s.tick.count := rfl
@[simp] theorem State.lose_tick_seq (s : State) (cause d : Nat) : (s.lose cause d).tick.seq = s.tick.seq := rfl
@[simp] theorem State.lose_tick_basePeriod (s : State) (cause d : Nat) : (s.lose cause d).tick.basePeriod = s.tick.basePeriod := rfl
@[simp] theorem State.lose_tick_pEff (s : State) (cause d : Nat) : (s.lose cause d).tick.pEff = s.tick.pEff := rfl
@[simp] theorem State.lose_tick_stretch (s : State) (cause d : Nat) : (s.lose cause d).tick.stretch = s.tick.stretch := rfl
@[simp] theorem State.lose_tick_leap (s : State) (cause d : Nat) : (s.lose cause d).tick.leap = s.tick.leap := rfl
@[simp] theorem State.lose_tick_phase (s : State) (cause d : Nat) : (s.lose cause d).tick.phase = s.tick.phase := rfl
@[simp] theorem State.lose_tick_event (s : State) (cause d : Nat) : (s.lose cause d).tick.event = s.tick.event := rfl
@[simp] theorem State.lose_tick_lagging (s : State) (cause d : Nat) : (s.lose cause d).tick.lagging = s.tick.lagging := rfl
@[simp] theorem State.lose_tick_prevLagging (s : State) (cause d : Nat) : (s.lose cause d).tick.prevLagging = s.tick.prevLagging := rfl
@[simp] theorem State.lose_tick_idle (s : State) (cause d : Nat) : (s.lose cause d).tick.idle = s.tick.idle := rfl
@[simp] theorem State.lose_tick_leapNext (s : State) (cause d : Nat) : (s.lose cause d).tick.leapNext = s.tick.leapNext := rfl
@[simp] theorem State.lose_tick_lastLeap (s : State) (cause d : Nat) : (s.lose cause d).tick.lastLeap = s.tick.lastLeap := rfl
@[simp] theorem State.lose_tick_leapReqs (s : State) (cause d : Nat) : (s.lose cause d).tick.leapReqs = s.tick.leapReqs := rfl
@[simp] theorem State.lose_tick_leapTaken (s : State) (cause d : Nat) : (s.lose cause d).tick.leapTaken = s.tick.leapTaken := rfl
@[simp] theorem State.lose_tick_hist (s : State) (cause d : Nat) : (s.lose cause d).tick.hist = s.tick.hist := rfl
@[simp] theorem State.lose_tick_lossInfo (s : State) (cause d : Nat) : (s.lose cause d).tick.lossInfo = s.tick.lossInfo := rfl
@[simp] theorem State.lose_tick_losses (s : State) (cause d : Nat) : (s.lose cause d).tick.losses = s.tick.losses := rfl
@[simp] theorem State.lose_tick_streak (s : State) (cause d : Nat) : (s.lose cause d).tick.streak = s.tick.streak := rfl
@[simp] theorem State.lose_tick_repeatFault (s : State) (cause d : Nat) : (s.lose cause d).tick.repeatFault = s.tick.repeatFault := rfl
@[simp] theorem State.lose_tick_emergUntil (s : State) (cause d : Nat) : (s.lose cause d).tick.emergUntil = s.tick.emergUntil := rfl
@[simp] theorem State.lose_tick_emergCall (s : State) (cause d : Nat) : (s.lose cause d).tick.emergCall = s.tick.emergCall := rfl
@[simp] theorem State.lose_tick_recovery (s : State) (cause d : Nat) : (s.lose cause d).tick.recovery = s.tick.recovery := rfl
@[simp] theorem State.lose_tick_patch (s : State) (cause d : Nat) : (s.lose cause d).tick.patch = s.tick.patch := rfl
@[simp] theorem State.lose_tick_budgetSet (s : State) (cause d : Nat) : (s.lose cause d).tick.budgetSet = s.tick.budgetSet := rfl
@[simp] theorem State.lose_tick_time (s : State) (cause d : Nat) : (s.lose cause d).tick.time = s.tick.time := rfl
@[simp] theorem State.setRing_rings_queues (s : State) (i : Nat) (r : RingSet) : (s.setRing i r).rings.queues = s.rings.queues := rfl
@[simp] theorem State.setRing_rings_begun (s : State) (i : Nat) (r : RingSet) : (s.setRing i r).rings.begun = s.rings.begun := rfl
@[simp] theorem State.setRing_rings_carve0 (s : State) (i : Nat) (r : RingSet) : (s.setRing i r).rings.carve0 = s.rings.carve0 := rfl
@[simp] theorem State.setRing_rings_carve1 (s : State) (i : Nat) (r : RingSet) : (s.setRing i r).rings.carve1 = s.rings.carve1 := rfl
@[simp] theorem State.setRing_rings_carveSize (s : State) (i : Nat) (r : RingSet) : (s.setRing i r).rings.carveSize = s.rings.carveSize := rfl
@[simp] theorem State.setRing_rings_carveAt (s : State) (i : Nat) (r : RingSet) : (s.setRing i r).rings.carveAt = s.rings.carveAt := rfl
@[simp] theorem State.setRing_rings_ringTab0 (s : State) (i : Nat) (r : RingSet) : (s.setRing i r).rings.ringTab0 = s.rings.ringTab0 := rfl
@[simp] theorem State.setRing_rings_ringTab1 (s : State) (i : Nat) (r : RingSet) : (s.setRing i r).rings.ringTab1 = s.rings.ringTab1 := rfl
@[simp] theorem State.setRing_rings_ringAdmin (s : State) (i : Nat) (r : RingSet) : (s.setRing i r).rings.ringAdmin = s.rings.ringAdmin := rfl
@[simp] theorem State.setRing_rings_fwEvt (s : State) (i : Nat) (r : RingSet) : (s.setRing i r).rings.fwEvt = s.rings.fwEvt := rfl
@[simp] theorem State.setRing_rings_stopped (s : State) (i : Nat) (r : RingSet) : (s.setRing i r).rings.stopped = s.rings.stopped := rfl

/-! ### `Core.setT` -/

@[simp] theorem Core.setT_sregs (k : Core) (r : TReg) (v : BitVec 128) : (k.setT r v).sregs = k.sregs := rfl
@[simp] theorem Core.setT_preds (k : Core) (r : TReg) (v : BitVec 128) : (k.setT r v).preds = k.preds := rfl
@[simp] theorem Core.setT_status (k : Core) (r : TReg) (v : BitVec 128) : (k.setT r v).status = k.status := rfl
@[simp] theorem Core.setT_stack (k : Core) (r : TReg) (v : BitVec 128) : (k.setT r v).stack = k.stack := rfl
@[simp] theorem Core.setT_pc (k : Core) (r : TReg) (v : BitVec 128) : (k.setT r v).pc = k.pc := rfl
@[simp] theorem Core.setT_run (k : Core) (r : TReg) (v : BitVec 128) : (k.setT r v).run = k.run := rfl
@[simp] theorem Core.setT_ended (k : Core) (r : TReg) (v : BitVec 128) : (k.setT r v).ended = k.ended := rfl
@[simp] theorem Core.setT_halted (k : Core) (r : TReg) (v : BitVec 128) : (k.setT r v).halted = k.halted := rfl
@[simp] theorem Core.setT_idle (k : Core) (r : TReg) (v : BitVec 128) : (k.setT r v).idle = k.idle := rfl
@[simp] theorem Core.setT_slot (k : Core) (r : TReg) (v : BitVec 128) : (k.setT r v).slot = k.slot := rfl
@[simp] theorem Core.setT_cyc (k : Core) (r : TReg) (v : BitVec 128) : (k.setT r v).cyc = k.cyc := rfl
@[simp] theorem Core.setT_sReady (k : Core) (r : TReg) (v : BitVec 128) : (k.setT r v).sReady = k.sReady := rfl
@[simp] theorem Core.setT_tReady (k : Core) (r : TReg) (v : BitVec 128) : (k.setT r v).tReady = k.tReady := rfl
@[simp] theorem Core.setT_pReady (k : Core) (r : TReg) (v : BitVec 128) : (k.setT r v).pReady = k.pReady := rfl
@[simp] theorem Core.setT_inflight (k : Core) (r : TReg) (v : BitVec 128) : (k.setT r v).inflight = k.inflight := rfl
@[simp] theorem Core.setT_stored (k : Core) (r : TReg) (v : BitVec 128) : (k.setT r v).stored = k.stored := rfl
@[simp] theorem Core.setT_nextId (k : Core) (r : TReg) (v : BitVec 128) : (k.setT r v).nextId = k.nextId := rfl
@[simp] theorem Core.setT_excSeen (k : Core) (r : TReg) (v : BitVec 128) : (k.setT r v).excSeen = k.excSeen := rfl
@[simp] theorem Core.setT_exc0 (k : Core) (r : TReg) (v : BitVec 128) : (k.setT r v).exc0 = k.exc0 := rfl
@[simp] theorem Core.setT_exc1 (k : Core) (r : TReg) (v : BitVec 128) : (k.setT r v).exc1 = k.exc1 := rfl
@[simp] theorem Core.setT_store (k : Core) (r : TReg) (v : BitVec 128) : (k.setT r v).store = k.store := rfl
@[simp] theorem Core.setT_acc (k : Core) (r : TReg) (v : BitVec 128) : (k.setT r v).acc = k.acc := rfl
@[simp] theorem Core.setT_arrival (k : Core) (r : TReg) (v : BitVec 128) : (k.setT r v).arrival = k.arrival := rfl
@[simp] theorem Core.setT_recvMap (k : Core) (r : TReg) (v : BitVec 128) : (k.setT r v).recvMap = k.recvMap := rfl
@[simp] theorem Core.setT_badStore (k : Core) (r : TReg) (v : BitVec 128) : (k.setT r v).badStore = k.badStore := rfl
@[simp] theorem Core.setT_badAcc (k : Core) (r : TReg) (v : BitVec 128) : (k.setT r v).badAcc = k.badAcc := rfl
@[simp] theorem Core.setT_prog0 (k : Core) (r : TReg) (v : BitVec 128) : (k.setT r v).prog0 = k.prog0 := rfl
@[simp] theorem Core.setT_prog1 (k : Core) (r : TReg) (v : BitVec 128) : (k.setT r v).prog1 = k.prog1 := rfl
@[simp] theorem Core.setT_cwin0 (k : Core) (r : TReg) (v : BitVec 128) : (k.setT r v).cwin0 = k.cwin0 := rfl
@[simp] theorem Core.setT_cwin1 (k : Core) (r : TReg) (v : BitVec 128) : (k.setT r v).cwin1 = k.cwin1 := rfl
@[simp] theorem Core.setT_dwin0 (k : Core) (r : TReg) (v : BitVec 128) : (k.setT r v).dwin0 = k.dwin0 := rfl
@[simp] theorem Core.setT_dwin1 (k : Core) (r : TReg) (v : BitVec 128) : (k.setT r v).dwin1 = k.dwin1 := rfl
@[simp] theorem Core.setT_seqSafe (k : Core) (r : TReg) (v : BitVec 128) : (k.setT r v).seqSafe = k.seqSafe := rfl
@[simp] theorem Core.setT_arrays (k : Core) (r : TReg) (v : BitVec 128) : (k.setT r v).arrays = k.arrays := rfl
@[simp] theorem Core.setT_arrayMap (k : Core) (r : TReg) (v : BitVec 128) : (k.setT r v).arrayMap = k.arrayMap := rfl
@[simp] theorem Core.setT_mapNext (k : Core) (r : TReg) (v : BitVec 128) : (k.setT r v).mapNext = k.mapNext := rfl
@[simp] theorem Core.setT_constBase (k : Core) (r : TReg) (v : BitVec 128) : (k.setT r v).constBase = k.constBase := rfl
@[simp] theorem Core.setT_fp4 (k : Core) (r : TReg) (v : BitVec 128) : (k.setT r v).fp4 = k.fp4 := rfl
@[simp] theorem Core.setT_holidays (k : Core) (r : TReg) (v : BitVec 128) : (k.setT r v).holidays = k.holidays := rfl
@[simp] theorem Core.setT_holidayQueue (k : Core) (r : TReg) (v : BitVec 128) : (k.setT r v).holidayQueue = k.holidayQueue := rfl
@[simp] theorem Core.setT_checkDis (k : Core) (r : TReg) (v : BitVec 128) : (k.setT r v).checkDis = k.checkDis := rfl
@[simp] theorem Core.setT_checkLock (k : Core) (r : TReg) (v : BitVec 128) : (k.setT r v).checkLock = k.checkLock := rfl
@[simp] theorem Core.setT_eventStat (k : Core) (r : TReg) (v : BitVec 128) : (k.setT r v).eventStat = k.eventStat := rfl
@[simp] theorem Core.setT_faultInfo (k : Core) (r : TReg) (v : BitVec 128) : (k.setT r v).faultInfo = k.faultInfo := rfl
@[simp] theorem Core.setT_rereadCnt (k : Core) (r : TReg) (v : BitVec 128) : (k.setT r v).rereadCnt = k.rereadCnt := rfl
@[simp] theorem Core.setT_fsCount (k : Core) (r : TReg) (v : BitVec 128) : (k.setT r v).fsCount = k.fsCount := rfl
@[simp] theorem Core.setT_numStat (k : Core) (r : TReg) (v : BitVec 128) : (k.setT r v).numStat = k.numStat := rfl
@[simp] theorem Core.setT_clamps (k : Core) (r : TReg) (v : BitVec 128) : (k.setT r v).clamps = k.clamps := rfl
@[simp] theorem Core.setT_zeroBlocks (k : Core) (r : TReg) (v : BitVec 128) : (k.setT r v).zeroBlocks = k.zeroBlocks := rfl
@[simp] theorem Core.setT_outlierOvf (k : Core) (r : TReg) (v : BitVec 128) : (k.setT r v).outlierOvf = k.outlierOvf := rfl
@[simp] theorem Core.setT_scanCtrl (k : Core) (r : TReg) (v : BitVec 128) : (k.setT r v).scanCtrl = k.scanCtrl := rfl
@[simp] theorem Core.setT_marginEvt (k : Core) (r : TReg) (v : BitVec 128) : (k.setT r v).marginEvt = k.marginEvt := rfl
@[simp] theorem Core.setT_fails (k : Core) (r : TReg) (v : BitVec 128) : (k.setT r v).fails = k.fails := rfl
@[simp] theorem Core.setT_lostArrays (k : Core) (r : TReg) (v : BitVec 128) : (k.setT r v).lostArrays = k.lostArrays := rfl
@[simp] theorem Core.setT_sweepDone (k : Core) (r : TReg) (v : BitVec 128) : (k.setT r v).sweepDone = k.sweepDone := rfl
@[simp] theorem Core.setT_sweepSlow (k : Core) (r : TReg) (v : BitVec 128) : (k.setT r v).sweepSlow = k.sweepSlow := rfl
@[simp] theorem Core.setT_sweepTime (k : Core) (r : TReg) (v : BitVec 128) : (k.setT r v).sweepTime = k.sweepTime := rfl
@[simp] theorem Core.setT_refreshed (k : Core) (r : TReg) (v : BitVec 128) : (k.setT r v).refreshed = k.refreshed := rfl
@[simp] theorem Core.setT_marginBase (k : Core) (r : TReg) (v : BitVec 128) : (k.setT r v).marginBase = k.marginBase := rfl

/-! ### `Core.readyS` -/

@[simp] theorem Core.readyS_sregs (k : Core) (r : SReg) (n : Nat) : (k.readyS r n).sregs = k.sregs := rfl
@[simp] theorem Core.readyS_tregs (k : Core) (r : SReg) (n : Nat) : (k.readyS r n).tregs = k.tregs := rfl
@[simp] theorem Core.readyS_preds (k : Core) (r : SReg) (n : Nat) : (k.readyS r n).preds = k.preds := rfl
@[simp] theorem Core.readyS_status (k : Core) (r : SReg) (n : Nat) : (k.readyS r n).status = k.status := rfl
@[simp] theorem Core.readyS_stack (k : Core) (r : SReg) (n : Nat) : (k.readyS r n).stack = k.stack := rfl
@[simp] theorem Core.readyS_pc (k : Core) (r : SReg) (n : Nat) : (k.readyS r n).pc = k.pc := rfl
@[simp] theorem Core.readyS_run (k : Core) (r : SReg) (n : Nat) : (k.readyS r n).run = k.run := rfl
@[simp] theorem Core.readyS_ended (k : Core) (r : SReg) (n : Nat) : (k.readyS r n).ended = k.ended := rfl
@[simp] theorem Core.readyS_halted (k : Core) (r : SReg) (n : Nat) : (k.readyS r n).halted = k.halted := rfl
@[simp] theorem Core.readyS_idle (k : Core) (r : SReg) (n : Nat) : (k.readyS r n).idle = k.idle := rfl
@[simp] theorem Core.readyS_slot (k : Core) (r : SReg) (n : Nat) : (k.readyS r n).slot = k.slot := rfl
@[simp] theorem Core.readyS_cyc (k : Core) (r : SReg) (n : Nat) : (k.readyS r n).cyc = k.cyc := rfl
@[simp] theorem Core.readyS_tReady (k : Core) (r : SReg) (n : Nat) : (k.readyS r n).tReady = k.tReady := rfl
@[simp] theorem Core.readyS_pReady (k : Core) (r : SReg) (n : Nat) : (k.readyS r n).pReady = k.pReady := rfl
@[simp] theorem Core.readyS_inflight (k : Core) (r : SReg) (n : Nat) : (k.readyS r n).inflight = k.inflight := rfl
@[simp] theorem Core.readyS_stored (k : Core) (r : SReg) (n : Nat) : (k.readyS r n).stored = k.stored := rfl
@[simp] theorem Core.readyS_nextId (k : Core) (r : SReg) (n : Nat) : (k.readyS r n).nextId = k.nextId := rfl
@[simp] theorem Core.readyS_excSeen (k : Core) (r : SReg) (n : Nat) : (k.readyS r n).excSeen = k.excSeen := rfl
@[simp] theorem Core.readyS_exc0 (k : Core) (r : SReg) (n : Nat) : (k.readyS r n).exc0 = k.exc0 := rfl
@[simp] theorem Core.readyS_exc1 (k : Core) (r : SReg) (n : Nat) : (k.readyS r n).exc1 = k.exc1 := rfl
@[simp] theorem Core.readyS_store (k : Core) (r : SReg) (n : Nat) : (k.readyS r n).store = k.store := rfl
@[simp] theorem Core.readyS_acc (k : Core) (r : SReg) (n : Nat) : (k.readyS r n).acc = k.acc := rfl
@[simp] theorem Core.readyS_arrival (k : Core) (r : SReg) (n : Nat) : (k.readyS r n).arrival = k.arrival := rfl
@[simp] theorem Core.readyS_recvMap (k : Core) (r : SReg) (n : Nat) : (k.readyS r n).recvMap = k.recvMap := rfl
@[simp] theorem Core.readyS_badStore (k : Core) (r : SReg) (n : Nat) : (k.readyS r n).badStore = k.badStore := rfl
@[simp] theorem Core.readyS_badAcc (k : Core) (r : SReg) (n : Nat) : (k.readyS r n).badAcc = k.badAcc := rfl
@[simp] theorem Core.readyS_prog0 (k : Core) (r : SReg) (n : Nat) : (k.readyS r n).prog0 = k.prog0 := rfl
@[simp] theorem Core.readyS_prog1 (k : Core) (r : SReg) (n : Nat) : (k.readyS r n).prog1 = k.prog1 := rfl
@[simp] theorem Core.readyS_cwin0 (k : Core) (r : SReg) (n : Nat) : (k.readyS r n).cwin0 = k.cwin0 := rfl
@[simp] theorem Core.readyS_cwin1 (k : Core) (r : SReg) (n : Nat) : (k.readyS r n).cwin1 = k.cwin1 := rfl
@[simp] theorem Core.readyS_dwin0 (k : Core) (r : SReg) (n : Nat) : (k.readyS r n).dwin0 = k.dwin0 := rfl
@[simp] theorem Core.readyS_dwin1 (k : Core) (r : SReg) (n : Nat) : (k.readyS r n).dwin1 = k.dwin1 := rfl
@[simp] theorem Core.readyS_seqSafe (k : Core) (r : SReg) (n : Nat) : (k.readyS r n).seqSafe = k.seqSafe := rfl
@[simp] theorem Core.readyS_arrays (k : Core) (r : SReg) (n : Nat) : (k.readyS r n).arrays = k.arrays := rfl
@[simp] theorem Core.readyS_arrayMap (k : Core) (r : SReg) (n : Nat) : (k.readyS r n).arrayMap = k.arrayMap := rfl
@[simp] theorem Core.readyS_mapNext (k : Core) (r : SReg) (n : Nat) : (k.readyS r n).mapNext = k.mapNext := rfl
@[simp] theorem Core.readyS_constBase (k : Core) (r : SReg) (n : Nat) : (k.readyS r n).constBase = k.constBase := rfl
@[simp] theorem Core.readyS_fp4 (k : Core) (r : SReg) (n : Nat) : (k.readyS r n).fp4 = k.fp4 := rfl
@[simp] theorem Core.readyS_holidays (k : Core) (r : SReg) (n : Nat) : (k.readyS r n).holidays = k.holidays := rfl
@[simp] theorem Core.readyS_holidayQueue (k : Core) (r : SReg) (n : Nat) : (k.readyS r n).holidayQueue = k.holidayQueue := rfl
@[simp] theorem Core.readyS_checkDis (k : Core) (r : SReg) (n : Nat) : (k.readyS r n).checkDis = k.checkDis := rfl
@[simp] theorem Core.readyS_checkLock (k : Core) (r : SReg) (n : Nat) : (k.readyS r n).checkLock = k.checkLock := rfl
@[simp] theorem Core.readyS_eventStat (k : Core) (r : SReg) (n : Nat) : (k.readyS r n).eventStat = k.eventStat := rfl
@[simp] theorem Core.readyS_faultInfo (k : Core) (r : SReg) (n : Nat) : (k.readyS r n).faultInfo = k.faultInfo := rfl
@[simp] theorem Core.readyS_rereadCnt (k : Core) (r : SReg) (n : Nat) : (k.readyS r n).rereadCnt = k.rereadCnt := rfl
@[simp] theorem Core.readyS_fsCount (k : Core) (r : SReg) (n : Nat) : (k.readyS r n).fsCount = k.fsCount := rfl
@[simp] theorem Core.readyS_numStat (k : Core) (r : SReg) (n : Nat) : (k.readyS r n).numStat = k.numStat := rfl
@[simp] theorem Core.readyS_clamps (k : Core) (r : SReg) (n : Nat) : (k.readyS r n).clamps = k.clamps := rfl
@[simp] theorem Core.readyS_zeroBlocks (k : Core) (r : SReg) (n : Nat) : (k.readyS r n).zeroBlocks = k.zeroBlocks := rfl
@[simp] theorem Core.readyS_outlierOvf (k : Core) (r : SReg) (n : Nat) : (k.readyS r n).outlierOvf = k.outlierOvf := rfl
@[simp] theorem Core.readyS_scanCtrl (k : Core) (r : SReg) (n : Nat) : (k.readyS r n).scanCtrl = k.scanCtrl := rfl
@[simp] theorem Core.readyS_marginEvt (k : Core) (r : SReg) (n : Nat) : (k.readyS r n).marginEvt = k.marginEvt := rfl
@[simp] theorem Core.readyS_fails (k : Core) (r : SReg) (n : Nat) : (k.readyS r n).fails = k.fails := rfl
@[simp] theorem Core.readyS_lostArrays (k : Core) (r : SReg) (n : Nat) : (k.readyS r n).lostArrays = k.lostArrays := rfl
@[simp] theorem Core.readyS_sweepDone (k : Core) (r : SReg) (n : Nat) : (k.readyS r n).sweepDone = k.sweepDone := rfl
@[simp] theorem Core.readyS_sweepSlow (k : Core) (r : SReg) (n : Nat) : (k.readyS r n).sweepSlow = k.sweepSlow := rfl
@[simp] theorem Core.readyS_sweepTime (k : Core) (r : SReg) (n : Nat) : (k.readyS r n).sweepTime = k.sweepTime := rfl
@[simp] theorem Core.readyS_refreshed (k : Core) (r : SReg) (n : Nat) : (k.readyS r n).refreshed = k.refreshed := rfl
@[simp] theorem Core.readyS_marginBase (k : Core) (r : SReg) (n : Nat) : (k.readyS r n).marginBase = k.marginBase := rfl

/-! ### `Core.readyT` -/

@[simp] theorem Core.readyT_sregs (k : Core) (r : TReg) (n : Nat) : (k.readyT r n).sregs = k.sregs := rfl
@[simp] theorem Core.readyT_tregs (k : Core) (r : TReg) (n : Nat) : (k.readyT r n).tregs = k.tregs := rfl
@[simp] theorem Core.readyT_preds (k : Core) (r : TReg) (n : Nat) : (k.readyT r n).preds = k.preds := rfl
@[simp] theorem Core.readyT_status (k : Core) (r : TReg) (n : Nat) : (k.readyT r n).status = k.status := rfl
@[simp] theorem Core.readyT_stack (k : Core) (r : TReg) (n : Nat) : (k.readyT r n).stack = k.stack := rfl
@[simp] theorem Core.readyT_pc (k : Core) (r : TReg) (n : Nat) : (k.readyT r n).pc = k.pc := rfl
@[simp] theorem Core.readyT_run (k : Core) (r : TReg) (n : Nat) : (k.readyT r n).run = k.run := rfl
@[simp] theorem Core.readyT_ended (k : Core) (r : TReg) (n : Nat) : (k.readyT r n).ended = k.ended := rfl
@[simp] theorem Core.readyT_halted (k : Core) (r : TReg) (n : Nat) : (k.readyT r n).halted = k.halted := rfl
@[simp] theorem Core.readyT_idle (k : Core) (r : TReg) (n : Nat) : (k.readyT r n).idle = k.idle := rfl
@[simp] theorem Core.readyT_slot (k : Core) (r : TReg) (n : Nat) : (k.readyT r n).slot = k.slot := rfl
@[simp] theorem Core.readyT_cyc (k : Core) (r : TReg) (n : Nat) : (k.readyT r n).cyc = k.cyc := rfl
@[simp] theorem Core.readyT_sReady (k : Core) (r : TReg) (n : Nat) : (k.readyT r n).sReady = k.sReady := rfl
@[simp] theorem Core.readyT_pReady (k : Core) (r : TReg) (n : Nat) : (k.readyT r n).pReady = k.pReady := rfl
@[simp] theorem Core.readyT_inflight (k : Core) (r : TReg) (n : Nat) : (k.readyT r n).inflight = k.inflight := rfl
@[simp] theorem Core.readyT_stored (k : Core) (r : TReg) (n : Nat) : (k.readyT r n).stored = k.stored := rfl
@[simp] theorem Core.readyT_nextId (k : Core) (r : TReg) (n : Nat) : (k.readyT r n).nextId = k.nextId := rfl
@[simp] theorem Core.readyT_excSeen (k : Core) (r : TReg) (n : Nat) : (k.readyT r n).excSeen = k.excSeen := rfl
@[simp] theorem Core.readyT_exc0 (k : Core) (r : TReg) (n : Nat) : (k.readyT r n).exc0 = k.exc0 := rfl
@[simp] theorem Core.readyT_exc1 (k : Core) (r : TReg) (n : Nat) : (k.readyT r n).exc1 = k.exc1 := rfl
@[simp] theorem Core.readyT_store (k : Core) (r : TReg) (n : Nat) : (k.readyT r n).store = k.store := rfl
@[simp] theorem Core.readyT_acc (k : Core) (r : TReg) (n : Nat) : (k.readyT r n).acc = k.acc := rfl
@[simp] theorem Core.readyT_arrival (k : Core) (r : TReg) (n : Nat) : (k.readyT r n).arrival = k.arrival := rfl
@[simp] theorem Core.readyT_recvMap (k : Core) (r : TReg) (n : Nat) : (k.readyT r n).recvMap = k.recvMap := rfl
@[simp] theorem Core.readyT_badStore (k : Core) (r : TReg) (n : Nat) : (k.readyT r n).badStore = k.badStore := rfl
@[simp] theorem Core.readyT_badAcc (k : Core) (r : TReg) (n : Nat) : (k.readyT r n).badAcc = k.badAcc := rfl
@[simp] theorem Core.readyT_prog0 (k : Core) (r : TReg) (n : Nat) : (k.readyT r n).prog0 = k.prog0 := rfl
@[simp] theorem Core.readyT_prog1 (k : Core) (r : TReg) (n : Nat) : (k.readyT r n).prog1 = k.prog1 := rfl
@[simp] theorem Core.readyT_cwin0 (k : Core) (r : TReg) (n : Nat) : (k.readyT r n).cwin0 = k.cwin0 := rfl
@[simp] theorem Core.readyT_cwin1 (k : Core) (r : TReg) (n : Nat) : (k.readyT r n).cwin1 = k.cwin1 := rfl
@[simp] theorem Core.readyT_dwin0 (k : Core) (r : TReg) (n : Nat) : (k.readyT r n).dwin0 = k.dwin0 := rfl
@[simp] theorem Core.readyT_dwin1 (k : Core) (r : TReg) (n : Nat) : (k.readyT r n).dwin1 = k.dwin1 := rfl
@[simp] theorem Core.readyT_seqSafe (k : Core) (r : TReg) (n : Nat) : (k.readyT r n).seqSafe = k.seqSafe := rfl
@[simp] theorem Core.readyT_arrays (k : Core) (r : TReg) (n : Nat) : (k.readyT r n).arrays = k.arrays := rfl
@[simp] theorem Core.readyT_arrayMap (k : Core) (r : TReg) (n : Nat) : (k.readyT r n).arrayMap = k.arrayMap := rfl
@[simp] theorem Core.readyT_mapNext (k : Core) (r : TReg) (n : Nat) : (k.readyT r n).mapNext = k.mapNext := rfl
@[simp] theorem Core.readyT_constBase (k : Core) (r : TReg) (n : Nat) : (k.readyT r n).constBase = k.constBase := rfl
@[simp] theorem Core.readyT_fp4 (k : Core) (r : TReg) (n : Nat) : (k.readyT r n).fp4 = k.fp4 := rfl
@[simp] theorem Core.readyT_holidays (k : Core) (r : TReg) (n : Nat) : (k.readyT r n).holidays = k.holidays := rfl
@[simp] theorem Core.readyT_holidayQueue (k : Core) (r : TReg) (n : Nat) : (k.readyT r n).holidayQueue = k.holidayQueue := rfl
@[simp] theorem Core.readyT_checkDis (k : Core) (r : TReg) (n : Nat) : (k.readyT r n).checkDis = k.checkDis := rfl
@[simp] theorem Core.readyT_checkLock (k : Core) (r : TReg) (n : Nat) : (k.readyT r n).checkLock = k.checkLock := rfl
@[simp] theorem Core.readyT_eventStat (k : Core) (r : TReg) (n : Nat) : (k.readyT r n).eventStat = k.eventStat := rfl
@[simp] theorem Core.readyT_faultInfo (k : Core) (r : TReg) (n : Nat) : (k.readyT r n).faultInfo = k.faultInfo := rfl
@[simp] theorem Core.readyT_rereadCnt (k : Core) (r : TReg) (n : Nat) : (k.readyT r n).rereadCnt = k.rereadCnt := rfl
@[simp] theorem Core.readyT_fsCount (k : Core) (r : TReg) (n : Nat) : (k.readyT r n).fsCount = k.fsCount := rfl
@[simp] theorem Core.readyT_numStat (k : Core) (r : TReg) (n : Nat) : (k.readyT r n).numStat = k.numStat := rfl
@[simp] theorem Core.readyT_clamps (k : Core) (r : TReg) (n : Nat) : (k.readyT r n).clamps = k.clamps := rfl
@[simp] theorem Core.readyT_zeroBlocks (k : Core) (r : TReg) (n : Nat) : (k.readyT r n).zeroBlocks = k.zeroBlocks := rfl
@[simp] theorem Core.readyT_outlierOvf (k : Core) (r : TReg) (n : Nat) : (k.readyT r n).outlierOvf = k.outlierOvf := rfl
@[simp] theorem Core.readyT_scanCtrl (k : Core) (r : TReg) (n : Nat) : (k.readyT r n).scanCtrl = k.scanCtrl := rfl
@[simp] theorem Core.readyT_marginEvt (k : Core) (r : TReg) (n : Nat) : (k.readyT r n).marginEvt = k.marginEvt := rfl
@[simp] theorem Core.readyT_fails (k : Core) (r : TReg) (n : Nat) : (k.readyT r n).fails = k.fails := rfl
@[simp] theorem Core.readyT_lostArrays (k : Core) (r : TReg) (n : Nat) : (k.readyT r n).lostArrays = k.lostArrays := rfl
@[simp] theorem Core.readyT_sweepDone (k : Core) (r : TReg) (n : Nat) : (k.readyT r n).sweepDone = k.sweepDone := rfl
@[simp] theorem Core.readyT_sweepSlow (k : Core) (r : TReg) (n : Nat) : (k.readyT r n).sweepSlow = k.sweepSlow := rfl
@[simp] theorem Core.readyT_sweepTime (k : Core) (r : TReg) (n : Nat) : (k.readyT r n).sweepTime = k.sweepTime := rfl
@[simp] theorem Core.readyT_refreshed (k : Core) (r : TReg) (n : Nat) : (k.readyT r n).refreshed = k.refreshed := rfl
@[simp] theorem Core.readyT_marginBase (k : Core) (r : TReg) (n : Nat) : (k.readyT r n).marginBase = k.marginBase := rfl

/-! ### `Core.readyP` -/

@[simp] theorem Core.readyP_sregs (k : Core) (r : PReg) (n : Nat) : (k.readyP r n).sregs = k.sregs := rfl
@[simp] theorem Core.readyP_tregs (k : Core) (r : PReg) (n : Nat) : (k.readyP r n).tregs = k.tregs := rfl
@[simp] theorem Core.readyP_preds (k : Core) (r : PReg) (n : Nat) : (k.readyP r n).preds = k.preds := rfl
@[simp] theorem Core.readyP_status (k : Core) (r : PReg) (n : Nat) : (k.readyP r n).status = k.status := rfl
@[simp] theorem Core.readyP_stack (k : Core) (r : PReg) (n : Nat) : (k.readyP r n).stack = k.stack := rfl
@[simp] theorem Core.readyP_pc (k : Core) (r : PReg) (n : Nat) : (k.readyP r n).pc = k.pc := rfl
@[simp] theorem Core.readyP_run (k : Core) (r : PReg) (n : Nat) : (k.readyP r n).run = k.run := rfl
@[simp] theorem Core.readyP_ended (k : Core) (r : PReg) (n : Nat) : (k.readyP r n).ended = k.ended := rfl
@[simp] theorem Core.readyP_halted (k : Core) (r : PReg) (n : Nat) : (k.readyP r n).halted = k.halted := rfl
@[simp] theorem Core.readyP_idle (k : Core) (r : PReg) (n : Nat) : (k.readyP r n).idle = k.idle := rfl
@[simp] theorem Core.readyP_slot (k : Core) (r : PReg) (n : Nat) : (k.readyP r n).slot = k.slot := rfl
@[simp] theorem Core.readyP_cyc (k : Core) (r : PReg) (n : Nat) : (k.readyP r n).cyc = k.cyc := rfl
@[simp] theorem Core.readyP_sReady (k : Core) (r : PReg) (n : Nat) : (k.readyP r n).sReady = k.sReady := rfl
@[simp] theorem Core.readyP_tReady (k : Core) (r : PReg) (n : Nat) : (k.readyP r n).tReady = k.tReady := rfl
@[simp] theorem Core.readyP_inflight (k : Core) (r : PReg) (n : Nat) : (k.readyP r n).inflight = k.inflight := rfl
@[simp] theorem Core.readyP_stored (k : Core) (r : PReg) (n : Nat) : (k.readyP r n).stored = k.stored := rfl
@[simp] theorem Core.readyP_nextId (k : Core) (r : PReg) (n : Nat) : (k.readyP r n).nextId = k.nextId := rfl
@[simp] theorem Core.readyP_excSeen (k : Core) (r : PReg) (n : Nat) : (k.readyP r n).excSeen = k.excSeen := rfl
@[simp] theorem Core.readyP_exc0 (k : Core) (r : PReg) (n : Nat) : (k.readyP r n).exc0 = k.exc0 := rfl
@[simp] theorem Core.readyP_exc1 (k : Core) (r : PReg) (n : Nat) : (k.readyP r n).exc1 = k.exc1 := rfl
@[simp] theorem Core.readyP_store (k : Core) (r : PReg) (n : Nat) : (k.readyP r n).store = k.store := rfl
@[simp] theorem Core.readyP_acc (k : Core) (r : PReg) (n : Nat) : (k.readyP r n).acc = k.acc := rfl
@[simp] theorem Core.readyP_arrival (k : Core) (r : PReg) (n : Nat) : (k.readyP r n).arrival = k.arrival := rfl
@[simp] theorem Core.readyP_recvMap (k : Core) (r : PReg) (n : Nat) : (k.readyP r n).recvMap = k.recvMap := rfl
@[simp] theorem Core.readyP_badStore (k : Core) (r : PReg) (n : Nat) : (k.readyP r n).badStore = k.badStore := rfl
@[simp] theorem Core.readyP_badAcc (k : Core) (r : PReg) (n : Nat) : (k.readyP r n).badAcc = k.badAcc := rfl
@[simp] theorem Core.readyP_prog0 (k : Core) (r : PReg) (n : Nat) : (k.readyP r n).prog0 = k.prog0 := rfl
@[simp] theorem Core.readyP_prog1 (k : Core) (r : PReg) (n : Nat) : (k.readyP r n).prog1 = k.prog1 := rfl
@[simp] theorem Core.readyP_cwin0 (k : Core) (r : PReg) (n : Nat) : (k.readyP r n).cwin0 = k.cwin0 := rfl
@[simp] theorem Core.readyP_cwin1 (k : Core) (r : PReg) (n : Nat) : (k.readyP r n).cwin1 = k.cwin1 := rfl
@[simp] theorem Core.readyP_dwin0 (k : Core) (r : PReg) (n : Nat) : (k.readyP r n).dwin0 = k.dwin0 := rfl
@[simp] theorem Core.readyP_dwin1 (k : Core) (r : PReg) (n : Nat) : (k.readyP r n).dwin1 = k.dwin1 := rfl
@[simp] theorem Core.readyP_seqSafe (k : Core) (r : PReg) (n : Nat) : (k.readyP r n).seqSafe = k.seqSafe := rfl
@[simp] theorem Core.readyP_arrays (k : Core) (r : PReg) (n : Nat) : (k.readyP r n).arrays = k.arrays := rfl
@[simp] theorem Core.readyP_arrayMap (k : Core) (r : PReg) (n : Nat) : (k.readyP r n).arrayMap = k.arrayMap := rfl
@[simp] theorem Core.readyP_mapNext (k : Core) (r : PReg) (n : Nat) : (k.readyP r n).mapNext = k.mapNext := rfl
@[simp] theorem Core.readyP_constBase (k : Core) (r : PReg) (n : Nat) : (k.readyP r n).constBase = k.constBase := rfl
@[simp] theorem Core.readyP_fp4 (k : Core) (r : PReg) (n : Nat) : (k.readyP r n).fp4 = k.fp4 := rfl
@[simp] theorem Core.readyP_holidays (k : Core) (r : PReg) (n : Nat) : (k.readyP r n).holidays = k.holidays := rfl
@[simp] theorem Core.readyP_holidayQueue (k : Core) (r : PReg) (n : Nat) : (k.readyP r n).holidayQueue = k.holidayQueue := rfl
@[simp] theorem Core.readyP_checkDis (k : Core) (r : PReg) (n : Nat) : (k.readyP r n).checkDis = k.checkDis := rfl
@[simp] theorem Core.readyP_checkLock (k : Core) (r : PReg) (n : Nat) : (k.readyP r n).checkLock = k.checkLock := rfl
@[simp] theorem Core.readyP_eventStat (k : Core) (r : PReg) (n : Nat) : (k.readyP r n).eventStat = k.eventStat := rfl
@[simp] theorem Core.readyP_faultInfo (k : Core) (r : PReg) (n : Nat) : (k.readyP r n).faultInfo = k.faultInfo := rfl
@[simp] theorem Core.readyP_rereadCnt (k : Core) (r : PReg) (n : Nat) : (k.readyP r n).rereadCnt = k.rereadCnt := rfl
@[simp] theorem Core.readyP_fsCount (k : Core) (r : PReg) (n : Nat) : (k.readyP r n).fsCount = k.fsCount := rfl
@[simp] theorem Core.readyP_numStat (k : Core) (r : PReg) (n : Nat) : (k.readyP r n).numStat = k.numStat := rfl
@[simp] theorem Core.readyP_clamps (k : Core) (r : PReg) (n : Nat) : (k.readyP r n).clamps = k.clamps := rfl
@[simp] theorem Core.readyP_zeroBlocks (k : Core) (r : PReg) (n : Nat) : (k.readyP r n).zeroBlocks = k.zeroBlocks := rfl
@[simp] theorem Core.readyP_outlierOvf (k : Core) (r : PReg) (n : Nat) : (k.readyP r n).outlierOvf = k.outlierOvf := rfl
@[simp] theorem Core.readyP_scanCtrl (k : Core) (r : PReg) (n : Nat) : (k.readyP r n).scanCtrl = k.scanCtrl := rfl
@[simp] theorem Core.readyP_marginEvt (k : Core) (r : PReg) (n : Nat) : (k.readyP r n).marginEvt = k.marginEvt := rfl
@[simp] theorem Core.readyP_fails (k : Core) (r : PReg) (n : Nat) : (k.readyP r n).fails = k.fails := rfl
@[simp] theorem Core.readyP_lostArrays (k : Core) (r : PReg) (n : Nat) : (k.readyP r n).lostArrays = k.lostArrays := rfl
@[simp] theorem Core.readyP_sweepDone (k : Core) (r : PReg) (n : Nat) : (k.readyP r n).sweepDone = k.sweepDone := rfl
@[simp] theorem Core.readyP_sweepSlow (k : Core) (r : PReg) (n : Nat) : (k.readyP r n).sweepSlow = k.sweepSlow := rfl
@[simp] theorem Core.readyP_sweepTime (k : Core) (r : PReg) (n : Nat) : (k.readyP r n).sweepTime = k.sweepTime := rfl
@[simp] theorem Core.readyP_refreshed (k : Core) (r : PReg) (n : Nat) : (k.readyP r n).refreshed = k.refreshed := rfl
@[simp] theorem Core.readyP_marginBase (k : Core) (r : PReg) (n : Nat) : (k.readyP r n).marginBase = k.marginBase := rfl

/-! ### `Core.advance` -/

@[simp] theorem Core.advance_sregs (k : Core) (p : W64) (n : Nat) : (k.advance p n).sregs = k.sregs := rfl
@[simp] theorem Core.advance_tregs (k : Core) (p : W64) (n : Nat) : (k.advance p n).tregs = k.tregs := rfl
@[simp] theorem Core.advance_preds (k : Core) (p : W64) (n : Nat) : (k.advance p n).preds = k.preds := rfl
@[simp] theorem Core.advance_status (k : Core) (p : W64) (n : Nat) : (k.advance p n).status = k.status := rfl
@[simp] theorem Core.advance_stack (k : Core) (p : W64) (n : Nat) : (k.advance p n).stack = k.stack := rfl
@[simp] theorem Core.advance_run (k : Core) (p : W64) (n : Nat) : (k.advance p n).run = k.run := rfl
@[simp] theorem Core.advance_ended (k : Core) (p : W64) (n : Nat) : (k.advance p n).ended = k.ended := rfl
@[simp] theorem Core.advance_halted (k : Core) (p : W64) (n : Nat) : (k.advance p n).halted = k.halted := rfl
@[simp] theorem Core.advance_idle (k : Core) (p : W64) (n : Nat) : (k.advance p n).idle = k.idle := rfl
@[simp] theorem Core.advance_slot (k : Core) (p : W64) (n : Nat) : (k.advance p n).slot = k.slot := rfl
@[simp] theorem Core.advance_sReady (k : Core) (p : W64) (n : Nat) : (k.advance p n).sReady = k.sReady := rfl
@[simp] theorem Core.advance_tReady (k : Core) (p : W64) (n : Nat) : (k.advance p n).tReady = k.tReady := rfl
@[simp] theorem Core.advance_pReady (k : Core) (p : W64) (n : Nat) : (k.advance p n).pReady = k.pReady := rfl
@[simp] theorem Core.advance_inflight (k : Core) (p : W64) (n : Nat) : (k.advance p n).inflight = k.inflight := rfl
@[simp] theorem Core.advance_stored (k : Core) (p : W64) (n : Nat) : (k.advance p n).stored = k.stored := rfl
@[simp] theorem Core.advance_nextId (k : Core) (p : W64) (n : Nat) : (k.advance p n).nextId = k.nextId := rfl
@[simp] theorem Core.advance_excSeen (k : Core) (p : W64) (n : Nat) : (k.advance p n).excSeen = k.excSeen := rfl
@[simp] theorem Core.advance_exc0 (k : Core) (p : W64) (n : Nat) : (k.advance p n).exc0 = k.exc0 := rfl
@[simp] theorem Core.advance_exc1 (k : Core) (p : W64) (n : Nat) : (k.advance p n).exc1 = k.exc1 := rfl
@[simp] theorem Core.advance_store (k : Core) (p : W64) (n : Nat) : (k.advance p n).store = k.store := rfl
@[simp] theorem Core.advance_acc (k : Core) (p : W64) (n : Nat) : (k.advance p n).acc = k.acc := rfl
@[simp] theorem Core.advance_arrival (k : Core) (p : W64) (n : Nat) : (k.advance p n).arrival = k.arrival := rfl
@[simp] theorem Core.advance_recvMap (k : Core) (p : W64) (n : Nat) : (k.advance p n).recvMap = k.recvMap := rfl
@[simp] theorem Core.advance_badStore (k : Core) (p : W64) (n : Nat) : (k.advance p n).badStore = k.badStore := rfl
@[simp] theorem Core.advance_badAcc (k : Core) (p : W64) (n : Nat) : (k.advance p n).badAcc = k.badAcc := rfl
@[simp] theorem Core.advance_prog0 (k : Core) (p : W64) (n : Nat) : (k.advance p n).prog0 = k.prog0 := rfl
@[simp] theorem Core.advance_prog1 (k : Core) (p : W64) (n : Nat) : (k.advance p n).prog1 = k.prog1 := rfl
@[simp] theorem Core.advance_cwin0 (k : Core) (p : W64) (n : Nat) : (k.advance p n).cwin0 = k.cwin0 := rfl
@[simp] theorem Core.advance_cwin1 (k : Core) (p : W64) (n : Nat) : (k.advance p n).cwin1 = k.cwin1 := rfl
@[simp] theorem Core.advance_dwin0 (k : Core) (p : W64) (n : Nat) : (k.advance p n).dwin0 = k.dwin0 := rfl
@[simp] theorem Core.advance_dwin1 (k : Core) (p : W64) (n : Nat) : (k.advance p n).dwin1 = k.dwin1 := rfl
@[simp] theorem Core.advance_seqSafe (k : Core) (p : W64) (n : Nat) : (k.advance p n).seqSafe = k.seqSafe := rfl
@[simp] theorem Core.advance_arrays (k : Core) (p : W64) (n : Nat) : (k.advance p n).arrays = k.arrays := rfl
@[simp] theorem Core.advance_arrayMap (k : Core) (p : W64) (n : Nat) : (k.advance p n).arrayMap = k.arrayMap := rfl
@[simp] theorem Core.advance_mapNext (k : Core) (p : W64) (n : Nat) : (k.advance p n).mapNext = k.mapNext := rfl
@[simp] theorem Core.advance_constBase (k : Core) (p : W64) (n : Nat) : (k.advance p n).constBase = k.constBase := rfl
@[simp] theorem Core.advance_fp4 (k : Core) (p : W64) (n : Nat) : (k.advance p n).fp4 = k.fp4 := rfl
@[simp] theorem Core.advance_holidays (k : Core) (p : W64) (n : Nat) : (k.advance p n).holidays = k.holidays := rfl
@[simp] theorem Core.advance_holidayQueue (k : Core) (p : W64) (n : Nat) : (k.advance p n).holidayQueue = k.holidayQueue := rfl
@[simp] theorem Core.advance_checkDis (k : Core) (p : W64) (n : Nat) : (k.advance p n).checkDis = k.checkDis := rfl
@[simp] theorem Core.advance_checkLock (k : Core) (p : W64) (n : Nat) : (k.advance p n).checkLock = k.checkLock := rfl
@[simp] theorem Core.advance_eventStat (k : Core) (p : W64) (n : Nat) : (k.advance p n).eventStat = k.eventStat := rfl
@[simp] theorem Core.advance_faultInfo (k : Core) (p : W64) (n : Nat) : (k.advance p n).faultInfo = k.faultInfo := rfl
@[simp] theorem Core.advance_rereadCnt (k : Core) (p : W64) (n : Nat) : (k.advance p n).rereadCnt = k.rereadCnt := rfl
@[simp] theorem Core.advance_fsCount (k : Core) (p : W64) (n : Nat) : (k.advance p n).fsCount = k.fsCount := rfl
@[simp] theorem Core.advance_numStat (k : Core) (p : W64) (n : Nat) : (k.advance p n).numStat = k.numStat := rfl
@[simp] theorem Core.advance_clamps (k : Core) (p : W64) (n : Nat) : (k.advance p n).clamps = k.clamps := rfl
@[simp] theorem Core.advance_zeroBlocks (k : Core) (p : W64) (n : Nat) : (k.advance p n).zeroBlocks = k.zeroBlocks := rfl
@[simp] theorem Core.advance_outlierOvf (k : Core) (p : W64) (n : Nat) : (k.advance p n).outlierOvf = k.outlierOvf := rfl
@[simp] theorem Core.advance_scanCtrl (k : Core) (p : W64) (n : Nat) : (k.advance p n).scanCtrl = k.scanCtrl := rfl
@[simp] theorem Core.advance_marginEvt (k : Core) (p : W64) (n : Nat) : (k.advance p n).marginEvt = k.marginEvt := rfl
@[simp] theorem Core.advance_fails (k : Core) (p : W64) (n : Nat) : (k.advance p n).fails = k.fails := rfl
@[simp] theorem Core.advance_lostArrays (k : Core) (p : W64) (n : Nat) : (k.advance p n).lostArrays = k.lostArrays := rfl
@[simp] theorem Core.advance_sweepDone (k : Core) (p : W64) (n : Nat) : (k.advance p n).sweepDone = k.sweepDone := rfl
@[simp] theorem Core.advance_sweepSlow (k : Core) (p : W64) (n : Nat) : (k.advance p n).sweepSlow = k.sweepSlow := rfl
@[simp] theorem Core.advance_sweepTime (k : Core) (p : W64) (n : Nat) : (k.advance p n).sweepTime = k.sweepTime := rfl
@[simp] theorem Core.advance_refreshed (k : Core) (p : W64) (n : Nat) : (k.advance p n).refreshed = k.refreshed := rfl
@[simp] theorem Core.advance_marginBase (k : Core) (p : W64) (n : Nat) : (k.advance p n).marginBase = k.marginBase := rfl

/-! ### `Core.storeAt` -/

@[simp] theorem Core.storeAt_sregs (k : Core) (a : Nat) (bs : Bytes) : (k.storeAt a bs).sregs = k.sregs := rfl
@[simp] theorem Core.storeAt_tregs (k : Core) (a : Nat) (bs : Bytes) : (k.storeAt a bs).tregs = k.tregs := rfl
@[simp] theorem Core.storeAt_preds (k : Core) (a : Nat) (bs : Bytes) : (k.storeAt a bs).preds = k.preds := rfl
@[simp] theorem Core.storeAt_status (k : Core) (a : Nat) (bs : Bytes) : (k.storeAt a bs).status = k.status := rfl
@[simp] theorem Core.storeAt_stack (k : Core) (a : Nat) (bs : Bytes) : (k.storeAt a bs).stack = k.stack := rfl
@[simp] theorem Core.storeAt_pc (k : Core) (a : Nat) (bs : Bytes) : (k.storeAt a bs).pc = k.pc := rfl
@[simp] theorem Core.storeAt_run (k : Core) (a : Nat) (bs : Bytes) : (k.storeAt a bs).run = k.run := rfl
@[simp] theorem Core.storeAt_ended (k : Core) (a : Nat) (bs : Bytes) : (k.storeAt a bs).ended = k.ended := rfl
@[simp] theorem Core.storeAt_halted (k : Core) (a : Nat) (bs : Bytes) : (k.storeAt a bs).halted = k.halted := rfl
@[simp] theorem Core.storeAt_idle (k : Core) (a : Nat) (bs : Bytes) : (k.storeAt a bs).idle = k.idle := rfl
@[simp] theorem Core.storeAt_slot (k : Core) (a : Nat) (bs : Bytes) : (k.storeAt a bs).slot = k.slot := rfl
@[simp] theorem Core.storeAt_cyc (k : Core) (a : Nat) (bs : Bytes) : (k.storeAt a bs).cyc = k.cyc := rfl
@[simp] theorem Core.storeAt_sReady (k : Core) (a : Nat) (bs : Bytes) : (k.storeAt a bs).sReady = k.sReady := rfl
@[simp] theorem Core.storeAt_tReady (k : Core) (a : Nat) (bs : Bytes) : (k.storeAt a bs).tReady = k.tReady := rfl
@[simp] theorem Core.storeAt_pReady (k : Core) (a : Nat) (bs : Bytes) : (k.storeAt a bs).pReady = k.pReady := rfl
@[simp] theorem Core.storeAt_inflight (k : Core) (a : Nat) (bs : Bytes) : (k.storeAt a bs).inflight = k.inflight := rfl
@[simp] theorem Core.storeAt_stored (k : Core) (a : Nat) (bs : Bytes) : (k.storeAt a bs).stored = k.stored := rfl
@[simp] theorem Core.storeAt_nextId (k : Core) (a : Nat) (bs : Bytes) : (k.storeAt a bs).nextId = k.nextId := rfl
@[simp] theorem Core.storeAt_excSeen (k : Core) (a : Nat) (bs : Bytes) : (k.storeAt a bs).excSeen = k.excSeen := rfl
@[simp] theorem Core.storeAt_exc0 (k : Core) (a : Nat) (bs : Bytes) : (k.storeAt a bs).exc0 = k.exc0 := rfl
@[simp] theorem Core.storeAt_exc1 (k : Core) (a : Nat) (bs : Bytes) : (k.storeAt a bs).exc1 = k.exc1 := rfl
@[simp] theorem Core.storeAt_acc (k : Core) (a : Nat) (bs : Bytes) : (k.storeAt a bs).acc = k.acc := rfl
@[simp] theorem Core.storeAt_arrival (k : Core) (a : Nat) (bs : Bytes) : (k.storeAt a bs).arrival = k.arrival := rfl
@[simp] theorem Core.storeAt_recvMap (k : Core) (a : Nat) (bs : Bytes) : (k.storeAt a bs).recvMap = k.recvMap := rfl
@[simp] theorem Core.storeAt_badAcc (k : Core) (a : Nat) (bs : Bytes) : (k.storeAt a bs).badAcc = k.badAcc := rfl
@[simp] theorem Core.storeAt_prog0 (k : Core) (a : Nat) (bs : Bytes) : (k.storeAt a bs).prog0 = k.prog0 := rfl
@[simp] theorem Core.storeAt_prog1 (k : Core) (a : Nat) (bs : Bytes) : (k.storeAt a bs).prog1 = k.prog1 := rfl
@[simp] theorem Core.storeAt_cwin0 (k : Core) (a : Nat) (bs : Bytes) : (k.storeAt a bs).cwin0 = k.cwin0 := rfl
@[simp] theorem Core.storeAt_cwin1 (k : Core) (a : Nat) (bs : Bytes) : (k.storeAt a bs).cwin1 = k.cwin1 := rfl
@[simp] theorem Core.storeAt_dwin0 (k : Core) (a : Nat) (bs : Bytes) : (k.storeAt a bs).dwin0 = k.dwin0 := rfl
@[simp] theorem Core.storeAt_dwin1 (k : Core) (a : Nat) (bs : Bytes) : (k.storeAt a bs).dwin1 = k.dwin1 := rfl
@[simp] theorem Core.storeAt_seqSafe (k : Core) (a : Nat) (bs : Bytes) : (k.storeAt a bs).seqSafe = k.seqSafe := rfl
@[simp] theorem Core.storeAt_arrays (k : Core) (a : Nat) (bs : Bytes) : (k.storeAt a bs).arrays = k.arrays := rfl
@[simp] theorem Core.storeAt_arrayMap (k : Core) (a : Nat) (bs : Bytes) : (k.storeAt a bs).arrayMap = k.arrayMap := rfl
@[simp] theorem Core.storeAt_mapNext (k : Core) (a : Nat) (bs : Bytes) : (k.storeAt a bs).mapNext = k.mapNext := rfl
@[simp] theorem Core.storeAt_constBase (k : Core) (a : Nat) (bs : Bytes) : (k.storeAt a bs).constBase = k.constBase := rfl
@[simp] theorem Core.storeAt_fp4 (k : Core) (a : Nat) (bs : Bytes) : (k.storeAt a bs).fp4 = k.fp4 := rfl
@[simp] theorem Core.storeAt_holidays (k : Core) (a : Nat) (bs : Bytes) : (k.storeAt a bs).holidays = k.holidays := rfl
@[simp] theorem Core.storeAt_holidayQueue (k : Core) (a : Nat) (bs : Bytes) : (k.storeAt a bs).holidayQueue = k.holidayQueue := rfl
@[simp] theorem Core.storeAt_checkDis (k : Core) (a : Nat) (bs : Bytes) : (k.storeAt a bs).checkDis = k.checkDis := rfl
@[simp] theorem Core.storeAt_checkLock (k : Core) (a : Nat) (bs : Bytes) : (k.storeAt a bs).checkLock = k.checkLock := rfl
@[simp] theorem Core.storeAt_eventStat (k : Core) (a : Nat) (bs : Bytes) : (k.storeAt a bs).eventStat = k.eventStat := rfl
@[simp] theorem Core.storeAt_faultInfo (k : Core) (a : Nat) (bs : Bytes) : (k.storeAt a bs).faultInfo = k.faultInfo := rfl
@[simp] theorem Core.storeAt_rereadCnt (k : Core) (a : Nat) (bs : Bytes) : (k.storeAt a bs).rereadCnt = k.rereadCnt := rfl
@[simp] theorem Core.storeAt_fsCount (k : Core) (a : Nat) (bs : Bytes) : (k.storeAt a bs).fsCount = k.fsCount := rfl
@[simp] theorem Core.storeAt_numStat (k : Core) (a : Nat) (bs : Bytes) : (k.storeAt a bs).numStat = k.numStat := rfl
@[simp] theorem Core.storeAt_clamps (k : Core) (a : Nat) (bs : Bytes) : (k.storeAt a bs).clamps = k.clamps := rfl
@[simp] theorem Core.storeAt_zeroBlocks (k : Core) (a : Nat) (bs : Bytes) : (k.storeAt a bs).zeroBlocks = k.zeroBlocks := rfl
@[simp] theorem Core.storeAt_outlierOvf (k : Core) (a : Nat) (bs : Bytes) : (k.storeAt a bs).outlierOvf = k.outlierOvf := rfl
@[simp] theorem Core.storeAt_scanCtrl (k : Core) (a : Nat) (bs : Bytes) : (k.storeAt a bs).scanCtrl = k.scanCtrl := rfl
@[simp] theorem Core.storeAt_marginEvt (k : Core) (a : Nat) (bs : Bytes) : (k.storeAt a bs).marginEvt = k.marginEvt := rfl
@[simp] theorem Core.storeAt_fails (k : Core) (a : Nat) (bs : Bytes) : (k.storeAt a bs).fails = k.fails := rfl
@[simp] theorem Core.storeAt_lostArrays (k : Core) (a : Nat) (bs : Bytes) : (k.storeAt a bs).lostArrays = k.lostArrays := rfl
@[simp] theorem Core.storeAt_sweepDone (k : Core) (a : Nat) (bs : Bytes) : (k.storeAt a bs).sweepDone = k.sweepDone := rfl
@[simp] theorem Core.storeAt_sweepSlow (k : Core) (a : Nat) (bs : Bytes) : (k.storeAt a bs).sweepSlow = k.sweepSlow := rfl
@[simp] theorem Core.storeAt_sweepTime (k : Core) (a : Nat) (bs : Bytes) : (k.storeAt a bs).sweepTime = k.sweepTime := rfl
@[simp] theorem Core.storeAt_refreshed (k : Core) (a : Nat) (bs : Bytes) : (k.storeAt a bs).refreshed = k.refreshed := rfl
@[simp] theorem Core.storeAt_marginBase (k : Core) (a : Nat) (bs : Bytes) : (k.storeAt a bs).marginBase = k.marginBase := rfl

/-! ### `Core.accSet` -/

@[simp] theorem Core.accSet_sregs (k : Core) (e : Nat) (v : BitVec 256) : (k.accSet e v).sregs = k.sregs := rfl
@[simp] theorem Core.accSet_tregs (k : Core) (e : Nat) (v : BitVec 256) : (k.accSet e v).tregs = k.tregs := rfl
@[simp] theorem Core.accSet_preds (k : Core) (e : Nat) (v : BitVec 256) : (k.accSet e v).preds = k.preds := rfl
@[simp] theorem Core.accSet_status (k : Core) (e : Nat) (v : BitVec 256) : (k.accSet e v).status = k.status := rfl
@[simp] theorem Core.accSet_stack (k : Core) (e : Nat) (v : BitVec 256) : (k.accSet e v).stack = k.stack := rfl
@[simp] theorem Core.accSet_pc (k : Core) (e : Nat) (v : BitVec 256) : (k.accSet e v).pc = k.pc := rfl
@[simp] theorem Core.accSet_run (k : Core) (e : Nat) (v : BitVec 256) : (k.accSet e v).run = k.run := rfl
@[simp] theorem Core.accSet_ended (k : Core) (e : Nat) (v : BitVec 256) : (k.accSet e v).ended = k.ended := rfl
@[simp] theorem Core.accSet_halted (k : Core) (e : Nat) (v : BitVec 256) : (k.accSet e v).halted = k.halted := rfl
@[simp] theorem Core.accSet_idle (k : Core) (e : Nat) (v : BitVec 256) : (k.accSet e v).idle = k.idle := rfl
@[simp] theorem Core.accSet_slot (k : Core) (e : Nat) (v : BitVec 256) : (k.accSet e v).slot = k.slot := rfl
@[simp] theorem Core.accSet_cyc (k : Core) (e : Nat) (v : BitVec 256) : (k.accSet e v).cyc = k.cyc := rfl
@[simp] theorem Core.accSet_sReady (k : Core) (e : Nat) (v : BitVec 256) : (k.accSet e v).sReady = k.sReady := rfl
@[simp] theorem Core.accSet_tReady (k : Core) (e : Nat) (v : BitVec 256) : (k.accSet e v).tReady = k.tReady := rfl
@[simp] theorem Core.accSet_pReady (k : Core) (e : Nat) (v : BitVec 256) : (k.accSet e v).pReady = k.pReady := rfl
@[simp] theorem Core.accSet_inflight (k : Core) (e : Nat) (v : BitVec 256) : (k.accSet e v).inflight = k.inflight := rfl
@[simp] theorem Core.accSet_stored (k : Core) (e : Nat) (v : BitVec 256) : (k.accSet e v).stored = k.stored := rfl
@[simp] theorem Core.accSet_nextId (k : Core) (e : Nat) (v : BitVec 256) : (k.accSet e v).nextId = k.nextId := rfl
@[simp] theorem Core.accSet_excSeen (k : Core) (e : Nat) (v : BitVec 256) : (k.accSet e v).excSeen = k.excSeen := rfl
@[simp] theorem Core.accSet_exc0 (k : Core) (e : Nat) (v : BitVec 256) : (k.accSet e v).exc0 = k.exc0 := rfl
@[simp] theorem Core.accSet_exc1 (k : Core) (e : Nat) (v : BitVec 256) : (k.accSet e v).exc1 = k.exc1 := rfl
@[simp] theorem Core.accSet_store (k : Core) (e : Nat) (v : BitVec 256) : (k.accSet e v).store = k.store := rfl
@[simp] theorem Core.accSet_arrival (k : Core) (e : Nat) (v : BitVec 256) : (k.accSet e v).arrival = k.arrival := rfl
@[simp] theorem Core.accSet_recvMap (k : Core) (e : Nat) (v : BitVec 256) : (k.accSet e v).recvMap = k.recvMap := rfl
@[simp] theorem Core.accSet_badStore (k : Core) (e : Nat) (v : BitVec 256) : (k.accSet e v).badStore = k.badStore := rfl
@[simp] theorem Core.accSet_prog0 (k : Core) (e : Nat) (v : BitVec 256) : (k.accSet e v).prog0 = k.prog0 := rfl
@[simp] theorem Core.accSet_prog1 (k : Core) (e : Nat) (v : BitVec 256) : (k.accSet e v).prog1 = k.prog1 := rfl
@[simp] theorem Core.accSet_cwin0 (k : Core) (e : Nat) (v : BitVec 256) : (k.accSet e v).cwin0 = k.cwin0 := rfl
@[simp] theorem Core.accSet_cwin1 (k : Core) (e : Nat) (v : BitVec 256) : (k.accSet e v).cwin1 = k.cwin1 := rfl
@[simp] theorem Core.accSet_dwin0 (k : Core) (e : Nat) (v : BitVec 256) : (k.accSet e v).dwin0 = k.dwin0 := rfl
@[simp] theorem Core.accSet_dwin1 (k : Core) (e : Nat) (v : BitVec 256) : (k.accSet e v).dwin1 = k.dwin1 := rfl
@[simp] theorem Core.accSet_seqSafe (k : Core) (e : Nat) (v : BitVec 256) : (k.accSet e v).seqSafe = k.seqSafe := rfl
@[simp] theorem Core.accSet_arrays (k : Core) (e : Nat) (v : BitVec 256) : (k.accSet e v).arrays = k.arrays := rfl
@[simp] theorem Core.accSet_arrayMap (k : Core) (e : Nat) (v : BitVec 256) : (k.accSet e v).arrayMap = k.arrayMap := rfl
@[simp] theorem Core.accSet_mapNext (k : Core) (e : Nat) (v : BitVec 256) : (k.accSet e v).mapNext = k.mapNext := rfl
@[simp] theorem Core.accSet_constBase (k : Core) (e : Nat) (v : BitVec 256) : (k.accSet e v).constBase = k.constBase := rfl
@[simp] theorem Core.accSet_fp4 (k : Core) (e : Nat) (v : BitVec 256) : (k.accSet e v).fp4 = k.fp4 := rfl
@[simp] theorem Core.accSet_holidays (k : Core) (e : Nat) (v : BitVec 256) : (k.accSet e v).holidays = k.holidays := rfl
@[simp] theorem Core.accSet_holidayQueue (k : Core) (e : Nat) (v : BitVec 256) : (k.accSet e v).holidayQueue = k.holidayQueue := rfl
@[simp] theorem Core.accSet_checkDis (k : Core) (e : Nat) (v : BitVec 256) : (k.accSet e v).checkDis = k.checkDis := rfl
@[simp] theorem Core.accSet_checkLock (k : Core) (e : Nat) (v : BitVec 256) : (k.accSet e v).checkLock = k.checkLock := rfl
@[simp] theorem Core.accSet_eventStat (k : Core) (e : Nat) (v : BitVec 256) : (k.accSet e v).eventStat = k.eventStat := rfl
@[simp] theorem Core.accSet_faultInfo (k : Core) (e : Nat) (v : BitVec 256) : (k.accSet e v).faultInfo = k.faultInfo := rfl
@[simp] theorem Core.accSet_rereadCnt (k : Core) (e : Nat) (v : BitVec 256) : (k.accSet e v).rereadCnt = k.rereadCnt := rfl
@[simp] theorem Core.accSet_fsCount (k : Core) (e : Nat) (v : BitVec 256) : (k.accSet e v).fsCount = k.fsCount := rfl
@[simp] theorem Core.accSet_numStat (k : Core) (e : Nat) (v : BitVec 256) : (k.accSet e v).numStat = k.numStat := rfl
@[simp] theorem Core.accSet_clamps (k : Core) (e : Nat) (v : BitVec 256) : (k.accSet e v).clamps = k.clamps := rfl
@[simp] theorem Core.accSet_zeroBlocks (k : Core) (e : Nat) (v : BitVec 256) : (k.accSet e v).zeroBlocks = k.zeroBlocks := rfl
@[simp] theorem Core.accSet_outlierOvf (k : Core) (e : Nat) (v : BitVec 256) : (k.accSet e v).outlierOvf = k.outlierOvf := rfl
@[simp] theorem Core.accSet_scanCtrl (k : Core) (e : Nat) (v : BitVec 256) : (k.accSet e v).scanCtrl = k.scanCtrl := rfl
@[simp] theorem Core.accSet_marginEvt (k : Core) (e : Nat) (v : BitVec 256) : (k.accSet e v).marginEvt = k.marginEvt := rfl
@[simp] theorem Core.accSet_fails (k : Core) (e : Nat) (v : BitVec 256) : (k.accSet e v).fails = k.fails := rfl
@[simp] theorem Core.accSet_lostArrays (k : Core) (e : Nat) (v : BitVec 256) : (k.accSet e v).lostArrays = k.lostArrays := rfl
@[simp] theorem Core.accSet_sweepDone (k : Core) (e : Nat) (v : BitVec 256) : (k.accSet e v).sweepDone = k.sweepDone := rfl
@[simp] theorem Core.accSet_sweepSlow (k : Core) (e : Nat) (v : BitVec 256) : (k.accSet e v).sweepSlow = k.sweepSlow := rfl
@[simp] theorem Core.accSet_sweepTime (k : Core) (e : Nat) (v : BitVec 256) : (k.accSet e v).sweepTime = k.sweepTime := rfl
@[simp] theorem Core.accSet_refreshed (k : Core) (e : Nat) (v : BitVec 256) : (k.accSet e v).refreshed = k.refreshed := rfl
@[simp] theorem Core.accSet_marginBase (k : Core) (e : Nat) (v : BitVec 256) : (k.accSet e v).marginBase = k.marginBase := rfl

/-! ### `Core.markLines` -/

@[simp] theorem Core.markLines_sregs (k : Core) (a b : Nat) (v : Bool) : (k.markLines a b v).sregs = k.sregs := rfl
@[simp] theorem Core.markLines_tregs (k : Core) (a b : Nat) (v : Bool) : (k.markLines a b v).tregs = k.tregs := rfl
@[simp] theorem Core.markLines_preds (k : Core) (a b : Nat) (v : Bool) : (k.markLines a b v).preds = k.preds := rfl
@[simp] theorem Core.markLines_status (k : Core) (a b : Nat) (v : Bool) : (k.markLines a b v).status = k.status := rfl
@[simp] theorem Core.markLines_stack (k : Core) (a b : Nat) (v : Bool) : (k.markLines a b v).stack = k.stack := rfl
@[simp] theorem Core.markLines_pc (k : Core) (a b : Nat) (v : Bool) : (k.markLines a b v).pc = k.pc := rfl
@[simp] theorem Core.markLines_run (k : Core) (a b : Nat) (v : Bool) : (k.markLines a b v).run = k.run := rfl
@[simp] theorem Core.markLines_ended (k : Core) (a b : Nat) (v : Bool) : (k.markLines a b v).ended = k.ended := rfl
@[simp] theorem Core.markLines_halted (k : Core) (a b : Nat) (v : Bool) : (k.markLines a b v).halted = k.halted := rfl
@[simp] theorem Core.markLines_idle (k : Core) (a b : Nat) (v : Bool) : (k.markLines a b v).idle = k.idle := rfl
@[simp] theorem Core.markLines_slot (k : Core) (a b : Nat) (v : Bool) : (k.markLines a b v).slot = k.slot := rfl
@[simp] theorem Core.markLines_cyc (k : Core) (a b : Nat) (v : Bool) : (k.markLines a b v).cyc = k.cyc := rfl
@[simp] theorem Core.markLines_sReady (k : Core) (a b : Nat) (v : Bool) : (k.markLines a b v).sReady = k.sReady := rfl
@[simp] theorem Core.markLines_tReady (k : Core) (a b : Nat) (v : Bool) : (k.markLines a b v).tReady = k.tReady := rfl
@[simp] theorem Core.markLines_pReady (k : Core) (a b : Nat) (v : Bool) : (k.markLines a b v).pReady = k.pReady := rfl
@[simp] theorem Core.markLines_inflight (k : Core) (a b : Nat) (v : Bool) : (k.markLines a b v).inflight = k.inflight := rfl
@[simp] theorem Core.markLines_stored (k : Core) (a b : Nat) (v : Bool) : (k.markLines a b v).stored = k.stored := rfl
@[simp] theorem Core.markLines_nextId (k : Core) (a b : Nat) (v : Bool) : (k.markLines a b v).nextId = k.nextId := rfl
@[simp] theorem Core.markLines_excSeen (k : Core) (a b : Nat) (v : Bool) : (k.markLines a b v).excSeen = k.excSeen := rfl
@[simp] theorem Core.markLines_exc0 (k : Core) (a b : Nat) (v : Bool) : (k.markLines a b v).exc0 = k.exc0 := rfl
@[simp] theorem Core.markLines_exc1 (k : Core) (a b : Nat) (v : Bool) : (k.markLines a b v).exc1 = k.exc1 := rfl
@[simp] theorem Core.markLines_store (k : Core) (a b : Nat) (v : Bool) : (k.markLines a b v).store = k.store := rfl
@[simp] theorem Core.markLines_acc (k : Core) (a b : Nat) (v : Bool) : (k.markLines a b v).acc = k.acc := rfl
@[simp] theorem Core.markLines_recvMap (k : Core) (a b : Nat) (v : Bool) : (k.markLines a b v).recvMap = k.recvMap := rfl
@[simp] theorem Core.markLines_badStore (k : Core) (a b : Nat) (v : Bool) : (k.markLines a b v).badStore = k.badStore := rfl
@[simp] theorem Core.markLines_badAcc (k : Core) (a b : Nat) (v : Bool) : (k.markLines a b v).badAcc = k.badAcc := rfl
@[simp] theorem Core.markLines_prog0 (k : Core) (a b : Nat) (v : Bool) : (k.markLines a b v).prog0 = k.prog0 := rfl
@[simp] theorem Core.markLines_prog1 (k : Core) (a b : Nat) (v : Bool) : (k.markLines a b v).prog1 = k.prog1 := rfl
@[simp] theorem Core.markLines_cwin0 (k : Core) (a b : Nat) (v : Bool) : (k.markLines a b v).cwin0 = k.cwin0 := rfl
@[simp] theorem Core.markLines_cwin1 (k : Core) (a b : Nat) (v : Bool) : (k.markLines a b v).cwin1 = k.cwin1 := rfl
@[simp] theorem Core.markLines_dwin0 (k : Core) (a b : Nat) (v : Bool) : (k.markLines a b v).dwin0 = k.dwin0 := rfl
@[simp] theorem Core.markLines_dwin1 (k : Core) (a b : Nat) (v : Bool) : (k.markLines a b v).dwin1 = k.dwin1 := rfl
@[simp] theorem Core.markLines_seqSafe (k : Core) (a b : Nat) (v : Bool) : (k.markLines a b v).seqSafe = k.seqSafe := rfl
@[simp] theorem Core.markLines_arrays (k : Core) (a b : Nat) (v : Bool) : (k.markLines a b v).arrays = k.arrays := rfl
@[simp] theorem Core.markLines_arrayMap (k : Core) (a b : Nat) (v : Bool) : (k.markLines a b v).arrayMap = k.arrayMap := rfl
@[simp] theorem Core.markLines_mapNext (k : Core) (a b : Nat) (v : Bool) : (k.markLines a b v).mapNext = k.mapNext := rfl
@[simp] theorem Core.markLines_constBase (k : Core) (a b : Nat) (v : Bool) : (k.markLines a b v).constBase = k.constBase := rfl
@[simp] theorem Core.markLines_fp4 (k : Core) (a b : Nat) (v : Bool) : (k.markLines a b v).fp4 = k.fp4 := rfl
@[simp] theorem Core.markLines_holidays (k : Core) (a b : Nat) (v : Bool) : (k.markLines a b v).holidays = k.holidays := rfl
@[simp] theorem Core.markLines_holidayQueue (k : Core) (a b : Nat) (v : Bool) : (k.markLines a b v).holidayQueue = k.holidayQueue := rfl
@[simp] theorem Core.markLines_checkDis (k : Core) (a b : Nat) (v : Bool) : (k.markLines a b v).checkDis = k.checkDis := rfl
@[simp] theorem Core.markLines_checkLock (k : Core) (a b : Nat) (v : Bool) : (k.markLines a b v).checkLock = k.checkLock := rfl
@[simp] theorem Core.markLines_eventStat (k : Core) (a b : Nat) (v : Bool) : (k.markLines a b v).eventStat = k.eventStat := rfl
@[simp] theorem Core.markLines_faultInfo (k : Core) (a b : Nat) (v : Bool) : (k.markLines a b v).faultInfo = k.faultInfo := rfl
@[simp] theorem Core.markLines_rereadCnt (k : Core) (a b : Nat) (v : Bool) : (k.markLines a b v).rereadCnt = k.rereadCnt := rfl
@[simp] theorem Core.markLines_fsCount (k : Core) (a b : Nat) (v : Bool) : (k.markLines a b v).fsCount = k.fsCount := rfl
@[simp] theorem Core.markLines_numStat (k : Core) (a b : Nat) (v : Bool) : (k.markLines a b v).numStat = k.numStat := rfl
@[simp] theorem Core.markLines_clamps (k : Core) (a b : Nat) (v : Bool) : (k.markLines a b v).clamps = k.clamps := rfl
@[simp] theorem Core.markLines_zeroBlocks (k : Core) (a b : Nat) (v : Bool) : (k.markLines a b v).zeroBlocks = k.zeroBlocks := rfl
@[simp] theorem Core.markLines_outlierOvf (k : Core) (a b : Nat) (v : Bool) : (k.markLines a b v).outlierOvf = k.outlierOvf := rfl
@[simp] theorem Core.markLines_scanCtrl (k : Core) (a b : Nat) (v : Bool) : (k.markLines a b v).scanCtrl = k.scanCtrl := rfl
@[simp] theorem Core.markLines_marginEvt (k : Core) (a b : Nat) (v : Bool) : (k.markLines a b v).marginEvt = k.marginEvt := rfl
@[simp] theorem Core.markLines_fails (k : Core) (a b : Nat) (v : Bool) : (k.markLines a b v).fails = k.fails := rfl
@[simp] theorem Core.markLines_lostArrays (k : Core) (a b : Nat) (v : Bool) : (k.markLines a b v).lostArrays = k.lostArrays := rfl
@[simp] theorem Core.markLines_sweepDone (k : Core) (a b : Nat) (v : Bool) : (k.markLines a b v).sweepDone = k.sweepDone := rfl
@[simp] theorem Core.markLines_sweepSlow (k : Core) (a b : Nat) (v : Bool) : (k.markLines a b v).sweepSlow = k.sweepSlow := rfl
@[simp] theorem Core.markLines_sweepTime (k : Core) (a b : Nat) (v : Bool) : (k.markLines a b v).sweepTime = k.sweepTime := rfl
@[simp] theorem Core.markLines_refreshed (k : Core) (a b : Nat) (v : Bool) : (k.markLines a b v).refreshed = k.refreshed := rfl
@[simp] theorem Core.markLines_marginBase (k : Core) (a b : Nat) (v : Bool) : (k.markLines a b v).marginBase = k.marginBase := rfl

/-! ### `Core.unitWrite` -/

@[simp] theorem Core.unitWrite_sregs (k : Core) (a : Nat) (bs : Bytes) : (k.unitWrite a bs).sregs = k.sregs := rfl
@[simp] theorem Core.unitWrite_tregs (k : Core) (a : Nat) (bs : Bytes) : (k.unitWrite a bs).tregs = k.tregs := rfl
@[simp] theorem Core.unitWrite_preds (k : Core) (a : Nat) (bs : Bytes) : (k.unitWrite a bs).preds = k.preds := rfl
@[simp] theorem Core.unitWrite_status (k : Core) (a : Nat) (bs : Bytes) : (k.unitWrite a bs).status = k.status := rfl
@[simp] theorem Core.unitWrite_stack (k : Core) (a : Nat) (bs : Bytes) : (k.unitWrite a bs).stack = k.stack := rfl
@[simp] theorem Core.unitWrite_pc (k : Core) (a : Nat) (bs : Bytes) : (k.unitWrite a bs).pc = k.pc := rfl
@[simp] theorem Core.unitWrite_run (k : Core) (a : Nat) (bs : Bytes) : (k.unitWrite a bs).run = k.run := rfl
@[simp] theorem Core.unitWrite_ended (k : Core) (a : Nat) (bs : Bytes) : (k.unitWrite a bs).ended = k.ended := rfl
@[simp] theorem Core.unitWrite_halted (k : Core) (a : Nat) (bs : Bytes) : (k.unitWrite a bs).halted = k.halted := rfl
@[simp] theorem Core.unitWrite_idle (k : Core) (a : Nat) (bs : Bytes) : (k.unitWrite a bs).idle = k.idle := rfl
@[simp] theorem Core.unitWrite_slot (k : Core) (a : Nat) (bs : Bytes) : (k.unitWrite a bs).slot = k.slot := rfl
@[simp] theorem Core.unitWrite_cyc (k : Core) (a : Nat) (bs : Bytes) : (k.unitWrite a bs).cyc = k.cyc := rfl
@[simp] theorem Core.unitWrite_sReady (k : Core) (a : Nat) (bs : Bytes) : (k.unitWrite a bs).sReady = k.sReady := rfl
@[simp] theorem Core.unitWrite_tReady (k : Core) (a : Nat) (bs : Bytes) : (k.unitWrite a bs).tReady = k.tReady := rfl
@[simp] theorem Core.unitWrite_pReady (k : Core) (a : Nat) (bs : Bytes) : (k.unitWrite a bs).pReady = k.pReady := rfl
@[simp] theorem Core.unitWrite_inflight (k : Core) (a : Nat) (bs : Bytes) : (k.unitWrite a bs).inflight = k.inflight := rfl
@[simp] theorem Core.unitWrite_stored (k : Core) (a : Nat) (bs : Bytes) : (k.unitWrite a bs).stored = k.stored := rfl
@[simp] theorem Core.unitWrite_nextId (k : Core) (a : Nat) (bs : Bytes) : (k.unitWrite a bs).nextId = k.nextId := rfl
@[simp] theorem Core.unitWrite_excSeen (k : Core) (a : Nat) (bs : Bytes) : (k.unitWrite a bs).excSeen = k.excSeen := rfl
@[simp] theorem Core.unitWrite_exc0 (k : Core) (a : Nat) (bs : Bytes) : (k.unitWrite a bs).exc0 = k.exc0 := rfl
@[simp] theorem Core.unitWrite_exc1 (k : Core) (a : Nat) (bs : Bytes) : (k.unitWrite a bs).exc1 = k.exc1 := rfl
@[simp] theorem Core.unitWrite_acc (k : Core) (a : Nat) (bs : Bytes) : (k.unitWrite a bs).acc = k.acc := rfl
@[simp] theorem Core.unitWrite_recvMap (k : Core) (a : Nat) (bs : Bytes) : (k.unitWrite a bs).recvMap = k.recvMap := rfl
@[simp] theorem Core.unitWrite_badAcc (k : Core) (a : Nat) (bs : Bytes) : (k.unitWrite a bs).badAcc = k.badAcc := rfl
@[simp] theorem Core.unitWrite_prog0 (k : Core) (a : Nat) (bs : Bytes) : (k.unitWrite a bs).prog0 = k.prog0 := rfl
@[simp] theorem Core.unitWrite_prog1 (k : Core) (a : Nat) (bs : Bytes) : (k.unitWrite a bs).prog1 = k.prog1 := rfl
@[simp] theorem Core.unitWrite_cwin0 (k : Core) (a : Nat) (bs : Bytes) : (k.unitWrite a bs).cwin0 = k.cwin0 := rfl
@[simp] theorem Core.unitWrite_cwin1 (k : Core) (a : Nat) (bs : Bytes) : (k.unitWrite a bs).cwin1 = k.cwin1 := rfl
@[simp] theorem Core.unitWrite_dwin0 (k : Core) (a : Nat) (bs : Bytes) : (k.unitWrite a bs).dwin0 = k.dwin0 := rfl
@[simp] theorem Core.unitWrite_dwin1 (k : Core) (a : Nat) (bs : Bytes) : (k.unitWrite a bs).dwin1 = k.dwin1 := rfl
@[simp] theorem Core.unitWrite_seqSafe (k : Core) (a : Nat) (bs : Bytes) : (k.unitWrite a bs).seqSafe = k.seqSafe := rfl
@[simp] theorem Core.unitWrite_arrays (k : Core) (a : Nat) (bs : Bytes) : (k.unitWrite a bs).arrays = k.arrays := rfl
@[simp] theorem Core.unitWrite_arrayMap (k : Core) (a : Nat) (bs : Bytes) : (k.unitWrite a bs).arrayMap = k.arrayMap := rfl
@[simp] theorem Core.unitWrite_mapNext (k : Core) (a : Nat) (bs : Bytes) : (k.unitWrite a bs).mapNext = k.mapNext := rfl
@[simp] theorem Core.unitWrite_constBase (k : Core) (a : Nat) (bs : Bytes) : (k.unitWrite a bs).constBase = k.constBase := rfl
@[simp] theorem Core.unitWrite_fp4 (k : Core) (a : Nat) (bs : Bytes) : (k.unitWrite a bs).fp4 = k.fp4 := rfl
@[simp] theorem Core.unitWrite_holidays (k : Core) (a : Nat) (bs : Bytes) : (k.unitWrite a bs).holidays = k.holidays := rfl
@[simp] theorem Core.unitWrite_holidayQueue (k : Core) (a : Nat) (bs : Bytes) : (k.unitWrite a bs).holidayQueue = k.holidayQueue := rfl
@[simp] theorem Core.unitWrite_checkDis (k : Core) (a : Nat) (bs : Bytes) : (k.unitWrite a bs).checkDis = k.checkDis := rfl
@[simp] theorem Core.unitWrite_checkLock (k : Core) (a : Nat) (bs : Bytes) : (k.unitWrite a bs).checkLock = k.checkLock := rfl
@[simp] theorem Core.unitWrite_eventStat (k : Core) (a : Nat) (bs : Bytes) : (k.unitWrite a bs).eventStat = k.eventStat := rfl
@[simp] theorem Core.unitWrite_faultInfo (k : Core) (a : Nat) (bs : Bytes) : (k.unitWrite a bs).faultInfo = k.faultInfo := rfl
@[simp] theorem Core.unitWrite_rereadCnt (k : Core) (a : Nat) (bs : Bytes) : (k.unitWrite a bs).rereadCnt = k.rereadCnt := rfl
@[simp] theorem Core.unitWrite_fsCount (k : Core) (a : Nat) (bs : Bytes) : (k.unitWrite a bs).fsCount = k.fsCount := rfl
@[simp] theorem Core.unitWrite_numStat (k : Core) (a : Nat) (bs : Bytes) : (k.unitWrite a bs).numStat = k.numStat := rfl
@[simp] theorem Core.unitWrite_clamps (k : Core) (a : Nat) (bs : Bytes) : (k.unitWrite a bs).clamps = k.clamps := rfl
@[simp] theorem Core.unitWrite_zeroBlocks (k : Core) (a : Nat) (bs : Bytes) : (k.unitWrite a bs).zeroBlocks = k.zeroBlocks := rfl
@[simp] theorem Core.unitWrite_outlierOvf (k : Core) (a : Nat) (bs : Bytes) : (k.unitWrite a bs).outlierOvf = k.outlierOvf := rfl
@[simp] theorem Core.unitWrite_scanCtrl (k : Core) (a : Nat) (bs : Bytes) : (k.unitWrite a bs).scanCtrl = k.scanCtrl := rfl
@[simp] theorem Core.unitWrite_marginEvt (k : Core) (a : Nat) (bs : Bytes) : (k.unitWrite a bs).marginEvt = k.marginEvt := rfl
@[simp] theorem Core.unitWrite_fails (k : Core) (a : Nat) (bs : Bytes) : (k.unitWrite a bs).fails = k.fails := rfl
@[simp] theorem Core.unitWrite_lostArrays (k : Core) (a : Nat) (bs : Bytes) : (k.unitWrite a bs).lostArrays = k.lostArrays := rfl
@[simp] theorem Core.unitWrite_sweepDone (k : Core) (a : Nat) (bs : Bytes) : (k.unitWrite a bs).sweepDone = k.sweepDone := rfl
@[simp] theorem Core.unitWrite_sweepSlow (k : Core) (a : Nat) (bs : Bytes) : (k.unitWrite a bs).sweepSlow = k.sweepSlow := rfl
@[simp] theorem Core.unitWrite_sweepTime (k : Core) (a : Nat) (bs : Bytes) : (k.unitWrite a bs).sweepTime = k.sweepTime := rfl
@[simp] theorem Core.unitWrite_refreshed (k : Core) (a : Nat) (bs : Bytes) : (k.unitWrite a bs).refreshed = k.refreshed := rfl
@[simp] theorem Core.unitWrite_marginBase (k : Core) (a : Nat) (bs : Bytes) : (k.unitWrite a bs).marginBase = k.marginBase := rfl

/-! ### `Core.event` -/

@[simp] theorem Core.event_sregs (k : Core) (i : Nat) : (k.event i).sregs = k.sregs := rfl
@[simp] theorem Core.event_tregs (k : Core) (i : Nat) : (k.event i).tregs = k.tregs := rfl
@[simp] theorem Core.event_preds (k : Core) (i : Nat) : (k.event i).preds = k.preds := rfl
@[simp] theorem Core.event_status (k : Core) (i : Nat) : (k.event i).status = k.status := rfl
@[simp] theorem Core.event_stack (k : Core) (i : Nat) : (k.event i).stack = k.stack := rfl
@[simp] theorem Core.event_pc (k : Core) (i : Nat) : (k.event i).pc = k.pc := rfl
@[simp] theorem Core.event_run (k : Core) (i : Nat) : (k.event i).run = k.run := rfl
@[simp] theorem Core.event_ended (k : Core) (i : Nat) : (k.event i).ended = k.ended := rfl
@[simp] theorem Core.event_halted (k : Core) (i : Nat) : (k.event i).halted = k.halted := rfl
@[simp] theorem Core.event_idle (k : Core) (i : Nat) : (k.event i).idle = k.idle := rfl
@[simp] theorem Core.event_slot (k : Core) (i : Nat) : (k.event i).slot = k.slot := rfl
@[simp] theorem Core.event_cyc (k : Core) (i : Nat) : (k.event i).cyc = k.cyc := rfl
@[simp] theorem Core.event_sReady (k : Core) (i : Nat) : (k.event i).sReady = k.sReady := rfl
@[simp] theorem Core.event_tReady (k : Core) (i : Nat) : (k.event i).tReady = k.tReady := rfl
@[simp] theorem Core.event_pReady (k : Core) (i : Nat) : (k.event i).pReady = k.pReady := rfl
@[simp] theorem Core.event_inflight (k : Core) (i : Nat) : (k.event i).inflight = k.inflight := rfl
@[simp] theorem Core.event_stored (k : Core) (i : Nat) : (k.event i).stored = k.stored := rfl
@[simp] theorem Core.event_nextId (k : Core) (i : Nat) : (k.event i).nextId = k.nextId := rfl
@[simp] theorem Core.event_excSeen (k : Core) (i : Nat) : (k.event i).excSeen = k.excSeen := rfl
@[simp] theorem Core.event_exc0 (k : Core) (i : Nat) : (k.event i).exc0 = k.exc0 := rfl
@[simp] theorem Core.event_exc1 (k : Core) (i : Nat) : (k.event i).exc1 = k.exc1 := rfl
@[simp] theorem Core.event_store (k : Core) (i : Nat) : (k.event i).store = k.store := rfl
@[simp] theorem Core.event_acc (k : Core) (i : Nat) : (k.event i).acc = k.acc := rfl
@[simp] theorem Core.event_arrival (k : Core) (i : Nat) : (k.event i).arrival = k.arrival := rfl
@[simp] theorem Core.event_recvMap (k : Core) (i : Nat) : (k.event i).recvMap = k.recvMap := rfl
@[simp] theorem Core.event_badStore (k : Core) (i : Nat) : (k.event i).badStore = k.badStore := rfl
@[simp] theorem Core.event_badAcc (k : Core) (i : Nat) : (k.event i).badAcc = k.badAcc := rfl
@[simp] theorem Core.event_prog0 (k : Core) (i : Nat) : (k.event i).prog0 = k.prog0 := rfl
@[simp] theorem Core.event_prog1 (k : Core) (i : Nat) : (k.event i).prog1 = k.prog1 := rfl
@[simp] theorem Core.event_cwin0 (k : Core) (i : Nat) : (k.event i).cwin0 = k.cwin0 := rfl
@[simp] theorem Core.event_cwin1 (k : Core) (i : Nat) : (k.event i).cwin1 = k.cwin1 := rfl
@[simp] theorem Core.event_dwin0 (k : Core) (i : Nat) : (k.event i).dwin0 = k.dwin0 := rfl
@[simp] theorem Core.event_dwin1 (k : Core) (i : Nat) : (k.event i).dwin1 = k.dwin1 := rfl
@[simp] theorem Core.event_seqSafe (k : Core) (i : Nat) : (k.event i).seqSafe = k.seqSafe := rfl
@[simp] theorem Core.event_arrays (k : Core) (i : Nat) : (k.event i).arrays = k.arrays := rfl
@[simp] theorem Core.event_arrayMap (k : Core) (i : Nat) : (k.event i).arrayMap = k.arrayMap := rfl
@[simp] theorem Core.event_mapNext (k : Core) (i : Nat) : (k.event i).mapNext = k.mapNext := rfl
@[simp] theorem Core.event_constBase (k : Core) (i : Nat) : (k.event i).constBase = k.constBase := rfl
@[simp] theorem Core.event_fp4 (k : Core) (i : Nat) : (k.event i).fp4 = k.fp4 := rfl
@[simp] theorem Core.event_holidays (k : Core) (i : Nat) : (k.event i).holidays = k.holidays := rfl
@[simp] theorem Core.event_holidayQueue (k : Core) (i : Nat) : (k.event i).holidayQueue = k.holidayQueue := rfl
@[simp] theorem Core.event_checkDis (k : Core) (i : Nat) : (k.event i).checkDis = k.checkDis := rfl
@[simp] theorem Core.event_checkLock (k : Core) (i : Nat) : (k.event i).checkLock = k.checkLock := rfl
@[simp] theorem Core.event_faultInfo (k : Core) (i : Nat) : (k.event i).faultInfo = k.faultInfo := rfl
@[simp] theorem Core.event_rereadCnt (k : Core) (i : Nat) : (k.event i).rereadCnt = k.rereadCnt := rfl
@[simp] theorem Core.event_fsCount (k : Core) (i : Nat) : (k.event i).fsCount = k.fsCount := rfl
@[simp] theorem Core.event_numStat (k : Core) (i : Nat) : (k.event i).numStat = k.numStat := rfl
@[simp] theorem Core.event_clamps (k : Core) (i : Nat) : (k.event i).clamps = k.clamps := rfl
@[simp] theorem Core.event_zeroBlocks (k : Core) (i : Nat) : (k.event i).zeroBlocks = k.zeroBlocks := rfl
@[simp] theorem Core.event_outlierOvf (k : Core) (i : Nat) : (k.event i).outlierOvf = k.outlierOvf := rfl
@[simp] theorem Core.event_scanCtrl (k : Core) (i : Nat) : (k.event i).scanCtrl = k.scanCtrl := rfl
@[simp] theorem Core.event_marginEvt (k : Core) (i : Nat) : (k.event i).marginEvt = k.marginEvt := rfl
@[simp] theorem Core.event_fails (k : Core) (i : Nat) : (k.event i).fails = k.fails := rfl
@[simp] theorem Core.event_lostArrays (k : Core) (i : Nat) : (k.event i).lostArrays = k.lostArrays := rfl
@[simp] theorem Core.event_sweepDone (k : Core) (i : Nat) : (k.event i).sweepDone = k.sweepDone := rfl
@[simp] theorem Core.event_sweepSlow (k : Core) (i : Nat) : (k.event i).sweepSlow = k.sweepSlow := rfl
@[simp] theorem Core.event_sweepTime (k : Core) (i : Nat) : (k.event i).sweepTime = k.sweepTime := rfl
@[simp] theorem Core.event_refreshed (k : Core) (i : Nat) : (k.event i).refreshed = k.refreshed := rfl
@[simp] theorem Core.event_marginBase (k : Core) (i : Nat) : (k.event i).marginBase = k.marginBase := rfl

/-! ### `Core.showFlags` -/

@[simp] theorem Core.showFlags_sregs (k : Core) (fl : W32) : (k.showFlags fl).sregs = k.sregs := rfl
@[simp] theorem Core.showFlags_tregs (k : Core) (fl : W32) : (k.showFlags fl).tregs = k.tregs := rfl
@[simp] theorem Core.showFlags_preds (k : Core) (fl : W32) : (k.showFlags fl).preds = k.preds := rfl
@[simp] theorem Core.showFlags_stack (k : Core) (fl : W32) : (k.showFlags fl).stack = k.stack := rfl
@[simp] theorem Core.showFlags_pc (k : Core) (fl : W32) : (k.showFlags fl).pc = k.pc := rfl
@[simp] theorem Core.showFlags_run (k : Core) (fl : W32) : (k.showFlags fl).run = k.run := rfl
@[simp] theorem Core.showFlags_ended (k : Core) (fl : W32) : (k.showFlags fl).ended = k.ended := rfl
@[simp] theorem Core.showFlags_halted (k : Core) (fl : W32) : (k.showFlags fl).halted = k.halted := rfl
@[simp] theorem Core.showFlags_idle (k : Core) (fl : W32) : (k.showFlags fl).idle = k.idle := rfl
@[simp] theorem Core.showFlags_slot (k : Core) (fl : W32) : (k.showFlags fl).slot = k.slot := rfl
@[simp] theorem Core.showFlags_cyc (k : Core) (fl : W32) : (k.showFlags fl).cyc = k.cyc := rfl
@[simp] theorem Core.showFlags_sReady (k : Core) (fl : W32) : (k.showFlags fl).sReady = k.sReady := rfl
@[simp] theorem Core.showFlags_tReady (k : Core) (fl : W32) : (k.showFlags fl).tReady = k.tReady := rfl
@[simp] theorem Core.showFlags_pReady (k : Core) (fl : W32) : (k.showFlags fl).pReady = k.pReady := rfl
@[simp] theorem Core.showFlags_inflight (k : Core) (fl : W32) : (k.showFlags fl).inflight = k.inflight := rfl
@[simp] theorem Core.showFlags_stored (k : Core) (fl : W32) : (k.showFlags fl).stored = k.stored := rfl
@[simp] theorem Core.showFlags_nextId (k : Core) (fl : W32) : (k.showFlags fl).nextId = k.nextId := rfl
@[simp] theorem Core.showFlags_excSeen (k : Core) (fl : W32) : (k.showFlags fl).excSeen = k.excSeen := rfl
@[simp] theorem Core.showFlags_exc0 (k : Core) (fl : W32) : (k.showFlags fl).exc0 = k.exc0 := rfl
@[simp] theorem Core.showFlags_exc1 (k : Core) (fl : W32) : (k.showFlags fl).exc1 = k.exc1 := rfl
@[simp] theorem Core.showFlags_store (k : Core) (fl : W32) : (k.showFlags fl).store = k.store := rfl
@[simp] theorem Core.showFlags_acc (k : Core) (fl : W32) : (k.showFlags fl).acc = k.acc := rfl
@[simp] theorem Core.showFlags_arrival (k : Core) (fl : W32) : (k.showFlags fl).arrival = k.arrival := rfl
@[simp] theorem Core.showFlags_recvMap (k : Core) (fl : W32) : (k.showFlags fl).recvMap = k.recvMap := rfl
@[simp] theorem Core.showFlags_badStore (k : Core) (fl : W32) : (k.showFlags fl).badStore = k.badStore := rfl
@[simp] theorem Core.showFlags_badAcc (k : Core) (fl : W32) : (k.showFlags fl).badAcc = k.badAcc := rfl
@[simp] theorem Core.showFlags_prog0 (k : Core) (fl : W32) : (k.showFlags fl).prog0 = k.prog0 := rfl
@[simp] theorem Core.showFlags_prog1 (k : Core) (fl : W32) : (k.showFlags fl).prog1 = k.prog1 := rfl
@[simp] theorem Core.showFlags_cwin0 (k : Core) (fl : W32) : (k.showFlags fl).cwin0 = k.cwin0 := rfl
@[simp] theorem Core.showFlags_cwin1 (k : Core) (fl : W32) : (k.showFlags fl).cwin1 = k.cwin1 := rfl
@[simp] theorem Core.showFlags_dwin0 (k : Core) (fl : W32) : (k.showFlags fl).dwin0 = k.dwin0 := rfl
@[simp] theorem Core.showFlags_dwin1 (k : Core) (fl : W32) : (k.showFlags fl).dwin1 = k.dwin1 := rfl
@[simp] theorem Core.showFlags_seqSafe (k : Core) (fl : W32) : (k.showFlags fl).seqSafe = k.seqSafe := rfl
@[simp] theorem Core.showFlags_arrays (k : Core) (fl : W32) : (k.showFlags fl).arrays = k.arrays := rfl
@[simp] theorem Core.showFlags_arrayMap (k : Core) (fl : W32) : (k.showFlags fl).arrayMap = k.arrayMap := rfl
@[simp] theorem Core.showFlags_mapNext (k : Core) (fl : W32) : (k.showFlags fl).mapNext = k.mapNext := rfl
@[simp] theorem Core.showFlags_constBase (k : Core) (fl : W32) : (k.showFlags fl).constBase = k.constBase := rfl
@[simp] theorem Core.showFlags_fp4 (k : Core) (fl : W32) : (k.showFlags fl).fp4 = k.fp4 := rfl
@[simp] theorem Core.showFlags_holidays (k : Core) (fl : W32) : (k.showFlags fl).holidays = k.holidays := rfl
@[simp] theorem Core.showFlags_holidayQueue (k : Core) (fl : W32) : (k.showFlags fl).holidayQueue = k.holidayQueue := rfl
@[simp] theorem Core.showFlags_checkDis (k : Core) (fl : W32) : (k.showFlags fl).checkDis = k.checkDis := rfl
@[simp] theorem Core.showFlags_checkLock (k : Core) (fl : W32) : (k.showFlags fl).checkLock = k.checkLock := rfl
@[simp] theorem Core.showFlags_eventStat (k : Core) (fl : W32) : (k.showFlags fl).eventStat = k.eventStat := rfl
@[simp] theorem Core.showFlags_faultInfo (k : Core) (fl : W32) : (k.showFlags fl).faultInfo = k.faultInfo := rfl
@[simp] theorem Core.showFlags_rereadCnt (k : Core) (fl : W32) : (k.showFlags fl).rereadCnt = k.rereadCnt := rfl
@[simp] theorem Core.showFlags_fsCount (k : Core) (fl : W32) : (k.showFlags fl).fsCount = k.fsCount := rfl
@[simp] theorem Core.showFlags_clamps (k : Core) (fl : W32) : (k.showFlags fl).clamps = k.clamps := rfl
@[simp] theorem Core.showFlags_zeroBlocks (k : Core) (fl : W32) : (k.showFlags fl).zeroBlocks = k.zeroBlocks := rfl
@[simp] theorem Core.showFlags_outlierOvf (k : Core) (fl : W32) : (k.showFlags fl).outlierOvf = k.outlierOvf := rfl
@[simp] theorem Core.showFlags_scanCtrl (k : Core) (fl : W32) : (k.showFlags fl).scanCtrl = k.scanCtrl := rfl
@[simp] theorem Core.showFlags_marginEvt (k : Core) (fl : W32) : (k.showFlags fl).marginEvt = k.marginEvt := rfl
@[simp] theorem Core.showFlags_fails (k : Core) (fl : W32) : (k.showFlags fl).fails = k.fails := rfl
@[simp] theorem Core.showFlags_lostArrays (k : Core) (fl : W32) : (k.showFlags fl).lostArrays = k.lostArrays := rfl
@[simp] theorem Core.showFlags_sweepDone (k : Core) (fl : W32) : (k.showFlags fl).sweepDone = k.sweepDone := rfl
@[simp] theorem Core.showFlags_sweepSlow (k : Core) (fl : W32) : (k.showFlags fl).sweepSlow = k.sweepSlow := rfl
@[simp] theorem Core.showFlags_sweepTime (k : Core) (fl : W32) : (k.showFlags fl).sweepTime = k.sweepTime := rfl
@[simp] theorem Core.showFlags_refreshed (k : Core) (fl : W32) : (k.showFlags fl).refreshed = k.refreshed := rfl
@[simp] theorem Core.showFlags_marginBase (k : Core) (fl : W32) : (k.showFlags fl).marginBase = k.marginBase := rfl

/-! ### `Core.pend` -/

@[simp] theorem Core.pend_sregs (k : Core) (id i : Nat) : (k.pend id i).sregs = k.sregs := rfl
@[simp] theorem Core.pend_tregs (k : Core) (id i : Nat) : (k.pend id i).tregs = k.tregs := rfl
@[simp] theorem Core.pend_preds (k : Core) (id i : Nat) : (k.pend id i).preds = k.preds := rfl
@[simp] theorem Core.pend_status (k : Core) (id i : Nat) : (k.pend id i).status = k.status := rfl
@[simp] theorem Core.pend_stack (k : Core) (id i : Nat) : (k.pend id i).stack = k.stack := rfl
@[simp] theorem Core.pend_pc (k : Core) (id i : Nat) : (k.pend id i).pc = k.pc := rfl
@[simp] theorem Core.pend_run (k : Core) (id i : Nat) : (k.pend id i).run = k.run := rfl
@[simp] theorem Core.pend_ended (k : Core) (id i : Nat) : (k.pend id i).ended = k.ended := rfl
@[simp] theorem Core.pend_halted (k : Core) (id i : Nat) : (k.pend id i).halted = k.halted := rfl
@[simp] theorem Core.pend_idle (k : Core) (id i : Nat) : (k.pend id i).idle = k.idle := rfl
@[simp] theorem Core.pend_slot (k : Core) (id i : Nat) : (k.pend id i).slot = k.slot := rfl
@[simp] theorem Core.pend_cyc (k : Core) (id i : Nat) : (k.pend id i).cyc = k.cyc := rfl
@[simp] theorem Core.pend_sReady (k : Core) (id i : Nat) : (k.pend id i).sReady = k.sReady := rfl
@[simp] theorem Core.pend_tReady (k : Core) (id i : Nat) : (k.pend id i).tReady = k.tReady := rfl
@[simp] theorem Core.pend_pReady (k : Core) (id i : Nat) : (k.pend id i).pReady = k.pReady := rfl
@[simp] theorem Core.pend_stored (k : Core) (id i : Nat) : (k.pend id i).stored = k.stored := rfl
@[simp] theorem Core.pend_nextId (k : Core) (id i : Nat) : (k.pend id i).nextId = k.nextId := rfl
@[simp] theorem Core.pend_excSeen (k : Core) (id i : Nat) : (k.pend id i).excSeen = k.excSeen := rfl
@[simp] theorem Core.pend_exc0 (k : Core) (id i : Nat) : (k.pend id i).exc0 = k.exc0 := rfl
@[simp] theorem Core.pend_exc1 (k : Core) (id i : Nat) : (k.pend id i).exc1 = k.exc1 := rfl
@[simp] theorem Core.pend_store (k : Core) (id i : Nat) : (k.pend id i).store = k.store := rfl
@[simp] theorem Core.pend_acc (k : Core) (id i : Nat) : (k.pend id i).acc = k.acc := rfl
@[simp] theorem Core.pend_arrival (k : Core) (id i : Nat) : (k.pend id i).arrival = k.arrival := rfl
@[simp] theorem Core.pend_recvMap (k : Core) (id i : Nat) : (k.pend id i).recvMap = k.recvMap := rfl
@[simp] theorem Core.pend_badStore (k : Core) (id i : Nat) : (k.pend id i).badStore = k.badStore := rfl
@[simp] theorem Core.pend_badAcc (k : Core) (id i : Nat) : (k.pend id i).badAcc = k.badAcc := rfl
@[simp] theorem Core.pend_prog0 (k : Core) (id i : Nat) : (k.pend id i).prog0 = k.prog0 := rfl
@[simp] theorem Core.pend_prog1 (k : Core) (id i : Nat) : (k.pend id i).prog1 = k.prog1 := rfl
@[simp] theorem Core.pend_cwin0 (k : Core) (id i : Nat) : (k.pend id i).cwin0 = k.cwin0 := rfl
@[simp] theorem Core.pend_cwin1 (k : Core) (id i : Nat) : (k.pend id i).cwin1 = k.cwin1 := rfl
@[simp] theorem Core.pend_dwin0 (k : Core) (id i : Nat) : (k.pend id i).dwin0 = k.dwin0 := rfl
@[simp] theorem Core.pend_dwin1 (k : Core) (id i : Nat) : (k.pend id i).dwin1 = k.dwin1 := rfl
@[simp] theorem Core.pend_seqSafe (k : Core) (id i : Nat) : (k.pend id i).seqSafe = k.seqSafe := rfl
@[simp] theorem Core.pend_arrays (k : Core) (id i : Nat) : (k.pend id i).arrays = k.arrays := rfl
@[simp] theorem Core.pend_arrayMap (k : Core) (id i : Nat) : (k.pend id i).arrayMap = k.arrayMap := rfl
@[simp] theorem Core.pend_mapNext (k : Core) (id i : Nat) : (k.pend id i).mapNext = k.mapNext := rfl
@[simp] theorem Core.pend_constBase (k : Core) (id i : Nat) : (k.pend id i).constBase = k.constBase := rfl
@[simp] theorem Core.pend_fp4 (k : Core) (id i : Nat) : (k.pend id i).fp4 = k.fp4 := rfl
@[simp] theorem Core.pend_holidays (k : Core) (id i : Nat) : (k.pend id i).holidays = k.holidays := rfl
@[simp] theorem Core.pend_holidayQueue (k : Core) (id i : Nat) : (k.pend id i).holidayQueue = k.holidayQueue := rfl
@[simp] theorem Core.pend_checkDis (k : Core) (id i : Nat) : (k.pend id i).checkDis = k.checkDis := rfl
@[simp] theorem Core.pend_checkLock (k : Core) (id i : Nat) : (k.pend id i).checkLock = k.checkLock := rfl
@[simp] theorem Core.pend_eventStat (k : Core) (id i : Nat) : (k.pend id i).eventStat = k.eventStat := rfl
@[simp] theorem Core.pend_faultInfo (k : Core) (id i : Nat) : (k.pend id i).faultInfo = k.faultInfo := rfl
@[simp] theorem Core.pend_rereadCnt (k : Core) (id i : Nat) : (k.pend id i).rereadCnt = k.rereadCnt := rfl
@[simp] theorem Core.pend_fsCount (k : Core) (id i : Nat) : (k.pend id i).fsCount = k.fsCount := rfl
@[simp] theorem Core.pend_numStat (k : Core) (id i : Nat) : (k.pend id i).numStat = k.numStat := rfl
@[simp] theorem Core.pend_clamps (k : Core) (id i : Nat) : (k.pend id i).clamps = k.clamps := rfl
@[simp] theorem Core.pend_zeroBlocks (k : Core) (id i : Nat) : (k.pend id i).zeroBlocks = k.zeroBlocks := rfl
@[simp] theorem Core.pend_outlierOvf (k : Core) (id i : Nat) : (k.pend id i).outlierOvf = k.outlierOvf := rfl
@[simp] theorem Core.pend_scanCtrl (k : Core) (id i : Nat) : (k.pend id i).scanCtrl = k.scanCtrl := rfl
@[simp] theorem Core.pend_marginEvt (k : Core) (id i : Nat) : (k.pend id i).marginEvt = k.marginEvt := rfl
@[simp] theorem Core.pend_fails (k : Core) (id i : Nat) : (k.pend id i).fails = k.fails := rfl
@[simp] theorem Core.pend_lostArrays (k : Core) (id i : Nat) : (k.pend id i).lostArrays = k.lostArrays := rfl
@[simp] theorem Core.pend_sweepDone (k : Core) (id i : Nat) : (k.pend id i).sweepDone = k.sweepDone := rfl
@[simp] theorem Core.pend_sweepSlow (k : Core) (id i : Nat) : (k.pend id i).sweepSlow = k.sweepSlow := rfl
@[simp] theorem Core.pend_sweepTime (k : Core) (id i : Nat) : (k.pend id i).sweepTime = k.sweepTime := rfl
@[simp] theorem Core.pend_refreshed (k : Core) (id i : Nat) : (k.pend id i).refreshed = k.refreshed := rfl
@[simp] theorem Core.pend_marginBase (k : Core) (id i : Nat) : (k.pend id i).marginBase = k.marginBase := rfl

/-! ### `Core.complete` -/

@[simp] theorem Core.complete_sregs (k : Core) (u : UnitInst) (d : Nat) : (k.complete u d).sregs = k.sregs := rfl
@[simp] theorem Core.complete_tregs (k : Core) (u : UnitInst) (d : Nat) : (k.complete u d).tregs = k.tregs := rfl
@[simp] theorem Core.complete_preds (k : Core) (u : UnitInst) (d : Nat) : (k.complete u d).preds = k.preds := rfl
@[simp] theorem Core.complete_stack (k : Core) (u : UnitInst) (d : Nat) : (k.complete u d).stack = k.stack := rfl
@[simp] theorem Core.complete_pc (k : Core) (u : UnitInst) (d : Nat) : (k.complete u d).pc = k.pc := rfl
@[simp] theorem Core.complete_run (k : Core) (u : UnitInst) (d : Nat) : (k.complete u d).run = k.run := rfl
@[simp] theorem Core.complete_ended (k : Core) (u : UnitInst) (d : Nat) : (k.complete u d).ended = k.ended := rfl
@[simp] theorem Core.complete_halted (k : Core) (u : UnitInst) (d : Nat) : (k.complete u d).halted = k.halted := rfl
@[simp] theorem Core.complete_idle (k : Core) (u : UnitInst) (d : Nat) : (k.complete u d).idle = k.idle := rfl
@[simp] theorem Core.complete_slot (k : Core) (u : UnitInst) (d : Nat) : (k.complete u d).slot = k.slot := rfl
@[simp] theorem Core.complete_sReady (k : Core) (u : UnitInst) (d : Nat) : (k.complete u d).sReady = k.sReady := rfl
@[simp] theorem Core.complete_tReady (k : Core) (u : UnitInst) (d : Nat) : (k.complete u d).tReady = k.tReady := rfl
@[simp] theorem Core.complete_pReady (k : Core) (u : UnitInst) (d : Nat) : (k.complete u d).pReady = k.pReady := rfl
@[simp] theorem Core.complete_stored (k : Core) (u : UnitInst) (d : Nat) : (k.complete u d).stored = k.stored := rfl
@[simp] theorem Core.complete_nextId (k : Core) (u : UnitInst) (d : Nat) : (k.complete u d).nextId = k.nextId := rfl
@[simp] theorem Core.complete_excSeen (k : Core) (u : UnitInst) (d : Nat) : (k.complete u d).excSeen = k.excSeen := rfl
@[simp] theorem Core.complete_exc0 (k : Core) (u : UnitInst) (d : Nat) : (k.complete u d).exc0 = k.exc0 := rfl
@[simp] theorem Core.complete_exc1 (k : Core) (u : UnitInst) (d : Nat) : (k.complete u d).exc1 = k.exc1 := rfl
@[simp] theorem Core.complete_store (k : Core) (u : UnitInst) (d : Nat) : (k.complete u d).store = k.store := rfl
@[simp] theorem Core.complete_acc (k : Core) (u : UnitInst) (d : Nat) : (k.complete u d).acc = k.acc := rfl
@[simp] theorem Core.complete_arrival (k : Core) (u : UnitInst) (d : Nat) : (k.complete u d).arrival = k.arrival := rfl
@[simp] theorem Core.complete_recvMap (k : Core) (u : UnitInst) (d : Nat) : (k.complete u d).recvMap = k.recvMap := rfl
@[simp] theorem Core.complete_badStore (k : Core) (u : UnitInst) (d : Nat) : (k.complete u d).badStore = k.badStore := rfl
@[simp] theorem Core.complete_badAcc (k : Core) (u : UnitInst) (d : Nat) : (k.complete u d).badAcc = k.badAcc := rfl
@[simp] theorem Core.complete_prog0 (k : Core) (u : UnitInst) (d : Nat) : (k.complete u d).prog0 = k.prog0 := rfl
@[simp] theorem Core.complete_prog1 (k : Core) (u : UnitInst) (d : Nat) : (k.complete u d).prog1 = k.prog1 := rfl
@[simp] theorem Core.complete_cwin0 (k : Core) (u : UnitInst) (d : Nat) : (k.complete u d).cwin0 = k.cwin0 := rfl
@[simp] theorem Core.complete_cwin1 (k : Core) (u : UnitInst) (d : Nat) : (k.complete u d).cwin1 = k.cwin1 := rfl
@[simp] theorem Core.complete_dwin0 (k : Core) (u : UnitInst) (d : Nat) : (k.complete u d).dwin0 = k.dwin0 := rfl
@[simp] theorem Core.complete_dwin1 (k : Core) (u : UnitInst) (d : Nat) : (k.complete u d).dwin1 = k.dwin1 := rfl
@[simp] theorem Core.complete_seqSafe (k : Core) (u : UnitInst) (d : Nat) : (k.complete u d).seqSafe = k.seqSafe := rfl
@[simp] theorem Core.complete_arrays (k : Core) (u : UnitInst) (d : Nat) : (k.complete u d).arrays = k.arrays := rfl
@[simp] theorem Core.complete_arrayMap (k : Core) (u : UnitInst) (d : Nat) : (k.complete u d).arrayMap = k.arrayMap := rfl
@[simp] theorem Core.complete_mapNext (k : Core) (u : UnitInst) (d : Nat) : (k.complete u d).mapNext = k.mapNext := rfl
@[simp] theorem Core.complete_constBase (k : Core) (u : UnitInst) (d : Nat) : (k.complete u d).constBase = k.constBase := rfl
@[simp] theorem Core.complete_fp4 (k : Core) (u : UnitInst) (d : Nat) : (k.complete u d).fp4 = k.fp4 := rfl
@[simp] theorem Core.complete_holidays (k : Core) (u : UnitInst) (d : Nat) : (k.complete u d).holidays = k.holidays := rfl
@[simp] theorem Core.complete_holidayQueue (k : Core) (u : UnitInst) (d : Nat) : (k.complete u d).holidayQueue = k.holidayQueue := rfl
@[simp] theorem Core.complete_checkDis (k : Core) (u : UnitInst) (d : Nat) : (k.complete u d).checkDis = k.checkDis := rfl
@[simp] theorem Core.complete_checkLock (k : Core) (u : UnitInst) (d : Nat) : (k.complete u d).checkLock = k.checkLock := rfl
@[simp] theorem Core.complete_eventStat (k : Core) (u : UnitInst) (d : Nat) : (k.complete u d).eventStat = k.eventStat := rfl
@[simp] theorem Core.complete_faultInfo (k : Core) (u : UnitInst) (d : Nat) : (k.complete u d).faultInfo = k.faultInfo := rfl
@[simp] theorem Core.complete_rereadCnt (k : Core) (u : UnitInst) (d : Nat) : (k.complete u d).rereadCnt = k.rereadCnt := rfl
@[simp] theorem Core.complete_fsCount (k : Core) (u : UnitInst) (d : Nat) : (k.complete u d).fsCount = k.fsCount := rfl
@[simp] theorem Core.complete_clamps (k : Core) (u : UnitInst) (d : Nat) : (k.complete u d).clamps = k.clamps := rfl
@[simp] theorem Core.complete_zeroBlocks (k : Core) (u : UnitInst) (d : Nat) : (k.complete u d).zeroBlocks = k.zeroBlocks := rfl
@[simp] theorem Core.complete_outlierOvf (k : Core) (u : UnitInst) (d : Nat) : (k.complete u d).outlierOvf = k.outlierOvf := rfl
@[simp] theorem Core.complete_scanCtrl (k : Core) (u : UnitInst) (d : Nat) : (k.complete u d).scanCtrl = k.scanCtrl := rfl
@[simp] theorem Core.complete_marginEvt (k : Core) (u : UnitInst) (d : Nat) : (k.complete u d).marginEvt = k.marginEvt := rfl
@[simp] theorem Core.complete_fails (k : Core) (u : UnitInst) (d : Nat) : (k.complete u d).fails = k.fails := rfl
@[simp] theorem Core.complete_lostArrays (k : Core) (u : UnitInst) (d : Nat) : (k.complete u d).lostArrays = k.lostArrays := rfl
@[simp] theorem Core.complete_sweepDone (k : Core) (u : UnitInst) (d : Nat) : (k.complete u d).sweepDone = k.sweepDone := rfl
@[simp] theorem Core.complete_sweepSlow (k : Core) (u : UnitInst) (d : Nat) : (k.complete u d).sweepSlow = k.sweepSlow := rfl
@[simp] theorem Core.complete_sweepTime (k : Core) (u : UnitInst) (d : Nat) : (k.complete u d).sweepTime = k.sweepTime := rfl
@[simp] theorem Core.complete_refreshed (k : Core) (u : UnitInst) (d : Nat) : (k.complete u d).refreshed = k.refreshed := rfl
@[simp] theorem Core.complete_marginBase (k : Core) (u : UnitInst) (d : Nat) : (k.complete u d).marginBase = k.marginBase := rfl

/-! ### Register writes that a hard-wired register ignores -/

theorem Core.setS_eq (k : Core) (r : SReg) (v : W64) : k.setS r v = { k with sregs := (k.setS r v).sregs } := by
  unfold Core.setS; split <;> rfl

@[simp] theorem Core.setS_tregs (k : Core) (r : SReg) (v : W64) : (k.setS r v).tregs = k.tregs := by rw [Core.setS_eq]
@[simp] theorem Core.setS_preds (k : Core) (r : SReg) (v : W64) : (k.setS r v).preds = k.preds := by rw [Core.setS_eq]
@[simp] theorem Core.setS_status (k : Core) (r : SReg) (v : W64) : (k.setS r v).status = k.status := by rw [Core.setS_eq]
@[simp] theorem Core.setS_stack (k : Core) (r : SReg) (v : W64) : (k.setS r v).stack = k.stack := by rw [Core.setS_eq]
@[simp] theorem Core.setS_pc (k : Core) (r : SReg) (v : W64) : (k.setS r v).pc = k.pc := by rw [Core.setS_eq]
@[simp] theorem Core.setS_run (k : Core) (r : SReg) (v : W64) : (k.setS r v).run = k.run := by rw [Core.setS_eq]
@[simp] theorem Core.setS_ended (k : Core) (r : SReg) (v : W64) : (k.setS r v).ended = k.ended := by rw [Core.setS_eq]
@[simp] theorem Core.setS_halted (k : Core) (r : SReg) (v : W64) : (k.setS r v).halted = k.halted := by rw [Core.setS_eq]
@[simp] theorem Core.setS_idle (k : Core) (r : SReg) (v : W64) : (k.setS r v).idle = k.idle := by rw [Core.setS_eq]
@[simp] theorem Core.setS_slot (k : Core) (r : SReg) (v : W64) : (k.setS r v).slot = k.slot := by rw [Core.setS_eq]
@[simp] theorem Core.setS_cyc (k : Core) (r : SReg) (v : W64) : (k.setS r v).cyc = k.cyc := by rw [Core.setS_eq]
@[simp] theorem Core.setS_sReady (k : Core) (r : SReg) (v : W64) : (k.setS r v).sReady = k.sReady := by rw [Core.setS_eq]
@[simp] theorem Core.setS_tReady (k : Core) (r : SReg) (v : W64) : (k.setS r v).tReady = k.tReady := by rw [Core.setS_eq]
@[simp] theorem Core.setS_pReady (k : Core) (r : SReg) (v : W64) : (k.setS r v).pReady = k.pReady := by rw [Core.setS_eq]
@[simp] theorem Core.setS_inflight (k : Core) (r : SReg) (v : W64) : (k.setS r v).inflight = k.inflight := by rw [Core.setS_eq]
@[simp] theorem Core.setS_stored (k : Core) (r : SReg) (v : W64) : (k.setS r v).stored = k.stored := by rw [Core.setS_eq]
@[simp] theorem Core.setS_nextId (k : Core) (r : SReg) (v : W64) : (k.setS r v).nextId = k.nextId := by rw [Core.setS_eq]
@[simp] theorem Core.setS_excSeen (k : Core) (r : SReg) (v : W64) : (k.setS r v).excSeen = k.excSeen := by rw [Core.setS_eq]
@[simp] theorem Core.setS_exc0 (k : Core) (r : SReg) (v : W64) : (k.setS r v).exc0 = k.exc0 := by rw [Core.setS_eq]
@[simp] theorem Core.setS_exc1 (k : Core) (r : SReg) (v : W64) : (k.setS r v).exc1 = k.exc1 := by rw [Core.setS_eq]
@[simp] theorem Core.setS_store (k : Core) (r : SReg) (v : W64) : (k.setS r v).store = k.store := by rw [Core.setS_eq]
@[simp] theorem Core.setS_acc (k : Core) (r : SReg) (v : W64) : (k.setS r v).acc = k.acc := by rw [Core.setS_eq]
@[simp] theorem Core.setS_arrival (k : Core) (r : SReg) (v : W64) : (k.setS r v).arrival = k.arrival := by rw [Core.setS_eq]
@[simp] theorem Core.setS_recvMap (k : Core) (r : SReg) (v : W64) : (k.setS r v).recvMap = k.recvMap := by rw [Core.setS_eq]
@[simp] theorem Core.setS_badStore (k : Core) (r : SReg) (v : W64) : (k.setS r v).badStore = k.badStore := by rw [Core.setS_eq]
@[simp] theorem Core.setS_badAcc (k : Core) (r : SReg) (v : W64) : (k.setS r v).badAcc = k.badAcc := by rw [Core.setS_eq]
@[simp] theorem Core.setS_prog0 (k : Core) (r : SReg) (v : W64) : (k.setS r v).prog0 = k.prog0 := by rw [Core.setS_eq]
@[simp] theorem Core.setS_prog1 (k : Core) (r : SReg) (v : W64) : (k.setS r v).prog1 = k.prog1 := by rw [Core.setS_eq]
@[simp] theorem Core.setS_cwin0 (k : Core) (r : SReg) (v : W64) : (k.setS r v).cwin0 = k.cwin0 := by rw [Core.setS_eq]
@[simp] theorem Core.setS_cwin1 (k : Core) (r : SReg) (v : W64) : (k.setS r v).cwin1 = k.cwin1 := by rw [Core.setS_eq]
@[simp] theorem Core.setS_dwin0 (k : Core) (r : SReg) (v : W64) : (k.setS r v).dwin0 = k.dwin0 := by rw [Core.setS_eq]
@[simp] theorem Core.setS_dwin1 (k : Core) (r : SReg) (v : W64) : (k.setS r v).dwin1 = k.dwin1 := by rw [Core.setS_eq]
@[simp] theorem Core.setS_seqSafe (k : Core) (r : SReg) (v : W64) : (k.setS r v).seqSafe = k.seqSafe := by rw [Core.setS_eq]
@[simp] theorem Core.setS_arrays (k : Core) (r : SReg) (v : W64) : (k.setS r v).arrays = k.arrays := by rw [Core.setS_eq]
@[simp] theorem Core.setS_arrayMap (k : Core) (r : SReg) (v : W64) : (k.setS r v).arrayMap = k.arrayMap := by rw [Core.setS_eq]
@[simp] theorem Core.setS_mapNext (k : Core) (r : SReg) (v : W64) : (k.setS r v).mapNext = k.mapNext := by rw [Core.setS_eq]
@[simp] theorem Core.setS_constBase (k : Core) (r : SReg) (v : W64) : (k.setS r v).constBase = k.constBase := by rw [Core.setS_eq]
@[simp] theorem Core.setS_fp4 (k : Core) (r : SReg) (v : W64) : (k.setS r v).fp4 = k.fp4 := by rw [Core.setS_eq]
@[simp] theorem Core.setS_holidays (k : Core) (r : SReg) (v : W64) : (k.setS r v).holidays = k.holidays := by rw [Core.setS_eq]
@[simp] theorem Core.setS_holidayQueue (k : Core) (r : SReg) (v : W64) : (k.setS r v).holidayQueue = k.holidayQueue := by rw [Core.setS_eq]
@[simp] theorem Core.setS_checkDis (k : Core) (r : SReg) (v : W64) : (k.setS r v).checkDis = k.checkDis := by rw [Core.setS_eq]
@[simp] theorem Core.setS_checkLock (k : Core) (r : SReg) (v : W64) : (k.setS r v).checkLock = k.checkLock := by rw [Core.setS_eq]
@[simp] theorem Core.setS_eventStat (k : Core) (r : SReg) (v : W64) : (k.setS r v).eventStat = k.eventStat := by rw [Core.setS_eq]
@[simp] theorem Core.setS_faultInfo (k : Core) (r : SReg) (v : W64) : (k.setS r v).faultInfo = k.faultInfo := by rw [Core.setS_eq]
@[simp] theorem Core.setS_rereadCnt (k : Core) (r : SReg) (v : W64) : (k.setS r v).rereadCnt = k.rereadCnt := by rw [Core.setS_eq]
@[simp] theorem Core.setS_fsCount (k : Core) (r : SReg) (v : W64) : (k.setS r v).fsCount = k.fsCount := by rw [Core.setS_eq]
@[simp] theorem Core.setS_numStat (k : Core) (r : SReg) (v : W64) : (k.setS r v).numStat = k.numStat := by rw [Core.setS_eq]
@[simp] theorem Core.setS_clamps (k : Core) (r : SReg) (v : W64) : (k.setS r v).clamps = k.clamps := by rw [Core.setS_eq]
@[simp] theorem Core.setS_zeroBlocks (k : Core) (r : SReg) (v : W64) : (k.setS r v).zeroBlocks = k.zeroBlocks := by rw [Core.setS_eq]
@[simp] theorem Core.setS_outlierOvf (k : Core) (r : SReg) (v : W64) : (k.setS r v).outlierOvf = k.outlierOvf := by rw [Core.setS_eq]
@[simp] theorem Core.setS_scanCtrl (k : Core) (r : SReg) (v : W64) : (k.setS r v).scanCtrl = k.scanCtrl := by rw [Core.setS_eq]
@[simp] theorem Core.setS_marginEvt (k : Core) (r : SReg) (v : W64) : (k.setS r v).marginEvt = k.marginEvt := by rw [Core.setS_eq]
@[simp] theorem Core.setS_fails (k : Core) (r : SReg) (v : W64) : (k.setS r v).fails = k.fails := by rw [Core.setS_eq]
@[simp] theorem Core.setS_lostArrays (k : Core) (r : SReg) (v : W64) : (k.setS r v).lostArrays = k.lostArrays := by rw [Core.setS_eq]
@[simp] theorem Core.setS_sweepDone (k : Core) (r : SReg) (v : W64) : (k.setS r v).sweepDone = k.sweepDone := by rw [Core.setS_eq]
@[simp] theorem Core.setS_sweepSlow (k : Core) (r : SReg) (v : W64) : (k.setS r v).sweepSlow = k.sweepSlow := by rw [Core.setS_eq]
@[simp] theorem Core.setS_sweepTime (k : Core) (r : SReg) (v : W64) : (k.setS r v).sweepTime = k.sweepTime := by rw [Core.setS_eq]
@[simp] theorem Core.setS_refreshed (k : Core) (r : SReg) (v : W64) : (k.setS r v).refreshed = k.refreshed := by rw [Core.setS_eq]
@[simp] theorem Core.setS_marginBase (k : Core) (r : SReg) (v : W64) : (k.setS r v).marginBase = k.marginBase := by rw [Core.setS_eq]

theorem Core.setP_eq (k : Core) (r : PReg) (b : Bool) : k.setP r b = { k with preds := (k.setP r b).preds } := by
  unfold Core.setP; split <;> rfl

@[simp] theorem Core.setP_sregs (k : Core) (r : PReg) (b : Bool) : (k.setP r b).sregs = k.sregs := by rw [Core.setP_eq]
@[simp] theorem Core.setP_tregs (k : Core) (r : PReg) (b : Bool) : (k.setP r b).tregs = k.tregs := by rw [Core.setP_eq]
@[simp] theorem Core.setP_status (k : Core) (r : PReg) (b : Bool) : (k.setP r b).status = k.status := by rw [Core.setP_eq]
@[simp] theorem Core.setP_stack (k : Core) (r : PReg) (b : Bool) : (k.setP r b).stack = k.stack := by rw [Core.setP_eq]
@[simp] theorem Core.setP_pc (k : Core) (r : PReg) (b : Bool) : (k.setP r b).pc = k.pc := by rw [Core.setP_eq]
@[simp] theorem Core.setP_run (k : Core) (r : PReg) (b : Bool) : (k.setP r b).run = k.run := by rw [Core.setP_eq]
@[simp] theorem Core.setP_ended (k : Core) (r : PReg) (b : Bool) : (k.setP r b).ended = k.ended := by rw [Core.setP_eq]
@[simp] theorem Core.setP_halted (k : Core) (r : PReg) (b : Bool) : (k.setP r b).halted = k.halted := by rw [Core.setP_eq]
@[simp] theorem Core.setP_idle (k : Core) (r : PReg) (b : Bool) : (k.setP r b).idle = k.idle := by rw [Core.setP_eq]
@[simp] theorem Core.setP_slot (k : Core) (r : PReg) (b : Bool) : (k.setP r b).slot = k.slot := by rw [Core.setP_eq]
@[simp] theorem Core.setP_cyc (k : Core) (r : PReg) (b : Bool) : (k.setP r b).cyc = k.cyc := by rw [Core.setP_eq]
@[simp] theorem Core.setP_sReady (k : Core) (r : PReg) (b : Bool) : (k.setP r b).sReady = k.sReady := by rw [Core.setP_eq]
@[simp] theorem Core.setP_tReady (k : Core) (r : PReg) (b : Bool) : (k.setP r b).tReady = k.tReady := by rw [Core.setP_eq]
@[simp] theorem Core.setP_pReady (k : Core) (r : PReg) (b : Bool) : (k.setP r b).pReady = k.pReady := by rw [Core.setP_eq]
@[simp] theorem Core.setP_inflight (k : Core) (r : PReg) (b : Bool) : (k.setP r b).inflight = k.inflight := by rw [Core.setP_eq]
@[simp] theorem Core.setP_stored (k : Core) (r : PReg) (b : Bool) : (k.setP r b).stored = k.stored := by rw [Core.setP_eq]
@[simp] theorem Core.setP_nextId (k : Core) (r : PReg) (b : Bool) : (k.setP r b).nextId = k.nextId := by rw [Core.setP_eq]
@[simp] theorem Core.setP_excSeen (k : Core) (r : PReg) (b : Bool) : (k.setP r b).excSeen = k.excSeen := by rw [Core.setP_eq]
@[simp] theorem Core.setP_exc0 (k : Core) (r : PReg) (b : Bool) : (k.setP r b).exc0 = k.exc0 := by rw [Core.setP_eq]
@[simp] theorem Core.setP_exc1 (k : Core) (r : PReg) (b : Bool) : (k.setP r b).exc1 = k.exc1 := by rw [Core.setP_eq]
@[simp] theorem Core.setP_store (k : Core) (r : PReg) (b : Bool) : (k.setP r b).store = k.store := by rw [Core.setP_eq]
@[simp] theorem Core.setP_acc (k : Core) (r : PReg) (b : Bool) : (k.setP r b).acc = k.acc := by rw [Core.setP_eq]
@[simp] theorem Core.setP_arrival (k : Core) (r : PReg) (b : Bool) : (k.setP r b).arrival = k.arrival := by rw [Core.setP_eq]
@[simp] theorem Core.setP_recvMap (k : Core) (r : PReg) (b : Bool) : (k.setP r b).recvMap = k.recvMap := by rw [Core.setP_eq]
@[simp] theorem Core.setP_badStore (k : Core) (r : PReg) (b : Bool) : (k.setP r b).badStore = k.badStore := by rw [Core.setP_eq]
@[simp] theorem Core.setP_badAcc (k : Core) (r : PReg) (b : Bool) : (k.setP r b).badAcc = k.badAcc := by rw [Core.setP_eq]
@[simp] theorem Core.setP_prog0 (k : Core) (r : PReg) (b : Bool) : (k.setP r b).prog0 = k.prog0 := by rw [Core.setP_eq]
@[simp] theorem Core.setP_prog1 (k : Core) (r : PReg) (b : Bool) : (k.setP r b).prog1 = k.prog1 := by rw [Core.setP_eq]
@[simp] theorem Core.setP_cwin0 (k : Core) (r : PReg) (b : Bool) : (k.setP r b).cwin0 = k.cwin0 := by rw [Core.setP_eq]
@[simp] theorem Core.setP_cwin1 (k : Core) (r : PReg) (b : Bool) : (k.setP r b).cwin1 = k.cwin1 := by rw [Core.setP_eq]
@[simp] theorem Core.setP_dwin0 (k : Core) (r : PReg) (b : Bool) : (k.setP r b).dwin0 = k.dwin0 := by rw [Core.setP_eq]
@[simp] theorem Core.setP_dwin1 (k : Core) (r : PReg) (b : Bool) : (k.setP r b).dwin1 = k.dwin1 := by rw [Core.setP_eq]
@[simp] theorem Core.setP_seqSafe (k : Core) (r : PReg) (b : Bool) : (k.setP r b).seqSafe = k.seqSafe := by rw [Core.setP_eq]
@[simp] theorem Core.setP_arrays (k : Core) (r : PReg) (b : Bool) : (k.setP r b).arrays = k.arrays := by rw [Core.setP_eq]
@[simp] theorem Core.setP_arrayMap (k : Core) (r : PReg) (b : Bool) : (k.setP r b).arrayMap = k.arrayMap := by rw [Core.setP_eq]
@[simp] theorem Core.setP_mapNext (k : Core) (r : PReg) (b : Bool) : (k.setP r b).mapNext = k.mapNext := by rw [Core.setP_eq]
@[simp] theorem Core.setP_constBase (k : Core) (r : PReg) (b : Bool) : (k.setP r b).constBase = k.constBase := by rw [Core.setP_eq]
@[simp] theorem Core.setP_fp4 (k : Core) (r : PReg) (b : Bool) : (k.setP r b).fp4 = k.fp4 := by rw [Core.setP_eq]
@[simp] theorem Core.setP_holidays (k : Core) (r : PReg) (b : Bool) : (k.setP r b).holidays = k.holidays := by rw [Core.setP_eq]
@[simp] theorem Core.setP_holidayQueue (k : Core) (r : PReg) (b : Bool) : (k.setP r b).holidayQueue = k.holidayQueue := by rw [Core.setP_eq]
@[simp] theorem Core.setP_checkDis (k : Core) (r : PReg) (b : Bool) : (k.setP r b).checkDis = k.checkDis := by rw [Core.setP_eq]
@[simp] theorem Core.setP_checkLock (k : Core) (r : PReg) (b : Bool) : (k.setP r b).checkLock = k.checkLock := by rw [Core.setP_eq]
@[simp] theorem Core.setP_eventStat (k : Core) (r : PReg) (b : Bool) : (k.setP r b).eventStat = k.eventStat := by rw [Core.setP_eq]
@[simp] theorem Core.setP_faultInfo (k : Core) (r : PReg) (b : Bool) : (k.setP r b).faultInfo = k.faultInfo := by rw [Core.setP_eq]
@[simp] theorem Core.setP_rereadCnt (k : Core) (r : PReg) (b : Bool) : (k.setP r b).rereadCnt = k.rereadCnt := by rw [Core.setP_eq]
@[simp] theorem Core.setP_fsCount (k : Core) (r : PReg) (b : Bool) : (k.setP r b).fsCount = k.fsCount := by rw [Core.setP_eq]
@[simp] theorem Core.setP_numStat (k : Core) (r : PReg) (b : Bool) : (k.setP r b).numStat = k.numStat := by rw [Core.setP_eq]
@[simp] theorem Core.setP_clamps (k : Core) (r : PReg) (b : Bool) : (k.setP r b).clamps = k.clamps := by rw [Core.setP_eq]
@[simp] theorem Core.setP_zeroBlocks (k : Core) (r : PReg) (b : Bool) : (k.setP r b).zeroBlocks = k.zeroBlocks := by rw [Core.setP_eq]
@[simp] theorem Core.setP_outlierOvf (k : Core) (r : PReg) (b : Bool) : (k.setP r b).outlierOvf = k.outlierOvf := by rw [Core.setP_eq]
@[simp] theorem Core.setP_scanCtrl (k : Core) (r : PReg) (b : Bool) : (k.setP r b).scanCtrl = k.scanCtrl := by rw [Core.setP_eq]
@[simp] theorem Core.setP_marginEvt (k : Core) (r : PReg) (b : Bool) : (k.setP r b).marginEvt = k.marginEvt := by rw [Core.setP_eq]
@[simp] theorem Core.setP_fails (k : Core) (r : PReg) (b : Bool) : (k.setP r b).fails = k.fails := by rw [Core.setP_eq]
@[simp] theorem Core.setP_lostArrays (k : Core) (r : PReg) (b : Bool) : (k.setP r b).lostArrays = k.lostArrays := by rw [Core.setP_eq]
@[simp] theorem Core.setP_sweepDone (k : Core) (r : PReg) (b : Bool) : (k.setP r b).sweepDone = k.sweepDone := by rw [Core.setP_eq]
@[simp] theorem Core.setP_sweepSlow (k : Core) (r : PReg) (b : Bool) : (k.setP r b).sweepSlow = k.sweepSlow := by rw [Core.setP_eq]
@[simp] theorem Core.setP_sweepTime (k : Core) (r : PReg) (b : Bool) : (k.setP r b).sweepTime = k.sweepTime := by rw [Core.setP_eq]
@[simp] theorem Core.setP_refreshed (k : Core) (r : PReg) (b : Bool) : (k.setP r b).refreshed = k.refreshed := by rw [Core.setP_eq]
@[simp] theorem Core.setP_marginBase (k : Core) (r : PReg) (b : Bool) : (k.setP r b).marginBase = k.marginBase := by rw [Core.setP_eq]

end Sys2Proof.Machine
end

