-- ==== Sys2Proof/Laws/Fire.lean ====
section
/-! SUPPORT. Everything that firing an instruction can do, once: what a ready instruction comes to, and the inversion of `fire`. -/
namespace Sys2Proof.Machine

/-- Waiting for stores only delays (R233). -/
theorem Core.le_memReady (k : Core) (n : W48) (i : Instr) (t : Nat) : t ≤ k.memReady n i t := by
  unfold Core.memReady
  generalize k.stored.filter _ = l
  induction l generalizing t with
  | nil => exact Nat.le_refl _
  | cons e l ih => exact Nat.le_trans (Nat.le_max_left t e.2) (ih _)

/-- An instruction fires no earlier than its guard is usable (R233). -/
theorem Core.guard_le_fireCycle (k : Core) (n : W48) (i : Instr) (g : Guard) : k.regsReady ⟨[], [], [g.pred]⟩ ≤ k.fireCycle n i g :=
  Nat.le_trans (Nat.le_max_left _ _) (k.le_memReady n i _)

/-- A ready instruction comes to what its body says. -/
theorem fire_ready {c : CoreId} {i : Instr} {g : Guard} {s : State} (h : Ready c i g s) (body : Nat → State → Fire) :
    fire c i g body s = match body (s.fireAt c i g) s with
      | .hold => s
      | .halt code s' => haltCore c code (s.core c).pc (s'.modCore c fun k' => k'.advance k'.pc (s.fireAt c i g))
      | .go s' cost next => s'.modCore c fun k' => k'.advance (next.getD ((s.core c).pc + 8)) (s.fireAt c i g + cost) := by
  have ht := h.inTime
  unfold State.fireAt at ht
  have hg := (s.core c).guard_le_fireCycle s.tick.seq i g
  unfold fire State.fireAt
  dsimp only
  rw [if_neg (by simp [h.runs, h.work]), if_neg (by simp [h.inside]), if_neg (by simp [h.sound]), h.word]
  dsimp only
  rw [if_neg (by simp), if_neg (by simp only [h.guardFree, Bool.false_or, decide_eq_true_eq]; omega), if_neg (by simp [h.enabled]),
    if_neg (by simp only [h.regsFree, Bool.false_or, decide_eq_true_eq]; omega)] <;>
    (generalize body _ s = x; cases x <;> rfl)

/-- Everything that firing can do: nothing; the halt of a fetch, a failing word or an illegal word; a guard that is off, which costs 1
cycle; or what the body comes to. -/
theorem fire_cases (c : CoreId) (i : Instr) (g : Guard) (body : Nat → State → Fire) (s : State) :
    fire c i g body s = s ∨
    (∃ code, fire c i g body s = haltCore c code (s.core c).pc s) ∨
    (∃ n, fire c i g body s = s.modCore c fun k => k.advance ((s.core c).pc + 8) n) ∨
    (∃ t code s', body t s = .halt code s' ∧
      fire c i g body s = haltCore c code (s.core c).pc (s'.modCore c fun k' => k'.advance k'.pc t)) ∨
    (∃ t s' cost next, body t s = .go s' cost next ∧
      fire c i g body s = s'.modCore c fun k' => k'.advance (next.getD ((s.core c).pc + 8)) (t + cost)) := by
  generalize hr : fire c i g body s = r
  unfold fire at hr
  extract_lets k gd t0 t2 at hr
  clear_value t2
  split at hr
  · exact .inl hr.symm
  split at hr
  · exact .inr (.inl ⟨_, hr.symm⟩)
  split at hr
  · exact .inr (.inl ⟨_, hr.symm⟩)
  split at hr
  · exact .inr (.inl ⟨_, hr.symm⟩)
  split at hr
  · exact .inl hr.symm
  split at hr
  · exact .inl hr.symm
  split at hr
  · exact .inr (.inr (.inl ⟨_, hr.symm⟩))
  split at hr
  · exact .inl hr.symm
  cases hb : body t2 s with
  | hold => rw [hb] at hr; exact .inl hr.symm
  | halt code s' => rw [hb] at hr; exact .inr (.inr (.inr (.inl ⟨t2, code, s', hb, hr.symm⟩)))
  | go s' cost next => rw [hb] at hr; exact .inr (.inr (.inr (.inr ⟨t2, s', cost, next, hb, hr.symm⟩)))

/-- A core set twice holds the last value. -/
@[simp] theorem smSet_smSet {α : Type} [DecidableEq α] (d : Nat → α) (m : SMap α) (k : Nat) (v w : α) :
    smSet d (smSet d m k v) k w = smSet d m k w := by
  have hd : smDel (smSet d m k v) k = smDel m k := by
    have ins : ∀ l : SMap α, (∀ p ∈ l, p.1 ≠ k) → smDel (smIns l k v) k = l := by
      intro l hl
      induction l with
      | nil => simp [smIns, smDel]
      | cons r t ih =>
        obtain ⟨j, w⟩ := r
        have hj : j ≠ k := hl (j, w) List.mem_cons_self
        have ht : ∀ p ∈ t, p.1 ≠ k := fun p hp => hl p (List.mem_cons_of_mem _ hp)
        have hf : smDel t k = t := by
          simp only [smDel, List.filter_eq_self]
          intro a ha
          simpa using ht a ha
        simp only [smIns]
        split
        · have e : smDel ((k, v) :: (j, w) :: t) k = (j, w) :: smDel t k := by simp [smDel, hj]
          rw [e, hf]
        · have e : smDel ((j, w) :: smIns t k v) k = (j, w) :: smDel (smIns t k v) k := by simp [smDel, hj]
          rw [e, ih ht]
    unfold smSet
    split
    · simp [smDel]
    · exact ins _ (smDel_ne m k)
  rw [smSet.eq_def d (smSet d m k v) k w, smSet.eq_def d m k w, hd]

@[simp] theorem State.setCore_setCore (s : State) (c : CoreId) (k l : Core) : (s.setCore c k).setCore c l = s.setCore c l := by
  simp [State.setCore]

/-- A change of a core that was just set. -/
@[simp] theorem State.modCore_setCore (s : State) (c : CoreId) (k : Core) (f : Core → Core) :
    (s.setCore c k).modCore c f = s.setCore c (f k) := by
  simp [State.modCore]

@[simp] theorem State.modCore_modCore (s : State) (c : CoreId) (f g : Core → Core) :
    (s.modCore c f).modCore c g = s.modCore c fun k => g (f k) := by
  simp [State.modCore]

@[simp] theorem State.core_modCore_same (s : State) (c : CoreId) (f : Core → Core) : (s.modCore c f).core c = f (s.core c) := by
  simp [State.modCore]

theorem State.core_modCore_other (s : State) (c x : CoreId) (f : Core → Core) (hx : x ≠ c) : (s.modCore c f).core x = s.core x :=
  State.core_setCore_other s c x _ hx

/-- A ready instruction whose body changes the core alone. -/
theorem fire_ready_core {c : CoreId} {i : Instr} {g : Guard} {s : State} (h : Ready c i g s) (body : Nat → State → Fire)
    (f : Core → Core) (cost : Nat) (next : Option W64) (hb : body (s.fireAt c i g) s = .go (s.setCore c (f (s.core c))) cost next) :
    fire c i g body s = s.setCore c ((f (s.core c)).advance (next.getD ((s.core c).pc + 8)) (s.fireAt c i g + cost)) := by
  rw [fire_ready h, hb]
  simp

/-- A body that writes one scalar register. -/
theorem writesS_of {i : Instr} {c : CoreId} {g : Guard} {r : SReg} {lat : Nat} {s : State} {v : Core → W64}
    {body : Nat → State → Fire} (he : exec i s = .next (fire c i g body s))
    (hb : body (s.fireAt c i g) s = .go (s.setCore c (((s.core c).setS r (v (s.core c))).readyS r (s.fireAt c i g + lat))) 1 none) :
    writesS i c g r lat s v := by
  intro h
  refine ⟨_, by rw [he, fire_ready h, hb]; simp only [State.modCore_setCore]; rfl, ?_, ?_, ?_, rfl, rfl, ?_⟩
  · show ((s.core c).setS r _).sreg r = _
    simp
  · intro q hq
    exact Core.sreg_setS_other _ _ _ _ hq
  · simp [Core.readyS]
  · unfold Core.sameButS; rw [Core.setS_eq]; rfl

/-- A body that writes one descriptor register. -/
theorem writesT_of {i : Instr} {c : CoreId} {g : Guard} {r : TReg} {lat : Nat} {s : State} {v : Core → BitVec 128}
    {body : Nat → State → Fire} (he : exec i s = .next (fire c i g body s))
    (hb : body (s.fireAt c i g) s = .go (s.setCore c (((s.core c).setT r (v (s.core c))).readyT r (s.fireAt c i g + lat))) 1 none) :
    writesT i c g r lat s v := by
  intro h
  refine ⟨_, by rw [he, fire_ready h, hb]; simp only [State.modCore_setCore]; rfl, ?_, ?_, ?_, rfl, rfl, ?_⟩
  · show ((s.core c).setT r _).treg r = _
    simp
  · intro q hq
    exact Core.treg_setT_other _ _ _ _ hq
  · simp [Core.readyT]
  · unfold Core.sameButT; rfl

/-- A body that writes one predicate register. -/
theorem writesP_of {i : Instr} {c : CoreId} {g : Guard} {r : PReg} {s : State} {v : Core → Bool}
    {body : Nat → State → Fire} (he : exec i s = .next (fire c i g body s))
    (hb : body (s.fireAt c i g) s = .go (s.setCore c (((s.core c).setP r (v (s.core c))).readyP r (s.fireAt c i g + 1))) 1 none) :
    writesP i c g r s v := by
  intro h
  refine ⟨_, by rw [he, fire_ready h, hb]; simp only [State.modCore_setCore]; rfl, ?_, ?_, ?_, rfl, rfl, ?_⟩
  · show ((s.core c).setP r _).preg r = _
    simp
  · intro q hq
    exact Core.preg_setP_other _ _ _ _ hq
  · simp [Core.readyP]
  · unfold Core.sameButP; rw [Core.setP_eq]; rfl

/-- Operands that are good raise no exception. -/
theorem firstExc_none {rd wr : List (Desc × List Nat)} {c u s} (h : OperandsGood c u rd wr s) :
    firstExc ((rd.map fun p => (s.core c).checkDesc s.tick.seq p.1 p.2 true false)
      ++ (wr.map fun p => (s.core c).checkDesc s.tick.seq p.1 p.2 false true) ++ [none]) = none := by
  simp only [firstExc, List.findSome?_eq_none_iff, List.mem_append, List.mem_map, List.mem_singleton]
  rintro x ((⟨p, hp, rfl⟩ | ⟨p, hp, rfl⟩) | rfl)
  · exact h.reads p hp
  · exact h.writes p hp
  · rfl

/-- What `collect` leaves: the core as the action leaves it, with STATUS and ARR_NUM_STAT as they were; the bits it set stand apart (R214). -/
theorem Core.collect_eq (k : Core) (act : Core → Core) : k.collect act =
    (act { k with status := 0 } |> fun r => ({ r with status := k.status, numStat := k.numStat }, r.status)) := rfl

/-- A unit instruction with good operands enters its unit. -/
theorem unitOp_good {c : CoreId} {u : UnitKind} {rd wr : List (Desc × List Nat)} {s : State} (h : OperandsGood c u rd wr s)
    (t ut : Nat) (sd : Option SReg) (act : Core → Core) :
    unitOp c u rd wr none t ut sd act s = .go (s.setCore c (((s.core c).collect act).1.dispatch u (some (t + ut - 1))
      (extentsOf s.tick.seq (rd.map Prod.fst)) (extentsOf s.tick.seq (wr.map Prod.fst)) sd none [] none ((s.core c).collect act).2)) 1 none := by
  simp only [unitOp]
  rw [firstExc_none h]
  have h2 : (rd.all fun p => (s.core c).ready2 s.tick.seq p.1) = true := by simpa using fun a b => h.arrived (a, b)
  simp only [h.free, h2, Bool.not_true, Bool.or_self, Bool.false_eq_true, if_false]

/-- What an instruction of a unit has to show to run. -/
theorem unitRuns_of {i : Instr} {c : CoreId} {g : Guard} {u : UnitKind} {rd wr : List (Desc × List Nat)} {ut : Nat} {sd : Option SReg}
    {s : State} {eff : Core → Core → W32 → Prop} {body : Nat → State → Fire} (act : Core → Core)
    (he : exec i s = .next (fire c i g body s))
    (hb : body (s.fireAt c i g) s = unitOp c u rd wr none (s.fireAt c i g) ut sd act s)
    (hk : ∀ k, (act k).inflight = k.inflight ∧ (act k).nextId = k.nextId ∧ (act k).pc = k.pc)
    (hf : ∀ fl id pc cyc, eff (s.core c) { ((s.core c).collect act).1 with inflight := fl, nextId := id, pc := pc, cyc := cyc }
      ((s.core c).collect act).2) :
    unitRuns i c g u rd wr ut sd s eff := by
  intro hr ho
  refine ⟨_, by rw [he, fire_ready hr, hb, unitOp_good ho]; simp only [State.modCore_setCore]; rfl, ((s.core c).collect act).2, ?_, ?_, ?_, ?_⟩
  · exact hf _ _ _ _
  · simp [Core.advance, Core.dispatch, Core.collect, hk]
  · simp [Core.advance]
  · simp [Core.advance]

end Sys2Proof.Machine
end

