-- ==== Sys2Proof/Laws/PerInstr.lean ====
section
/-! SUPPORT. The shape of every command, constructor by constructor: only commands of a core's slot program have a word, and the word leaves out what the
surroundings bring. -/
namespace Sys2Proof.Laws.Shape

/-- A command has a word exactly if it is an Aithal instruction of a core; its word form is of the same core, has the same word, and is well-formed if the
command is. -/
def Statement (i : Instr) : Prop :=
  (encode i).isSome = (coreOf i).isSome ∧ coreOf (Machine.asWord i) = coreOf i ∧ encode (Machine.asWord i) = encode i ∧
  (wellFormed i = true → wellFormed (Machine.asWord i) = true)

theorem br a b c d e : Statement (.br a b c d e) := ⟨rfl, rfl, rfl, id⟩
theorem call a b c : Statement (.call a b c) := ⟨rfl, rfl, rfl, id⟩
theorem ret a b : Statement (.ret a b) := ⟨rfl, rfl, rfl, id⟩
theorem endProg a b : Statement (.endProg a b) := ⟨rfl, rfl, rfl, id⟩
theorem rds a b c d : Statement (.rds a b c d) := ⟨rfl, rfl, rfl, id⟩
theorem wait a b c : Statement (.wait a b c) := ⟨rfl, rfl, rfl, id⟩
theorem waitd a b c : Statement (.waitd a b c) := ⟨rfl, rfl, rfl, id⟩
theorem nop a b : Statement (.nop a b) := ⟨rfl, rfl, rfl, id⟩
theorem add a b c d e f : Statement (.add a b c d e f) := ⟨rfl, rfl, rfl, id⟩
theorem sub a b c d e f : Statement (.sub a b c d e f) := ⟨rfl, rfl, rfl, id⟩
theorem mul a b c d e f : Statement (.mul a b c d e f) := ⟨rfl, rfl, rfl, id⟩
theorem divu a b c d e f : Statement (.divu a b c d e f) := ⟨rfl, rfl, rfl, id⟩
theorem remu a b c d e f : Statement (.remu a b c d e f) := ⟨rfl, rfl, rfl, id⟩
theorem divs a b c d e f : Statement (.divs a b c d e f) := ⟨rfl, rfl, rfl, id⟩
theorem rems a b c d e f : Statement (.rems a b c d e f) := ⟨rfl, rfl, rfl, id⟩
theorem and a b c d e f : Statement (.and a b c d e f) := ⟨rfl, rfl, rfl, id⟩
theorem or a b c d e f : Statement (.or a b c d e f) := ⟨rfl, rfl, rfl, id⟩
theorem xor a b c d e f : Statement (.xor a b c d e f) := ⟨rfl, rfl, rfl, id⟩
theorem shl a b c d e f : Statement (.shl a b c d e f) := ⟨rfl, rfl, rfl, id⟩
theorem shr a b c d e f : Statement (.shr a b c d e f) := ⟨rfl, rfl, rfl, id⟩
theorem sra a b c d e f : Statement (.sra a b c d e f) := ⟨rfl, rfl, rfl, id⟩
theorem min a b c d e f : Statement (.min a b c d e f) := ⟨rfl, rfl, rfl, id⟩
theorem max a b c d e f : Statement (.max a b c d e f) := ⟨rfl, rfl, rfl, id⟩
theorem movhi a b c d e : Statement (.movhi a b c d e) := ⟨rfl, rfl, rfl, id⟩
theorem ld a b c d e : Statement (.ld a b c d e) := ⟨rfl, rfl, rfl, id⟩
theorem st a b c d e : Statement (.st a b c d e) := ⟨rfl, rfl, rfl, id⟩
theorem ldw a b c d e : Statement (.ldw a b c d e) := ⟨rfl, rfl, rfl, id⟩
theorem stw a b c d e : Statement (.stw a b c d e) := ⟨rfl, rfl, rfl, id⟩
theorem ldd a b c d e : Statement (.ldd a b c d e) := ⟨rfl, rfl, rfl, id⟩
theorem std a b c d e : Statement (.std a b c d e) := ⟨rfl, rfl, rfl, id⟩
theorem ldx a b c d e : Statement (.ldx a b c d e) := ⟨rfl, rfl, rfl, id⟩
theorem dset a b c d e f : Statement (.dset a b c d e f) := ⟨rfl, rfl, rfl, id⟩
theorem pcmp a b c d e f g : Statement (.pcmp a b c d e f g) := ⟨rfl, rfl, rfl, id⟩
theorem pand a b c d e : Statement (.pand a b c d e) := ⟨rfl, rfl, rfl, id⟩
theorem por a b c d e : Statement (.por a b c d e) := ⟨rfl, rfl, rfl, id⟩
theorem pxor a b c d e : Statement (.pxor a b c d e) := ⟨rfl, rfl, rfl, id⟩
theorem pnot a b c d : Statement (.pnot a b c d) := ⟨rfl, rfl, rfl, id⟩
theorem pset a b c d : Statement (.pset a b c d) := ⟨rfl, rfl, rfl, id⟩
theorem tst a b c d : Statement (.tst a b c d) := ⟨rfl, rfl, rfl, id⟩
theorem rdst a b c : Statement (.rdst a b c) := ⟨rfl, rfl, rfl, id⟩
theorem clst a b c : Statement (.clst a b c) := ⟨rfl, rfl, rfl, id⟩
theorem mvm a b c d : Statement (.mvm a b c d) := ⟨rfl, rfl, rfl, fun x => by simp only [wellFormed, Bool.and_eq_true] at x; simp [Machine.asWord, wellFormed, x.1]⟩
theorem passVerdict a b c d : Statement (.passVerdict a b c d) := ⟨rfl, rfl, rfl, id⟩
theorem rereadPass a b : Statement (.rereadPass a b) := ⟨rfl, rfl, rfl, id⟩
theorem mvs a b c d e f : Statement (.mvs a b c d e f) := ⟨rfl, rfl, rfl, id⟩
theorem accclr a b c : Statement (.accclr a b c) := ⟨rfl, rfl, rfl, id⟩
theorem accrd a b c d e : Statement (.accrd a b c d e) := ⟨rfl, rfl, rfl, id⟩
theorem accst a b c d : Statement (.accst a b c d) := ⟨rfl, rfl, rfl, id⟩
theorem accld a b c d : Statement (.accld a b c d) := ⟨rfl, rfl, rfl, id⟩
theorem accadd a b c d : Statement (.accadd a b c d) := ⟨rfl, rfl, rfl, id⟩
theorem qnt a b c d e f : Statement (.qnt a b c d e f) := ⟨rfl, rfl, rfl, id⟩
theorem vadd a b c d e : Statement (.vadd a b c d e) := ⟨rfl, rfl, rfl, id⟩
theorem vsub a b c d e : Statement (.vsub a b c d e) := ⟨rfl, rfl, rfl, id⟩
theorem vmul a b c d e : Statement (.vmul a b c d e) := ⟨rfl, rfl, rfl, id⟩
theorem vfma a b c d e : Statement (.vfma a b c d e) := ⟨rfl, rfl, rfl, id⟩
theorem vmax a b c d e : Statement (.vmax a b c d e) := ⟨rfl, rfl, rfl, id⟩
theorem vmin a b c d e : Statement (.vmin a b c d e) := ⟨rfl, rfl, rfl, id⟩
theorem vscl a b c d e : Statement (.vscl a b c d e) := ⟨rfl, rfl, rfl, id⟩
theorem vcvt a b c d : Statement (.vcvt a b c d) := ⟨rfl, rfl, rfl, id⟩
theorem vsum a b c d : Statement (.vsum a b c d) := ⟨rfl, rfl, rfl, id⟩
theorem vmaxr a b c d : Statement (.vmaxr a b c d) := ⟨rfl, rfl, rfl, id⟩
theorem vnorm a b c d e f : Statement (.vnorm a b c d e f) := ⟨rfl, rfl, rfl, id⟩
theorem vexp a b c d : Statement (.vexp a b c d) := ⟨rfl, rfl, rfl, id⟩
theorem vrcp a b c d : Statement (.vrcp a b c d) := ⟨rfl, rfl, rfl, id⟩
theorem vrsqrt a b c d : Statement (.vrsqrt a b c d) := ⟨rfl, rfl, rfl, id⟩
theorem vsilu a b c d : Statement (.vsilu a b c d) := ⟨rfl, rfl, rfl, id⟩
theorem vgelu a b c d : Statement (.vgelu a b c d) := ⟨rfl, rfl, rfl, id⟩
theorem vtanh a b c d : Statement (.vtanh a b c d) := ⟨rfl, rfl, rfl, id⟩
theorem vsigm a b c d : Statement (.vsigm a b c d) := ⟨rfl, rfl, rfl, id⟩
theorem vrope a b c d e f : Statement (.vrope a b c d e f) := ⟨rfl, rfl, rfl, id⟩
theorem mov a b c d : Statement (.mov a b c d) := ⟨rfl, rfl, rfl, id⟩
theorem mfill a b c d : Statement (.mfill a b c d) := ⟨rfl, rfl, rfl, id⟩
theorem mgath a b c d e : Statement (.mgath a b c d e) := ⟨rfl, rfl, rfl, id⟩
theorem send a b c d e : Statement (.send a b c d e) := ⟨rfl, rfl, rfl, id⟩
theorem red a b c d e f : Statement (.red a b c d e f) := ⟨rfl, rfl, rfl, id⟩
theorem attn a b c d e f g : Statement (.attn a b c d e f g) := ⟨rfl, rfl, rfl, id⟩
theorem kvw a b c d e f g : Statement (.kvw a b c d e f g) := ⟨rfl, rfl, rfl, id⟩
theorem samp a b c d e : Statement (.samp a b c d e) := ⟨rfl, rfl, rfl, id⟩
theorem gfence a b c d : Statement (.gfence a b c d) := ⟨rfl, rfl, rfl, id⟩
theorem unitInstructionComplete a b : Statement (.unitInstructionComplete a b) := ⟨rfl, rfl, rfl, id⟩
theorem tickStart : Statement (.tickStart) := ⟨rfl, rfl, rfl, id⟩
theorem issueDeadline : Statement (.issueDeadline) := ⟨rfl, rfl, rfl, id⟩
theorem workDeadline : Statement (.workDeadline) := ⟨rfl, rfl, rfl, id⟩
theorem changeReport : Statement (.changeReport) := ⟨rfl, rfl, rfl, id⟩
theorem applyPoint : Statement (.applyPoint) := ⟨rfl, rfl, rfl, id⟩
theorem structuralPatchApply : Statement (.structuralPatchApply) := ⟨rfl, rfl, rfl, id⟩
theorem patchRollback : Statement (.patchRollback) := ⟨rfl, rfl, rfl, id⟩
theorem changeRollback : Statement (.changeRollback) := ⟨rfl, rfl, rfl, id⟩
theorem emergencyStretch : Statement (.emergencyStretch) := ⟨rfl, rfl, rfl, id⟩
theorem emergencyStretchEnd : Statement (.emergencyStretchEnd) := ⟨rfl, rfl, rfl, id⟩
theorem repeatLossFault : Statement (.repeatLossFault) := ⟨rfl, rfl, rfl, id⟩
theorem recoveryHoldEnd : Statement (.recoveryHoldEnd) := ⟨rfl, rfl, rfl, id⟩
theorem recoveryHoldTimeout : Statement (.recoveryHoldTimeout) := ⟨rfl, rfl, rfl, id⟩
theorem flitHopReceive a b : Statement (.flitHopReceive a b) := ⟨rfl, rfl, rfl, id⟩
theorem flitDelivery a : Statement (.flitDelivery a) := ⟨rfl, rfl, rfl, id⟩
theorem reducerCombine a : Statement (.reducerCombine a) := ⟨rfl, rfl, rfl, id⟩
theorem reducerDelivery a b : Statement (.reducerDelivery a b) := ⟨rfl, rfl, rfl, id⟩
theorem scrub a b c : Statement (.scrub a b c) := ⟨rfl, rfl, rfl, id⟩
theorem dramScrub a b c : Statement (.dramScrub a b c) := ⟨rfl, rfl, rfl, id⟩
theorem linkTraining a b c : Statement (.linkTraining a b c) := ⟨rfl, rfl, rfl, id⟩
theorem linkDegrade a b c : Statement (.linkDegrade a b c) := ⟨rfl, rfl, rfl, id⟩
theorem fabricLinkTraining a b c : Statement (.fabricLinkTraining a b c) := ⟨rfl, rfl, rfl, id⟩
theorem fabricLaneFail a b : Statement (.fabricLaneFail a b) := ⟨rfl, rfl, rfl, id⟩
theorem eyeSafetyDisable a b : Statement (.eyeSafetyDisable a b) := ⟨rfl, rfl, rfl, id⟩
theorem opticalDieFail a : Statement (.opticalDieFail a) := ⟨rfl, rfl, rfl, id⟩
theorem dataFrame a : Statement (.dataFrame a) := ⟨rfl, rfl, rfl, id⟩
theorem transitFrame a : Statement (.transitFrame a) := ⟨rfl, rfl, rfl, id⟩
theorem stampFrame a b : Statement (.stampFrame a b) := ⟨rfl, rfl, rfl, id⟩
theorem conveneFrame a : Statement (.conveneFrame a) := ⟨rfl, rfl, rfl, id⟩
theorem conveningRuling : Statement (.conveningRuling) := ⟨rfl, rfl, rfl, id⟩
theorem ruling a : Statement (.ruling a) := ⟨rfl, rfl, rfl, id⟩
theorem rulingApply : Statement (.rulingApply) := ⟨rfl, rfl, rfl, id⟩
theorem conveningRoundEnd : Statement (.conveningRoundEnd) := ⟨rfl, rfl, rfl, id⟩
theorem groupSplit : Statement (.groupSplit) := ⟨rfl, rfl, rfl, id⟩
theorem join a : Statement (.join a) := ⟨rfl, rfl, rfl, id⟩
theorem joinTimeout : Statement (.joinTimeout) := ⟨rfl, rfl, rfl, id⟩
theorem escrowBankArrival a b : Statement (.escrowBankArrival a b) := ⟨rfl, rfl, rfl, id⟩
theorem failoverHoldEnd : Statement (.failoverHoldEnd) := ⟨rfl, rfl, rfl, id⟩
theorem escrowRefill : Statement (.escrowRefill) := ⟨rfl, rfl, rfl, id⟩
theorem leave a b : Statement (.leave a b) := ⟨rfl, rfl, rfl, id⟩
theorem presenceBreak : Statement (.presenceBreak) := ⟨rfl, rfl, rfl, id⟩
theorem timeMessage a : Statement (.timeMessage a) := ⟨rfl, rfl, rfl, id⟩
theorem timingLock a : Statement (.timingLock a) := ⟨rfl, rfl, rfl, id⟩
theorem holdover : Statement (.holdover) := ⟨rfl, rfl, rfl, id⟩
theorem attentionRequest a : Statement (.attentionRequest a) := ⟨rfl, rfl, rfl, id⟩
theorem pageTask a b c : Statement (.pageTask a b c) := ⟨rfl, rfl, rfl, id⟩
theorem attentionAnswer a b : Statement (.attentionAnswer a b) := ⟨rfl, rfl, rfl, id⟩
theorem kvWrite a : Statement (.kvWrite a) := ⟨rfl, rfl, rfl, id⟩
theorem pageAgeing a b c d e : Statement (.pageAgeing a b c d e) := ⟨rfl, rfl, rfl, id⟩
theorem sampling a : Statement (.sampling a) := ⟨rfl, rfl, rfl, id⟩
theorem generationFenceQuery a : Statement (.generationFenceQuery a) := ⟨rfl, rfl, rfl, id⟩
theorem refusalReport a : Statement (.refusalReport a) := ⟨rfl, rfl, rfl, id⟩
theorem heldExit a : Statement (.heldExit a) := ⟨rfl, rfl, rfl, id⟩
theorem requestFaultEnd a : Statement (.requestFaultEnd a) := ⟨rfl, rfl, rfl, id⟩
theorem rebuildStart a : Statement (.rebuildStart a) := ⟨rfl, rfl, rfl, id⟩
theorem queueDeparture : Statement (.queueDeparture) := ⟨rfl, rfl, rfl, id⟩
theorem requestEnd a : Statement (.requestEnd a) := ⟨rfl, rfl, rfl, id⟩
theorem endingCompletion : Statement (.endingCompletion) := ⟨rfl, rfl, rfl, id⟩
theorem hideApply a : Statement (.hideApply a) := ⟨rfl, rfl, rfl, id⟩
theorem migrate : Statement (.migrate) := ⟨rfl, rfl, rfl, id⟩
theorem admitReq a b : Statement (.admitReq a b) := ⟨rfl, rfl, rfl, id⟩
theorem cancel a b c : Statement (.cancel a b c) := ⟨rfl, rfl, rfl, id⟩
theorem draft a b c d e : Statement (.draft a b c d e) := ⟨rfl, rfl, rfl, id⟩
theorem hide a b c d e : Statement (.hide a b c d e) := ⟨rfl, rfl, rfl, id⟩
theorem imgBegin a b c d e : Statement (.imgBegin a b c d e) := ⟨rfl, rfl, rfl, id⟩
theorem metadataCheck a b c d : Statement (.metadataCheck a b c d) := ⟨rfl, rfl, rfl, id⟩
theorem imgFeed a b c : Statement (.imgFeed a b c) := ⟨rfl, rfl, rfl, id⟩
theorem imgEnd a : Statement (.imgEnd a) := ⟨rfl, rfl, rfl, id⟩
theorem imgAbort a : Statement (.imgAbort a) := ⟨rfl, rfl, rfl, id⟩
theorem escFeed a b c : Statement (.escFeed a b c) := ⟨rfl, rfl, rfl, id⟩
theorem sectionArrival a b c d : Statement (.sectionArrival a b c d) := ⟨rfl, rfl, rfl, id⟩
theorem sectionTimeout a b : Statement (.sectionTimeout a b) := ⟨rfl, rfl, rfl, id⟩
theorem bankCompare a b : Statement (.bankCompare a b) := ⟨rfl, rfl, rfl, id⟩
theorem loadAbandon : Statement (.loadAbandon) := ⟨rfl, rfl, rfl, id⟩
theorem draining : Statement (.draining) := ⟨rfl, rfl, rfl, id⟩
theorem writing : Statement (.writing) := ⟨rfl, rfl, rfl, id⟩
theorem memberWritten : Statement (.memberWritten) := ⟨rfl, rfl, rfl, id⟩
theorem committed : Statement (.committed) := ⟨rfl, rfl, rfl, id⟩
theorem almPatch a b c d : Statement (.almPatch a b c d) := ⟨rfl, rfl, rfl, id⟩
theorem almLoad a b c : Statement (.almLoad a b c) := ⟨rfl, rfl, rfl, id⟩
theorem groupForm a b : Statement (.groupForm a b) := ⟨rfl, rfl, rfl, id⟩
theorem groupLeave a : Statement (.groupLeave a) := ⟨rfl, rfl, rfl, id⟩
theorem fwStage a b c d : Statement (.fwStage a b c d) := ⟨rfl, rfl, rfl, id⟩
theorem fwActivate a b c : Statement (.fwActivate a b c) := ⟨rfl, rfl, rfl, id⟩
theorem autoActivation : Statement (.autoActivation) := ⟨rfl, rfl, rfl, id⟩
theorem attest a b c : Statement (.attest a b c) := ⟨rfl, rfl, rfl, id⟩
theorem ownerKeyAdd a b c d : Statement (.ownerKeyAdd a b c d) := ⟨rfl, rfl, rfl, id⟩
theorem ownerKeyDelete a b : Statement (.ownerKeyDelete a b) := ⟨rfl, rfl, rfl, id⟩
theorem bootCfg a b : Statement (.bootCfg a b) := ⟨rfl, rfl, rfl, id⟩
theorem selftest a b c : Statement (.selftest a b c) := ⟨rfl, rfl, rfl, id⟩
theorem selftestCancel a b : Statement (.selftestCancel a b) := ⟨rfl, rfl, rfl, id⟩
theorem selftestRun a b : Statement (.selftestRun a b) := ⟨rfl, rfl, rfl, id⟩
theorem cmdNop a : Statement (.cmdNop a) := ⟨rfl, rfl, rfl, id⟩
theorem commandTake a : Statement (.commandTake a) := ⟨rfl, rfl, rfl, id⟩
theorem eventsLost a : Statement (.eventsLost a) := ⟨rfl, rfl, rfl, id⟩
theorem dbCommandTail a b : Statement (.dbCommandTail a b) := ⟨rfl, rfl, rfl, id⟩
theorem dbCompletionConsumed a b : Statement (.dbCompletionConsumed a b) := ⟨rfl, rfl, rfl, id⟩
theorem dbEventConsumed a b : Statement (.dbEventConsumed a b) := ⟨rfl, rfl, rfl, id⟩
theorem mgmtRead a : Statement (.mgmtRead a) := ⟨rfl, rfl, rfl, id⟩
theorem mgmtWrite a b : Statement (.mgmtWrite a b) := ⟨rfl, rfl, rfl, id⟩
theorem registerWrite a b c : Statement (.registerWrite a b c) := ⟨rfl, rfl, rfl, id⟩
theorem lowWordRead a b : Statement (.lowWordRead a b) := ⟨rfl, rfl, rfl, id⟩
theorem leapReq a : Statement (.leapReq a) := ⟨rfl, rfl, rfl, id⟩
theorem hold a b : Statement (.hold a b) := ⟨rfl, rfl, rfl, id⟩
theorem arm a : Statement (.arm a) := ⟨rfl, rfl, rfl, id⟩
theorem discard a : Statement (.discard a) := ⟨rfl, rfl, rfl, id⟩
theorem strobe a b c : Statement (.strobe a b c) := ⟨rfl, rfl, rfl, id⟩
theorem drop a b c : Statement (.drop a b c) := ⟨rfl, rfl, rfl, id⟩
theorem checkLock a b : Statement (.checkLock a b) := ⟨rfl, rfl, rfl, id⟩
theorem ladderExhaustedClear a b : Statement (.ladderExhaustedClear a b) := ⟨rfl, rfl, rfl, id⟩
theorem exceptionRecordClear a b : Statement (.exceptionRecordClear a b) := ⟨rfl, rfl, rfl, id⟩
theorem configFaultClear a b : Statement (.configFaultClear a b) := ⟨rfl, rfl, rfl, id⟩
theorem fsCountClear a b : Statement (.fsCountClear a b) := ⟨rfl, rfl, rfl, id⟩
theorem clampsClear a b : Statement (.clampsClear a b) := ⟨rfl, rfl, rfl, id⟩
theorem qeventClear a b : Statement (.qeventClear a b) := ⟨rfl, rfl, rfl, id⟩
theorem lossesClear a : Statement (.lossesClear a) := ⟨rfl, rfl, rfl, id⟩
theorem correctedClear a b : Statement (.correctedClear a b) := ⟨rfl, rfl, rfl, id⟩
theorem retriesClear a b : Statement (.retriesClear a b) := ⟨rfl, rfl, rfl, id⟩
theorem draftsClear a b : Statement (.draftsClear a b) := ⟨rfl, rfl, rfl, id⟩
theorem readmissionRequest a b c : Statement (.readmissionRequest a b c) := ⟨rfl, rfl, rfl, id⟩
theorem sensorReadmission a b : Statement (.sensorReadmission a b) := ⟨rfl, rfl, rfl, id⟩
theorem hskRequest a b c : Statement (.hskRequest a b c) := ⟨rfl, rfl, rfl, id⟩
theorem hskUrgentRequest a b c : Statement (.hskUrgentRequest a b c) := ⟨rfl, rfl, rfl, id⟩
theorem conversionDone a b c : Statement (.conversionDone a b c) := ⟨rfl, rfl, rfl, id⟩
theorem idleBandgapConversion a b c : Statement (.idleBandgapConversion a b c) := ⟨rfl, rfl, rfl, id⟩
theorem converterRetire a b c : Statement (.converterRetire a b c) := ⟨rfl, rfl, rfl, id⟩
theorem referenceConversion a b c d e : Statement (.referenceConversion a b c d e) := ⟨rfl, rfl, rfl, id⟩
theorem calibration a b c d e : Statement (.calibration a b c d e) := ⟨rfl, rfl, rfl, id⟩
theorem lightCheck a b c : Statement (.lightCheck a b c) := ⟨rfl, rfl, rfl, id⟩
theorem sensorSample a : Statement (.sensorSample a) := ⟨rfl, rfl, rfl, id⟩
theorem railReading a : Statement (.railReading a) := ⟨rfl, rfl, rfl, id⟩
theorem pmbusWarn a : Statement (.pmbusWarn a) := ⟨rfl, rfl, rfl, id⟩
theorem pmbusFault : Statement (.pmbusFault) := ⟨rfl, rfl, rfl, id⟩
theorem railShutdown a : Statement (.railShutdown a) := ⟨rfl, rfl, rfl, id⟩
theorem ceilingTrip : Statement (.ceilingTrip) := ⟨rfl, rfl, rfl, id⟩
theorem limitHoldEmergency : Statement (.limitHoldEmergency) := ⟨rfl, rfl, rfl, id⟩
theorem marginScan a b c : Statement (.marginScan a b c) := ⟨rfl, rfl, rfl, id⟩
theorem scanLate a b : Statement (.scanLate a b) := ⟨rfl, rfl, rfl, id⟩
theorem failureCountLimit a b : Statement (.failureCountLimit a b) := ⟨rfl, rfl, rfl, id⟩
theorem failureWindowRestart : Statement (.failureWindowRestart) := ⟨rfl, rfl, rfl, id⟩
theorem holidayStart a : Statement (.holidayStart a) := ⟨rfl, rfl, rfl, id⟩
theorem holidayCopyDone a b c d : Statement (.holidayCopyDone a b c d) := ⟨rfl, rfl, rfl, id⟩
theorem holidayServiceDone a b c d : Statement (.holidayServiceDone a b c d) := ⟨rfl, rfl, rfl, id⟩
theorem rowWrite a b c d e : Statement (.rowWrite a b c d e) := ⟨rfl, rfl, rfl, id⟩
theorem ladderRepeatFault a b : Statement (.ladderRepeatFault a b) := ⟨rfl, rfl, rfl, id⟩
theorem wearWriteback a b : Statement (.wearWriteback a b) := ⟨rfl, rfl, rfl, id⟩
theorem newYearSweep a b c d : Statement (.newYearSweep a b c d) := ⟨rfl, rfl, rfl, id⟩
theorem quarterScan a b c d : Statement (.quarterScan a b c d) := ⟨rfl, rfl, rfl, id⟩
theorem domainReady a b : Statement (.domainReady a b) := ⟨rfl, rfl, rfl, id⟩
theorem configParityCheck a b : Statement (.configParityCheck a b) := ⟨rfl, rfl, rfl, id⟩
theorem powerOnReset : Statement (.powerOnReset) := ⟨rfl, rfl, rfl, id⟩
theorem boot a b : Statement (.boot a b) := ⟨rfl, rfl, rfl, id⟩
theorem orderlyPowerDown : Statement (.orderlyPowerDown) := ⟨rfl, rfl, rfl, id⟩
theorem solicit : Statement (.solicit) := ⟨rfl, rfl, rfl, id⟩
theorem offer a b : Statement (.offer a b) := ⟨rfl, rfl, rfl, id⟩
theorem data a b : Statement (.data a b) := ⟨rfl, rfl, rfl, id⟩
theorem readRetry a : Statement (.readRetry a) := ⟨rfl, rfl, rfl, id⟩
theorem fetchTimeout : Statement (.fetchTimeout) := ⟨rfl, rfl, rfl, id⟩
theorem watchdog a : Statement (.watchdog a) := ⟨rfl, rfl, rfl, id⟩
theorem fwRestart a b : Statement (.fwRestart a b) := ⟨rfl, rfl, rfl, id⟩
theorem takeover a : Statement (.takeover a) := ⟨rfl, rfl, rfl, id⟩
theorem lastGoodBundle : Statement (.lastGoodBundle) := ⟨rfl, rfl, rfl, id⟩
theorem unplannedPowerLoss : Statement (.unplannedPowerLoss) := ⟨rfl, rfl, rfl, id⟩
theorem memberAnswerTimeout a : Statement (.memberAnswerTimeout a) := ⟨rfl, rfl, rfl, id⟩
theorem commandDieFail a : Statement (.commandDieFail a) := ⟨rfl, rfl, rfl, id⟩

end Sys2Proof.Laws.Shape
end

