-- ==== Sys2Proof/Laws/Rings.lean ====
section
/-! SUPPORT. What the shared operations over the rings, the network and lists can do: events and completions change the rings alone. -/
namespace Sys2Proof.Machine

/-! ### The rings -/

theorem State.writeCarve_rings (s : State) (o a : Nat) (bs : Bytes) : { s.writeCarve o a bs with rings := s.rings } = s := by
  unfold State.writeCarve; split <;> rfl

theorem State.writeCarve_sets (s : State) (o a : Nat) (bs : Bytes) : (s.writeCarve o a bs).rings.sets = s.rings.sets := by
  unfold State.writeCarve; split <;> rfl

/-- Bytes of a carve-out are no ring's state. -/
@[simp] theorem State.ring_writeCarve (s : State) (o a : Nat) (bs : Bytes) (j : Nat) : (s.writeCarve o a bs).ring j = s.ring j := by
  unfold State.ring; rw [State.writeCarve_sets]

@[simp] theorem State.ring_writeIndices (s : State) (i j : Nat) : (s.writeIndices i).ring j = s.ring j := by
  unfold State.writeIndices; simp

@[simp] theorem State.ring_setRing_same (s : State) (i : Nat) (r : RingSet) : (s.setRing i r).ring i = r := smGet_smSet_same _ _ _ _

theorem State.ring_setRing_other (s : State) (i j : Nat) (r : RingSet) (h : j ≠ i) : (s.setRing i r).ring j = s.ring j :=
  smGet_smSet_other _ _ _ _ _ h

/-- A state that differs from another in its rings alone. -/
theorem State.rings_trans {s t u : State} (h : { t with rings := s.rings } = s) (h2 : { u with rings := t.rings } = t) :
    { u with rings := s.rings } = s := by
  rw [← h, ← h2]

theorem State.setRing_rings (s : State) (i : Nat) (r : RingSet) : { s.setRing i r with rings := s.rings } = s := rfl

theorem State.writeIndices_rings (s : State) (i : Nat) : { s.writeIndices i with rings := s.rings } = s := by
  unfold State.writeIndices; exact State.writeCarve_rings _ _ _ _

theorem State.putEvent_rings (s : State) (i code cls die : Nat) (data : Bytes) : { s.putEvent i code cls die data with rings := s.rings } = s := by
  unfold State.putEvent; exact State.rings_trans (State.writeCarve_rings _ _ _ _) (State.setRing_rings _ _ _)

theorem State.flushLost_rings (s : State) (i : Nat) : { s.flushLost i with rings := s.rings } = s := by
  simp only [State.flushLost]
  split
  · exact State.rings_trans (State.rings_trans (State.putEvent_rings _ _ _ _ _ _) (State.setRing_rings _ _ _)) (State.writeIndices_rings _ _)
  · rfl

theorem State.postTo_rings (s : State) (code cls die : Nat) (data : Bytes) (i : Nat) : { s.postTo code cls die data i with rings := s.rings } = s := by
  simp only [State.postTo]
  split
  · have h := State.flushLost_rings s i
    split
    · exact State.rings_trans (State.rings_trans h (State.putEvent_rings _ _ _ _ _ _)) (State.writeIndices_rings _ _)
    · refine State.rings_trans h (State.rings_trans ?_ (State.writeIndices_rings _ _))
      rfl
  · rfl

/-- An event changes the rings alone. -/
theorem State.post_rings (s : State) (code cls die : Nat) (data : Bytes) : { s.post code cls die data with rings := s.rings } = s := by
  unfold State.post
  generalize List.range 16 = l
  induction l generalizing s with
  | nil => rfl
  | cons i l ih => exact State.rings_trans (State.postTo_rings s code cls die data i) (ih _)

theorem State.putCompletion_rings (s : State) (i : Nat) (tag : W32) (op st : Nat) (res : Bytes) (fin : Bool) (t : W48) :
    { s.putCompletion i tag op st res fin t with rings := s.rings } = s := by
  unfold State.putCompletion
  exact State.rings_trans (State.rings_trans (State.writeCarve_rings _ _ _ _) (State.setRing_rings _ _ _)) (State.writeIndices_rings _ _)

/-- A completion changes the rings alone. -/
theorem State.completeCmd_rings (s : State) (h : HostCmd) (op st : Nat) (res : Bytes) : { s.completeCmd h op st res with rings := s.rings } = s := by
  simp only [State.completeCmd]
  split
  · refine State.rings_trans ?_ (State.putCompletion_rings _ _ _ _ _ _ _ _)
    rfl
  · split
    · exact State.putCompletion_rings _ _ _ _ _ _ _ _
    · rfl

/-! ### Every other field -/

theorem State.pending_of_rings {s t : State} (h : { t with rings := s.rings } = s) : t.pending = s.pending := by rw [← h]
theorem State.fab_of_rings {s t : State} (h : { t with rings := s.rings } = s) : t.fab = s.fab := by rw [← h]
theorem State.grp_of_rings {s t : State} (h : { t with rings := s.rings } = s) : t.grp = s.grp := by rw [← h]
theorem State.free_of_rings {s t : State} (h : { t with rings := s.rings } = s) : t.free = s.free := by rw [← h]
theorem State.fuses_of_rings {s t : State} (h : { t with rings := s.rings } = s) : t.fuses = s.fuses := by rw [← h]
theorem State.cores_of_rings {s t : State} (h : { t with rings := s.rings } = s) : t.cores = s.cores := by rw [← h]
theorem State.dies_of_rings {s t : State} (h : { t with rings := s.rings } = s) : t.dies = s.dies := by rw [← h]
theorem State.tick_of_rings {s t : State} (h : { t with rings := s.rings } = s) : t.tick = s.tick := by rw [← h]
theorem State.alm_of_rings {s t : State} (h : { t with rings := s.rings } = s) : t.alm = s.alm := by rw [← h]
theorem State.member_of_rings {s t : State} (h : { t with rings := s.rings } = s) : t.member = s.member := by rw [← h]
theorem State.flits_of_rings {s t : State} (h : { t with rings := s.rings } = s) : t.flits = s.flits := by rw [← h]
theorem State.nextFlit_of_rings {s t : State} (h : { t with rings := s.rings } = s) : t.nextFlit = s.nextFlit := by rw [← h]
theorem State.reducers_of_rings {s t : State} (h : { t with rings := s.rings } = s) : t.reducers = s.reducers := by rw [← h]
theorem State.inbox_of_rings {s t : State} (h : { t with rings := s.rings } = s) : t.inbox = s.inbox := by rw [← h]
theorem State.outbound_of_rings {s t : State} (h : { t with rings := s.rings } = s) : t.outbound = s.outbound := by rw [← h]
theorem State.nextReq_of_rings {s t : State} (h : { t with rings := s.rings } = s) : t.nextReq = s.nextReq := by rw [← h]
theorem State.serve_of_rings {s t : State} (h : { t with rings := s.rings } = s) : t.serve = s.serve := by rw [← h]
theorem State.srv_of_rings {s t : State} (h : { t with rings := s.rings } = s) : t.srv = s.srv := by rw [← h]
theorem State.fw_of_rings {s t : State} (h : { t with rings := s.rings } = s) : t.fw = s.fw := by rw [← h]
theorem State.loadPhase_of_rings {s t : State} (h : { t with rings := s.rings } = s) : t.loadPhase = s.loadPhase := by rw [← h]
theorem State.aux_of_rings {s t : State} (h : { t with rings := s.rings } = s) : t.aux = s.aux := by rw [← h]
theorem State.genActive_of_rings {s t : State} (h : { t with rings := s.rings } = s) : t.genActive = s.genActive := by rw [← h]
theorem State.genStaged_of_rings {s t : State} (h : { t with rings := s.rings } = s) : t.genStaged = s.genStaged := by rw [← h]
theorem State.chg_of_rings {s t : State} (h : { t with rings := s.rings } = s) : t.chg = s.chg := by rw [← h]
theorem State.regs_of_rings {s t : State} (h : { t with rings := s.rings } = s) : t.regs = s.regs := by rw [← h]
theorem State.pow_of_rings {s t : State} (h : { t with rings := s.rings } = s) : t.pow = s.pow := by rw [← h]
theorem State.load_of_rings {s t : State} (h : { t with rings := s.rings } = s) : t.load = s.load := by rw [← h]
theorem State.power_of_rings {s t : State} (h : { t with rings := s.rings } = s) : t.power = s.power := by rw [← h]

/-! ### `State.post` -/

@[simp] theorem State.post_pending (s : State) (code cls die : Nat) (data : Bytes) : (s.post code cls die data).pending = s.pending := State.pending_of_rings (State.post_rings s code cls die data)
@[simp] theorem State.post_fab (s : State) (code cls die : Nat) (data : Bytes) : (s.post code cls die data).fab = s.fab := State.fab_of_rings (State.post_rings s code cls die data)
@[simp] theorem State.post_grp (s : State) (code cls die : Nat) (data : Bytes) : (s.post code cls die data).grp = s.grp := State.grp_of_rings (State.post_rings s code cls die data)
@[simp] theorem State.post_free (s : State) (code cls die : Nat) (data : Bytes) : (s.post code cls die data).free = s.free := State.free_of_rings (State.post_rings s code cls die data)
@[simp] theorem State.post_fuses (s : State) (code cls die : Nat) (data : Bytes) : (s.post code cls die data).fuses = s.fuses := State.fuses_of_rings (State.post_rings s code cls die data)
@[simp] theorem State.post_cores (s : State) (code cls die : Nat) (data : Bytes) : (s.post code cls die data).cores = s.cores := State.cores_of_rings (State.post_rings s code cls die data)
@[simp] theorem State.post_dies (s : State) (code cls die : Nat) (data : Bytes) : (s.post code cls die data).dies = s.dies := State.dies_of_rings (State.post_rings s code cls die data)
@[simp] theorem State.post_tick (s : State) (code cls die : Nat) (data : Bytes) : (s.post code cls die data).tick = s.tick := State.tick_of_rings (State.post_rings s code cls die data)
@[simp] theorem State.post_alm (s : State) (code cls die : Nat) (data : Bytes) : (s.post code cls die data).alm = s.alm := State.alm_of_rings (State.post_rings s code cls die data)
@[simp] theorem State.post_member (s : State) (code cls die : Nat) (data : Bytes) : (s.post code cls die data).member = s.member := State.member_of_rings (State.post_rings s code cls die data)
@[simp] theorem State.post_flits (s : State) (code cls die : Nat) (data : Bytes) : (s.post code cls die data).flits = s.flits := State.flits_of_rings (State.post_rings s code cls die data)
@[simp] theorem State.post_nextFlit (s : State) (code cls die : Nat) (data : Bytes) : (s.post code cls die data).nextFlit = s.nextFlit := State.nextFlit_of_rings (State.post_rings s code cls die data)
@[simp] theorem State.post_reducers (s : State) (code cls die : Nat) (data : Bytes) : (s.post code cls die data).reducers = s.reducers := State.reducers_of_rings (State.post_rings s code cls die data)
@[simp] theorem State.post_inbox (s : State) (code cls die : Nat) (data : Bytes) : (s.post code cls die data).inbox = s.inbox := State.inbox_of_rings (State.post_rings s code cls die data)
@[simp] theorem State.post_outbound (s : State) (code cls die : Nat) (data : Bytes) : (s.post code cls die data).outbound = s.outbound := State.outbound_of_rings (State.post_rings s code cls die data)
@[simp] theorem State.post_nextReq (s : State) (code cls die : Nat) (data : Bytes) : (s.post code cls die data).nextReq = s.nextReq := State.nextReq_of_rings (State.post_rings s code cls die data)
@[simp] theorem State.post_serve (s : State) (code cls die : Nat) (data : Bytes) : (s.post code cls die data).serve = s.serve := State.serve_of_rings (State.post_rings s code cls die data)
@[simp] theorem State.post_srv (s : State) (code cls die : Nat) (data : Bytes) : (s.post code cls die data).srv = s.srv := State.srv_of_rings (State.post_rings s code cls die data)
@[simp] theorem State.post_fw (s : State) (code cls die : Nat) (data : Bytes) : (s.post code cls die data).fw = s.fw := State.fw_of_rings (State.post_rings s code cls die data)
@[simp] theorem State.post_loadPhase (s : State) (code cls die : Nat) (data : Bytes) : (s.post code cls die data).loadPhase = s.loadPhase := State.loadPhase_of_rings (State.post_rings s code cls die data)
@[simp] theorem State.post_aux (s : State) (code cls die : Nat) (data : Bytes) : (s.post code cls die data).aux = s.aux := State.aux_of_rings (State.post_rings s code cls die data)
@[simp] theorem State.post_genActive (s : State) (code cls die : Nat) (data : Bytes) : (s.post code cls die data).genActive = s.genActive := State.genActive_of_rings (State.post_rings s code cls die data)
@[simp] theorem State.post_genStaged (s : State) (code cls die : Nat) (data : Bytes) : (s.post code cls die data).genStaged = s.genStaged := State.genStaged_of_rings (State.post_rings s code cls die data)
@[simp] theorem State.post_chg (s : State) (code cls die : Nat) (data : Bytes) : (s.post code cls die data).chg = s.chg := State.chg_of_rings (State.post_rings s code cls die data)
@[simp] theorem State.post_regs (s : State) (code cls die : Nat) (data : Bytes) : (s.post code cls die data).regs = s.regs := State.regs_of_rings (State.post_rings s code cls die data)
@[simp] theorem State.post_pow (s : State) (code cls die : Nat) (data : Bytes) : (s.post code cls die data).pow = s.pow := State.pow_of_rings (State.post_rings s code cls die data)
@[simp] theorem State.post_load (s : State) (code cls die : Nat) (data : Bytes) : (s.post code cls die data).load = s.load := State.load_of_rings (State.post_rings s code cls die data)
@[simp] theorem State.post_power (s : State) (code cls die : Nat) (data : Bytes) : (s.post code cls die data).power = s.power := State.power_of_rings (State.post_rings s code cls die data)

/-! ### `State.completeCmd` -/

@[simp] theorem State.completeCmd_pending (s : State) (h : HostCmd) (op st : Nat) (res : Bytes) : (s.completeCmd h op st res).pending = s.pending := State.pending_of_rings (State.completeCmd_rings s h op st res)
@[simp] theorem State.completeCmd_fab (s : State) (h : HostCmd) (op st : Nat) (res : Bytes) : (s.completeCmd h op st res).fab = s.fab := State.fab_of_rings (State.completeCmd_rings s h op st res)
@[simp] theorem State.completeCmd_grp (s : State) (h : HostCmd) (op st : Nat) (res : Bytes) : (s.completeCmd h op st res).grp = s.grp := State.grp_of_rings (State.completeCmd_rings s h op st res)
@[simp] theorem State.completeCmd_free (s : State) (h : HostCmd) (op st : Nat) (res : Bytes) : (s.completeCmd h op st res).free = s.free := State.free_of_rings (State.completeCmd_rings s h op st res)
@[simp] theorem State.completeCmd_fuses (s : State) (h : HostCmd) (op st : Nat) (res : Bytes) : (s.completeCmd h op st res).fuses = s.fuses := State.fuses_of_rings (State.completeCmd_rings s h op st res)
@[simp] theorem State.completeCmd_cores (s : State) (h : HostCmd) (op st : Nat) (res : Bytes) : (s.completeCmd h op st res).cores = s.cores := State.cores_of_rings (State.completeCmd_rings s h op st res)
@[simp] theorem State.completeCmd_dies (s : State) (h : HostCmd) (op st : Nat) (res : Bytes) : (s.completeCmd h op st res).dies = s.dies := State.dies_of_rings (State.completeCmd_rings s h op st res)
@[simp] theorem State.completeCmd_tick (s : State) (h : HostCmd) (op st : Nat) (res : Bytes) : (s.completeCmd h op st res).tick = s.tick := State.tick_of_rings (State.completeCmd_rings s h op st res)
@[simp] theorem State.completeCmd_alm (s : State) (h : HostCmd) (op st : Nat) (res : Bytes) : (s.completeCmd h op st res).alm = s.alm := State.alm_of_rings (State.completeCmd_rings s h op st res)
@[simp] theorem State.completeCmd_member (s : State) (h : HostCmd) (op st : Nat) (res : Bytes) : (s.completeCmd h op st res).member = s.member := State.member_of_rings (State.completeCmd_rings s h op st res)
@[simp] theorem State.completeCmd_flits (s : State) (h : HostCmd) (op st : Nat) (res : Bytes) : (s.completeCmd h op st res).flits = s.flits := State.flits_of_rings (State.completeCmd_rings s h op st res)
@[simp] theorem State.completeCmd_nextFlit (s : State) (h : HostCmd) (op st : Nat) (res : Bytes) : (s.completeCmd h op st res).nextFlit = s.nextFlit := State.nextFlit_of_rings (State.completeCmd_rings s h op st res)
@[simp] theorem State.completeCmd_reducers (s : State) (h : HostCmd) (op st : Nat) (res : Bytes) : (s.completeCmd h op st res).reducers = s.reducers := State.reducers_of_rings (State.completeCmd_rings s h op st res)
@[simp] theorem State.completeCmd_inbox (s : State) (h : HostCmd) (op st : Nat) (res : Bytes) : (s.completeCmd h op st res).inbox = s.inbox := State.inbox_of_rings (State.completeCmd_rings s h op st res)
@[simp] theorem State.completeCmd_outbound (s : State) (h : HostCmd) (op st : Nat) (res : Bytes) : (s.completeCmd h op st res).outbound = s.outbound := State.outbound_of_rings (State.completeCmd_rings s h op st res)
@[simp] theorem State.completeCmd_nextReq (s : State) (h : HostCmd) (op st : Nat) (res : Bytes) : (s.completeCmd h op st res).nextReq = s.nextReq := State.nextReq_of_rings (State.completeCmd_rings s h op st res)
@[simp] theorem State.completeCmd_serve (s : State) (h : HostCmd) (op st : Nat) (res : Bytes) : (s.completeCmd h op st res).serve = s.serve := State.serve_of_rings (State.completeCmd_rings s h op st res)
@[simp] theorem State.completeCmd_srv (s : State) (h : HostCmd) (op st : Nat) (res : Bytes) : (s.completeCmd h op st res).srv = s.srv := State.srv_of_rings (State.completeCmd_rings s h op st res)
@[simp] theorem State.completeCmd_fw (s : State) (h : HostCmd) (op st : Nat) (res : Bytes) : (s.completeCmd h op st res).fw = s.fw := State.fw_of_rings (State.completeCmd_rings s h op st res)
@[simp] theorem State.completeCmd_loadPhase (s : State) (h : HostCmd) (op st : Nat) (res : Bytes) : (s.completeCmd h op st res).loadPhase = s.loadPhase := State.loadPhase_of_rings (State.completeCmd_rings s h op st res)
@[simp] theorem State.completeCmd_aux (s : State) (h : HostCmd) (op st : Nat) (res : Bytes) : (s.completeCmd h op st res).aux = s.aux := State.aux_of_rings (State.completeCmd_rings s h op st res)
@[simp] theorem State.completeCmd_genActive (s : State) (h : HostCmd) (op st : Nat) (res : Bytes) : (s.completeCmd h op st res).genActive = s.genActive := State.genActive_of_rings (State.completeCmd_rings s h op st res)
@[simp] theorem State.completeCmd_genStaged (s : State) (h : HostCmd) (op st : Nat) (res : Bytes) : (s.completeCmd h op st res).genStaged = s.genStaged := State.genStaged_of_rings (State.completeCmd_rings s h op st res)
@[simp] theorem State.completeCmd_chg (s : State) (h : HostCmd) (op st : Nat) (res : Bytes) : (s.completeCmd h op st res).chg = s.chg := State.chg_of_rings (State.completeCmd_rings s h op st res)
@[simp] theorem State.completeCmd_regs (s : State) (h : HostCmd) (op st : Nat) (res : Bytes) : (s.completeCmd h op st res).regs = s.regs := State.regs_of_rings (State.completeCmd_rings s h op st res)
@[simp] theorem State.completeCmd_pow (s : State) (h : HostCmd) (op st : Nat) (res : Bytes) : (s.completeCmd h op st res).pow = s.pow := State.pow_of_rings (State.completeCmd_rings s h op st res)
@[simp] theorem State.completeCmd_load (s : State) (h : HostCmd) (op st : Nat) (res : Bytes) : (s.completeCmd h op st res).load = s.load := State.load_of_rings (State.completeCmd_rings s h op st res)
@[simp] theorem State.completeCmd_power (s : State) (h : HostCmd) (op st : Nat) (res : Bytes) : (s.completeCmd h op st res).power = s.power := State.power_of_rings (State.completeCmd_rings s h op st res)

/-- A package fault sets the fault and changes nothing else but the rings. -/
theorem State.packageFault_rings (s : State) (cause : Nat) :
    { s.packageFault cause with rings := s.rings } = { s with grp := { s.grp with fault := true } } := by
  unfold State.packageFault
  generalize hu : ({ s with grp := { s.grp with fault := true } } : State) = u
  have h := State.post_rings u 0x02 4 26 (leBytes 1 cause)
  rw [show u.rings = s.rings by rw [← hu]] at h
  exact h

@[simp] theorem State.packageFault_grp (s : State) (cause : Nat) : (s.packageFault cause).grp = { s.grp with fault := true } := by
  unfold State.packageFault; rw [State.post_grp]
@[simp] theorem State.packageFault_cores (s : State) (cause : Nat) : (s.packageFault cause).cores = s.cores := by
  unfold State.packageFault; rw [State.post_cores]
@[simp] theorem State.packageFault_dies (s : State) (cause : Nat) : (s.packageFault cause).dies = s.dies := by
  unfold State.packageFault; rw [State.post_dies]
@[simp] theorem State.packageFault_tick (s : State) (cause : Nat) : (s.packageFault cause).tick = s.tick := by
  unfold State.packageFault; rw [State.post_tick]
@[simp] theorem State.packageFault_fab (s : State) (cause : Nat) : (s.packageFault cause).fab = s.fab := by
  unfold State.packageFault; rw [State.post_fab]

/-- The halt response changes the halted core, the tick's notices and the rings (R238). -/
theorem haltCore_cores (c : CoreId) (code : Nat) (pc : W64) (s : State) : (haltCore c code pc s).cores =
    (s.modCore c fun k => { (k.record code pc s.tick.count) with run := false, halted := true }).cores := by
  simp only [haltCore, State.post_cores]; rfl

@[simp] theorem haltCore_dies (c : CoreId) (code : Nat) (pc : W64) (s : State) : (haltCore c code pc s).dies = s.dies := by
  simp only [haltCore, State.post_dies]; rfl

@[simp] theorem haltCore_tick (c : CoreId) (code : Nat) (pc : W64) (s : State) : (haltCore c code pc s).tick =
    { s.tick with notices := addNew s.tick.notices ⟨haltCause code, s.member, (dieOf c).val⟩ } := by
  simp only [haltCore, State.post_tick]; rfl

/-! ### Lists and the network -/

theorem mem_addNew {α : Type} [DecidableEq α] (l : List α) (x y : α) : y ∈ addNew l x ↔ y ∈ l ∨ y = x := by
  unfold addNew
  split
  · rename_i h
    constructor
    · exact Or.inl
    · rintro (h2 | rfl)
      · exact h2
      · exact h
  · simp

/-- The network runs in the work window and the drain. -/
theorem State.running_of {s : State} (h : s.tick.phase = .work ∨ s.tick.phase = .drain) : s.running = true := by
  unfold State.running; rcases h with h | h <;> simp [h]

end Sys2Proof.Machine
end

