-- ==== Sys2Proof/Tests/Slice0.lean ====
section
/-! SUPPORT. Tests of the model: the well-formedness check, words of the manual, single commands on small states, and states that meet the hypotheses
of the statements. -/
open Sys2Proof Sys2Proof.Machine
namespace Sys2Proof.Tests
set_option Elab.async false

/-! ### Helpers -/

/-- The guard p0, which is always on (R211). -/
def g0 : Guard := ⟨0, false⟩

/-- A command that the check accepts, and one that it refuses. -/
def splits (good bad : Instr) : Bool := wellFormed good && !wellFormed bad

/-- The outcome is a next state that passes a check. -/
def leaves (o : Host.Outcome State Fault Refusal) (f : State → Bool) : Bool := match o with
  | .next t => f t
  | _ => false

/-! ### Well-formedness: one command that passes each check, one that fails it -/

/-- A tile of one array and its first 64 rows. -/
def tile1 : Tile := ⟨0, 0, 0, 0, 0⟩
/-- A tile that goes past the last array. -/
def tileOut : Tile := ⟨4095, 1, 0, 0, 0⟩
def mvmOf (t : Tile) : MvmOp := ⟨4, 7, t, .standard, .int4, .auto, 0, true⟩
def passOf (g : Nat) : PassId := ⟨0, 0, 0, g, false⟩
def hdr0 : Header := ⟨0, 0, 0, 0, 0, 0, 0, 0, 1, true, true, 0, false, 0, 0, false⟩
def flit64 : FlitBody := ⟨hdr0, List.replicate 64 0, 64⟩
def frame0 : Frame := ⟨0, 0, 1, 2, 0, 0, 0, 0, [flit64]⟩
def stamp0 : Stamp := ⟨0, 0, 0, false, false, 0, 0, false, false, false, [], false, 0, 0, 0, List.replicate 8 none⟩
def cmd0 : HostCmd := ⟨0, 1⟩
def edge0 (q1 : Nat) (q0 : Int) : List RowEdges := [⟨0, q1, q0⟩]

theorem test_wf_mvm_tile : splits (.mvm 0 g0 (mvmOf tile1) []) (.mvm 0 g0 (mvmOf tileOut) []) = true := by decide
theorem test_wf_mvm_fault : splits (.mvm 0 g0 (mvmOf tile1) [⟨0, 1087, 1⟩]) (.mvm 0 g0 (mvmOf tile1) [⟨0, 1088, 1⟩]) = true := by decide
theorem test_wf_mvs_tile : splits (.mvs 0 g0 0 1 2 tile1) (.mvs 0 g0 0 1 2 tileOut) = true := by decide
theorem test_wf_pass : splits (.passVerdict 0 0 (passOf 256) []) (.passVerdict 0 0 (passOf 257) []) = true := by decide
theorem test_wf_code : splits (.passVerdict 0 0 (passOf 16) [⟨167, 15, 511⟩]) (.passVerdict 0 0 (passOf 16) [⟨168, 0, 0⟩]) = true := by decide
theorem test_wf_ecc : splits (.flitHopReceive 0 (.corrected 5)) (.flitHopReceive 0 (.corrected 6)) = true := by decide
theorem test_wf_scrub : splits (.scrub 0 (.store 0 0x1FF_FFF0) true) (.scrub 0 (.store 0 0x200_0000) true) = true := by decide
theorem test_wf_dram : splits (.dramScrub 0 (2 ^ 38 - 1) true) (.dramScrub 0 (2 ^ 38) true) = true := by decide
theorem test_wf_peer : splits (.fabricLinkTraining 0 .lanes8 (some ⟨1, 7, 3⟩)) (.fabricLinkTraining 0 .lanes8 (some ⟨1, 8, 3⟩)) = true := by decide +kernel
theorem test_wf_eye : splits (.eyeSafetyDisable 0 8) (.eyeSafetyDisable 0 9) = true := by decide
theorem test_wf_frame : splits (.dataFrame ⟨frame0, .clean⟩) (.dataFrame ⟨{ frame0 with fvc := 3 }, .clean⟩) = true := by decide +kernel
theorem test_wf_transit : splits (.transitFrame ⟨{ frame0 with hops := 31 }, .badOnce⟩) (.transitFrame ⟨{ frame0 with flits := [] }, .clean⟩) = true := by decide +kernel
theorem test_wf_stamp : splits (.stampFrame 0 { stamp0 with stretch := 50 }) (.stampFrame 0 { stamp0 with stretch := 51 }) = true := by decide +kernel
theorem test_wf_convene : splits (.conveneFrame ⟨1, 15, noRecord, 0, 0, 0, false, false⟩) (.conveneFrame ⟨1, 16, noRecord, 0, 0, 0, false, false⟩) = true := by decide
theorem test_wf_ruling : splits (.ruling ⟨1, 0, noRecord, 1, 0, 0, 15, 0⟩) (.ruling ⟨1, 0, { noRecord with members := 17 }, 1, 0, 0, 15, 0⟩) = true := by decide
theorem test_wf_join : splits (.join ⟨1, noRecord, 3, 0, 0, 0⟩) (.join ⟨1, { noRecord with memberPos := [] }, 3, 0, 0, 0⟩) = true := by decide
theorem test_wf_leave : splits (.leave 1 15) (.leave 1 16) = true := by decide
theorem test_wf_time : splits (.timeMessage (List.replicate 16 0)) (.timeMessage []) = true := by decide
theorem test_wf_page : splits (.pageAgeing 0 4095 1023 511 false) (.pageAgeing 0 4096 0 0 false) = true := by decide
theorem test_wf_requests : splits (.heldExit 4095) (.heldExit 4096) && splits (.requestFaultEnd 0) (.requestFaultEnd 4096) && splits (.rebuildStart 0) (.rebuildStart 4096)
    && splits (.requestEnd 0) (.requestEnd 4096) && splits (.hideApply 0) (.hideApply 4096) = true := by decide
theorem test_wf_members : splits (.metadataCheck 15 0 [] 0) (.metadataCheck 16 0 [] 0) && splits (.sectionArrival 0 0 [] false) (.sectionArrival 0 16 [] false)
    && splits (.sectionTimeout 0 15) (.sectionTimeout 0 16) && splits (.memberAnswerTimeout 15) (.memberAnswerTimeout 16) = true := by decide
theorem test_wf_mgmt : splits (.mgmtRead ⟨0, true, 0, 0, 1, 0⟩) (.mgmtRead ⟨0, true, 0, 0, 1, 2 ^ 41⟩)
    && splits (.mgmtWrite ⟨0, true, 0, 0, 1, 0⟩ [0]) (.mgmtWrite ⟨0, true, 0, 0, 1, 0⟩ (List.replicate 257 0)) = true := by decide +kernel
theorem test_wf_address : splits (.registerWrite .c0 0x504 0) (.registerWrite .c0 0x505 0) && splits (.lowWordRead .c0 0) (.lowWordRead .c0 (2 ^ 41))
    && splits (.configParityCheck .c0 0) (.configParityCheck .c0 2) = true := by decide
theorem test_wf_calibration : splits (.calibration 0 6 3 0 0) (.calibration 0 7 0 0 0) = true := by decide
theorem test_wf_sensor : splits (.sensorSample [⟨0, 35, none⟩]) (.sensorSample [⟨0, 36, none⟩]) = true := by decide
theorem test_wf_rail : splits (.railReading 4095) (.railReading 4096) = true := by decide
theorem test_wf_edges : splits (.marginScan 0 4223 (edge0 64 (-1))) (.marginScan 0 0 (edge0 65 0)) && splits (.marginScan 0 0 (edge0 0 63)) (.marginScan 0 0 (edge0 0 64)) = true := by decide
theorem test_wf_arrays : splits (.scanLate 0 4223) (.scanLate 0 4224) && splits (.failureCountLimit 0 0) (.failureCountLimit 0 4224) && splits (.lightCheck 0 0 0) (.lightCheck 0 4224 0)
    && splits (.ladderRepeatFault 0 0) (.ladderRepeatFault 0 4224) && splits (.wearWriteback 0 0) (.wearWriteback 0 4224) = true := by decide
theorem test_wf_holiday : splits (.holidayCopyDone 0 0 ⟨[], [⟨4223, 1119, 1⟩]⟩ false) (.holidayCopyDone 0 0 ⟨[], [⟨4223, 1120, 1⟩]⟩ false)
    && splits (.holidayServiceDone 0 0 ⟨[], []⟩ [⟨167, 0, 0, 0⟩]) (.holidayServiceDone 0 0 ⟨[], []⟩ [⟨168, 0, 0, 0⟩]) = true := by decide
theorem test_wf_row : splits (.rowWrite 0 0 1087 (List.replicate 1344 true) []) (.rowWrite 0 0 1088 (List.replicate 1344 true) []) = true := by decide +kernel
theorem test_wf_sweep : splits (.newYearSweep 0 ⟨[(0, [])], []⟩ [] 400) (.newYearSweep 0 ⟨[], []⟩ [(4224, [])] 400)
    && splits (.quarterScan 0 3 ⟨[(0, [])], []⟩ []) (.quarterScan 0 3 ⟨[(4224, [])], []⟩ []) = true := by decide
theorem test_wf_data : splits (.data 0 (List.replicate 1024 0)) (.data 0 (List.replicate 1025 0)) = true := by decide +kernel

/-! ### Words, bit by bit (R229 to R231) -/

/-- The word decodes, on core 0, to the instruction, and the instruction encodes to the word. -/
def spells (w : W64) (i : Instr) : Bool := decide (decodeAithal 0 w = some i) && decide (encode i = some w)

theorem test_word_control : spells (0x02#8 ++ 0#3 ++ 0#1 ++ 0#20 ++ 0xFFFF_FFF8#32) (.call 0 g0 0xFFFF_FFF8) = true := by decide
theorem test_word_special : spells (0x05#8 ++ 0#3 ++ 0#1 ++ 4#5 ++ 0#5 ++ 0#5 ++ 6#5 ++ 0#32) (.rds 0 g0 4 .dln) = true := by decide
theorem test_word_scalar : spells (0x1C#8 ++ 7#3 ++ 1#1 ++ 31#5 ++ 30#5 ++ 29#5 ++ 0#5 ++ 0x8000_0001#32) (.sra 0 ⟨7, true⟩ 31 30 29 0x8000_0001) = true := by decide
theorem test_word_load : spells (0x24#8 ++ 0#3 ++ 0#1 ++ 15#5 ++ 3#5 ++ 0#5 ++ 0#5 ++ 16#32) (.ldd 0 g0 15 3 16) = true := by decide
theorem test_word_store : spells (0x21#8 ++ 0#3 ++ 0#1 ++ 0#5 ++ 3#5 ++ 9#5 ++ 0#5 ++ 8#32) (.st 0 g0 9 3 8) = true := by decide
theorem test_word_field : spells (0x27#8 ++ 0#3 ++ 0#1 ++ 2#5 ++ 3#5 ++ 0#5 ++ 5#5 ++ 64#32) (.dset 0 g0 2 .stride1 3 64) = true := by decide
theorem test_word_predicate : spells (0x30#8 ++ 0#3 ++ 0#1 ++ 1#5 ++ 3#5 ++ 4#5 ++ 3#5 ++ 5#32) (.pcmp 0 g0 1 .ge 3 4 5) = true := by decide
theorem test_word_status : spells (0xE0#8 ++ 0#3 ++ 0#1 ++ 1#5 ++ 0#5 ++ 0#5 ++ 0#5 ++ 0x200#32) (.tst 0 g0 1 0x200) = true := by decide
theorem test_word_mvm : spells (0x40#8 ++ 0#3 ++ 0#1 ++ 4#4 ++ 7#4 ++ 5#12 ++ 1#6 ++ 2#5 ++ 2#2 ++ 2#2 ++ 3#3 ++ 6#5 ++ 1#1 ++ 1#4 ++ 2#4)
    (.mvm 0 g0 ⟨4, 7, ⟨5, 1, 2, 1, 2⟩, .brisk, .int8, .g64, 6, true⟩ []) = true := by decide
theorem test_word_acc : spells (0x43#8 ++ 0#3 ++ 0#1 ++ 1#4 ++ 5#4 ++ 0#4 ++ 0#5 ++ 0#3 ++ 9#32) (.accrd 0 g0 1 5 9) = true := by decide
theorem test_word_quantiser : spells (0x50#8 ++ 0#3 ++ 0#1 ++ 7#4 ++ 1#4 ++ 0#4 ++ 6#5 ++ 0#3 ++ 2#32) (.qnt 0 g0 7 1 6 2) = true := by decide
theorem test_word_vector : spells (0x63#8 ++ 0#3 ++ 0#1 ++ 3#4 ++ 1#4 ++ 2#4 ++ 0#5 ++ 0#3 ++ 0#32) (.vfma 0 g0 3 1 2) = true := by decide
theorem test_word_function : spells (0x77#8 ++ 0#3 ++ 0#1 ++ 3#4 ++ 1#4 ++ 2#4 ++ 4#5 ++ 0#3 ++ 0#32) (.vrope 0 g0 3 1 2 4) = true := by decide
theorem test_word_move : spells (0x81#8 ++ 0#3 ++ 0#1 ++ 3#4 ++ 0#4 ++ 0#4 ++ 4#5 ++ 0#3 ++ 0#32) (.mfill 0 g0 3 4) = true := by decide
theorem test_word_send : spells (0x91#8 ++ 0#3 ++ 0#1 ++ 3#4 ++ 0#4 ++ 0x0102#16 ++ 4#5 ++ 0#5 ++ 1#18) (.red 0 g0 3 0x0102 4 true) = true := by decide
theorem test_word_attention : spells (0xA0#8 ++ 0#3 ++ 0#1 ++ 3#4 ++ 2#4 ++ 0x0102#16 ++ 4#5 ++ 0#5 ++ 1023#18) (.attn 0 g0 3 2 0x0102 4 1023) = true := by decide
theorem test_word_kv : spells (0xB0#8 ++ 0#3 ++ 0#1 ++ 3#4 ++ 2#4 ++ 0x0102#16 ++ 4#5 ++ 0#5 ++ 7#18) (.kvw 0 g0 3 2 0x0102 4 7) = true := by decide
theorem test_word_sample : spells (0xC0#8 ++ 0#3 ++ 0#1 ++ 3#4 ++ 0#4 ++ 0x0102#16 ++ 4#5 ++ 0#5 ++ 0#18) (.samp 0 g0 3 0x0102 4) = true := by decide
theorem test_word_fence : spells (0xD0#8 ++ 0#3 ++ 0#1 ++ 0#4 ++ 0#4 ++ 0#16 ++ 4#5 ++ 0#5 ++ 5#18) (.gfence 0 g0 4 5) = true := by decide

/-! ### A core that is about to fire one instruction -/

/-- A descriptor word (R224). -/
def desc (base fmt len0 len1 stride : Nat) : BitVec 128 :=
  BitVec.ofNat 128 (base + fmt * 2 ^ 25 + (len0 - 1) * 2 ^ 32 + (len1 - 1) * 2 ^ 48 + stride * 2 ^ 64)

/-- t1 to t13 of the demonstration core: small operands of every format at the start of the data window. -/
def tregs0 : SMap (BitVec 128) :=
  [(1, desc 0x30_0000 1 2 1 0), (2, desc 0x30_0040 1 2 1 0), (3, desc 0x30_0080 2 2 1 0), (4, desc 0 9 256 1 0), (5, desc 0 9 2 1 0),
   (6, desc 0x30_0100 10 2 1 0), (7, desc 0x30_0200 3 32 1 0), (8, desc 0x30_0300 8 1 1 0), (9, desc 0x30_0340 1 1 1 0), (10, desc 0x30_0380 1 32 1 0),
   (11, desc 0x30_03C0 1 2 1 0), (12, desc 0x30_0040 1 1 1 0), (13, desc 0x2000 9 256 1 0)]

/-- An almanac of one slot on core 0, with one route of each kind. -/
def alm0 : Almanac :=
  { slots := 1, ident := 1, period := 160, guardSteps := 4, reserve := 0, stages := 1, mode := 0, member := 0, patchEpoch := 3
    cores := [⟨0, true, 1, 0, 0x10_0000, 0x100, [⟨0x10_0000, 0, 0, 1, 1, 0, 0, 0, 5, 0, 0, 0⟩]⟩]
    routes := [⟨0, 0, 0, 0, 1, 0x30_0000, 256, 0, 0⟩, ⟨1, 1, 0, 1, 3, 0, 0, 2, 0⟩, ⟨2, 0, 0, 24, 0, 0, 0, 0, 0⟩, ⟨3, 0, 0, 24, 0, 0, 0, 0, 0⟩, ⟨4, 0, 0, 25, 0, 0, 0, 0, 0⟩]
    depths := [], raw := [] }

/-- A die whose domains are all in use and whose ports are up (R24, R26, R305). -/
def upDie : Die := { dieDefault 0 with domCtrl := 0x3FF_FFFF, domPower := 0x3FF_FFFF, domReady := 0x3FF_FFFF, domUse := 0x3FF_FFFF, portState := [2, 2, 2, 2, 2, 2] }

/-- The work window of a tick with that almanac; core 0 stands before instruction i. The layer directory names array 0 alone. -/
def demo (i : Instr) : State :=
  { State.reset with
    tick := { State.reset.tick with phase := .work, seq := 1, count := 9 }
    alm := some alm0, dies := [(0, upDie), (1, upDie)]
    cores := [(0, { coreDefault 0 with
      run := true, idle := false, sweepDone := true, pc := 0x10_0000, stack := [0x10_0040], arrival := [(0xC000, true)], prog0 := 0x10_0000, prog1 := 0x100, dwin0 := 0x30_0000, dwin1 := 0x1_0000
      sregs := [(5, 0x30_0100#64), (6, 4#64), (7, 1#64)], tregs := tregs0
      store := writeBytes (writeBytes [] 0x10_0000 (leBytes 8 ((encode i).getD 0).toNat)) 0x20_0000 [0, 0, 1, 0, 0, 0, 0, 0, 0, 0, 0, 0, 0, 1] })] }

/-- The demonstration with core 0 changed. -/
def demoWith (i : Instr) (f : Core → Core) : State := (demo i).modCore 0 f

/-- The conditions of `Ready`, as a check. -/
def readyB (c : CoreId) (i : Instr) (g : Guard) (s : State) : Bool :=
  (s.core c).run && decide (s.tick.phase = .work) && (s.core c).inProgram (s.core c).pc &&
  !(s.core c).badRange (s.core c).pc.toNat ((s.core c).pc.toNat + 8) && decide (decodeAithal c (s.core c).fetch = some (asWord i)) &&
  (s.core c).enabled g && !(s.core c).pendingReg ⟨[], [], [g.pred]⟩ && !(s.core c).pendingReg (depsOf i) && decide (s.fireAt c i g < s.dln c)

theorem ready_of {c : CoreId} {i : Instr} {g : Guard} {s : State} (h : readyB c i g s = true) : Ready c i g s := by
  simp only [readyB, Bool.and_eq_true, Bool.not_eq_true', decide_eq_true_eq] at h
  obtain ⟨⟨⟨⟨⟨⟨⟨⟨a, b⟩, c⟩, d⟩, e⟩, f⟩, g⟩, h⟩, i⟩ := h
  exact ⟨a, b, c, d, e, f, g, h, i⟩

/-- The conditions of `OperandsGood`, as a check. -/
def goodB (c : CoreId) (u : UnitKind) (rd wr : List (Desc × List Nat)) (s : State) : Bool :=
  (rd.all fun p => decide ((s.core c).checkDesc s.tick.seq p.1 p.2 true false = none)) &&
  (wr.all fun p => decide ((s.core c).checkDesc s.tick.seq p.1 p.2 false true = none)) &&
  !(s.core c).busy u (extentsOf s.tick.seq (rd.map Prod.fst)) (extentsOf s.tick.seq (wr.map Prod.fst)) [] &&
  (rd.all fun p => (s.core c).ready2 s.tick.seq p.1)

theorem good_of {c : CoreId} {u : UnitKind} {rd wr : List (Desc × List Nat)} {s : State} (h : goodB c u rd wr s = true) : OperandsGood c u rd wr s := by
  simp only [goodB, Bool.and_eq_true, List.all_eq_true, Bool.not_eq_true', decide_eq_true_eq] at h
  exact ⟨h.1.1.1, h.1.1.2, h.1.2, h.2⟩

/-- Scalar, predicate and control instructions of core 0. -/
def plain : List Instr :=
  [.add 0 g0 8 5 6 1, .sub 0 g0 8 5 6 1, .mul 0 g0 8 5 6 1, .divu 0 g0 8 5 6 1, .remu 0 g0 8 5 6 1, .divs 0 g0 8 5 6 1, .rems 0 g0 8 5 6 1, .and 0 g0 8 5 6 1,
   .or 0 g0 8 5 6 1, .xor 0 g0 8 5 6 1, .shl 0 g0 8 5 6 1, .shr 0 g0 8 5 6 1, .sra 0 g0 8 5 6 1, .min 0 g0 8 5 6 1, .max 0 g0 8 5 6 1, .movhi 0 g0 8 5 1,
   .ld 0 g0 8 5 8, .st 0 g0 8 5 8, .ldw 0 g0 8 5 4, .stw 0 g0 8 5 4, .ldd 0 g0 1 5 16, .std 0 g0 1 5 16, .ldx 0 g0 8 7 8, .dset 0 g0 1 .len0m1 5 1,
   .pcmp 0 g0 1 .lt 5 6 1, .pand 0 g0 1 0 2, .por 0 g0 1 0 2, .pxor 0 g0 1 0 2, .pnot 0 g0 1 2, .pset 0 g0 1 true, .tst 0 g0 1 1, .rdst 0 g0 8, .clst 0 g0 1,
   .br 0 g0 6 .nz 1, .call 0 g0 1, .ret 0 g0, .endProg 0 g0, .rds 0 g0 8 .epoch, .wait 0 g0 0, .waitd 0 g0 1, .nop 0 g0]

/-- Instructions of the units of core 0. -/
def units : List Instr :=
  [.mvm 0 g0 (mvmOf tile1) [], .mvs 0 g0 4 1 6 tile1, .accclr 0 g0 5, .accrd 0 g0 11 5 0, .accst 0 g0 6 5, .accld 0 g0 5 6, .accadd 0 g0 5 6, .qnt 0 g0 7 10 6 0,
   .vadd 0 g0 3 1 2, .vsub 0 g0 3 1 2, .vmul 0 g0 3 1 2, .vfma 0 g0 3 1 2, .vmax 0 g0 3 1 2, .vmin 0 g0 3 1 2, .vscl 0 g0 3 1 6, .vcvt 0 g0 3 1, .vsum 0 g0 9 1, .vmaxr 0 g0 9 1,
   .vnorm 0 g0 3 1 2 20, .vexp 0 g0 3 1, .vrcp 0 g0 3 1, .vrsqrt 0 g0 3 1, .vsilu 0 g0 3 1, .vgelu 0 g0 3 1, .vtanh 0 g0 3 1, .vsigm 0 g0 3 1, .vrope 0 g0 3 1 12 6,
   .mov 0 g0 11 1, .mfill 0 g0 3 6, .mgath 0 g0 11 1 8, .send 0 g0 1 0 0, .red 0 g0 3 1 0 false, .attn 0 g0 1 2 2 6 0, .kvw 0 g0 1 2 4 6 0, .samp 0 g0 1 3 6, .gfence 0 g0 6 1]

theorem test_ready_plain : ∀ i ∈ plain, Ready 0 i g0 (demo i) :=
  fun i h => ready_of ((by decide +kernel : ∀ i ∈ plain, readyB 0 i g0 (demo i) = true) i h)

theorem test_ready_units : ∀ i ∈ units, Ready 0 i g0 (demo i) :=
  fun i h => ready_of ((by decide +kernel : ∀ i ∈ units, readyB 0 i g0 (demo i) = true) i h)

/-- The descriptor in t[r] of the demonstration core. -/
def dof (r : TReg) : Desc := descOf (((demo (.nop 0 g0)).core 0).treg r)

/-- Operand lists of unit instructions that the demonstration core accepts. -/
def operandsGood : List (UnitKind × List (Desc × List Nat) × List (Desc × List Nat)) :=
  [(.vector, [(dof 1, [1, 2, 6, 7]), (dof 2, [1, 2, 6, 7]), (dof 3, [1, 2, 6, 7])], [(dof 3, [1, 2, 6, 7])]),
   (.vector, [(dof 1, [1, 2, 6, 7]), (dof 12, [1, 2, 6, 7])], [(dof 3, [1, 2, 6, 7])]), (.vector, [(dof 1, [1, 2, 6, 7])], [(dof 9, [1, 2, 6, 7])]),
   (.move, [(dof 1, [1, 2, 6, 7, 8, 10, 11]), (dof 8, [8])], [(dof 11, [1, 2, 6, 7, 8, 10, 11])]), (.move, [], [(dof 3, [1, 2, 6, 7, 8, 11])]),
   (.array, [], [(dof 5, [9, 10])]), (.array, [(dof 5, [9])], [(dof 6, [10])]), (.array, [(dof 5, [9]), (dof 6, [10])], [(dof 5, [9])]), (.array, [(dof 5, [9, 10])], [(dof 11, [1, 2])]),
   (.array, [(dof 1, [1]), (dof 4, [9])], [(dof 4, [9])]), (.quant, [(dof 10, [1])], [(dof 7, [3, 4, 5])]), (.net, [(dof 1, [1, 2])], []), (.net, [(dof 3, [2, 8, 9, 10])], []),
   (.serve, [(dof 1, [1])], [(dof 2, [1, 2])]), (.serve, [(dof 1, [1]), (dof 2, [1])], []), (.serve, [], [])]

theorem test_operands_good : ∀ x ∈ operandsGood, OperandsGood 0 x.1 x.2.1 x.2.2 (demo (.nop 0 g0)) :=
  fun x h => good_of ((by decide +kernel : ∀ x ∈ operandsGood, goodB 0 x.1 x.2.1 x.2.2 (demo (.nop 0 g0)) = true) x h)

/-- Every instruction of the two lists moves the PC on, or ends or leaves the program, as its rule says: none waits and none halts. -/
theorem test_plain_fires : ∀ i ∈ plain, leaves (exec i (demo i)) (fun t => (t.core 0).pc != 0x10_0000 && !(t.core 0).halted) = true := by decide +kernel

theorem test_units_fire : ∀ i ∈ units, leaves (exec i (demo i)) (fun t => (t.core 0).pc == 0x10_0008#64 && ((t.core 0).inflight.map UnitInst.unit).length == 1) = true := by
  decide +kernel

/-! ### States that meet the hypotheses: Aithal (the numbers name the clause) -/

theorem test_hyp_scalar_loads : (let k := (demo (.ld 0 g0 8 5 8)).core 0
    decide (k.access false 0x30_0108 0x30_0110 = none ∧ k.access true 0x30_0108 0x30_0110 = none ∧ k.badRange 0x30_0108 0x30_0110 = false)
    && decide ((dof 7).lo 1 = 0x30_0200 ∧ (dof 7).lo 1 + 8 + 8 ≤ ((dof 7).extent 1).hi ∧ k.arrived 0x30_0000 0x30_0004 = true)
    && decide (k.checkDesc 1 (dof 7) [1, 2, 3, 4, 5, 6, 7, 8, 10, 11] false false = none)) = true := by decide +kernel

/-- A program may not read its own program region: BOUNDS (R217). -/
theorem test_hyp_traps : (let k := (demo (.nop 0 g0)).core 0
    decide (k.access false 0x10_0000 0x10_0008 = some 0x13 ∧ k.stack ≠ [] ∧ k.stack.length < 8 ∧ (k.sreg 5).toNat % 8 = 0)) = true := by decide +kernel

theorem test_trap_align : leaves (exec (.ld 0 g0 8 5 4) (demo (.ld 0 g0 8 5 4))) (fun t => (t.core 0).halted && (t.core 0).exc0 == 0x80A8_0000#32) = true := by decide +kernel
theorem test_trap_empty_stack : leaves (exec (.ret 0 g0) (demoWith (.ret 0 g0) fun k => { k with stack := [] })) (fun t => (t.core 0).exc0 == 0x8088_0000#32) = true := by
  decide +kernel
theorem test_guard_off : leaves (exec (.add 0 ⟨0, true⟩ 8 5 6 1) (demo (.add 0 ⟨0, true⟩ 8 5 6 1))) (fun t => (t.core 0).sreg 8 == 0 && (t.core 0).cyc == 1) = true := by decide +kernel
theorem test_add : leaves (exec (.add 0 g0 8 5 6 1) (demo (.add 0 g0 8 5 6 1))) (fun t => (t.core 0).sreg 8 == 0x30_0105) = true := by decide +kernel
theorem test_s0_stays : leaves (exec (.add 0 g0 0 5 6 1) (demo (.add 0 g0 0 5 6 1))) (fun t => (t.core 0).sreg 0 == 0) = true := by decide +kernel
theorem test_divs_overflow : leaves (exec (.divs 0 g0 8 9 0 0xFFFF_FFFF) (demoWith (.divs 0 g0 8 9 0 0xFFFF_FFFF) fun k => { k with sregs := [(9, 0x8000_0000_0000_0000)] }))
    (fun t => (t.core 0).sreg 8 == 0x8000_0000_0000_0000) = true := by decide +kernel
theorem test_divs_by_zero : leaves (exec (.divs 0 g0 8 5 0 0) (demo (.divs 0 g0 8 5 0 0))) (fun t => (t.core 0).sreg 8 == BitVec.allOnes 64) = true := by decide +kernel
theorem test_store_low_byte_first : leaves (exec (.stw 0 g0 5 5 0) (demo (.stw 0 g0 5 5 0))) (fun t => readBytes (t.core 0).store 0x30_0100 4 == [0, 1, 0x30, 0]) = true := by decide +kernel
theorem test_branch : leaves (exec (.br 0 g0 6 .nz 4) (demo (.br 0 g0 6 .nz 4))) (fun t => (t.core 0).pc == 0x10_0020 && (t.core 0).cyc == 3) = true := by decide +kernel

/-- Shapes that the vector, move and accumulator statements ask for (R259 to R263, R255). -/
theorem test_hyp_shapes : ((dof 3).len0 = (dof 1).len0 ∧ (dof 3).len1 = (dof 1).len1 ∧ (dof 2).len0 = (dof 1).len0) ∧ ((dof 9).len0 = 1 ∧ (dof 9).len1 = (dof 1).len1) ∧
    ((dof 1).len0 = 2 * (dof 12).len0 ∧ (dof 12).len1 = 1) ∧ ((dof 11).fmt = (dof 1).fmt ∧ (dof 8).len0 * (dof 8).len1 = (dof 11).len1) ∧
    (dof 5).len0 * (dof 5).len1 = (dof 6).len0 * (dof 6).len1 ∧ 256 ≤ (dof 4).len0 * (dof 4).len1 ∧ ((dof 7).fmt = 3 ∧ (dof 10).len0 ≤ (dof 7).len0) := by decide +kernel

/-- Recipe 0 and the layer of array 0 that the demonstration's tables give (R123, R388); no static channel is enabled. -/
theorem test_hyp_recipe : ((demo (.nop 0 g0)).slotRecipe 0 0).isSome = true ∧ (demo (.nop 0 g0)).staticOf 0 0 = some (⟨0, 1, 0, 0, 0, 256⟩, []) ∧
    (demo (.nop 0 g0)).slotRecipe 0 1 = none := by decide +kernel

/-- 1.0 + 1.0 in BF16 gives 2.0 in FP32. -/
theorem test_vadd : leaves (exec (.vadd 0 g0 3 1 2) (demoWith (.vadd 0 g0 3 1 2) fun k => { k with store := writeBytes (writeBytes k.store 0x30_0000 [0x80, 0x3F]) 0x30_0040 [0x80, 0x3F] }))
    (fun t => readNat (t.core 0).store 0x30_0080 4 == 0x4000_0000) = true := by decide +kernel

/-- The conditions of `ArrayProduct` on the demonstration: the row limit, the gate and the readable rows (R111, R172, R53). -/
theorem test_hyp_mvm : (let s := demo (.mvm 0 g0 (mvmOf tile1) [])
    let arrs := tile1.arrays.map (s.arrPlan 0 .standard .auto)
    decide ((s.core 0).checkDesc 1 (dof 4) [9] true true = none ∧ (s.core 0).checkDesc 1 (dof 7) [3, 4, 5] true false = none ∧ (dof 7).len0 ≤ tile1.kspan * tile1.rows)
    && !(s.core 0).busy .array [(dof 7).extent 1] [(dof 4).extent 1] tile1.arrays
    && decide (issueEnd (s.fireAt 0 (.mvm 0 g0 (mvmOf tile1) []) g0) (arrs.map fun p => (p.array, nominalTime tile1 .int4 (settle (s.half 0).band) [] p)) ≤ s.dln 0)
    && arrs.all fun p => scaleFails tile1 [] [] p != 2 && rowFails tile1 [] [] p != 2) = true := by decide +kernel

/-- A short tick: the issue ends past DLN, the core overruns (R172). -/
theorem test_issue_gate : leaves (exec (.mvm 0 g0 (mvmOf tile1) []) { demo (.mvm 0 g0 (mvmOf tile1) []) with tick := { (demo (.nop 0 g0)).tick with pEff := 12 } })
    (fun t => !(t.core 0).run && t.tick.event.getLsbD 0 && t.tick.notices == [⟨0, 0, 0⟩]) = true := by decide +kernel

/-- Core 0 with an issue in flight of which passes await their verdict or are due: activation element 0 is 1. -/
def issued (rows : SMap (BitVec 1344)) (todo due : List PassId) : State := demoWith (.nop 0 g0) fun k => { k with
  arrays := [(0, { arrayDefault 0 with rows := rows })], nextId := 1
  inflight := [⟨0, .array, some 100, [], [⟨true, 0, 8192⟩], none, none, [0], 0x10_0000,
    some ⟨tile1, .standard, .auto, .int4, 0, [1], [127], [], [(0, 7)], [], todo, todo, due, [(0, 100)], 0⟩, 0⟩] }
/-- The retry of a pass of 16 rows. -/
def retry16 : PassId := ⟨0, 0, 0, 16, true⟩

/-- Good cells give residue 0 in every group; cells that break the check columns do not (R57). -/
theorem test_hyp_verdicts : (let good := (issued [] [] []).arrPlan 0 .standard .auto 0
    let bad := (issued [(0, 1)] [] []).arrPlan 0 .standard .auto 0
    ((List.range 8).all fun h => passResidue good.info good.fp4 [0] [] h % 31 == 0) && ((List.range 8).any fun h => passResidue bad.info bad.fp4 [0] [] h % 31 != 0)) = true := by
  decide +kernel

theorem test_verdict_passes : leaves (exec (.passVerdict 0 0 (passOf 64) []) (issued [] [passOf 64] [])) (fun t => match (t.core 0).findIssue 0 with
    | some (_, a) => a.due == [] && a.todo == []
    | none => false) = true := by decide +kernel
theorem test_verdict_halves : leaves (exec (.passVerdict 0 0 (passOf 64) []) (issued [(0, 1)] [passOf 64] [])) (fun t => (t.core 0).eventStat.getLsbD 0 && match (t.core 0).findIssue 0 with
    | some (_, a) => a.due == [⟨0, 0, 0, 32, false⟩, ⟨0, 0, 32, 32, false⟩]
    | none => false) = true := by decide +kernel
theorem test_verdict_exhausts : leaves (exec (.passVerdict 0 0 retry16 []) (issued [(0, 1)] [retry16] [])) (fun t => (t.core 0).halted && (t.core 0).accGet 0 == 7 && t.tick.notices == [⟨3, 0, 0⟩]) = true := by
  decide +kernel
theorem test_reread : leaves (exec (.rereadPass 0 0) (issued [] [passOf 32, passOf 64] [passOf 32, passOf 64])) (fun t => (t.core 0).rereadCnt == 1 && match (t.core 0).findIssue 0 with
    | some (_, a) => a.due == [passOf 64] && a.todo.length == 2
    | none => false) = true := by decide +kernel
/-- The instruction in flight has completed by the last cycle of its core (R247). -/
theorem test_completion : leaves (exec (.unitInstructionComplete 0 0) (issued [] [] [])) (fun t => (t.core 0).inflight == [] && (t.core 0).cyc == 101) = true := by decide +kernel

/-- Accumulator entries that together pass 65,536 rows (R111, R237). -/
theorem test_hyp_row_limit : ∃ a b : BitVec 256, 65536 < (accOf a).rows + (accOf b).rows := ⟨BitVec.allOnes 256, BitVec.allOnes 256, by decide +kernel⟩

/-- Routes of the demonstration in the slot's range, with the kinds that the ports ask for (R264 to R268). -/
theorem test_hyp_routes : ((List.range 5).all fun i => (demo (.nop 0 g0)).routeInSlot 0 i && match (demo (.nop 0 g0)).route i with
    | some r => r.kind == i
    | none => false) = true ∧ redFmtOk 1 2 false = true ∧ (dof 1).len1 * alignUp (dof 1).rowBytes 64 ≤ 256 ∧ tagClass 4 = 0 ∧ tagClass 0xFFFF_FFFF_FFFF_FFFF ≠ 0 := by decide +kernel

theorem test_send : leaves (exec (.send 0 g0 1 0 0) (demo (.send 0 g0 1 0 0))) (fun t => t.flits.length == 1 && (t.flits.all fun f => f.body.hdr.first && f.body.hdr.last && f.body.hdr.destUnit == 1)) = true := by
  decide +kernel

/-! ### States that meet the hypotheses: the tick (R163 to R200) -/

/-- After reset, in a phase of the tick. -/
def at_ (ph : Phase) : State := { State.reset with tick := { State.reset.tick with phase := ph } }
/-- A tick change of such a state. -/
def tickWith (ph : Phase) (f : Tick → Tick) : State := { State.reset with tick := f { State.reset.tick with phase := ph } }

/-- Core 0 good, with its logic ready, listed by the almanac (R167). -/
def startable : State :=
  { State.reset with alm := some alm0, dies := [(0, upDie)] }

theorem test_hyp_slot_start : (alm0.cores.map CoreEnt.core).Nodup ∧ (∃ e ∈ alm0.cores, e.core = 0 ∧ (e.slots[0]?).isSome = true) ∧ startable.fuses.coreMap.getLsbD 0 = true ∧
    (startable.die (dieOf 0)).domUse.getLsbD 16 = true ∧ (startable.core 0).seqSafe = false ∧ startable.tick.phase = .applied := by decide +kernel
theorem test_slot_start : leaves (exec .tickStart startable) (fun t => (t.core 0).run && (t.core 0).pc == 0x10_0000 && (t.core 0).sreg 1 == 1 && t.tick.seq == 1) = true := by decide +kernel
/-- With no almanac the tick carries no work: the count advances alone. -/
theorem test_idle_tick : leaves (exec .tickStart State.reset) (fun t => t.tick.idle && t.tick.count == 1 && t.tick.seq == 0) = true := by decide +kernel
theorem test_leap_tick : leaves (exec .tickStart { startable with tick := { State.reset.tick with leapNext := true } }) (fun t => t.tick.leap && t.tick.seq == 0 && !(t.core 0).run) = true := by
  decide +kernel
theorem test_overrun : leaves (exec .issueDeadline (demo (.nop 0 g0))) (fun t => !(t.core 0).run && t.tick.phase == .drain && t.tick.notices != []) = true := by decide +kernel
/-- A move still in flight at the work deadline leaves a notice of cause 9 (R173). -/
theorem test_work_deadline : leaves (exec .workDeadline { demoWith (.nop 0 g0) (fun k => { k with inflight := [⟨0, .move, some 100000, [], [], none, none, [], 0, none, 0⟩] }) with
    tick := { (demo (.nop 0 g0)).tick with phase := .drain } }) (fun t => t.tick.notices == [⟨9, 0, 0⟩] && (t.core 0).inflight == []) = true := by decide +kernel
theorem test_change_report : leaves (exec .changeReport (at_ .eve)) (fun t => t.tick.phase == .reported && !t.chg.pNak) = true := by decide +kernel
theorem test_apply_point : leaves (exec .applyPoint (at_ .reported)) (fun t => t.tick.phase == .applied) = true := by decide +kernel

/-- A verdict on tick 4 in tick 5: a notice in the stamp of the package itself makes it lost (R174, R175). -/
def judged (ns : List Notice) : State := { State.reset with
  tick := { State.reset.tick with phase := .reported, count := 5, seq := 5, hist := [⟨5, 5, false, false, false⟩, ⟨4, 4, false, false, false⟩] }
  grp := { State.reset.grp with stamps := [{ stamp0 with tick := 4, notices := ns }] } }
theorem test_hyp_verdict : (judged [⟨2, 0, 3⟩]).verdictNotices 4 = [⟨2, 0, 3⟩] ∧ (judged []).verdictNotices 4 = [] := by decide +kernel
theorem test_lost : (judged [⟨2, 0, 3⟩]).verdict.tick.seq = 3 ∧ (judged [⟨2, 0, 3⟩]).verdict.tick.lossInfo = 0x0302_0004 := by decide +kernel
theorem test_not_lost : (judged []).verdict.tick.seq = 5 ∧ (judged []).verdict.grp.lastCommit = 4 := by decide +kernel

/-- A stamp of tick 4 that asks for a stretch and a leap tick, seen at the apply point of tick 5 (R182, R185). -/
def asked (last : Option W48) : State := { State.reset with
  tick := { State.reset.tick with phase := .reported, count := 5, stretch := 10, lastLeap := last }
  grp := { State.reset.grp with stamps := [{ stamp0 with tick := 4, stretch := 9, leap := true }] } }
theorem test_stretch : (asked none).groupStretch.tick.stretch = 9 := by decide +kernel
theorem test_stretch_falls_by_two : ({ asked none with grp := { State.reset.grp with stamps := [] } } : State).groupStretch.tick.stretch = 8 := by decide +kernel
theorem test_leap : (asked none).leapSchedule.tick.leapNext = true ∧ (asked none).lostNow = false ∧ (asked none).held = false := by decide +kernel
/-- 62 ticks after the last leap tick the request is deferred, 63 after it is not (R182). -/
theorem test_leap_deferred : ({ asked (some 1) with tick := { (asked (some 1)).tick with lastLeap := some (5 - 62) } } : State).leapSchedule.tick.event.getLsbD 5 = true ∧
    ({ asked (some 1) with tick := { (asked (some 1)).tick with lastLeap := some (5 - 63) } } : State).leapSchedule.tick.leapNext = true := by decide +kernel
/-- Bands at their boundaries: 40 °C is Nominal, 105 °C Hot and more than that Critical; 38 °C stays Nominal and 37.9 °C falls (R138). -/
theorem test_bands : bandOf 319 = .cold ∧ bandOf 320 = .nominal ∧ bandOf 840 = .hot ∧ bandOf 841 = .critical ∧
    nextBand .nominal (some 304) = .nominal ∧ nextBand .nominal (some 303) = .cold := by decide +kernel

theorem test_emergency_stretch : leaves (exec .emergencyStretch (tickWith .applied fun t => { t with emergCall := true })) (fun t => t.tick.emergUntil == some 1025) = true := by decide +kernel
theorem test_emergency_stretch_end : leaves (exec .emergencyStretchEnd (tickWith .applied fun t => { t with emergUntil := some 0 })) (fun t => t.tick.emergUntil == none) = true := by decide +kernel
theorem test_repeat_loss : leaves (exec .repeatLossFault (tickWith .applied fun t => { t with repeatFault := true })) (fun t => t.grp.fault && !t.tick.repeatFault) = true := by decide +kernel
theorem test_recovery_end : leaves (exec .recoveryHoldEnd (tickWith .applied fun t => { t with recovery := some ⟨0, [], 0⟩ })) (fun t => t.tick.recovery == none) = true := by decide +kernel
theorem test_recovery_timeout : leaves (exec .recoveryHoldTimeout (tickWith .applied fun t => { t with count := 1023, recovery := some ⟨0, [], 0⟩ })) (fun t => t.grp.fault) = true := by decide +kernel
/-- A structural patch that all have agreed to, at its target (R198), and one that has moved too often (R200). -/
def patched (moves : Nat) : State := { tickWith .applied fun t => { t with patch := some ⟨some alm0, [], 0, moves, true, true, true, cmd0⟩ } with alm := some alm0 }
theorem test_structural_patch : leaves (exec .structuralPatchApply (patched 0)) (fun t => t.tick.leapNext && t.tick.patch.isNone) = true := by decide +kernel
theorem test_patch_rollback : leaves (exec .patchRollback (patched 17)) (fun t => t.tick.patch.isNone && t.tick.event.getLsbD 8) = true := by decide +kernel
theorem test_change_rollback : leaves (exec .changeRollback { at_ .applied with chg := { State.reset.chg with pMoves := 17 } }) (fun t => t.chg.result == 3) = true := by decide +kernel

/-! ### States that meet the hypotheses: network, reducers, links (R273 to R307) -/

/-- A flit of kind, route and unit at die 0 router 0, in the work window. -/
def flying (h : Header) : State :=
  { demo (.nop 0 g0) with flits := [⟨5, 0, ⟨h, List.replicate 64 1, 64⟩, 0, 0, false, false, none, none, none⟩], nextFlit := 6 }
/-- Its one flit. -/
def theFlit (s : State) : Flit := nth ⟨0, 0, flit64, 0, 0, false, false, none, none, none⟩ s.flits 0

theorem test_hyp_hops : (flying hdr0).hop (theFlit (flying hdr0)) = .here ∧ (flying { hdr0 with destUnit := 1 }).hop (theFlit (flying { hdr0 with destUnit := 1 })) = .lane 1 := by
  decide +kernel
theorem test_hop_here : leaves (exec (.flitHopReceive 5 .clean) (flying hdr0)) (fun t => (theFlit t).arrived) = true := by decide +kernel
theorem test_hop_lane : leaves (exec (.flitHopReceive 5 .clean) (flying { hdr0 with destUnit := 1 })) (fun t => (theFlit t).router == 1 && (theFlit t).die == 0) = true := by decide +kernel
/-- A flit for die 1 at the router of the port to it, or in the seam's crossing buffer towards that router (R19). -/
def atPort (seam : Bool) : State := let s := flying { hdr0 with die := 1 }
  { s with flits := s.flits.map fun f => { f with router := portRouter 0 1, seam := seam } }
def linked (e : Ecc) : Host.Outcome State Fault Refusal := exec (.flitHopReceive 5 e) (atPort false)
/-- The hop over the seam ends in the crossing buffer, and the flit leaves it in its turn (R19). -/
theorem test_hop_seam : leaves (exec (.flitHopReceive 5 .clean) (flying { hdr0 with die := 1 })) (fun t => (theFlit t).seam && (theFlit t).router == 2) = true ∧
    leaves (exec (.flitHopReceive 5 .clean) (atPort true)) (fun t => !(theFlit t).seam) = true := by decide +kernel
theorem test_hop_link : leaves (linked .clean) (fun t => (theFlit t).die == 1) = true := by decide +kernel
theorem test_hop_corrected : leaves (linked (.corrected 2)) (fun t => (t.die 1).eccCorr == 2) = true := by decide +kernel
theorem test_hop_bad_twice : leaves (linked .badTwice) (fun t => t.flits == [] && (t.die 1).redEvt.getLsbD 7 && t.tick.notices == [⟨5, 0, 1⟩]) = true := by decide +kernel

theorem test_hyp_delivery : (flying { hdr0 with seq := 1 }).hop (theFlit (flying { hdr0 with seq := 1 })) = .here ∧ coreAt 0 0 = some 0 ∧ ((flying hdr0).route 0).isSome = true := by decide +kernel
/-- Sequence 1 goes to bank 1 of its route: 0x300000 + 256 (R220, R265). -/
theorem test_delivery : leaves (exec (.flitDelivery 5) (flying { hdr0 with seq := 1 })) (fun t => memGet (t.core 0).store 0x30_0100 == 1 && (t.core 0).arrived 0x30_0100 0x30_0140 && t.flits == []) = true := by
  decide +kernel

/-- A reducer of die 0 armed for route 1, sequence 1. -/
def reducing (h : Header) : State :=
  { flying h with reducers := [(0, ⟨true, 1, 1, 0, [], 16, [(false, false)], false, false, false⟩)], flits := [⟨5, 0, ⟨h, List.replicate 64 0, 64⟩, 0, 0, false, true, none, none, none⟩] }
theorem test_hyp_reducer : ((reducing hdr0).reducer 0 0).armed = true ∧ ((reducing hdr0).route 1).map RouteEnt.partials = some 2 ∧ ((reducing hdr0).route 2).isSome = true := by decide +kernel
theorem test_combine : leaves (exec (.reducerCombine 5) (reducing { hdr0 with kind := 1, form := 1, route := 1, seq := 1 })) (fun t => (t.reducer 0 0).count == 1 && t.flits == []) = true := by decide +kernel
theorem test_stale : leaves (exec (.reducerCombine 5) (reducing { hdr0 with kind := 1, form := 1, route := 1, seq := 0 })) (fun t => (t.die 0).redEvt.getLsbD 3 && t.flits == []) = true := by decide +kernel
/-- All partials are there: the result goes out on the next route (R288, R294). -/
theorem test_reducer_delivery : leaves (exec (.reducerDelivery 0 0) { reducing hdr0 with reducers := [(0, ⟨true, 1, 1, 2, [], 16, [(false, false)], false, false, false⟩)], flits := [] })
    (fun t => (t.reducer 0 0).delivered && t.flits.length == 1 && (t.flits.all fun f => f.body.hdr.route == 2)) = true := by decide +kernel

theorem test_scrub : leaves (exec (.scrub 0 (.store 0 0x30_0000) true) (demo (.nop 0 g0))) (fun t => (t.core 0).badStore == [0x3_0000]) = true := by decide +kernel
/-- A word of the program region is written again between ticks (R239, R303). -/
theorem test_scrub_program : leaves (exec .tickStart { demoWith (.nop 0 g0) (fun k => { k with badStore := [0x1_0000, 0x3_0000] }) with tick := State.reset.tick }) (fun t => (t.core 0).badStore == [0x3_0000]) = true := by decide +kernel
/-- A serving die with one page of request 2, layer 0, in frame 4. -/
def paged : State := { at_ .work with
  serve := [(0, { serveDefault 0 with poolLo := 4, poolUnits := 64, alloc := [(4, 8)], pages := [((1024 * 2 + 0) * 512 + 0, ⟨4, 1, true, false, 0⟩)], dirs := [(2, ⟨1, 0, 0, 0⟩)] })]
  aux := [⟨3, 24, 0, [0, 0, 1, 1, 0, 5, 0, 0, 0, 0, 0, 0, 0, 0, 0, 0]⟩] }
theorem test_hyp_page : paged.pageAt 0 (4 * 4096) = some (2, 0, 0) ∧ (paged.layerRec 0 0).isSome = true := by decide +kernel
/-- Both ends of a link take its state, with PHY power at both (R15, R24). -/
theorem test_link_training : (flying hdr0).phyOn 0 1 = true ∧ leaves (exec (.linkTraining 0 1 .x32) (flying hdr0)) (fun t => nth 9 (t.die 0).portState 1 == 1 && nth 9 (t.die 1).portState (portTo 1 0) == 1) = true := by decide +kernel
theorem test_link_degrade : leaves (exec (.linkDegrade 0 0 false) { flying hdr0 with alm := none }) (fun t => nth 9 (t.die 0).portState 0 == 1) = true := by decide +kernel

/-! ### States that meet the hypotheses: fabric, groups, timing (R408 to R451) -/

/-- A record of two members at addresses 1 and 2. -/
def rec2 : GroupRecord := { noRecord with groupId := 5, members := 2, memberPos := [1, 2] ++ List.replicate 14 0xFFFF, generation := 7 }
/-- Member 0 of that group, at address 1, in a state of the group; links 0 and 4 are up. -/
def grouped (g : GState) (ph : Phase) : State := { at_ ph with
  fab := { State.reset.fab with pos := 1, link := [(0, 2), (4, 2)] }
  grp := { State.reset.grp with record := rec2, tickRecord := rec2, prevRecord := rec2, state := g } }
/-- Its far end on link 0: position 2 answers on the opposite direction (R412). -/
def farEnd : Peer := ⟨2, 1, 0⟩

theorem test_hyp_peer : (grouped .serving .work).peerOk 0 farEnd = true ∧ (grouped .serving .work).peerOk 0 ⟨3, 1, 0⟩ = false ∧ (grouped .serving .work).addr = 1 := by decide +kernel
theorem test_training : leaves (exec (.fabricLinkTraining 0 .lanes4 (some farEnd)) (grouped .serving .work)) (fun t => t.flink 0 == 1) = true := by decide +kernel
theorem test_mismatch : leaves (exec (.fabricLinkTraining 0 .lanes8 (some ⟨3, 1, 0⟩)) (grouped .serving .work)) (fun t => t.flink 0 == 0 && t.grp.evt == 1) = true := by decide +kernel
theorem test_lane_fail : leaves (exec (.fabricLaneFail 0 true) (grouped .serving .work)) (fun t => t.flink 0 == 1) = true := by decide +kernel
theorem test_eye_safety : leaves (exec (.eyeSafetyDisable 0 1) (grouped .serving .work)) (fun t => t.flink 4 == 0 && t.fab.eyeOff == [(0, 1)]) = true := by decide +kernel
theorem test_optical_die : leaves (exec (.opticalDieFail 0) (grouped .serving .work)) (fun t => t.flink 0 == 0 && t.grp.fault) = true := by decide +kernel
theorem test_optical_die_2 : leaves (exec (.opticalDieFail 2) (grouped .serving .work)) (fun t => t.fab.holdover) = true := by decide +kernel

/-- A DATA frame for address 1 with the tag of tick 0, and one with another tag (R420). -/
def dataOf (tag : W32) : Frame := { frame0 with dest := 1, tag := tag }
theorem test_data_frame : (match (grouped .serving .work).tagIn 0 with
    | some tag => leaves (exec (.dataFrame ⟨dataOf tag, .clean⟩) (grouped .serving .work)) (fun t => (t.flits.all fun f => f.die == 28) && t.flits.length == 1)
        && leaves (exec (.dataFrame ⟨dataOf (tag + 1), .clean⟩) (grouped .serving .work)) (fun t => t.grp.evt == 4 && t.flits == [])
    | none => false) = true := by decide +kernel
/-- A frame for address 2 crosses the package to link 0 with one more hop, and leaves in a frame again (R413, R416); at hop 31 it is dropped. -/
def crossing : State := match exec (.transitFrame ⟨{ frame0 with dest := 2, fvc := 1, link := 4 }, .clean⟩) (grouped .serving .work) with
  | .next t => t
  | _ => State.reset
theorem test_transit : (crossing.flits.map fun f => (f.via.map fun g => (g.hops, g.link)) == some (1, 0) && crossing.hop f == .fabric 0) = [true] ∧
    leaves (exec (.flitHopReceive 0 .clean) crossing) (fun t => t.flits == [] && (t.fab.frames.map Prod.fst) == [0]) = true ∧
    leaves (exec (.transitFrame ⟨{ frame0 with dest := 2, hops := 31 }, .clean⟩) (grouped .serving .work)) (fun t => t.flits == []) = true := by decide +kernel
theorem test_stamp_frame : (match (grouped .serving .work).tagIn 0 with
    | some tag => leaves (exec (.stampFrame tag { stamp0 with member := 1 }) (grouped .serving .work)) (fun t => t.grp.stamps.length == 1)
    | none => false) = true := by decide +kernel

/-- A good time message: its count is 5 (R422). -/
def timeMsg : Bytes := let m : Bytes := [0xBC, 1, 5, 0, 0, 0, 0, 0, 0, 0, 0, 0]
  m ++ leBytes 4 (crc32 (sliceBytes m 1 11)).toNat
theorem test_time_message : timeCount timeMsg = some 5 ∧ timeCount (List.replicate 16 0) = none ∧
    leaves (exec (.timeMessage timeMsg) { at_ .work with fab := { State.reset.fab with lock := true } }) (fun t => t.fab.count == 5) = true := by decide +kernel
theorem test_holdover : leaves (exec .holdover { at_ .work with fab := { State.reset.fab with badMsgs := 2, lock := true } }) (fun t => t.fab.holdover && !t.fab.lock && t.grp.evt == 64) = true := by decide +kernel
theorem test_timing_lock : leaves (exec (.timingLock false) { at_ .work with fab := { State.reset.fab with holdover := true } }) (fun t => t.fab.stepDue && t.tick.leapReqs == [2]) = true := by decide +kernel

/-- A convening at tick `n` since its hold began at tick 0, with the own frame and that of member 1 (R432). -/
def convening (n : W48) : State :=
  let s := grouped .convening .applied
  let f (m : Nat) : Convene := ⟨5, m, rec2, 6, 0, 9, false, false⟩
  { s with tick := { s.tick with count := n }, grp := { s.grp with convenes := [f 0, f 1] } }
theorem test_hyp_leader : roundLeader rec2 0 = 0 ∧ roundLeader rec2 1 = 1 ∧ referenceMember rec2 = 0 ∧ (convening 7).keeps 0 = true ∧ (convening 7).keeps 1 = true := by decide +kernel
theorem test_convene : leaves (exec (.conveneFrame ⟨5, 1, rec2, 8, 0, 9, false, false⟩) (convening 7)) (fun t => (t.grp.convenes.map Convene.tick) == [6, 8]) = true := by decide +kernel
theorem test_round_end : leaves (exec .conveningRoundEnd (convening 15)) (fun t => t.grp.round == 1) = true := by decide +kernel
/-- After 16 rounds the hold begins again (R435). -/
theorem test_last_round_end : leaves (exec .conveningRoundEnd { convening 255 with grp := { (convening 255).grp with round := 15 } }) (fun t => t.grp.round == 0 && t.grp.holdFrom == 256) = true := by decide +kernel
/-- A group of one rules for itself: its paths need no delay (R434, R435). -/
def rec1 : GroupRecord := { rec2 with members := 1 }
def alone : State := { convening 7 with grp := { (convening 7).grp with record := rec1, tickRecord := rec1, convenes := [⟨5, 0, rec1, 6, 0, 9, false, false⟩] } }
theorem test_hyp_ruling : (List.range rec1.members).filter alone.keeps = [0] ∧ pathsOk (alone.makeRuling [0] 9).2.record alone.tick.basePeriod = true ∧
    leaves (exec .conveningRuling alone) (fun t => t.grp.rulingAt == 9 && t.grp.rulingOut.isSome) = true := by decide +kernel
/-- A ruling of this round's leader that keeps the members of a mask. -/
def ruled (keep : BitVec 16) : Ruling := ⟨5, 0, { rec2 with epoch := 1 }, keep, 3, 4, 0, 0⟩
theorem test_ruling : leaves (exec (.ruling (ruled 3)) (convening 7)) (fun t => t.grp.rulingAt == 9 && t.grp.ruling.isSome) = true := by decide +kernel
theorem test_split : leaves (exec .groupSplit { convening 7 with grp := { (convening 7).grp with holdSteps := 80000000 } }) (fun t => t.grp.state == .spare && t.grp.fenced) = true := by decide +kernel
/-- The apply point of the ruling: kept by all, kept while member 1 is fenced, and fenced. -/
def applied (keep : BitVec 16) : Host.Outcome State Fault Refusal := exec .rulingApply { convening 9 with grp := { (convening 9).grp with ruling := some (ruled keep), rulingAt := 9 } }
theorem test_ruling_applies : leaves (applied 3) (fun t => t.grp.state == .serving && t.tick.seq == 4) = true ∧ leaves (applied 1) (fun t => t.grp.state == .failover) = true ∧
    leaves (applied 2) (fun t => t.grp.state == .spare && t.grp.fenced) = true := by decide +kernel

/-- A JOIN for the spare at address 1. -/
def joinOf : Join := ⟨1, rec2, 0, 20, 0, 8⟩
def spare1 (ph : Phase) : State := { at_ ph with fab := { State.reset.fab with pos := 1 } }
theorem test_join : leaves (exec (.join joinOf) (spare1 .applied)) (fun t => t.grp.state == .failover && t.tick.count == 19 && t.tick.seq == 8) = true ∧
    leaves (exec (.join joinOf) (spare1 .work)) (fun t => t.grp.joining == some joinOf) = true := by decide +kernel
/-- The leader of a failover whose JOIN for member 1 stays unanswered (R438). -/
theorem test_join_timeout : leaves (exec .joinTimeout { grouped .failover .applied with
    grp := { (grouped .failover .applied).grp with sentJoins := [⟨2, rec2, 1, 0, 0, 8⟩] } }) (fun t => (t.grp.rulingOut.map fun g => g.keep.getLsbD 1) == some false) = true := by decide +kernel
def readyAll : Group := { (grouped .failover .applied).grp with stamps := [{ stamp0 with tick := 4, ready := true }, { stamp0 with tick := 4, member := 1, ready := true }] }
theorem test_failover_end : leaves (exec .failoverHoldEnd { at_ .applied with tick := { (at_ .applied).tick with count := 5 }, grp := readyAll })
    (fun t => t.grp.state == .serving && t.tick.leapNext) = true := by decide +kernel
theorem test_leave : leaves (exec (.leave 5 1) (grouped .serving .work)) (fun t => t.grp.left == [1]) = true := by decide +kernel
theorem test_presence : leaves (exec .presenceBreak (grouped .serving .work)) (fun t => !t.fab.present && t.fab.frames.length == 1) = true := by decide +kernel

/-! ### States that meet the hypotheses: serving (R308 to R372) -/

/-- One layer: one head of 32 elements, BF16 that ages into E4M3 after one page, scale 1.0 (R310). -/
def layerBytes : Bytes := [0, 0, 1, 1, 0, 4, 1, 0, 0, 0, 0, 0, 0, 0, 0x80, 0x3F]
/-- A sampler record of one head with four ids (R389). -/
def samplerBytes : Bytes := [1, 0, 0, 0, 32, 0, 0, 0, 4, 0, 0, 0] ++ List.replicate 52 0
/-- A lane tag: request 2, a position, a class (R267). -/
def tag2 (pos cls : Nat) : W64 := BitVec.ofNat 64 (2 + 2 ^ 12 * pos + 2 ^ 28 * cls)
/-- A request of core 0 to S0. -/
def ask (kind : ReqKind) (tag : W64) (a b : List (List Nat)) : ServeReq := ⟨7, 0, 3, kind, tag, 0, 1, a, b, 2, 0x30_0000, 128, 24, 2, 1, some 1, 12, 0⟩
/-- An entry of the request table in a state. -/
def entry (st : RState) : Req := { reqDefault 2 with state := st, gen := 1, kMax := 1, promptLen := 1, limit := 64, topP := 0x3F80_0000, repPen := 0x3F80_0000, temp := 0, set := 3, ticket := 9 }
/-- Two serving dies with a page of request 2, in the work window, with a queue of requests. -/
def serving (ph : Phase) (st : RState) (q : List ServeReq) : State := { at_ ph with
  aux := [⟨3, 24, 0, layerBytes⟩, ⟨3, 25, 0, []⟩, ⟨4, 0, 0, samplerBytes⟩], genActive := 1, inbox := q
  serve := [(0, { serveDefault 0 with poolLo := 4, poolUnits := 64, alloc := [(4, 4)], pages := [(pageKey 2 0 0, ⟨4, 0, true, false, 1⟩)], dirs := [(2, ⟨1, 0, 0, 0⟩)] }),
    (1, { serveDefault 1 with poolLo := 4, poolUnits := 64 })]
  srv := { State.reset.srv with reqs := [(2, entry st)] }
  cores := [(0, { coreDefault 0 with dwin0 := 0x30_0000, dwin1 := 0x1_0000, inflight := [⟨3, .serve, none, [], [], none, some 1, [], 0, none, 0⟩] })] }
/-- A row of 32 ones in BF16. -/
def ones : List Nat := List.replicate 32 0x3F80

/-- An instruction in flight on core 0 has been answered with a STATUS bit (R214). -/
def flagged (t : State) (b : Nat) : Bool := (t.core 0).inflight.any fun u => u.flags.getLsbD b

/-- One attended page at position 0 (R309, R315). -/
theorem test_attention_request : leaves (exec (.attentionRequest 0) (serving .work .decode [ask .attn (tag2 0 1) [ones] []])) (fun t => t.inbox == [] && (t.sd 0).jobs.map AttnJob.todo == [[0]]) = true := by
  decide +kernel
/-- Position 1 is not present: SERVE_REFUSED and a report of cause 0 (R324, R368). -/
theorem test_attention_refused : leaves (exec (.attentionRequest 0) (serving .work .decode [ask .attn (tag2 1 1) [ones] []])) (fun t => flagged t 19 && (t.sd 0).reports.map Report.cause == [0]) = true := by
  decide +kernel
/-- The job of that request. -/
def job (todo : List Nat) (st : List (Nat × List HeadState)) : State := let s := serving .work .decode []
  s.modSd 0 fun x => { x with jobs := [⟨ask .attn (tag2 0 1) [ones] [], todo, st⟩] }
theorem test_page_task : leaves (exec (.pageTask 0 5 false) (job [0] [])) (fun t => ((t.sd 0).jobs.map AttnJob.todo) == [[]] && ((t.sd 0).jobs.map fun j => j.states.map Prod.fst) == [[0]]) = true := by
  decide +kernel
theorem test_page_task_lost : leaves (exec (.pageTask 0 5 true) (job [0] [])) (fun t => ((t.sd 0).page 2 0 0).lost && (t.sd 0).jobs.isEmpty && flagged t 19) = true := by decide +kernel
/-- A page with weight 1 and output 2.0: the answer is 2.0, in FP32. -/
theorem test_attention_answer : leaves (exec (.attentionAnswer 0 7) (job [] [(0, [⟨false, 0, 0x3F80_0000, List.replicate 32 0x4000_0000⟩])]))
    (fun t => readNat (t.core 0).store 0x30_0000 4 == 0x4000_0000 && (t.core 0).inflight.map UnitInst.done == [some 12]) = true := by decide +kernel
theorem test_empty_answer : leaves (exec (.attentionAnswer 0 7) (job [] [])) (fun t => flagged t 16) = true := by decide +kernel
theorem test_kv_write : leaves (exec (.kvWrite 0) (serving .work .prefill [ask .kvw (tag2 1 2) [ones] [ones]])) (fun t => t.srv.kv.map KvStage.keys == [[ones]] && t.inbox == []) = true := by decide +kernel
/-- Page 0 may age once the request holds two pages (R321). -/
theorem test_hyp_ageing : (match (serving .applied .decode []).layerRec 0 0 with
    | some l => mayAge l ⟨256, 0, 0, 0⟩ (((serving .applied .decode []).sd 0).page 2 0 0) 0 && frameUnits l 0 == 4 && frameUnits l 1 == 2
        && (((serving .applied .decode []).sd 0).take 2 2 4).isSome
    | none => false) = true := by decide +kernel
theorem test_sampling : leaves (exec (.sampling 0) (serving .work .decode [ask .samp (tag2 0 1) [[0x3F80, 0x4000, 0, 0]] []])) (fun t => t.srv.draws.map Draw.ids == [[some 1]]) = true := by decide +kernel
theorem test_fence : leaves (exec (.generationFenceQuery 0) { serving .work .decode [ask .gfence (tag2 0 1) [] []] with genActive := 2 }) (fun t => (t.core 0).preg 1 && flagged t 18) = true := by
  decide +kernel
theorem test_report : leaves (exec (.refusalReport 0) ((serving .work .decode []).modSd 0 fun x => { x with reports := [⟨2, 1, 1, 0, 0⟩] })) (fun t => t.srv.refusals.length == 1 && (t.sd 0).reports.isEmpty) = true := by
  decide +kernel
theorem test_dram_scrub : leaves (exec (.dramScrub 0 16384 true) (serving .work .decode [])) (fun t => ((t.sd 0).page 2 0 0).lost) = true := by decide +kernel

/-- Request 2 at an apply point, changed. -/
def request (st : RState) (f : Req → Req) : State := (serving .applied st []).modReq 2 f
theorem test_queue_departure : leaves (exec .queueDeparture (request .queued fun r => { r with gen := 0 })) (fun t => (t.req 2).state == .prefill && (t.req 2).gen == 1) = true := by decide +kernel
theorem test_held_exit : leaves (exec (.heldExit 2) (request .held fun r => { r with back := .decode })) (fun t => (t.req 2).state == .decode) = true := by decide +kernel
theorem test_fault_end : leaves (exec (.requestFaultEnd 2) (request .held fun r => { r with withdraws := 8 })) (fun t => (t.req 2).state == .ending && (t.req 2).finish == some .fault) = true := by decide +kernel
theorem test_rebuild : leaves (exec (.rebuildStart 2) (((request .decode fun r => { r with emit := 3 }).modSd 0 fun x => x.setPage 2 0 0 ⟨4, 0, true, true, 1⟩))) (fun t => (t.req 2).state == .rebuild && !((t.sd 0).page 2 0 0).lost) = true := by
  decide +kernel
theorem test_hide_apply : leaves (exec (.hideApply 2) (request .decode fun r => { r with hide := some (1, 2, 3, 4) })) (fun t => (t.req 2).hide.isNone && ((t.sd 0).dir 2).hideHi == 2) = true := by decide +kernel
theorem test_request_end : leaves (exec (.requestEnd 2) (request .ending fun r => { r with final := some 0 })) (fun t => (t.req 2).state == .free && ((t.sd 0).pagesOf 2).isEmpty) = true := by decide +kernel
theorem test_migrate : leaves (exec .migrate { request .decode id with loadPhase := 2, load := { State.reset.load with drainTicks := 1 }, tick := { (at_ .applied).tick with count := 1 } })
    (fun t => (t.req 2).finish == some .migrated && t.load.evt.getLsbD 2) = true := by decide +kernel

/-- Ring set 3, enabled, with a mask and an event that waits for a completion slot. -/
def ring3 (es : List Ending) : RingSet := { ringDefault 3 with enabled := true, mask := 0xFF, cmdBase := 0x1000, cplBase := 0x2000, evtBase := 0x3000, endings := es }
/-- A state with that set. -/
def ringed (r : RingSet) (s : State) : State := { s with rings := { s.rings with sets := [(3, r)] } }
theorem test_ending : leaves (exec .endingCompletion (ringed (ring3 [⟨4, 0, [], 0⟩]) State.reset)) (fun t => (t.ring 3).endings == [] && (t.ring 3).cplProd == 1) = true := by decide +kernel

/-- The command of ring set 3 with tag 4. -/
def cmd3 : HostCmd := ⟨3, 4⟩
/-- An ADMIT record at address 0 of the carve-out: one prompt entry at 128, a ring of 16 entries at 192, a given seed (R340). -/
def admitRecord : Bytes := [0x41, 4, 0, 0, 0, 0, 0, 0] ++ leBytes 8 77 ++ leBytes 4 1 ++ leBytes 4 8 ++ leBytes 8 128 ++ leBytes 8 192 ++ leBytes 8 0 ++ leBytes 4 0x3F80_0000 ++ leBytes 4 0
  ++ leBytes 4 0x3F80_0000 ++ leBytes 4 0 ++ List.replicate 48 0
/-- Every core is fused out, so that none awaits a sweep. -/
def admitting : State := let s := ringed (ring3 []) (serving .work .decode [])
  { s with alm := some alm0, fuses := { s.fuses with coreMap := 0 }, rings := { s.rings with carve0 := writeBytes [] 0 admitRecord } }
theorem test_admit : admitting.admitStatus (readBytes admitting.rings.carve0 0 128) [[0]] = 0 ∧
    leaves (exec (.admitReq cmd3 0) admitting) (fun t => (t.req 1).state == .queued && (t.req 1).seed == 77) = true := by decide +kernel
theorem test_cancel : leaves (exec (.cancel cmd3 2 9) (ringed (ring3 []) (request .queued id))) (fun t => (t.req 2).finish == some .cancelled) = true := by decide +kernel
theorem test_cancel_unknown : leaves (exec (.cancel cmd3 2 8) (ringed (ring3 []) (request .queued id))) (fun t => (t.req 2).state == .queued) = true := by decide +kernel
theorem test_hide : leaves (exec (.hide cmd3 2 9 1 2) (request .decode id)) (fun t => (t.req 2).hide == some (1, 2, 3, 4)) = true := by decide +kernel
theorem test_draft : leaves (exec (.draft cmd3 2 9 5 0) (request .decode id)) (fun t => ((t.req 2).draftBuf.map Prod.fst) == some 5) = true := by decide +kernel

/-! ### States that meet the hypotheses: image loads (R380 to R407) -/

/-- SHAKE256 over the bytes 1, 2, 3, 4, from a reference implementation. -/
def digest1234 : Bytes := [0xDC, 0xA3, 0xF2, 0xC2, 0xCC, 0x51, 0x9C, 0x5A, 0xD1, 0x59, 0x22, 0xBF, 0xCC, 0x25, 0x8B, 0x84, 0xF7, 0xF5, 0xC8, 0x53, 0x62, 0x44, 0xE0, 0x2A, 0xA3, 0xA5, 0xEF, 0x58, 0x5A, 0x31, 0xB8, 0x4E]
theorem test_digest : shake256 [1, 2, 3, 4] = digest1234 := by decide +kernel

/-- A metadata region with two auxiliary sections of member 0, the first of four bytes, and generation 7 (R381 to R383). -/
def meta7 : Bytes :=
  let ent (kind : Byte) : Bytes := leBytes 8 4096 ++ leBytes 4 4 ++ [0, 0, kind, 0] ++ digest1234 ++ List.replicate 16 0
  (List.replicate 16 0 ++ leBytes 8 192 ++ List.replicate 16 0 ++ leBytes 8 64 ++ leBytes 2 2 ++ List.replicate 14 0) ++ ent 4 ++ ent 3
  ++ List.replicate 16 0 ++ leBytes 4 7
/-- A reader in a phase of a load, with a feed of section 0. -/
def loading (phase : Nat) (fs : List Feed) : State := let s := ringed (ring3 []) (at_ .applied)
  { s with loadPhase := phase, load := { s.load with reader := true, metadata := meta7, feeds := fs }, rings := { s.rings with carve0 := writeBytes [] 64 [1, 2, 3, 4] } }

theorem test_hyp_sections : ((loading 1 []).section? 0).map SecEnt.len = some 4 ∧ ((loading 1 []).section? 1).map SecEnt.kind = some 3 ∧ imgGen meta7 = 7 ∧
    (loading 1 []).holders ⟨false, 0, 4, 0, 0, 4, false, 0, 0⟩ = [0] := by decide +kernel
theorem test_img_begin : leaves (exec (.imgBegin cmd3 64 4 9 0xFFFF) { loading 0 [] with load := State.reset.load }) (fun t => t.loadPhase == 1 && t.load.metadata == [1, 2, 3, 4] && t.load.begin == some cmd3) = true := by
  decide +kernel
theorem test_img_feed : leaves (exec (.imgFeed cmd3 0 64) (loading 1 [])) (fun t => t.load.feeds == [⟨cmd3, 0, 64, [], 0⟩]) = true := by decide +kernel
theorem test_img_abort : leaves (exec (.imgAbort cmd3) (loading 2 [])) (fun t => t.load.ended == some 9 && t.load.evt.getLsbD 1) = true := by decide +kernel
theorem test_esc_feed : leaves (exec (.escFeed cmd3 0 64) { loading 0 [] with load := { (loading 0 []).load with oldMeta := meta7, lost := [0] } }) (fun t => t.load.lost == []) = true := by decide +kernel
theorem test_section_arrival : leaves (exec (.sectionArrival 0 0 [1, 2, 3, 4] false) (loading 1 [])) (fun t => smGet (fun _ => []) t.load.own 0 == [1, 2, 3, 4]) = true := by decide +kernel
theorem test_section_timeout : leaves (exec (.sectionTimeout 0 0) (loading 1 [⟨cmd3, 0, 64, [], 1⟩])) (fun t => t.load.feeds.map Feed.fails == [2] && t.load.evt.getLsbD 0) = true ∧
    leaves (exec (.sectionTimeout 0 0) (loading 1 [⟨cmd3, 0, 64, [], 2⟩])) (fun t => t.load.ended == some 5) = true := by decide +kernel
/-- A group of two: member 1 answers first, or not at all (R393). -/
def reading2 : State := let s := loading 1 []
  { s with load := { s.load with begin := some cmd3 }, grp := (grouped .serving .applied).grp }
theorem test_metadata_check : leaves (exec (.metadataCheck 1 0 [] 0) reading2) (fun t => t.load.answers == [(1, 0)]) = true := by decide +kernel
theorem test_member_timeout : leaves (exec (.memberAnswerTimeout 1) reading2) (fun t => t.load.ended == some 8) = true := by decide +kernel
theorem test_load_abandon : leaves (exec .loadAbandon { loading 1 [] with load := { (loading 1 []).load with ended := some 9 } }) (fun t => t.loadPhase == 0 && t.load.metadata == []) = true := by decide +kernel

/-- The stamp of the tick before votes (R399). -/
def voted (phase vote : Nat) : State := { loading phase [] with tick := { (at_ .applied).tick with count := 5 }, grp := { State.reset.grp with stamps := [{ stamp0 with tick := 4, loadVote := vote }] } }
theorem test_draining : leaves (exec .draining (voted 1 1)) (fun t => t.loadPhase == 2 && t.genStaged == 7) = true := by decide +kernel
theorem test_writing : leaves (exec .writing (voted 2 0)) (fun t => t.loadPhase == 3 && t.alm.isNone) = true := by decide +kernel
theorem test_member_written : leaves (exec .memberWritten (voted 3 0)) (fun t => t.load.writtenVote) = true := by decide +kernel
theorem test_committed : leaves (exec .committed { voted 3 2 with aux := [⟨0, 0, 0, []⟩] }) (fun t => t.loadPhase == 0 && t.genActive == 7 && t.tick.leapNext) = true := by decide +kernel
theorem test_hyp_refill : ({ loading 0 [] with grp := { State.reset.grp with state := .serving }, load := { State.reset.load with oldMeta := meta7 } } : State).load.oldMeta ≠ [] := by decide +kernel

/-! ### States that meet the hypotheses: rings and commands (R457 to R488) -/

/-- A NOP of tag 4 in slot 0 of set 3's command ring, not taken (R458, R459). -/
def offered (op : Nat) : State := let s := ringed { ring3 [] with cmdTail := 1 } State.reset
  { s with rings := { s.rings with carve0 := writeBytes [] 0x1000 (leBytes 2 op ++ [0, 0, 4, 0, 0, 0]) } }
theorem test_hyp_take : (offered 1).takeStatus 3 (readBytes (offered 1).rings.carve0 0x1000 64) = none ∧ 1 ∈ opcodes ∧ 0x7F ∉ opcodes ∧ (offered 1).rings.queues.length = 4 := by decide +kernel
theorem test_command_take : leaves (exec (.commandTake 3) (offered 1)) (fun t => (t.ring 3).cmdHead == 1 && (t.ring 3).reserved == 1) = true := by decide +kernel
theorem test_bad_opcode : leaves (exec (.commandTake 3) (offered 0x7F)) (fun t => (t.ring 3).cplProd == 1 && readNat t.rings.carve0 0x2000 4 == 4 && readNat t.rings.carve0 0x2006 2 == 0x100) = true := by decide +kernel
/-- A doorbell at its bounds: 16 commands fill a ring of 16, 17 do not fit (R459, R460). -/
theorem test_doorbell : leaves (exec (.dbCommandTail 3 16) (ringed (ring3 []) State.reset)) (fun t => (t.ring 3).cmdTail == 16) = true ∧
    leaves (exec (.dbCommandTail 3 17) (ringed (ring3 []) State.reset)) (fun t => (t.ring 3).cmdTail == 0 && t.rings.fwEvt.getLsbD 6) = true := by decide +kernel
theorem test_doorbell_completion : leaves (exec (.dbCompletionConsumed 3 2) (ringed { ring3 [] with cplProd := 2 } State.reset)) (fun t => (t.ring 3).cplUsed == 2) = true ∧
    leaves (exec (.dbCompletionConsumed 3 3) (ringed { ring3 [] with cplProd := 2 } State.reset)) (fun t => (t.ring 3).cplUsed == 0) = true := by decide +kernel
theorem test_doorbell_event : leaves (exec (.dbEventConsumed 3 2) (ringed { ring3 [] with evtProd := 2 } State.reset)) (fun t => (t.ring 3).evtUsed == 2) = true := by decide +kernel
theorem test_events_lost : leaves (exec (.eventsLost 3) (ringed { ring3 [] with lostSince := 5 } State.reset)) (fun t => (t.ring 3).lostSince == 0 && (t.ring 3).evtProd == 1) = true := by decide +kernel
/-- A taken command completes: tag at byte 0 of its completion (R458). -/
theorem test_completion_entry : leaves (exec (.cmdNop cmd3) (let s := ringed { ring3 [] with reserved := 1 } State.reset; { s with rings := { s.rings with queues := [[], [], [], [⟨3, 4, 1⟩]] } }))
    (fun t => (t.ring 3).reserved == 0 && (t.ring 3).cplProd == 1 && t.rings.queues == [[], [], [], []]) = true := by decide +kernel
theorem test_hyp_queue : queueOf 1 = 3 ∧ queueOf 0x10 = 0 ∧ queueOf 0x50 = 1 ∧ queueOf 0x70 = 2 := by decide +kernel

theorem test_alm_patch : leaves (exec (.almPatch cmd3 0 0 9) { ringed (ring3 []) (at_ .applied) with alm := some alm0 }) (fun t => (t.tick.patch.map Patch.target) == some 9) = true := by decide +kernel
theorem test_alm_load_refused : leaves (exec (.almLoad cmd3 0 0) (ringed (ring3 []) (at_ .applied))) (fun t => t.alm.isNone) = true := by decide +kernel
theorem test_hyp_alm_load : (ringed (ring3 []) (at_ .applied)).loadPhase = 0 ∧ (ringed (ring3 []) (at_ .applied)).held = false ∧ (ringed (ring3 []) (at_ .applied)).fw.sch.runs = true := by
  decide +kernel
theorem test_group_leave : leaves (exec (.groupLeave cmd3) (ringed (ring3 []) (grouped .serving .work))) (fun t => t.fab.frames.length == 1) = true := by decide +kernel
/-- A record of a group of one at address 1 (R427, R429). -/
def formed : State := let s := ringed (ring3 []) (spare1 .work)
  { s with rings := { s.rings with carve0 := writeBytes [] 0 ([5, 0, 1, 0] ++ List.replicate 60 0 ++ [1, 0] ++ List.replicate 38 0xFF) } }
theorem test_hyp_form : (recordOf (readBytes formed.rings.carve0 0 128)).members = 1 ∧ (recordOf (readBytes formed.rings.carve0 0 128)).epoch = 0 := by decide +kernel
theorem test_group_form : leaves (exec (.groupForm cmd3 0) formed) (fun t => t.grp.forming.isSome) = true := by decide +kernel

/-- Ring set 3 with administrative rights. -/
def admin : State := let s := ringed (ring3 []) (at_ .applied); { s with rings := { s.rings with ringAdmin := 8 } }
theorem test_fw_stage_bad : leaves (exec (.fwStage cmd3 1 0 8) admin) (fun t => t.fw.staged.isNone && !t.fw.pendingAuto) = true := by decide +kernel
theorem test_fw_activate : leaves (exec (.fwActivate cmd3 9 0) admin) (fun t => t.fw.act == some ⟨9, false, 0⟩) = true := by decide +kernel
theorem test_auto_activation : leaves (exec .autoActivation { admin with fw := { admin.fw with pendingAuto := true, clearTicks := 1024 } }) (fun t => t.fw.act == some ⟨64, true, 0⟩) = true := by decide +kernel
theorem test_owner_key : leaves (exec (.ownerKeyAdd cmd3 5 0 1) admin) (fun t => t.fw.nv.keys.map OwnerKey.modelId == [5]) = true ∧
    leaves (exec (.ownerKeyAdd cmd3 5 0 1) (ringed (ring3 []) (at_ .applied))) (fun t => t.fw.nv.keys == []) = true := by decide +kernel
theorem test_hyp_boot_cfg : admin.power = 0 ∧ admin.rings.ringAdmin.getLsbD cmd3.set.val = true ∧ admin.fw.sec.runs = true := by decide +kernel
theorem test_selftest : leaves (exec (.selftest cmd3 0 2) admin) (fun t => t.pow.tests.length == 1) = true := by decide +kernel
theorem test_selftest_run : leaves (exec (.selftestRun true 0) { admin with pow := { admin.pow with tests := [⟨cmd3, 0, 2, 1, []⟩] } }) (fun t => t.pow.tests == []) = true := by decide +kernel

/-! ### States that meet the hypotheses: registers, housekeeping, power (R489 to R567) -/

theorem test_leap_req : leaves (exec (.leapReq .c0) State.reset) (fun t => t.tick.leapReqs == [0]) = true := by decide +kernel
theorem test_arm : leaves (exec (.arm .c0) { State.reset with chg := { State.reset.chg with pending := [⟨0, 0, 0, 0x504, 0, 1, .c0, false⟩], tgt0 := 7 } })
    (fun t => (t.chg.armed.map Prod.snd) == some 7 && t.chg.pending == []) = true := by decide +kernel
/-- A write of group 2 waits for its strobe (R552). -/
theorem test_strobe : leaves (exec (.strobe .c0 0 4) { State.reset with chg := { State.reset.chg with waiting := [⟨0, 0, 2, 0, 0, 1, .c0, false⟩, ⟨0, 0, 1, 0, 0, 1, .c0, false⟩] } })
    (fun t => t.chg.pending.length == 1 && t.chg.waiting.length == 1) = true := by decide +kernel
/-- Core 0 with its logic ready, as a self-ruling core. -/
def ready0 : State := { State.reset with dies := [(0, { dieDefault 0 with domReady := 0x1_0000, domUse := 0x1_0000, domPower := 0x1_0001 })] }
theorem test_check_lock : leaves (exec (.checkLock .c0 0) ready0) (fun t => (t.core 0).checkLock) = true := by decide +kernel
theorem test_hyp_register : ((State.reset).readReg .c0 0x504).isSome = true ∧ State.reset.readReg .c0 0xFFFC = none ∧ State.reset.rwMask (placeOf 0x504) ≠ 0 ∧
    blockOf (placeOf 0x504) = some (26, 1) ∧ State.reset.ignoresWrite .c0 (placeOf 0x504) = false ∧ State.reset.ignoresWrite .c0 (placeOf 0x314) = true := by decide +kernel
theorem test_write_one_clears : leaves (exec (.registerWrite .c0 0x018 2) { State.reset with tick := { State.reset.tick with event := 7 } }) (fun t => t.tick.event == 5) = true := by decide +kernel
theorem test_low_word : leaves (exec (.lowWordRead .c0 0) { State.reset with tick := { State.reset.tick with count := 0x3_0000_0001 } }) (fun t => t.shadow .c0 4 == 3) = true := by decide +kernel
theorem test_parity : leaves (exec (.configParityCheck .c0 0x100_008C) ready0) (fun t => (t.core 0).seqSafe && t.grp.fault && (t.die 0).cfgFault.getLsbD 22) = true := by decide +kernel

/-- Sensor 2 of die 0 excluded, with 1,000 samples that agree (R498). -/
def excluded : State := State.reset.modDie 0 fun d => d.modSensor 2 fun x => { x with excluded := true, readmit := true, agree := 1000 }
theorem test_readmission : leaves (exec (.readmissionRequest .c0 0 2) excluded) (fun t => ((t.die 0).sensor 2).agree == 0) = true ∧
    leaves (exec (.sensorReadmission 0 2) excluded) (fun t => !((t.die 0).sensor 2).excluded) = true := by decide +kernel
theorem test_sample : leaves (exec (.sensorSample [⟨0, 0, some 400⟩]) State.reset) (fun t => t.power == 0 && ((t.die 0).sensor 0).temp == some 400) = true := by decide +kernel
theorem test_trip : leaves (exec (.sensorSample [⟨0, 0, some 880⟩]) State.reset) (fun t => t.pow.trip) = true := by decide +kernel
def hsk (chan : BitVec 4) : HskReq := ⟨chan, true, 0, 33⟩
theorem test_hsk_request : leaves (exec (.hskRequest .c0 0 (hsk 9)) State.reset) (fun t => (t.die 0).convE.queue.length == 1) = true ∧
    leaves (exec (.hskRequest .c0 0 (hsk 10)) State.reset) (fun t => (t.die 0).hskEvt == 32) = true := by decide +kernel
theorem test_hsk_urgent : leaves (exec (.hskUrgentRequest .c0 0 (hsk 0)) State.reset) (fun t => (t.die 0).convE.urgent.length == 1) = true := by decide +kernel
theorem test_conversion : leaves (exec (.conversionDone 0 true ⟨8190, 1966⟩) (State.reset.modDie 0 fun d => { d with convE := { converterDefault with queue := [hsk 1] } }))
    (fun t => (t.die 0).hskRes.getLsbD 21 && (t.die 0).hskRes.toNat / 4096 % 64 == 33) = true := by decide +kernel
theorem test_retire : leaves (exec (.converterRetire 0 3277 3290) (State.reset.modDie 0 fun d => { d with misses := 4 })) (fun t => (t.die 0).convE.retired && !(t.die 0).convW.retired) = true := by
  decide +kernel
theorem test_hyp_calibration : State.reset.calBlock 0 2 0 35 = true ∧ State.reset.calBlock 0 2 0 36 = false ∧ State.reset.calBlock 0 3 3 3 = true ∧ ((State.reset.die 0).serving false).isSome = true := by decide +kernel
theorem test_calibration : leaves (exec (.calibration 0 2 0 0 24) State.reset) (fun t => t.pow.trimsNext.length == 1) = true := by decide +kernel
theorem test_light_check : leaves (exec (.lightCheck 0 5 101) ready0) (fun t => (t.core 0).holidayQueue == [⟨5, 5, 5⟩]) = true := by decide +kernel
theorem test_pmbus : leaves (exec .pmbusFault State.reset) (fun t => t.fw.emerg && t.fw.emergCause.testBit 3) = true := by decide +kernel
theorem test_ceiling : leaves (exec .ceilingTrip { State.reset with pow := { State.reset.pow with ceiling := [(1, true)] } }) (fun t => t.pow.refuseNext) = true := by decide +kernel
theorem test_limit_hold : leaves (exec .limitHoldEmergency { State.reset with pow := { State.reset.pow with limitTicks := 1025 } }) (fun t => t.fw.emerg) = true := by decide +kernel
theorem test_rail_shutdown : leaves (exec (.railShutdown .core) State.reset) (fun t => t.power == 1 && !t.fw.nv.orderly) = true := by decide +kernel

/-! ### States that meet the hypotheses: margin, holidays, resets, firmware (R128 to R162, R468 to R480, R573 to R575) -/

theorem test_hyp_core_acts : ready0.coreActs 0 = true ∧ ready0.coreActs 1 = false ∧ ready0.critical 0 = false ∧ ready0.inService 0 5 = true ∧ ready0.inService 0 4096 = false ∧
    ready0.writable 0 4096 = true := by decide +kernel
/-- What a scan senses in a sentinel row, which every scan samples (R129, R131). -/
def sent (q1 : Nat) (q0 : Int) : List RowEdges := [⟨1104, q1, q0⟩]
/-- A window of 40 keeps grade A, one of 39 grades B at the next eve (R133). -/
theorem test_scan : leaves (exec (.marginScan 0 5 (sent 39 0)) ready0) (fun t => ((t.core 0).arr 5).mLast == 39 && ((t.core 0).arr 5).nextGrade == some .b) = true ∧
    leaves (exec (.marginScan 0 5 (sent 40 0)) ready0) (fun t => ((t.core 0).arr 5).nextGrade == none) = true := by decide +kernel
theorem test_scan_late : ready0.scanOverdue 0 5 = false ∧ leaves (exec (.scanLate 0 5) { ready0 with tick := { ready0.tick with time := 3 * 80_000_000 * 3600 + 1 } }) (fun t => (t.core 0).marginEvt.getLsbD 0 && t.tick.leapReqs == [1]) = true := by decide +kernel
/-- Core 0 with an array changed. -/
def arr0 (p : Nat) (f : ArrayInfo → ArrayInfo) : State := ready0.modCore 0 fun k => k.modArr p f
theorem test_failure_limit : leaves (exec (.failureCountLimit 0 4096) (arr0 4096 fun x => { x with failCnt := 8, scans := 1, mLast := 40 })) (fun t => ((t.core 0).arr 4096).nextGrade == some .b) = true := by decide +kernel
theorem test_row_write : leaves (exec (.rowWrite 0 4096 3 (List.replicate 8 true) []) ready0) (fun t => ((t.core 0).arr 4096).cell 3 7 && ((t.core 0).arr 4096).wrote == 8 && t.free == 1) = true := by decide +kernel
theorem test_window_restart : leaves (exec .failureWindowRestart (arr0 5 fun x => { x with failCnt := 3 })) (fun t => ((t.core 0).arr 5).failCnt == 0) = true := by decide +kernel
theorem test_ladder_repeat : leaves (exec (.ladderRepeatFault 0 5) (arr0 5 fun x => { x with crit := true, exhaust := [1024, 0] })) (fun t => t.grp.fault) = true := by decide +kernel
theorem test_wear : leaves (exec (.wearWriteback 0 5) (arr0 5 fun x => { x with wear := 1030, wearSince := 1024 })) (fun t => smGet (fun _ => 0) t.fw.nv.wear 5 == 1030 && ((t.core 0).arr 5).wearSince == 0) = true := by decide +kernel
/-- With no array bank switched on, the sweep scans nothing (R28, R155). -/
theorem test_sweep : leaves (exec (.newYearSweep 0 ⟨[], []⟩ [] 401) { ready0 with dies := [(0, { ready0.die 0 with domPower := 0x1_0000 })] }) (fun t => (t.core 0).sweepDone && (t.core 0).sweepSlow) = true := by decide +kernel
/-- Every array of quarter 0 but number 0, replaced at test (R23, R37). -/
def replaced (n : Nat) : List (Nat × Nat × Nat) := ((List.range n).filter fun p => p != 0 && quarterOf p == 0).map fun p => (0, p, 0)
/-- Core 0 with such a fuse table: one scan is the whole scan of quarter 0 (R28). -/
def quarter0 (sp : List (Nat × Nat × Nat)) : State := { ready0 with fuses := { ready0.fuses with spares := sp } }
theorem mem_replaced {n p : Nat} (hp : p < n) (h0 : p ≠ 0) (hq : quarterOf p = 0) : (0, p, 0) ∈ replaced n :=
  List.mem_map.2 ⟨p, List.mem_filter.2 ⟨List.mem_range.2 hp, by simp [h0, hq]⟩, rfl⟩
theorem quarter0_fused (p : Nat) (hp : p < 4224) (h0 : p ≠ 0) (hq : quarterOf p = 0) : (quarter0 (replaced 4224)).fusedOut 0 p = true := by
  have hs (sp) : (quarter0 sp).fuses.spares = sp := rfl
  rw [State.fusedOut, hs, List.any_eq_true]
  exact ⟨(0, p, 0), mem_replaced hp h0 hq, (Bool.and_eq_true _ _).mpr ⟨rfl, beq_self_eq_true p⟩⟩
theorem test_quarter_arrays : (quarter0 (replaced 4224)).sweepArrays 0 (some 0) = [0] := by
  have h0 : List.range 4224 = 0 :: (List.range 4223).map Nat.succ := List.range_succ_eq_map
  rw [State.sweepArrays, h0, List.filter_cons_of_pos (by decide +kernel), List.filter_eq_nil_iff.2]
  intro p hp h
  obtain ⟨q, hq, rfl⟩ := List.mem_map.1 hp
  simp only [Bool.and_eq_true, Bool.not_eq_true', Bool.or_eq_true, beq_iff_eq, Option.some.injEq, reduceCtorEq, false_or] at h
  have := quarter0_fused (q + 1) (by have := List.mem_range.1 hq; omega) (by omega) h.1.1.symm
  simp_all
theorem test_quarter_scan : (((quarter0 (replaced 4224)).sweepOver 0 [(0, sent 50 0)] [] []).map fun r => (r.2, ((r.1.core 0).arr 0).mLast)) = some ([], 50) ∧
    (quarter0 []).critical 0 = false ∧ ((quarter0 []).die 0).domPower.getLsbD 0 = true ∧ ((quarter0 []).die 0).domReady.getLsbD 0 = false := by decide +kernel
/-- A holiday of array 5 that waits; one being copied; one being served (R145 to R150). -/
def onHoliday (q : List HolidayReq) (h : List Holiday) : State := ready0.modCore 0 fun k => { k with holidayQueue := q, holidays := h }
theorem test_holiday_start : leaves (exec (.holidayStart 0) (onHoliday [⟨5, 3, 2⟩] [])) (fun t => (t.core 0).holidays == [⟨5, 4096, 3, 2, .reserve⟩] && (t.core 0).holidayQueue == []) = true := by decide +kernel
theorem test_holiday_service : leaves (exec (.holidayServiceDone 0 5 ⟨sent 45 0, []⟩ [⟨9, 0, 0, 1000⟩]) (onHoliday [] [⟨5, 4096, 5, 5, .service⟩]))
    (fun t => ((t.core 0).arr 5).mLast == 45 && (t.core 0).holidays.map Holiday.step == [.regraded]) = true := by decide +kernel

theorem test_power_on : leaves (exec .powerOnReset (demo (.nop 0 g0))) (fun t => t.power == 2 && t.alm.isNone && t.tick.count == 0) = true := by decide +kernel
theorem test_power_down : leaves (exec .orderlyPowerDown State.reset) (fun t => t.power == 2 && t.fw.nv.orderly) = true := by decide +kernel
theorem test_boot : leaves (exec (.boot ⟨5, 7⟩ false) { State.reset with power := 2 }) (fun t => t.power == 0 && t.fab.pos == 5 && t.fab.rack == 7 && t.fw.fetch.isSome) = true := by decide +kernel
theorem test_domain_ready : leaves (exec (.domainReady 0 16) (State.reset.modDie 0 fun d => { d with domCtrl := 0x1_0000 })) (fun t => (t.die 0).domPower == 0x1_0000 && (t.die 0).domReady == 0x1_0000) = true := by
  decide +kernel

/-- A fetch of the bundle, soliciting or with one READ outstanding (R469). -/
def fetching (f : Fetch) : State := { State.reset with fw := { State.reset.fw with fetch := some f } }
def reading (fails : Nat) : Fetch := ⟨0, false, 8, 8, [⟨0, 4, fails⟩, ⟨4, 4, 0⟩], 0, [], none⟩
theorem test_solicit : leaves (exec .solicit (fetching (newFetch 0 none))) (fun t => t.fw.out == [.solicit 0]) = true := by decide +kernel
theorem test_offer : leaves (exec (.offer 0 4096) (fetching (newFetch 0 none))) (fun t => (t.fw.fetch.map fun f => f.reads.length) == some 4) = true := by decide +kernel
theorem test_data : leaves (exec (.data 0 [1, 2, 3, 4]) (fetching (reading 0))) (fun t => (t.fw.fetch.map Fetch.got) == some 4) = true := by decide +kernel
/-- The seventh repetition is sent, the eighth failure starts again (R469). -/
theorem test_read_retry : leaves (exec (.readRetry 0) (fetching (reading 6))) (fun t => t.fw.out == [.read 0 0 4]) = true ∧
    leaves (exec (.readRetry 0) (fetching (reading 7))) (fun t => (t.fw.fetch.map Fetch.soliciting) == some true) = true := by decide +kernel

/-- Without a last-good bundle the boot ROM solicits again (R468, R471). -/
theorem test_fetch_timeout : leaves (exec .fetchTimeout (fetching (newFetch 0 none))) (fun t => t.fw.bootStep == 3 && (t.fw.fetch.map Fetch.soliciting) == some true) = true := by decide +kernel

/-- The power core changed. -/
def procWith (x : ProcState) : State := State.reset.setProc .power x
theorem test_watchdog : leaves (exec (.watchdog .power) State.reset) (fun t => (t.proc .power).state == 1 && t.rings.fwEvt.getLsbD 1) = true := by decide +kernel
theorem test_restart : leaves (exec (.fwRestart .power .watchdog) (procWith ⟨1, false, [0]⟩)) (fun t => (t.proc .power).state == 0) = true ∧
    leaves (exec (.fwRestart (.control 0) .watchdog) (ready0.setProc (.control 0) ⟨1, false, []⟩)) (fun t => (t.proc (.control 0)).state == 0) = true := by decide +kernel
theorem test_takeover : leaves (exec (.takeover .power) (procWith ⟨1, false, [2, 1, 0]⟩)) (fun t => t.proc .power == ⟨2, true, []⟩) = true ∧
    leaves (exec (.takeover .power) (procWith ⟨1, true, [2, 1, 0]⟩)) (fun t => (t.proc .power).state == 3 && t.grp.fault) = true := by decide +kernel
theorem test_last_good : leaves (exec .lastGoodBundle { State.reset with fw := { State.reset.fw with active := some ⟨[], 1, 6, true, 0⟩, goodTicks := 1024 } }) (fun t => t.fw.nv.minSvn == 6 && t.fw.saved) = true := by
  decide +kernel
theorem test_command_die : leaves (exec (.commandDieFail true) State.reset) (fun t => t.grp.fault) = true := by decide +kernel

/-- The front command runs on the state with the queue's rest; an empty queue idles. -/
theorem test_step : leaves (step { State.reset with pending := [.leapReq .c0, .solicit] }) (fun t => t.pending == [.solicit] && t.tick.leapReqs == [0]) = true ∧ leaves (step State.reset) (fun t => t == State.reset) = true := by
  decide +kernel
theorem test_fetch_word : State.reset.withFetchWord 64 0 = State.reset := by decide +kernel


/-! ### A metadata region that passes R390, and what the loads' statements ask for -/

/-- An almanac with one route to the sampler of member 0, its section, and the sampler's. -/
def almRaw : Bytes := List.replicate 40 0 ++ leBytes 4 64 ++ leBytes 2 1 ++ List.replicate 18 0 ++ [3] ++ List.replicate 15 0
/-- A table entry (R383). -/
def entBytes (off len : Nat) (tail : Bytes) (dig : Bytes) : Bytes := leBytes 8 off ++ leBytes 4 len ++ tail ++ dig ++ List.replicate 16 0
/-- One shard of core 0, the almanac and the sampler record of member 0 (R383, R387). -/
def goodTables : Bytes := entBytes 1408 11489280 [0, 0, 0, 0] (List.replicate 32 7) ++ entBytes 11490688 80 [0, 0, 0, 0] (List.replicate 32 8)
  ++ entBytes 11490816 4 [0, 0, 4, 0] digest1234
/-- SHAKE256 of the almanac, and the Merkle root of the three table digests, from a reference implementation. -/
def almDigest9 : Bytes := [0x89, 0xD8, 0xF0, 0x50, 0x8B, 0x4C, 0x4D, 0x87, 0x08, 0xAC, 0x76, 0x75, 0xDD, 0x8E, 0x4A, 0x41, 0xC3, 0x11, 0x8F, 0xBB, 0x00, 0x7D, 0x0F, 0xF7, 0xCB, 0xB9, 0xB8, 0x4F, 0x51, 0xB6, 0x94, 0x38]
def root9 : Bytes := [0xDC, 0xF4, 0x02, 0xFC, 0xC5, 0x56, 0x77, 0xAF, 0xB7, 0xC7, 0x96, 0x35, 0xD4, 0x77, 0x5C, 0xD2, 0xC5, 0xD2, 0x66, 0x00, 0x58, 0x3F, 0x90, 0xF4, 0x77, 0x7E, 0x32, 0x2B, 0xB6, 0x0B, 0xAF, 0x01]
/-- A metadata region of one member and generation 7 (R381 to R385). -/
def meta9 : Bytes :=
  leBytes 4 0x3142_5244 ++ [1, 0, 0, 0] ++ leBytes 8 11490880 ++ leBytes 8 64 ++ leBytes 4 1152 ++ leBytes 4 1 ++ leBytes 8 1216 ++ leBytes 8 1280 ++ leBytes 2 2 ++ List.replicate 14 0
  ++ (List.replicate 16 0 ++ leBytes 4 7 ++ [1, 1, 0, 0] ++ almDigest9 ++ root9 ++ List.replicate 40 0)
  ++ (List.replicate 12 0 ++ leBytes 4 0 ++ leBytes 4 1 ++ leBytes 2 0 ++ leBytes 2 2 ++ List.replicate 40 0) ++ List.replicate 960 0 ++ goodTables
theorem test_format : formatOk meta9 = true := by decide +kernel

/-! ### Loads: the clauses of R393 to R403 -/

/-- A reader whose sections have all been fed, with the almanac of its one member. -/
def fedAll : State := let s := loading 1 []
  { s with load := { s.load with metadata := meta9, fed := [0, 1, 2], almanacs := [(0, almRaw)] } }
theorem test_img_end : leaves (exec (.imgEnd cmd3) fedAll) (fun t => t.load.staged) = true := by decide +kernel
theorem test_img_begin_busy : leaves (exec (.imgBegin cmd3 64 4 9 0xFFFF) (loading 1 [])) (fun t => (t.ring 3).cplProd == 1 && t.load.metadata == meta7) = true := by decide +kernel
/-- The last member's OK answers the IMG_BEGIN (R393). -/
theorem test_metadata_check_last : leaves (exec (.metadataCheck 1 0 [] 0) { reading2 with load := { reading2.load with answers := [(0, 0)] } }) (fun t => t.load.begin.isNone && (t.ring 3).cplProd == 1) = true := by
  decide +kernel
/-- A package of no group, as the buddy of a group of one: it keeps good metadata and turns bad metadata away (R393, R403). -/
def idlePeer : State := { at_ .work with load := { State.reset.load with area := 1 } }
theorem test_metadata_check_peer : leaves (exec (.metadataCheck 0 0 meta9 0) idlePeer) (fun t => t.loadPhase == 1 && t.load.escrowOnly && !t.load.reader) = true := by decide +kernel
theorem test_metadata_check_bad : leaves (exec (.metadataCheck 0 0 [] 0) idlePeer) (fun t => t.loadPhase == 0) = true := by decide +kernel
/-- A group of two with a feed of section 0, which both members hold (R394, R403). -/
def feeding2 (acks : List Nat) (fails : Nat) : State := { reading2 with load := { reading2.load with feeds := [⟨cmd3, 0, 64, acks, fails⟩], begin := none } }
theorem test_section_own : leaves (exec (.sectionArrival 0 0 [1, 2, 3, 4] false) (feeding2 [] 0)) (fun t => t.load.feeds.map Feed.acks == [[0]]) = true := by decide +kernel
theorem test_section_peer : leaves (exec (.sectionArrival 0 1 [] true) (feeding2 [0] 0)) (fun t => t.load.fed == [0] && t.load.feeds == []) = true ∧
    leaves (exec (.sectionArrival 0 1 [] false) (feeding2 [0] 1)) (fun t => t.load.feeds.map Feed.fails == [2]) = true := by decide +kernel
theorem test_section_peer_timeout : leaves (exec (.sectionTimeout 0 1) (feeding2 [0] 2)) (fun t => t.load.ended == some 5) = true := by decide +kernel
theorem test_hyp_bank_compare : let s : State := { fedAll with dies := [(0, upDie)] }
    s.coreActs 0 = true ∧ ((shardsOf s.load.metadata).find? fun x => s.ownPart x && x.unit == 0 && x.kind == 0).isSome = true := by decide +kernel
theorem test_load_abandon_peer : leaves (exec .loadAbandon { at_ .applied with loadPhase := 1, load := { State.reset.load with metadata := [1] } }) (fun t => t.loadPhase == 0 && t.load.metadata == []) = true := by decide +kernel

/-- A package in WRITING with the bank of the shard still to be written; one whose array 0 took its write badly, in a load phase 3 with nothing left. -/
theorem test_hyp_banks_left : ({ fedAll with loadPhase := 3, grp := State.reset.grp } : State).banksLeft ≠ [] := by decide +kernel
theorem test_hyp_written : (voted 3 0).banksLeft = [] ∧ (voted 3 0).badWritten = [] ∧ (voted 3 0).allScanned = true ∧ auxOf (voted 3 0).aux 0 0 = none := by decide +kernel
/-- The buddy of a group of one keeps the escrow (R403, log 28). -/
theorem test_escrow_only : leaves (exec .committed { at_ .applied with loadPhase := 1, load := { State.reset.load with escrowOnly := true, staged := true, metadata := meta7, escrow := [(0, [1])] } })
    (fun t => t.loadPhase == 0 && t.load.oldMeta == meta7 && t.load.oldEscrow == [(0, [1])]) = true := by decide +kernel

/-! ### A replacement's restore (R439) -/

/-- A replacement in a failover hold whose record names generation 7, with a metadata region. -/
def replacing (m : Bytes) : State := { at_ .applied with
  dies := [(0, upDie)]
  grp := { State.reset.grp with state := .failover, restoring := true, record := { rec1 with generation := 7 } }, load := { State.reset.load with metadata := m } }
theorem test_escrow_metadata : leaves (exec (.escrowBankArrival 0 meta9) (replacing [])) (fun t => t.load.metadata == meta9) = true := by decide +kernel
theorem test_escrow_arrival : leaves (exec (.escrowBankArrival 2 [1, 2, 3, 4]) (replacing meta9)) (fun t => 2 ∈ t.load.fed && t.aux.map AuxSec.content == [[1, 2, 3, 4]]) = true := by decide +kernel
/-- Tables with one shard of four bytes: in the Critical band its bank is not written (R144). -/
def metaShard : Bytes := List.replicate 28 0 ++ leBytes 4 1 ++ leBytes 8 64 ++ List.replicate 24 0 ++ entBytes 0 4 [0, 0, 0, 0] digest1234
def replacingHot (b : Band) : State := { replacing metaShard with dies := [(0, { upDie with west := ⟨64, none, b, 0⟩, east := ⟨64, none, b, 0⟩ })] }
theorem test_escrow_critical : leaves (exec (.escrowBankArrival 0 [1, 2, 3, 4]) (replacingHot .critical)) (fun t => (t.core 0).marginEvt.getLsbD 4 && t.load.fed == []) = true := by decide +kernel
theorem test_hyp_escrow_shard : (replacingHot .hot).critical 0 = false ∧ ((replacingHot .hot).section? 0).map SecEnt.shard = some true := by decide +kernel

/-! ### Cores, flits and frames: the other clauses -/

/-- A second exception of the slot sets OVF of the record and leaves the first (R240). -/
theorem test_second_exception : ((haltCore 0 0x15 0x10_0000 (haltCore 0 0x13 0x10_0000 (demo (.nop 0 g0)))).core 0).exc0 = 0xC098_0000#32 := by decide +kernel
/-- The ceiling monitor refuses the issue (R494). -/
theorem test_gate_refused : leaves (exec (.mvm 0 g0 (mvmOf tile1) []) { demo (.mvm 0 g0 (mvmOf tile1) []) with pow := { State.reset.pow with refuse := true } })
    (fun t => !(t.core 0).run && t.tick.notices == [⟨0, 0, 0⟩]) = true ∧ (demo (.nop 0 g0)).banksReady 0 tile1.arrays = true := by decide +kernel
/-- Without checks a pass is released unchecked (R59). -/
theorem test_verdict_unchecked : leaves (exec (.passVerdict 0 0 (passOf 64) []) ((issued [(0, 1)] [passOf 64] []).modCore 0 fun k => { k with checkDis := true })) (fun t => (t.core 0).eventStat.getLsbD 7 &&
    match (t.core 0).findIssue 0 with
    | some (u, a) => a.todo == [] && u.flags.getLsbD 11
    | none => false) = true := by decide +kernel
/-- On a lane of a class other than 0 the requests go out as flits, and the fence directly (R267 to R270). -/
def lane1 (i : Instr) : State := demoWith i fun k => { k with sregs := [(5, 0x30_0100#64), (6, BitVec.ofNat 64 (2 ^ 28)), (7, 1#64)] }
theorem test_requests_go : [Instr.attn 0 g0 1 2 2 6 0, .kvw 0 g0 1 2 4 6 0, .samp 0 g0 1 3 6, .gfence 0 g0 6 1].map (fun i => leaves (exec i (lane1 i)) fun t =>
    (t.wire ++ t.inbox).length == 1 && (t.core 0).inflight.map UnitInst.done == [none]) = [true, true, true, true] := by decide +kernel
/-- A flit within its half, one that is not the first of its sender and route, one with no way on, and a full crossing buffer (R19, R281). -/
theorem test_hop_half : leaves (exec (.flitHopReceive 5 .badOnce) (flying { hdr0 with destUnit := 1 })) (fun t => (t.die 0).eccRetry == 1 && t.flits.map Flit.router == [1]) = true := by decide +kernel
theorem test_hop_order : leaves (exec (.flitHopReceive 5 .clean) (let s := flying hdr0; { s with flits := { theFlit s with id := 4, router := 2 } :: s.flits })) (fun t => t.flits.map Flit.arrived == [false, false]) = true := by
  decide +kernel
theorem test_hop_nowhere : leaves (exec (.flitHopReceive 5 .clean) (let s := flying { hdr0 with destMember := 3 }; { s with flits := s.flits.map fun f => { f with die := 28 } })) (fun t => t.flits == []) = true := by decide +kernel
theorem test_hop_full : leaves (exec (.flitHopReceive 5 .clean) (let s := flying { hdr0 with die := 1 }; { s with flits := s.flits ++ List.replicate 64 { theFlit s with id := 9, router := 2, seam := true } }))
    (fun t => (theFlit t).router == 0 && !(theFlit t).seam) = true := by decide +kernel
/-- The last flit of a request brings it into the serving die's queue, an earlier one counts (R276). -/
def requesting (n : Nat) : State := let s := flying { hdr0 with kind := 4, die := 24 }
  { s with flits := s.flits.map fun f => { f with die := 24, arrived := true, req := some 7 }, wire := [{ ask .kvw 0 [] [] with left := n }] }
theorem test_request_delivery : leaves (exec (.flitDelivery 5) (requesting 1)) (fun t => t.inbox.length == 1 && t.wire == [] && t.flits == []) = true ∧
    leaves (exec (.flitDelivery 5) (requesting 2)) (fun t => t.inbox == [] && t.wire.map ServeReq.left == [1]) = true := by decide +kernel
theorem test_next_waits : leaves (exec (.reducerCombine 5) (reducing { hdr0 with kind := 1, form := 1, route := 1, seq := 2 })) (fun t => t.flits.length == 1) = true := by decide +kernel
/-- A reduction that has not gone out by the work deadline is a notice of cause 4 (R295). -/
theorem test_reduction_late : leaves (exec .workDeadline { reducing hdr0 with flits := [], cores := [], tick := { (reducing hdr0).tick with phase := .drain } }) (fun t => t.tick.notices == [⟨4, 0, 0⟩]) = true := by decide +kernel
theorem test_fabric_down : leaves (exec (.fabricLinkTraining 0 .down (some farEnd)) (grouped .serving .work)) (fun t => t.flink 0 == 0 && t.grp.evt == 0) = true ∧
    leaves (exec (.fabricLinkTraining 0 .lanes8 (some ⟨1, 1, 0⟩)) (grouped .serving .work)) (fun t => t.flink 0 == 0 && t.grp.evt == 2) = true ∧
    leaves (exec (.eyeSafetyDisable 0 8) (grouped .serving .work)) (fun t => t.fab.eyeOff == [(0, 8)] && t.flink 0 == 2) = true := by decide +kernel
theorem test_frame_bad : leaves (exec (.dataFrame ⟨dataOf 0, .badTwice⟩) (grouped .serving .work)) (fun t => t.tick.notices == [⟨5, 0, 28⟩] && t.flits == []) = true := by decide +kernel
theorem test_timing_lock_close : leaves (exec (.timingLock true) { at_ .work with fab := { State.reset.fab with holdover := true } }) (fun t => t.fab.lock && !t.fab.holdover) = true := by decide +kernel

/-! ### Requests: the other clauses (R340 to R372) -/

/-- A page lost before its task (R333). -/
theorem test_page_task_of_lost : leaves (exec (.pageTask 0 5 false) ((job [0] []).modSd 0 fun x => x.setPage 2 0 0 ⟨4, 0, true, true, 1⟩)) (fun t => (t.sd 0).jobs.isEmpty && flagged t 19) = true := by decide +kernel
/-- With no free frame the request of a lost page is held for its rebuild (R371). -/
theorem test_rebuild_waits : leaves (exec (.rebuildStart 2) ((request .decode fun r => { r with emit := 3 }).modSd 0 fun x => { x.setPage 2 0 0 ⟨4, 0, true, true, 1⟩ with poolUnits := 4 }))
    (fun t => (t.req 2).state == .held && 6 ∈ (t.req 2).causes) = true := by decide +kernel
/-- An ADMIT whose record lies outside the carve-out, one with bad parameters, one whose ring would lie outside, and one without a seed (R340, R341). -/
def admitWith (f : Bytes → Bytes) : State := { admitting with rings := { admitting.rings with carve0 := writeBytes [] 0 (f admitRecord) } }
theorem test_admit_outside : leaves (exec (.admitReq cmd3 (BitVec.ofNat 64 (2 ^ 34 - 127))) admitting) (fun t => (t.req 1).state == .free && (t.ring 3).cplProd == 1 && readNat t.rings.carve0 0x2006 2 == 0x102) = true := by decide +kernel
theorem test_admit_bad : (admitWith fun b => b.set 24 0 |>.set 16 0).admitStatus (readBytes (admitWith fun b => b.set 24 0 |>.set 16 0).rings.carve0 0 128) [] = 2 ∧
    leaves (exec (.admitReq cmd3 0) (admitWith fun b => b.set 16 0)) (fun t => (t.req 1).state == .free && readNat t.rings.carve0 0x2006 2 == 2) = true := by decide +kernel
theorem test_admit_ring_outside : leaves (exec (.admitReq cmd3 0) (admitWith fun b => b.set 37 1)) (fun t => (t.req 1).state == .free && readNat t.rings.carve0 0x2006 2 == 0x102) = true := by decide +kernel
theorem test_admit_unseeded : leaves (exec (.admitReq cmd3 0) (admitWith fun b => b.set 0 1)) (fun t => (t.req 1).state == .queued && t.free == 1) = true := by decide +kernel
/-- CANCEL of a request whose final entry is written, of one with a step in flight, and of one with none (R365, R366). -/
def cancelling (f : Req → Req) (ls : List Lane) : Host.Outcome State Fault Refusal := let s := ringed (ring3 []) (request .decode f)
  exec (.cancel cmd3 2 9) { s with srv := { s.srv with lanes := ls } }
theorem test_cancel_final : leaves (cancelling (fun r => { r with final := some 0 }) []) (fun t => (t.req 2).finish.isNone && readNat t.rings.carve0 0x2006 2 == 0x104) = true := by decide +kernel
theorem test_cancel_step : leaves (cancelling id [⟨⟨2, 1, 1, 0, true⟩, 0, false⟩]) (fun t => (t.req 2).cancel && (t.req 2).state == .ending && (t.req 2).finish.isNone) = true ∧
    leaves (cancelling id []) (fun t => (t.req 2).cancel && (t.req 2).finish == some .cancelled) = true := by decide +kernel
theorem test_hide_other : leaves (exec (.hide cmd3 2 8 1 2) (ringed (ring3 []) (request .decode id))) (fun t => (t.req 2).hide.isNone && readNat t.rings.carve0 0x2006 2 == 0x104) = true ∧
    leaves (exec (.hide cmd3 2 9 1 2) (ringed (ring3 []) (request .decode fun r => { r with hide := some (5, 6, 3, 4) }))) (fun t => (t.req 2).hide == some (5, 6, 3, 4) && (t.ring 3).cplProd == 0) = true := by decide +kernel
theorem test_draft_other : leaves (exec (.draft cmd3 2 9 5 (BitVec.ofNat 64 (2 ^ 34 - 223))) (ringed (ring3 []) (request .decode id))) (fun t => readNat t.rings.carve0 0x2006 2 == 0x102) = true ∧
    leaves (exec (.draft cmd3 2 8 5 0) (ringed (ring3 []) (request .decode id))) (fun t => readNat t.rings.carve0 0x2006 2 == 0x104) = true ∧
    leaves (exec (.draft cmd3 2 9 5 0) (let s := ringed (ring3 []) (request .decode id); { s with rings := { s.rings with carve0 := [(0, 9)] } })) (fun t => (t.req 2).draftBuf.isNone && readNat t.rings.carve0 0x2006 2 == 0x103) = true := by
  decide +kernel

/-! ### Firmware commands and fields: the other clauses (R464, R472, R481 to R484, R516 to R518, R533) -/

/-- The same set without administrative rights. -/
def user : State := ringed (ring3 []) (at_ .applied)
/-- The completion that a command writes holds a status. -/
def answersWith (o : Host.Outcome State Fault Refusal) (st : Nat) : Bool := leaves o fun t => (t.ring 3).cplProd == 1 && readNat t.rings.carve0 0x2006 2 == st
theorem test_denied : answersWith (exec (.fwStage cmd3 1 0 8) user) 0x106 = true ∧ answersWith (exec (.ownerKeyDelete cmd3 5) user) 0x106 = true ∧ answersWith (exec (.bootCfg cmd3 0) user) 0x106 = true := by decide +kernel
theorem test_fw_fetch : leaves (exec (.fwStage cmd3 0 0 8) admin) (fun t => (t.fw.fetch.map Fetch.cmd) == some (some (3, 4))) = true := by decide +kernel
theorem test_activate_busy : answersWith (exec (.fwActivate cmd3 9 0) { admin with fw := { admin.fw with act := some ⟨5, false, 0⟩ } }) 0x108 = true := by decide +kernel
/-- In an emergency an activation is refused, or deferred with AUTO (R484). -/
def hot : State := { admin with pow := { admin.pow with trip := true } }
theorem test_activate_emergency : answersWith (exec (.fwActivate cmd3 9 0) hot) 0x105 = true ∧ leaves (exec (.fwActivate cmd3 9 1) hot) (fun t => t.fw.pendingAuto) = true := by decide +kernel
theorem test_hyp_attest : admin.handles cmd3 0x60 = true ∧ admin.fw.sec.runs = true ∧ 0 + 5861 ≤ admin.rings.carveSize ∧ admin.fw.nv.xmssIdx < 2 ^ 40 := by decide +kernel
theorem test_owner_key_delete : leaves (exec (.ownerKeyDelete cmd3 5) { admin with fw := { admin.fw with nv := { admin.fw.nv with keys := [⟨5, [], false⟩, ⟨6, [], true⟩] } } }) (fun t => t.fw.nv.keys.map OwnerKey.modelId == [6]) = true := by decide +kernel
/-- A unit that a test does not have, a full queue of 64, and cancelling (R516). -/
theorem test_selftest_unit : answersWith (exec (.selftest cmd3 24 4) admin) 3 = true := by decide +kernel
theorem test_selftest_full : answersWith (exec (.selftest cmd3 0 2) { admin with pow := { admin.pow with tests := List.replicate 64 ⟨cmd3, 0, 2, 1, []⟩ } }) 0x103 = true := by decide +kernel
theorem test_selftest_cancel : leaves (exec (.selftestCancel cmd3 0) { admin with pow := { admin.pow with tests := [⟨cmd3, 0, 2, 1, []⟩] } }) (fun t => t.pow.tests == [] && (t.ring 3).cplProd == 2) = true ∧
    answersWith (exec (.selftest cmd3 1 15) { admin with pow := { admin.pow with tests := [⟨cmd3, 0, 2, 1, []⟩] } }) 0 = true := by decide +kernel
/-- A whole-core test starts on a core that carries no work, a test of the package in a leap tick (R518). -/
def testing (kind : Nat) (leap : Bool) : State := { admin with pow := { admin.pow with tests := [⟨cmd3, 0, kind, 1, []⟩] }, tick := { admin.tick with leap := leap } }
theorem test_selftest_starts : leaves (exec (.selftestRun true 0) (testing 4 false)) (fun t => t.pow.tests.map SelfTest.state == [3]) = true ∧
    leaves (exec (.selftestRun true 0) (testing 5 true)) (fun t => t.pow.tests.map SelfTest.state == [3]) = true := by decide +kernel
theorem test_arm_armed : leaves (exec (.arm .c0) { State.reset with chg := { State.reset.chg with armed := some ([], 4), pending := [⟨0, 0, 0, 0x504, 0, 1, .c0, false⟩] } }) (fun t => (t.chg.armed.map Prod.snd) == some 4 && t.chg.pending.length == 1) = true := by
  decide +kernel
theorem test_no_core : ready0.coreReach 0 = true ∧ ready0.coreReach 1 = false ∧ leaves (exec (.checkLock .c0 1) ready0) (fun t => !(t.core 1).checkLock) = true := by decide +kernel
/-- A management message from a source that the boot record allows, whatever list it holds (R544). -/
theorem test_hyp_message : ∃ m : MgmtMsg, m.serial = State.reset.fuses.serial ∧ State.reset.answers m = true ∧ State.reset.keptFor m = none := by
  have h (b : Bool) (a : BitVec 128) (e : (if (Config.bootAllow State.reset.fw.cfg).isEmpty then b else (Config.bootAllow State.reset.fw.cfg).contains a) = true) :
      State.reset.answers ⟨a, b, 0, 0, 1, 0⟩ = true := by
    have : (State.reset.power == 0 && State.reset.mgmtUp && decide (1 ≤ 1 ∧ 1 ≤ 64)) = true := by decide +kernel
    simp only [State.answers, this, e, Bool.and_true]
  cases l : Config.bootAllow State.reset.fw.cfg with
  | nil => exact ⟨⟨0, true, 0, 0, 1, 0⟩, rfl, h true 0 (by rw [l]; rfl), rfl⟩
  | cons a t => exact ⟨⟨a, false, 0, 0, 1, 0⟩, rfl, h false a (by rw [l]; simp), rfl⟩
theorem test_group_leave_spare : answersWith (exec (.groupLeave cmd3) user) 0x103 = true := by decide +kernel

/-! ### Margin and holidays: the other clauses (R74, R142 to R151, R515) -/

theorem test_row_refused : ready0.writable 0 5 = false ∧ leaves (exec (.rowWrite 0 5 3 [] []) ready0) (fun t => t.rings.fwEvt != 0 && (t.core 0).arrays == []) = true := by decide +kernel
/-- A half in the Critical band, four arrays of the quarter half written, and a failing row (R142 to R144). -/
def hotHalf : State := { ready0 with dies := [(0, { upDie with west := ⟨64, none, .critical, 0⟩, east := ⟨64, none, .critical, 0⟩ })] }
theorem test_row_critical : leaves (exec (.rowWrite 0 4096 3 [] []) hotHalf) (fun t => (t.core 0).marginEvt.getLsbD 4) = true := by decide +kernel
def writing4 : State := ready0.modCore 0 fun k => [4097, 4098, 4099, 4100].foldl (fun k p => k.modArr p fun x => { x with wrote := 1 }) k
theorem test_row_waits : writing4.writeSlot 0 4096 = false ∧ writing4.writable 0 4096 = true ∧ leaves (exec (.rowWrite 0 4096 3 [] []) writing4) (fun t => ((t.core 0).arr 4096).wrote == 0) = true := by decide +kernel
theorem test_row_remapped : leaves (exec (.rowWrite 0 4096 3 [] [7]) ready0) (fun t => ((t.core 0).arr 4096).rowNext == some [(3, 1088)] && ((t.core 0).arr 4096).colFails == [7]) = true := by decide +kernel
/-- A test of a free spare is served in place (R516). -/
theorem test_spare_test : ready0.spareTest 0 ⟨4096, 6, 6⟩ = true ∧ leaves (exec (.holidayStart 0) (onHoliday [⟨4096, 6, 6⟩] [])) (fun t => (t.core 0).holidays == [⟨4096, 4096, 6, 6, .service⟩]) = true := by decide +kernel
theorem test_service_critical : leaves (exec (.holidayServiceDone 0 5 ⟨[], []⟩ []) { onHoliday [] [⟨5, 4096, 3, 2, .service⟩] with dies := hotHalf.dies }) (fun t => (t.core 0).marginEvt.getLsbD 4 && (t.core 0).holidays.length == 1) = true := by decide +kernel

/-! ### Boot and processors: the other clauses (R37, R480) -/

theorem test_boot_bad : leaves (exec (.boot ⟨5, 7⟩ true) { State.reset with power := 2 }) (fun t => t.power == 0 && t.fuses.bad && t.fw.fetch.isNone && t.fw.out == [.fuseFailure]) = true := by decide +kernel
theorem test_absent : ready0.absent (.control 1) = true ∧ leaves (exec (.watchdog (.control 1)) ready0) (fun t => (t.proc (.control 1)).state == 0) = true := by decide +kernel
theorem test_takeover_control : leaves (exec (.takeover (.control 0)) (ready0.setProc (.control 0) ⟨1, false, [2, 1, 0]⟩)) (fun t => (t.proc (.control 0)).state == 3 && t.grp.fault) = true := by decide +kernel

/-- Sums and parities over a list whose terms vanish. -/
theorem fold_zero {l : List Nat} {f : Nat → Nat} (h : ∀ i ∈ l, f i = 0) : l.foldl (fun a i => a + f i) 0 = 0 := by
  induction l with
  | nil => rfl
  | cons a l ih => rw [List.foldl_cons, h a (by simp)]; exact ih fun i hi => h i (by simp [hi])
theorem fold_false {l : List Nat} {f : Nat → Bool} (h : ∀ i ∈ l, f i = false) : l.foldl (fun (a : Bool) i => a != f i) false = false := by
  induction l with
  | nil => rfl
  | cons a l ih => rw [List.foldl_cons, h a (by simp)]; exact ih fun i hi => h i (by simp [hi])
/-- An array with nothing written and nothing mapped. -/
def Blank (x : ArrayInfo) : Prop := x.rows = [] ∧ x.rowMap = [] ∧ x.colMap = []
theorem blank_cell {x : ArrayInfo} (hx : Blank x) {r j : Nat} (h : r < 1088) (hj : j < 1320) : x.cell r j = false := by
  have hp : x.physRow r = r := by rw [ArrayInfo.physRow, hx.2.1]; rfl
  have hq : x.physCol j = j := by rw [ArrayInfo.physCol, hx.2.2]; rfl
  have hc : x.cells r = ((0#1344) &&& ~~~((0xFF#1344) <<< 1336)) ||| ((0xF#1344) <<< 1336) := by
    rw [ArrayInfo.cells, if_neg (by omega), if_neg (by omega), hx.1]; rfl
  rw [ArrayInfo.cell, hp, hq, hc, BitVec.getLsbD_or, BitVec.getLsbD_and, BitVec.getLsbD_zero, BitVec.getLsbD_shiftLeft, Bool.false_and, Bool.false_or,
    show decide (j < 1336) = true from decide_eq_true (by omega)]
  simp only [Bool.not_true, Bool.and_false, Bool.false_and]
theorem blank_slices {x : ArrayInfo} (hx : Blank x) {r g n : Nat} (h : r < 1088) (hg : 5 * g + n ≤ 1320) : x.slices r g n = 0 :=
  fold_zero fun i hi => by rw [blank_cell hx h (by have := List.mem_range.1 hi; omega)]; rfl
theorem blank_readable {x : ArrayInfo} (hx : Blank x) {r : Nat} (h : r < 1088) (p : Nat) : x.readable false [] p r = true := by
  have hp : x.parityOk r = true := List.all_eq_true.2 fun c hc => beq_iff_eq.2
    (fold_false fun i hi => blank_cell hx h (by have := List.mem_range.1 hi; have := List.mem_range.1 hc; omega))
  have hr : x.rowOk false r = true := List.all_eq_true.2 fun c hc => by
    have hb := List.mem_range.1 hc
    have hz : (List.range 32).foldl (fun a i => a + x.stored false r (32 * c + i)) 0 = 0 :=
      fold_zero fun i hi => blank_slices hx h (by have := List.mem_range.1 hi; change 5 * (32 * c + i) + 4 ≤ 1320; omega)
    rw [ArrayInfo.rowResidue, hz, blank_slices hx h (by omega)]; rfl
  rw [ArrayInfo.readable, hp, hr]; simp [transient]

/-- A holiday of array 5 being copied to spare 4096. -/
def copying (g : Grade) (b : Band) : State := let s := onHoliday [] [⟨5, 4096, 3, 2, .copy⟩]
  { (s.modCore 0 fun k => k.modArr 5 fun x => { x with grade := g }) with dies := [(0, { upDie with west := ⟨64, none, b, 0⟩, east := ⟨64, none, b, 0⟩ })] }
theorem test_hyp_holiday_copy : (copying .d .hot).coreActs 0 = true ∧ (copying .d .hot).critical 0 = false ∧ (∀ r, r < 1088 → (((copying .d .hot).core 0).arr 5).readable false [] 5 r = true) ∧
    ∀ g : Grade, (((copying .d .hot).core 0).arr 5).grade.rank ≤ g.rank :=
  ⟨by decide +kernel, by decide +kernel, fun _ h => blank_readable ⟨rfl, rfl, rfl⟩ h 5, fun g => Nat.zero_le g.rank⟩
theorem test_holiday_critical : leaves (exec (.holidayCopyDone 0 5 ⟨[], []⟩ false) (copying .a .critical)) (fun t => (t.core 0).marginEvt.getLsbD 4) = true := by decide +kernel
/-- A row-read that fails twice makes the array unreadable (R151). -/
theorem test_hyp_holiday_unreadable : (((copying .a .hot).core 0).arr 5).readable false [⟨5, 7, 2⟩] 5 7 = false := by decide +kernel

end Sys2Proof.Tests
end

section
/-!
The fuse table under every command (R37). Each helper of the model that yields a state gets one frame lemma (`_fuses`), each command and each
body of an instruction one (`_keepsFuses`), in the order of the model's files; a lemma cites those of the helpers below it by `simp`. What a whole
command does then follows by cases on the commands, with `boot`, which alone records the error of its copy, apart.
-/
namespace Sys2Proof.Machine

/-! ### What it means to keep the fuse table -/

/-- An outcome whose next state, if it has one, holds the fuse table of `s`. -/
def KeepsFuses (s : State) : Out → Prop
  | .next t => t.fuses = s.fuses
  | _ => True

/-- What firing comes to leaves the fuse table of `s` as it was. -/
def FireKeepsFuses (s : State) : Fire → Prop
  | .hold => True
  | .halt _ t => t.fuses = s.fuses
  | .go t _ _ => t.fuses = s.fuses

@[simp] theorem keepsFuses_next (s t : State) : KeepsFuses s (.next t) ↔ t.fuses = s.fuses := Iff.rfl

@[simp] theorem keepsFuses_ite (s : State) (p : Prop) [Decidable p] (a b : Out) :
    KeepsFuses s (if p then a else b) ↔ if p then KeepsFuses s a else KeepsFuses s b := by split <;> rfl

@[simp] theorem fireKeepsFuses_hold (s : State) : FireKeepsFuses s .hold := trivial

@[simp] theorem fireKeepsFuses_halt (s t : State) (n : Nat) : FireKeepsFuses s (.halt n t) ↔ t.fuses = s.fuses := Iff.rfl

@[simp] theorem fireKeepsFuses_go (s t : State) (n : Nat) (p : Option W64) : FireKeepsFuses s (.go t n p) ↔ t.fuses = s.fuses := Iff.rfl

@[simp] theorem fireKeepsFuses_ite (s : State) (p : Prop) [Decidable p] (a b : Fire) :
    FireKeepsFuses s (if p then a else b) ↔ if p then FireKeepsFuses s a else FireKeepsFuses s b := by split <;> rfl

/-! ### Branches and folds -/

@[simp] theorem State.ite_fuses (p : Prop) [Decidable p] (a b : State) : (if p then a else b).fuses = if p then a.fuses else b.fuses :=
  apply_ite State.fuses p a b

@[simp] theorem State.ite_fst_fuses {β : Type} (p : Prop) [Decidable p] (a b : State × β) :
    (if p then a else b).1.fuses = if p then a.1.fuses else b.1.fuses := apply_ite (fun x => x.1.fuses) p a b

@[simp] theorem State.foldl_fuses {α : Type} {f : State → α → State} (h : ∀ s x, (f s x).fuses = s.fuses) (l : List α) (s : State) :
    (l.foldl f s).fuses = s.fuses := by
  induction l generalizing s with
  | nil => rfl
  | cons x l ih => rw [List.foldl_cons, ih, h]

@[simp] theorem State.foldl_modCore_fuses {α : Type} (c : State → α → CoreId) (f : State → α → Core → Core) (l : List α) (s : State) :
    (l.foldl (fun s x => s.modCore (c s x) (f s x)) s).fuses = s.fuses :=
  State.foldl_fuses (fun _ _ => State.modCore_fuses ..) l s

@[simp] theorem State.foldl_modDie_fuses {α : Type} (d : State → α → DieId) (f : State → α → Die → Die) (l : List α) (s : State) :
    (l.foldl (fun s x => s.modDie (d s x) (f s x)) s).fuses = s.fuses :=
  State.foldl_fuses (fun _ _ => State.modDie_fuses ..) l s

/-- A fold over pairs of a state and a result. -/
theorem foldl_fst_fuses {α β : Type} {f : State × β → α → State × β} (h : ∀ x a, (f x a).1.fuses = x.1.fuses) (l : List α) (x : State × β) :
    (l.foldl f x).1.fuses = x.1.fuses := by
  induction l generalizing x with
  | nil => rfl
  | cons a l ih => rw [List.foldl_cons, ih, h]

/-- A chain of steps that each may stop, each of which keeps the fuse table of the state it carries. -/
theorem foldlM_fuses {σ α : Type} (st : σ → State) {f : σ → α → Option σ} (h : ∀ r p x, f r p = some x → (st x).fuses = (st r).fuses)
    {l : List α} {r x : σ} (hx : l.foldlM f r = some x) : (st x).fuses = (st r).fuses := by
  induction l generalizing r with
  | nil => cases hx; rfl
  | cons p l ih =>
    obtain ⟨y, hy, hx⟩ := Option.bind_eq_some_iff.1 hx
    rw [ih hx, h r p y hy]

/-! ### Machine/Events -/

@[simp] theorem State.writeCarve_fuses (s : State) (owner a : Nat) (bs : Bytes) : (s.writeCarve owner a bs).fuses = s.fuses := by
  simp [State.writeCarve]

@[simp] theorem State.writeIndices_fuses (s : State) (i : Nat) : (s.writeIndices i).fuses = s.fuses := by
  simp [State.writeIndices]

@[simp] theorem State.putEvent_fuses (s : State) (i code cls die : Nat) (data : Bytes) : (s.putEvent i code cls die data).fuses = s.fuses := by
  simp [State.putEvent]

@[simp] theorem State.flushLost_fuses (s : State) (i : Nat) : (s.flushLost i).fuses = s.fuses := by
  simp [State.flushLost]

@[simp] theorem State.postTo_fuses (s : State) (code cls die : Nat) (data : Bytes) (i : Nat) : (s.postTo code cls die data i).fuses = s.fuses := by
  simp [State.postTo]

@[simp] theorem State.packageFault_fuses (s : State) (cause : Nat) : (s.packageFault cause).fuses = s.fuses := by
  simp [State.packageFault]

@[simp] theorem State.patchEnd_fuses (s : State) (v : Nat) : (s.patchEnd v).fuses = s.fuses := by
  simp [State.patchEnd]

@[simp] theorem State.refusePatch_fuses (s : State) : s.refusePatch.fuses = s.fuses := by
  simp [State.refusePatch]

@[simp] theorem State.boundHit_fuses (s : State) (bound : Nat) : (s.boundHit bound).fuses = s.fuses := by
  simp [State.boundHit]

@[simp] theorem State.putCompletion_fuses (s : State) (i : Nat) (tag : W32) (opcode status : Nat) (result : Bytes) (fin : Bool) (tick : W48) :
    (s.putCompletion i tag opcode status result fin tick).fuses = s.fuses := by
  simp [State.putCompletion]

@[simp] theorem State.begins_fuses (s : State) (h : HostCmd) (opcode : Nat) : (s.begins h opcode).fuses = s.fuses := by
  simp [State.begins]

/-! ### Machine/Sequencer -/

@[simp] theorem State.quiet_fuses (s : State) (c : CoreId) : (s.quiet c).fuses = s.fuses := by
  simp [State.quiet]

@[simp] theorem haltCore_fuses (c : CoreId) (code : Nat) (pc : W64) (s : State) : (haltCore c code pc s).fuses = s.fuses := by
  simp [haltCore]

@[simp] theorem overrun_fuses (c : CoreId) (cause : Nat) (s : State) : (overrun c cause s).fuses = s.fuses := by
  simp [overrun]

@[simp] theorem continueExc_fuses (c : CoreId) (s : State) : (continueExc c s).fuses = s.fuses := by
  simp [continueExc]

/-- Firing keeps the fuse table where the body does. -/
theorem fire_keepsFuses {c : CoreId} {i : Instr} {g : Guard} {body : Nat → State → Fire} {s : State}
    (h : ∀ t, FireKeepsFuses s (body t s)) : KeepsFuses s (.next (fire c i g body s)) := by
  rw [keepsFuses_next]
  rcases fire_cases c i g body s with e | ⟨code, e⟩ | ⟨n, e⟩ | ⟨t, code, s', hb, e⟩ | ⟨t, s', cost, next, hb, e⟩
  · rw [e]
  · simp [e]
  · simp [e]
  · have hk := h t
    rw [hb, fireKeepsFuses_halt] at hk
    simp [e, hk]
  · have hk := h t
    rw [hb, fireKeepsFuses_go] at hk
    simp [e, hk]

@[simp] theorem onCore_keepsFuses (c : CoreId) (f : Core → Core) (s : State) : FireKeepsFuses s (onCore c f s) := by
  simp [onCore]

@[simp] theorem unitOp_keepsFuses (c : CoreId) (u : UnitKind) (rd wr : List (Desc × List Nat)) (bad : Option Nat) (t ut : Nat) (sd : Option SReg)
    (act : Core → Core) (s : State) : FireKeepsFuses s (unitOp c u rd wr bad t ut sd act s) := by
  simp only [unitOp]
  split <;> simp

/-! ### Machine/Arrays -/

@[simp] theorem State.spend_fuses (s : State) (c : CoreId) (n : Nat) : (s.spend c n).fuses = s.fuses := by
  simp [State.spend]

@[simp] theorem discardIssue_fuses (c : CoreId) (u : UnitInst) (undo : List (Nat × BitVec 256)) (phys reason : Nat) (s : State) :
    (discardIssue c u undo phys reason s).fuses = s.fuses := by
  simp [discardIssue]

/-! ### Machine/ArrayOps -/

@[simp] theorem State.laggards_fuses (s : State) (c : CoreId) (lag : List ArrPlan) : (s.laggards c lag).fuses = s.fuses := by
  simp [State.laggards]

@[simp] theorem runIssue_keepsFuses (c : CoreId) (o : MvmOp) (faults : List ReadFault) (t : Nat) (u : IssueSetup) (s : State) :
    FireKeepsFuses s (runIssue c o faults t u s) := by
  simp [runIssue]

@[simp] theorem issueMvm_keepsFuses (c : CoreId) (o : MvmOp) (faults : List ReadFault) (t : Nat) (s : State) :
    FireKeepsFuses s (issueMvm c o faults t s) := by
  simp only [issueMvm]
  split
  · simp
  split
  · simp
  split
  · simp
  · simp
  · exact runIssue_keepsFuses (s := State.modCore ..) ..

@[simp] theorem passVerdict_fuses (c : CoreId) (id : Nat) (p : PassId) (codes : List CodeErr) (s : State) :
    (passVerdict c id p codes s).fuses = s.fuses := by
  simp only [passVerdict]
  split <;> simp

@[simp] theorem execPassVerdict_keepsFuses (c : CoreId) (issue : Nat) (p : PassId) (codes : List CodeErr) (s : State) :
    KeepsFuses s (execPassVerdict c issue p codes s) := by
  simp [execPassVerdict]

@[simp] theorem rereadPass_fuses (c : CoreId) (id : Nat) (s : State) : (rereadPass c id s).fuses = s.fuses := by
  simp only [rereadPass]
  split
  · simp
  split <;> simp

@[simp] theorem execRereadPass_keepsFuses (c : CoreId) (issue : Nat) (s : State) : KeepsFuses s (execRereadPass c issue s) := by
  simp [execRereadPass]

@[simp] theorem copyEntries_keepsFuses (c : CoreId) (dd da : Desc) (fd fa : List Nat) (t : Nat) (s : State) :
    FireKeepsFuses s (copyEntries c dd da fd fa t s) := by
  simp [copyEntries]

/-! ### Machine/Vector -/

@[simp] theorem vbin_keepsFuses (c : CoreId) (td ta tb : TReg) (f : Fp → Fp → Fp) (t : Nat) (s : State) :
    FireKeepsFuses s (vbin c td ta tb f t s) := by
  simp [vbin]

@[simp] theorem vun_keepsFuses (c : CoreId) (td ta : TReg) (ut : Desc → Nat) (f : Fp → Nat) (more : List Fp) (t : Nat) (s : State) :
    FireKeepsFuses s (vun c td ta ut f more t s) := by
  simp [vun]

@[simp] theorem vred_keepsFuses (c : CoreId) (td ta : TReg) (f : List Fp → Fp) (t : Nat) (s : State) : FireKeepsFuses s (vred c td ta f t s) := by
  simp [vred]

/-! ### Machine/NetPort -/

@[simp] theorem State.inject_fuses (s : State) (src : Nat) (die : DieId) (router : Nat) (inj : Option Nat) (req : Option Nat) (fs : List FlitBody) :
    (s.inject src die router inj req fs).fuses = s.fuses := by
  simp [State.inject]

@[simp] theorem State.injectVia_fuses (s : State) (src : Nat) (die : DieId) (fs : List FlitBody) (g : Frame) :
    (s.injectVia src die fs g).fuses = s.fuses := by
  simp [State.injectVia]

@[simp] theorem State.sendFrom_fuses (s : State) (c : CoreId) (t : Nat) (req : Option Nat) (fs : List FlitBody) :
    (s.sendFrom c t req fs).fuses = s.fuses := by
  simp [State.sendFrom]

@[simp] theorem thenInject_keepsFuses (s : State) (c : CoreId) (t : Nat) (fs : List FlitBody) (x : Fire) :
    FireKeepsFuses s (thenInject c t fs x) ↔ FireKeepsFuses s x := by
  cases x <;> simp [thenInject]

/-! ### Machine/ServePort -/

@[simp] theorem State.request_fuses (s : State) (member : Nat) (r : ServeReq) : (s.request member r).fuses = s.fuses := by
  simp [State.request]

@[simp] theorem State.requestBy_fuses (s : State) (c : CoreId) (t : Nat) (e : RouteEnt) (r : ServeReq) (bs : Bytes) :
    (s.requestBy c t e r bs).fuses = s.fuses := by
  simp [State.requestBy]

@[simp] theorem serveOp_keepsFuses (c : CoreId) (rd wr : List (Desc × List Nat)) (bad : Option Nat) (t : Nat) (idle : Bool) (pd : Option PReg)
    (act : Core → Core) (after : State → State) (s : State) (h : ∀ s, (after s).fuses = s.fuses) :
    FireKeepsFuses s (serveOp c rd wr bad t idle pd act after s) := by
  simp only [serveOp]
  split
  · simp
  · simp [h]

@[simp] theorem sendRequest_fuses (c : CoreId) (t : Nat) (r : Except Nat RouteEnt) (idle : Bool) (q : RouteEnt → ServeReq) (bs : Bytes) (s : State) :
    (sendRequest c t r idle q bs s).fuses = s.fuses := by
  unfold sendRequest
  split <;> simp

@[simp] theorem execUnitInstructionComplete_keepsFuses (c : CoreId) (id : Nat) (s : State) : KeepsFuses s (execUnitInstructionComplete c id s) := by
  simp only [execUnitInstructionComplete]
  split
  · simp
  split <;> simp

/-! ### Machine/Network -/

theorem State.granted_fuses {s t : State} {f : Flit} {p : Nat} (h : s.granted f p = some t) : t.fuses = s.fuses := by
  unfold State.granted at h
  extract_lets at h
  split at h
  · simp only [Option.ite_none_right_eq_some, Option.some.injEq] at h
    obtain ⟨-, rfl⟩ := h
    rfl
  · cases h

@[simp] theorem State.dropFlit_fuses (s : State) (id : Nat) : (s.dropFlit id).fuses = s.fuses := by
  simp [State.dropFlit]

@[simp] theorem State.setFlit_fuses (s : State) (f : Flit) : (s.setFlit f).fuses = s.fuses := by
  simp [State.setFlit]

@[simp] theorem State.moveFlit_fuses (s : State) (f : Flit) : (s.moveFlit f).fuses = s.fuses := by
  simp [State.moveFlit]

@[simp] theorem State.sendFrames_fuses (s : State) (l : List OutFrame) : (s.sendFrames l).fuses = s.fuses := by
  simp [State.sendFrames]

theorem checkWords_fuses (s : State) (dst : DieId) (e : Ecc) {keep : State → State} (h : ∀ s, (keep s).fuses = s.fuses) :
    (checkWords s dst e keep).fuses = s.fuses := by
  cases e <;> simp [checkWords, h]

theorem receiveWords_fuses (s : State) (dst : DieId) (e : Ecc) (id : Nat) {keep : State → State} (h : ∀ s, (keep s).fuses = s.fuses) :
    (receiveWords s dst e id keep).fuses = s.fuses := by
  unfold receiveWords
  split <;> simp [checkWords_fuses _ _ _ h]

/-! ### Machine/Reducers -/

@[simp] theorem State.laneHop_fuses (s : State) (f : Flit) (r p : Nat) (e : Ecc) : (s.laneHop f r p e).fuses = s.fuses := by
  unfold State.laneHop
  cases hg : s.granted f p with
  | none => simp
  | some t => simp [State.granted_fuses hg, receiveWords_fuses]

@[simp] theorem State.linkHop_fuses (s : State) (f : Flit) (p d r : Nat) (e : Ecc) : (s.linkHop f p d r e).fuses = s.fuses := by
  unfold State.linkHop
  cases hg : s.granted f p with
  | none => simp
  | some t => simp [State.granted_fuses hg, receiveWords_fuses]

@[simp] theorem State.fabricHop_fuses (s : State) (f : Flit) (k p : Nat) : (s.fabricHop f k p).fuses = s.fuses := by
  unfold State.fabricHop
  cases hg : s.granted f p with
  | none => rfl
  | some t => simp [State.granted_fuses hg]

@[simp] theorem execFlitHopReceive_keepsFuses (id : Nat) (e : Ecc) (s : State) : KeepsFuses s (execFlitHopReceive id e s) := by
  unfold execFlitHopReceive
  split
  · simp
  split
  · simp
  split
  · simp [receiveWords_fuses]
  split <;> simp

@[simp] theorem State.requestFlit_fuses (s : State) (f : Flit) : (s.requestFlit f).fuses = s.fuses := by
  simp only [State.requestFlit]
  split <;> simp

@[simp] theorem execFlitDelivery_keepsFuses (id : Nat) (s : State) : KeepsFuses s (execFlitDelivery id s) := by
  unfold execFlitDelivery
  split
  · simp
  dsimp only
  split
  · simp
  split
  · simp
  split
  · simp
  split <;> simp

@[simp] theorem State.setReducer_fuses (s : State) (d u : Nat) (r : Reducer) : (s.setReducer d u r).fuses = s.fuses := by
  simp [State.setReducer]

@[simp] theorem execReducerCombine_keepsFuses (id : Nat) (s : State) : KeepsFuses s (execReducerCombine id s) := by
  unfold execReducerCombine
  split <;> simp

@[simp] theorem execReducerDelivery_keepsFuses (d : DieId) (unit : Fin 16) (s : State) : KeepsFuses s (execReducerDelivery d unit s) := by
  simp only [execReducerDelivery]
  split <;> simp

@[simp] theorem execScrub_keepsFuses (d : DieId) (w : ScrubWord) (uncorrectable : Bool) (s : State) :
    KeepsFuses s (execScrub d w uncorrectable s) := by
  unfold execScrub
  split
  · simp
  split <;> simp

@[simp] theorem State.setPort_fuses (s : State) (d : DieId) (p v : Nat) : (s.setPort d p v).fuses = s.fuses := by
  simp [State.setPort]

@[simp] theorem State.startTraining_fuses (s : State) (d : Nat) (ps : List Nat) : (s.startTraining d ps).fuses = s.fuses := by
  simp [State.startTraining]

@[simp] theorem execLinkTraining_keepsFuses (d : DieId) (port : Fin 6) (r : LinkResult) (s : State) : KeepsFuses s (execLinkTraining d port r s) := by
  simp [execLinkTraining]

@[simp] theorem execLinkDegrade_keepsFuses (d : DieId) (port : Fin 6) (down : Bool) (s : State) : KeepsFuses s (execLinkDegrade d port down s) := by
  simp [execLinkDegrade]

/-! ### Machine/KvStore -/

@[simp] theorem State.setSd_fuses (s : State) (d : Nat) (x : ServeDie) : (s.setSd d x).fuses = s.fuses := by
  simp [State.setSd]

@[simp] theorem State.modSd_fuses (s : State) (d : Nat) (f : ServeDie → ServeDie) : (s.modSd d f).fuses = s.fuses := by
  simp [State.modSd]

@[simp] theorem State.setReq_fuses (s : State) (r : Nat) (x : Req) : (s.setReq r x).fuses = s.fuses := by
  simp [State.setReq]

@[simp] theorem State.modReq_fuses (s : State) (r : Nat) (f : Req → Req) : (s.modReq r f).fuses = s.fuses := by
  simp [State.modReq]

/-! ### Machine/Attention -/

@[simp] theorem State.answer_fuses (s : State) (q : ServeReq) (flags : List Nat) (act : Core → Core) : (s.answer q flags act).fuses = s.fuses := by
  simp [State.answer]

@[simp] theorem State.refuse_fuses (s : State) (d : Nat) (q : ServeReq) (cause : Nat) (flags : List Nat) :
    (s.refuse d q cause flags).fuses = s.fuses := by
  simp [State.refuse]

@[simp] theorem State.takeServe_fuses (s : State) (id : Nat) : (s.takeServe id).fuses = s.fuses := by
  simp [State.takeServe]

@[simp] theorem execAttentionRequest_keepsFuses (sv : ServeId) (s : State) : KeepsFuses s (execAttentionRequest sv s) := by
  unfold execAttentionRequest
  dsimp only
  split
  · simp
  split
  · simp
  split <;> simp

@[simp] theorem State.losePage_fuses (s : State) (d r layer i : Nat) : (s.losePage d r layer i).fuses = s.fuses := by
  simp [State.losePage]

@[simp] theorem execPageTask_keepsFuses (sv : ServeId) (_engine : Fin 24) (wordFailsTwice : Bool) (s : State) :
    KeepsFuses s (execPageTask sv _engine wordFailsTwice s) := by
  simp only [execPageTask]
  split
  · simp
  split <;> simp

@[simp] theorem execAttentionAnswer_keepsFuses (sv : ServeId) (id : Nat) (s : State) : KeepsFuses s (execAttentionAnswer sv id s) := by
  simp only [execAttentionAnswer]
  split <;> simp

@[simp] theorem execKvWrite_keepsFuses (sv : ServeId) (s : State) : KeepsFuses s (execKvWrite sv s) := by
  unfold execKvWrite
  dsimp only
  split
  · simp
  split
  · simp
  split
  · simp
  · simp
  split
  · simp
  split
  · simp
  split <;> simp

@[simp] theorem execPageAgeing_keepsFuses (sv : ServeId) (req layer page : Nat) (wordFailsTwice : Bool) (s : State) :
    KeepsFuses s (execPageAgeing sv req layer page wordFailsTwice s) := by
  unfold execPageAgeing
  dsimp only
  split
  · simp
  split
  · simp
  split
  · simp
  split <;> simp

/-! ### Machine/Sampler -/

@[simp] theorem execSampling_keepsFuses (sv : ServeId) (s : State) : KeepsFuses s (execSampling sv s) := by
  simp only [execSampling]
  split <;> simp

@[simp] theorem execGenerationFenceQuery_keepsFuses (sv : ServeId) (s : State) : KeepsFuses s (execGenerationFenceQuery sv s) := by
  simp only [execGenerationFenceQuery]
  split <;> simp

@[simp] theorem execRefusalReport_keepsFuses (sv : ServeId) (s : State) : KeepsFuses s (execRefusalReport sv s) := by
  unfold execRefusalReport
  split <;> simp

/-! ### Machine/Requests -/

@[simp] theorem State.begun_fuses (s : State) (n : Nat) : (s.begun n).fuses = s.fuses := by
  simp [State.begun]

@[simp] theorem State.ringPut_fuses (s : State) (i : Nat) (e : TokEnt) : (s.ringPut i e).fuses = s.fuses := by
  simp [State.ringPut]

@[simp] theorem State.emitToken_fuses (s : State) (i : Nat) (d : Draw) (draft last : Bool) : (s.emitToken i d draft last).fuses = s.fuses := by
  simp [State.emitToken]

@[simp] theorem State.commitKv_fuses (s : State) (w : KvStage) : (s.commitKv w).fuses = s.fuses := by
  simp only [State.commitKv]
  split <;> simp

@[simp] theorem State.settleKv_fuses (s : State) (r n : Nat) : (s.settleKv r n).fuses = s.fuses := by
  simp [State.settleKv]

@[simp] theorem State.finish_fuses (s : State) (i : Nat) (c : EndCause) : (s.finish i c).fuses = s.fuses := by
  simp [State.finish]

@[simp] theorem State.decideStep_fuses (s : State) (i : Nat) (st : Step) (ys : List Draw) : (s.decideStep i st ys).fuses = s.fuses := by
  simp [State.decideStep]

@[simp] theorem State.commitDraw_fuses (s : State) (d : Draw) : (s.commitDraw d).fuses = s.fuses := by
  cases hs : (s.req d.tag.req).step <;> simp [State.commitDraw, hs]

@[simp] theorem State.postRefusals_fuses (s : State) (i : Nat) (ps : List Report) : (s.postRefusals i ps).fuses = s.fuses := by
  simp [State.postRefusals]

@[simp] theorem State.withdraw_fuses (s : State) (i : Nat) (ps : List Report) : (s.withdraw i ps).fuses = s.fuses := by
  simp only [State.withdraw]
  split <;> simp

@[simp] theorem State.eachCore_fuses (s : State) (f : Core → Core) : (s.eachCore f).fuses = s.fuses :=
  State.foldl_fuses (f := fun s i => s.modCore ⟨i % 96, by omega⟩ f) (fun _ _ => rfl) _ s

@[simp] theorem State.commitTick_fuses (s : State) (t : W48) : (s.commitTick t).fuses = s.fuses := by
  simp [State.commitTick]

@[simp] theorem State.discardTick_fuses (s : State) (t : W48) : (s.discardTick t).fuses = s.fuses := by
  simp [State.discardTick]

@[simp] theorem State.freeReq_fuses (s : State) (i status : Nat) : (s.freeReq i status).fuses = s.fuses := by
  simp only [State.freeReq]
  split <;> simp

@[simp] theorem State.noTokenEnd_fuses (s : State) (i : Nat) (c : EndCause) : (s.noTokenEnd i c).fuses = s.fuses := by
  simp [State.noTokenEnd]

@[simp] theorem execRequestEnd_keepsFuses (i : Nat) (s : State) : KeepsFuses s (execRequestEnd i s) := by
  simp only [execRequestEnd]
  split
  · simp
  split <;> simp

@[simp] theorem execRequestFaultEnd_keepsFuses (i : Nat) (s : State) : KeepsFuses s (execRequestFaultEnd i s) := by
  simp [execRequestFaultEnd]

@[simp] theorem execHeldExit_keepsFuses (i : Nat) (s : State) : KeepsFuses s (execHeldExit i s) := by
  simp [execHeldExit]

@[simp] theorem execRebuildStart_keepsFuses (i : Nat) (s : State) : KeepsFuses s (execRebuildStart i s) := by
  simp only [execRebuildStart]
  split
  · simp
  split <;> simp

@[simp] theorem execHideApply_keepsFuses (i : Nat) (s : State) : KeepsFuses s (execHideApply i s) := by
  unfold execHideApply
  split <;> simp

@[simp] theorem execEndingCompletion_keepsFuses (s : State) : KeepsFuses s (execEndingCompletion s) := by
  unfold execEndingCompletion
  split
  · simp
  split <;> simp

/-! ### Machine/Entry -/

theorem Filling.place_fuses (f : Filling) (slot cap : Nat) (e : W48) (budget : Nat → Nat) (t : LaneTag) :
    (f.place slot cap e budget t).s.fuses = f.s.fuses := by
  have hgo (r : Req) : (Filling.place.go f slot e budget t f.s r).s.fuses = f.s.fuses := by
    simp only [Filling.place.go]
    split
    · split <;> simp
    · split <;> simp
  unfold Filling.place
  split
  · rfl
  dsimp only
  split <;> split <;> simp [hgo]

theorem Filling.foldl_place_fuses (l : List LaneTag) (f : Filling) (slot cap : Nat) (e : W48) (budget : Nat → Nat) :
    (l.foldl (fun (f : Filling) t => f.place slot cap e budget t) f).s.fuses = f.s.fuses := by
  induction l generalizing f with
  | nil => rfl
  | cons t l ih => rw [List.foldl_cons, ih, Filling.place_fuses]

@[simp] theorem fillSlot_fuses (s : State) (slot cap : Nat) (e : W48) (budget : Nat → Nat) :
    (fillSlot s slot cap e budget).1.fuses = s.fuses := by
  simp only [fillSlot, Filling.foldl_place_fuses]

@[simp] theorem State.deliverLanes_fuses (s : State) (n : W48) (cap : Nat) (lanes : List LaneTag) : (s.deliverLanes n cap lanes).fuses = s.fuses := by
  unfold State.deliverLanes
  split <;> simp

@[simp] theorem State.slotLanes_fuses (s : State) (n e : W48) (slot cap : Nat) (budget : Nat → Nat) :
    (s.slotLanes n e slot cap budget).1.fuses = s.fuses := by
  unfold State.slotLanes
  split <;> simp

@[simp] theorem State.enterLanes_fuses (s : State) (n e : W48) (assign : Bool) (budget : Nat → Nat) :
    (s.enterLanes n e assign budget).fuses = s.fuses := by
  unfold State.enterLanes
  dsimp only
  split
  · rfl
  split
  · rfl
  split
  · rfl
  · cases assign <;> simp

/-! ### Machine/HostReq -/

@[simp] theorem execAdmitReq_keepsFuses (h : HostCmd) (recordAddr : W64) (s : State) : KeepsFuses s (execAdmitReq h recordAddr s) := by
  simp [execAdmitReq]

@[simp] theorem execQueueDeparture_keepsFuses (s : State) : KeepsFuses s (execQueueDeparture s) := by
  unfold execQueueDeparture
  split
  · simp
  dsimp only
  split
  · simp
  split <;> simp

@[simp] theorem execCancel_keepsFuses (h : HostCmd) (req : BitVec 16) (ticket : W32) (s : State) : KeepsFuses s (execCancel h req ticket s) := by
  unfold execCancel
  split
  · simp
  split <;> simp

@[simp] theorem execDraft_keepsFuses (h : HostCmd) (req : BitVec 16) (ticket base : W32) (idsAddr : W64) (s : State) :
    KeepsFuses s (execDraft h req ticket base idsAddr s) := by
  unfold execDraft
  split
  · simp
  split
  · simp
  split <;> simp

@[simp] theorem execHide_keepsFuses (h : HostCmd) (req : BitVec 16) (ticket lo hi : W32) (s : State) :
    KeepsFuses s (execHide h req ticket lo hi s) := by
  unfold execHide
  split
  · simp
  split <;> simp

/-! ### Machine/Rings -/

@[simp] theorem execCommandTake_keepsFuses (set : Fin 16) (s : State) : KeepsFuses s (execCommandTake set s) := by
  simp only [execCommandTake]
  split
  · simp
  split <;> simp

@[simp] theorem execEventsLost_keepsFuses (set : Fin 16) (s : State) : KeepsFuses s (execEventsLost set s) := by
  simp [execEventsLost]

@[simp] theorem State.dbInvalid_fuses (s : State) (set ring : Nat) (index : BitVec 16) : (s.dbInvalid set ring index).fuses = s.fuses := by
  simp [State.dbInvalid]

@[simp] theorem execDbCommandTail_keepsFuses (set : Fin 16) (index : BitVec 16) (s : State) : KeepsFuses s (execDbCommandTail set index s) := by
  simp [execDbCommandTail]

@[simp] theorem execDbCompletionConsumed_keepsFuses (set : Fin 16) (index : BitVec 16) (s : State) :
    KeepsFuses s (execDbCompletionConsumed set index s) := by
  simp [execDbCompletionConsumed]

@[simp] theorem execDbEventConsumed_keepsFuses (set : Fin 16) (index : BitVec 16) (s : State) : KeepsFuses s (execDbEventConsumed set index s) := by
  simp [execDbEventConsumed]

@[simp] theorem execCmdNop_keepsFuses (h : HostCmd) (s : State) : KeepsFuses s (execCmdNop h s) := by
  simp [execCmdNop]

@[simp] theorem State.applyRings_fuses (s : State) : s.applyRings.fuses = s.fuses := by
  simp [State.applyRings]

/-! ### Machine/Almanac -/

@[simp] theorem State.placeCore_fuses (s : State) (a : Almanac) (aux : List AuxSec) (e : CoreEnt) : (s.placeCore a aux e).fuses = s.fuses := by
  simp [State.placeCore]

@[simp] theorem State.setBudgets_fuses (s : State) : s.setBudgets.fuses = s.fuses := by
  simp [State.setBudgets]

@[simp] theorem State.installAlmanac_fuses (s : State) (a : Almanac) (aux : List AuxSec) : (s.installAlmanac a aux).fuses = s.fuses := by
  simp [State.installAlmanac]

@[simp] theorem execAlmLoad_keepsFuses (h : HostCmd) (addr : W64) (len : W32) (s : State) : KeepsFuses s (execAlmLoad h addr len s) := by
  simp [execAlmLoad]

/-! ### Machine/Margin -/

@[simp] theorem State.modArr_fuses (s : State) (c : CoreId) (p : Nat) (f : ArrayInfo → ArrayInfo) : (s.modArr c p f).fuses = s.fuses := by
  simp [State.modArr]

@[simp] theorem State.spendReads_fuses (s : State) (c : CoreId) (n : Nat) : (s.spendReads c n).fuses = s.fuses := by
  simp [State.spendReads]

@[simp] theorem State.spendWrites_fuses (s : State) (c : CoreId) (n : Nat) : (s.spendWrites c n).fuses = s.fuses := by
  simp [State.spendWrites]

@[simp] theorem State.markLost_fuses (s : State) (c : CoreId) (p : Nat) : (s.markLost c p).fuses = s.fuses := by
  unfold State.markLost
  split <;> simp

@[simp] theorem State.arrayFault_fuses (s : State) (c : CoreId) (p : Nat) : (s.arrayFault c p).fuses = s.fuses := by
  simp [State.arrayFault]

@[simp] theorem State.putGrade_fuses (s : State) (c : CoreId) (p : Nat) (g : Grade) (crit : Bool) : (s.putGrade c p g crit).fuses = s.fuses := by
  simp [State.putGrade]

@[simp] theorem State.recordGrade_fuses (s : State) (c : CoreId) (p : Nat) (g : Grade) : (s.recordGrade c p g).fuses = s.fuses := by
  simp [State.recordGrade]

@[simp] theorem State.critArray_fuses (s : State) (c : CoreId) (p : Nat) : (s.critArray c p).fuses = s.fuses := by
  simp [State.critArray]

@[simp] theorem State.critEve_fuses (s : State) (c : CoreId) : (s.critEve c).fuses = s.fuses := by
  simp [State.critEve]

@[simp] theorem State.queueFor_fuses (s : State) (c : CoreId) (p : Nat) : (s.queueFor c p).fuses = s.fuses := by
  simp [State.queueFor]

@[simp] theorem State.scanArray_fuses (s : State) (c : CoreId) (p : Nat) (l : List RowEdges) : (s.scanArray c p l).fuses = s.fuses := by
  simp [State.scanArray]

@[simp] theorem execMarginScan_keepsFuses (c : CoreId) (array : Nat) (e : List RowEdges) (s : State) : KeepsFuses s (execMarginScan c array e s) := by
  simp [execMarginScan]

@[simp] theorem execScanLate_keepsFuses (c : CoreId) (array : Nat) (s : State) : KeepsFuses s (execScanLate c array s) := by
  simp only [execScanLate]
  split
  · simp
  split <;> simp

@[simp] theorem execFailureCountLimit_keepsFuses (c : CoreId) (array : Nat) (s : State) : KeepsFuses s (execFailureCountLimit c array s) := by
  simp [execFailureCountLimit]

@[simp] theorem execFailureWindowRestart_keepsFuses (s : State) : KeepsFuses s (execFailureWindowRestart s) := by
  simp [execFailureWindowRestart]

@[simp] theorem execHolidayStart_keepsFuses (c : CoreId) (s : State) : KeepsFuses s (execHolidayStart c s) := by
  unfold execHolidayStart
  split
  · simp
  split
  · simp
  split
  · simp
  split <;> simp

@[simp] theorem State.abandon_fuses (s : State) (c : CoreId) (h : Holiday) : (s.abandon c h).fuses = s.fuses := by
  simp [State.abandon]

@[simp] theorem State.abandonAgain_fuses (s : State) (c : CoreId) (h : Holiday) : (s.abandonAgain c h).fuses = s.fuses := by
  simp [State.abandonAgain]

@[simp] theorem State.failSpare_fuses (s : State) (c : CoreId) (h : Holiday) : (s.failSpare c h).fuses = s.fuses := by
  simp [State.failSpare]

@[simp] theorem State.copyInto_fuses (s : State) (c : CoreId) (o : ArrayInfo) (sp : Nat) (e : List RowEdges) :
    (s.copyInto c o sp e).fuses = s.fuses := by
  simp [State.copyInto]

@[simp] theorem execHolidayCopyDone_keepsFuses (c : CoreId) (orig : Nat) (r : StepRead) (unrepairable : Bool) (s : State) :
    KeepsFuses s (execHolidayCopyDone c orig r unrepairable s) := by
  unfold execHolidayCopyDone
  split <;> simp

@[simp] theorem execHolidayServiceDone_keepsFuses (c : CoreId) (orig : Nat) (rd : StepRead) (cal : List ConvCal) (s : State) :
    KeepsFuses s (execHolidayServiceDone c orig rd cal s) := by
  unfold execHolidayServiceDone
  split <;> simp

@[simp] theorem State.testedArray_fuses (s : State) (c : CoreId) (p reason : Nat) : (s.testedArray c p reason).fuses = s.fuses := by
  simp [State.testedArray]

@[simp] theorem State.recompare_fuses (s : State) (c : CoreId) (a : Nat) : (s.recompare c a).fuses = s.fuses := by
  simp [State.recompare]

@[simp] theorem State.holidayTurn_fuses (s : State) (c : CoreId) (h : Holiday) : (s.holidayTurn c h).fuses = s.fuses := by
  unfold State.holidayTurn
  split
  · split <;> simp
  · simp
  · simp
  · split
    · rfl
    split <;> simp
  · rfl

@[simp] theorem State.holidayEve_fuses (s : State) (c : CoreId) : (s.holidayEve c).fuses = s.fuses := by
  simp [State.holidayEve]

@[simp] theorem State.takeMaps_fuses (s : State) (c : CoreId) : (s.takeMaps c).fuses = s.fuses := by
  simp [State.takeMaps]

@[simp] theorem State.restartHolidays_fuses (s : State) (c : CoreId) : (s.restartHolidays c).fuses = s.fuses := by
  unfold State.restartHolidays
  exact State.foldl_fuses (fun _ h => by cases h.step <;> simp) _ s

@[simp] theorem State.abandonCopies_fuses (s : State) (c : CoreId) : (s.abandonCopies c).fuses = s.fuses := by
  unfold State.abandonCopies
  exact State.foldl_fuses (fun _ h => by cases h.step <;> simp) _ s

@[simp] theorem execLadderRepeatFault_keepsFuses (c : CoreId) (array : Nat) (s : State) : KeepsFuses s (execLadderRepeatFault c array s) := by
  simp [execLadderRepeatFault]

@[simp] theorem State.saveWear_fuses (s : State) (c : CoreId) (p : Nat) : (s.saveWear c p).fuses = s.fuses := by
  simp [State.saveWear]

@[simp] theorem execWearWriteback_keepsFuses (c : CoreId) (array : Nat) (s : State) : KeepsFuses s (execWearWriteback c array s) := by
  simp [execWearWriteback]

@[simp] theorem State.loadWear_fuses (s : State) (c : CoreId) (ps : List Nat) : (s.loadWear c ps).fuses = s.fuses := by
  simp [State.loadWear]

@[simp] theorem State.sweepScan_fuses (s : State) (c : CoreId) (p : Nat) (e : List RowEdges) (fresh : Bool) :
    (s.sweepScan c p e fresh).fuses = s.fuses := by
  simp [State.sweepScan]

@[simp] theorem State.sweepRead_fuses (s : State) (c : CoreId) (p : Nat) (faults : List ReadFault) : (s.sweepRead c p faults).fuses = s.fuses := by
  simp [State.sweepRead]

@[simp] theorem sweepRefresh_fuses (c : CoreId) (faults : List ReadFault) (r : State × List Nat) (p : Nat) :
    (sweepRefresh c faults r p).1.fuses = r.1.fuses := by
  simp only [sweepRefresh]
  split <;> simp

theorem foldl_sweepRefresh_fuses (c : CoreId) (faults : List ReadFault) (l : List Nat) (r : State × List Nat) :
    (l.foldl (sweepRefresh c faults) r).1.fuses = r.1.fuses := by
  induction l generalizing r with
  | nil => rfl
  | cons p l ih => rw [List.foldl_cons, ih, sweepRefresh_fuses]

/-- The recursion is laid open by hand: deriving the equations of `sweepMove` would evaluate the search for a spare over all 4,224 arrays. -/
theorem sweepMove_fuses {c : CoreId} {p a : Nat} {rescans : List (Nat × List RowEdges)} (fuel : Nat) {r x : State × List Nat}
    (h : sweepMove c p a rescans fuel r = some x) : x.1.fuses = r.1.fuses := by
  delta sweepMove sweepMove._f Nat.brecOn Nat.brecOn.go at h
  induction fuel generalizing r with
  | zero => rw [Option.some.inj (show some r = some x from h)]
  | succ fuel ih =>
    dsimp only at h ih
    split at h
    · rw [Option.some.inj h]
    split at h
    · cases h
    split at h
    · simpa using ih h
    · simp [← Option.some.inj h]

theorem sweepRepair_fuses {c : CoreId} {faults : List ReadFault} {rescans : List (Nat × List RowEdges)} {r : State × List Nat} {p : Nat}
    {x : State × List Nat} (h : sweepRepair c faults rescans r p = some x) : x.1.fuses = r.1.fuses := by
  unfold sweepRepair at h
  split at h
  · split at h
    · rw [sweepMove_fuses _ h]; simp
    · cases h; rfl
  · cases h; rfl

theorem sweepRescan_fuses {c : CoreId} {rescans : List (Nat × List RowEdges)} {s t : State} {p : Nat}
    (h : sweepRescan c rescans s p = some t) : t.fuses = s.fuses := by
  unfold sweepRescan at h
  split at h
  · cases h; simp
  · cases h

@[simp] theorem State.takeBand_fuses (s : State) (c : CoreId) : (s.takeBand c).fuses = s.fuses := by
  simp [State.takeBand]

theorem State.sweepOver_fuses {s : State} {c : CoreId} {scans rescans : List (Nat × List RowEdges)} {faults : List ReadFault}
    {x : State × List Nat} (h : s.sweepOver c scans rescans faults = some x) : x.1.fuses = s.fuses := by
  simp only [State.sweepOver] at h
  split at h
  · cases h
  rename_i r hr
  split at h
  · cases h
  rename_i t ht
  cases h
  have hrescan := foldlM_fuses id (fun _ _ _ => sweepRescan_fuses) ht
  have hrepair := foldlM_fuses Prod.fst (fun _ _ _ => sweepRepair_fuses) hr
  calc (t.critEve c).fuses = t.fuses := by simp
    _ = r.1.fuses := hrescan
    _ = _ := hrepair
    _ = _ := foldl_sweepRefresh_fuses ..
    _ = s.fuses := by simp

@[simp] theorem State.bootEnd_fuses (s : State) : s.bootEnd.fuses = s.fuses := by
  simp [State.bootEnd]

theorem State.sweepWrites_fuses {s : State} {c : CoreId} {r : Sweep} {f : State × List Nat → State}
    (h : ∀ x, r = some x → (f x).fuses = s.fuses) : (s.sweepWrites c r f).fuses = s.fuses := by
  cases r with
  | none => rfl
  | some x => simp [State.sweepWrites, h x rfl]

@[simp] theorem execNewYearSweep_keepsFuses (c : CoreId) (scans : SweepRead) (rescans : List (Nat × List RowEdges)) (time100us : Nat) (s : State) :
    KeepsFuses s (execNewYearSweep c scans rescans time100us s) := by
  unfold execNewYearSweep
  split
  · simp
  · rw [keepsFuses_next, State.sweepWrites_fuses, State.takeBand_fuses]
    intro x hx
    simpa using State.sweepOver_fuses hx

@[simp] theorem execQuarterScan_keepsFuses (c : CoreId) (quarter : Fin 4) (scans : SweepRead) (rescans : List (Nat × List RowEdges)) (s : State) :
    KeepsFuses s (execQuarterScan c quarter scans rescans s) := by
  simp only [execQuarterScan]
  split
  · simp
  · rw [keepsFuses_next, State.sweepWrites_fuses]
    intro x hx
    simpa using State.sweepOver_fuses hx

/-! ### Machine/Registers -/

@[simp] theorem State.setSel_fuses (s : State) (p : Path) (k : Nat) (v : W32) : (s.setSel p k v).fuses = s.fuses := by
  simp [State.setSel]

@[simp] theorem State.latch_fuses (s : State) (p : Path) (a : Nat) : (s.latch p a).fuses = s.fuses := by
  simp [State.latch]

@[simp] theorem execLowWordRead_keepsFuses (p : Path) (addr : Nat) (s : State) : KeepsFuses s (execLowWordRead p addr s) := by
  simp [execLowWordRead]

/-! ### Machine/Housekeeping -/

@[simp] theorem State.shutdown_fuses (s : State) : s.shutdown.fuses = s.fuses := by
  simp [State.shutdown]

@[simp] theorem State.tmonBit_fuses (s : State) (i : Nat) : (s.tmonBit i).fuses = s.fuses := by
  simp [State.tmonBit]

@[simp] theorem State.takeReadings_fuses (s : State) (rs : List Reading) : (s.takeReadings rs).fuses = s.fuses := by
  simp [State.takeReadings]

@[simp] theorem State.crossChecks_fuses (s : State) (rs : List Reading) : (s.crossChecks rs).fuses = s.fuses := by
  simp [State.crossChecks]

@[simp] theorem State.showHalf_fuses (s : State) (d : DieId) (east : Bool) (n : Nat) : (s.showHalf d east n).fuses = s.fuses := by
  simp [State.showHalf]

@[simp] theorem State.setHot_fuses (s : State) (d : DieId) : (s.setHot d).fuses = s.fuses := by
  simp [State.setHot]

@[simp] theorem State.countHot_fuses (s : State) (r : Reading) : (s.countHot r).fuses = s.fuses := by
  simp [State.countHot]

@[simp] theorem State.tripOutput_fuses (s : State) : s.tripOutput.fuses = s.fuses := by
  simp [State.tripOutput]

@[simp] theorem State.latchCheck_fuses (s : State) (ds : List DieId) : (s.latchCheck ds).fuses = s.fuses := by
  simp [State.latchCheck]

@[simp] theorem execSensorSample_keepsFuses (readings : List Reading) (s : State) : KeepsFuses s (execSensorSample readings s) := by
  simp [execSensorSample]

@[simp] theorem execReadmissionRequest_keepsFuses (_p : Path) (d : DieId) (sensor : Fin 36) (s : State) :
    KeepsFuses s (execReadmissionRequest _p d sensor s) := by
  simp [execReadmissionRequest]

@[simp] theorem execSensorReadmission_keepsFuses (d : DieId) (sensor : Fin 36) (s : State) : KeepsFuses s (execSensorReadmission d sensor s) := by
  simp [execSensorReadmission]

@[simp] theorem execHskRequest_keepsFuses (_p : Path) (d : DieId) (r : HskReq) (s : State) : KeepsFuses s (execHskRequest _p d r s) := by
  simp [execHskRequest]

@[simp] theorem execHskUrgentRequest_keepsFuses (_p : Path) (d : DieId) (r : HskReq) (s : State) : KeepsFuses s (execHskUrgentRequest _p d r s) := by
  simp [execHskUrgentRequest]

@[simp] theorem execConversionDone_keepsFuses (d : DieId) (east : Bool) (sense : HskSense) (s : State) :
    KeepsFuses s (execConversionDone d east sense s) := by
  simp only [execConversionDone]
  split <;> simp

@[simp] theorem execIdleBandgapConversion_keepsFuses (d : DieId) (east : Bool) (sense : HskSense) (s : State) :
    KeepsFuses s (execIdleBandgapConversion d east sense s) := by
  simp [execIdleBandgapConversion]

@[simp] theorem execConverterRetire_keepsFuses (d : DieId) (refWest refEast : Nat) (s : State) :
    KeepsFuses s (execConverterRetire d refWest refEast s) := by
  simp [execConverterRetire]

@[simp] theorem State.calDone_fuses (s : State) (key : Nat) : (s.calDone key).fuses = s.fuses := by
  simp [State.calDone]

@[simp] theorem State.stageTrim_fuses (s : State) (key : Nat) (v : Int) : (s.stageTrim key v).fuses = s.fuses := by
  simp [State.stageTrim]

@[simp] theorem State.refCheck_fuses (s : State) : s.refCheck.fuses = s.fuses := by
  simp [State.refCheck]

@[simp] theorem execReferenceConversion_keepsFuses (d : DieId) (east : Bool) (refCode gndCode bandgap : Nat) (s : State) :
    KeepsFuses s (execReferenceConversion d east refCode gndCode bandgap s) := by
  simp [execReferenceConversion]

@[simp] theorem execCalibration_keepsFuses (d : DieId) (block core index : Nat) (trim : Int) (s : State) :
    KeepsFuses s (execCalibration d block core index trim s) := by
  simp [execCalibration]

@[simp] theorem execLightCheck_keepsFuses (c : CoreId) (array : Nat) (errorMilli : Nat) (s : State) :
    KeepsFuses s (execLightCheck c array errorMilli s) := by
  simp [execLightCheck]

@[simp] theorem State.applyTrims_fuses (s : State) : s.applyTrims.fuses = s.fuses := by
  simp [State.applyTrims]

/-! ### Machine/RegWrite -/

@[simp] theorem State.bufferWrite_fuses (s : State) (p : Path) (a : Nat) (v : W32) : (s.bufferWrite p a v).fuses = s.fuses := by
  simp only [State.bufferWrite]
  split <;> simp

@[simp] theorem State.strobeGroups_fuses (s : State) (d : DieId) (groups drops : BitVec 16) : (s.strobeGroups d groups drops).fuses = s.fuses := by
  simp [State.strobeGroups]

@[simp] theorem State.dropGroups_fuses (s : State) (d : DieId) (groups : BitVec 16) : (s.dropGroups d groups).fuses = s.fuses := by
  simp [State.dropGroups]

@[simp] theorem State.setHold_fuses (s : State) (b : Bool) : (s.setHold b).fuses = s.fuses := by
  simp [State.setHold]

@[simp] theorem State.armChange_fuses (s : State) : s.armChange.fuses = s.fuses := by
  simp [State.armChange]

@[simp] theorem State.discardChange_fuses (s : State) : s.discardChange.fuses = s.fuses := by
  simp [State.discardChange]

@[simp] theorem State.writeChgCtrl_fuses (s : State) (v : W32) : (s.writeChgCtrl v).fuses = s.fuses := by
  simp [State.writeChgCtrl]

@[simp] theorem State.askLeap_fuses (s : State) (src : Nat) : (s.askLeap src).fuses = s.fuses := by
  simp [State.askLeap]

@[simp] theorem State.doorbell_fuses (s : State) (v : W32) : (s.doorbell v).fuses = s.fuses := by
  have taken (o : Out) (h : KeepsFuses s o) : (match o with | .next t => t | _ => s).fuses = s.fuses := by
    cases o with
    | next t => exact h
    | fault r => rfl
    | refused r => rfl
  unfold State.doorbell
  refine taken _ ?_
  split <;> simp

@[simp] theorem State.pkgNow_fuses (s : State) (p : Path) (off : Nat) (v : W32) : (s.pkgNow p off v).fuses = s.fuses := by
  unfold State.pkgNow
  split <;> simp

@[simp] theorem State.dieNow_fuses (s : State) (d : DieId) (off : Nat) (v : W32) : (s.dieNow d off v).fuses = s.fuses := by
  unfold State.dieNow
  split <;> simp

@[simp] theorem State.coreNow_fuses (s : State) (c : CoreId) (off : Nat) (v : W32) : (s.coreNow c off v).fuses = s.fuses := by
  simp [State.coreNow]

theorem State.regWrite_fuses {s t : State} {p : Path} {a : Nat} {v : W32} (h : s.regWrite p a v = some t) : t.fuses = s.fuses := by
  unfold State.regWrite at h
  split at h
  · cases h
  dsimp only at h
  split at h <;> cases h <;> simp

@[simp] theorem execRegisterWrite_keepsFuses (p : Path) (addr : Nat) (v : W32) (s : State) : KeepsFuses s (execRegisterWrite p addr v s) := by
  unfold execRegisterWrite
  cases hw : s.regWrite p addr v with
  | none => simp
  | some t => simp [State.regWrite_fuses hw]

@[simp] theorem execLeapReq_keepsFuses (_p : Path) (s : State) : KeepsFuses s (execLeapReq _p s) := by
  simp [execLeapReq]

@[simp] theorem execHold_keepsFuses (_p : Path) (on : Bool) (s : State) : KeepsFuses s (execHold _p on s) := by
  simp [execHold]

@[simp] theorem execArm_keepsFuses (_p : Path) (s : State) : KeepsFuses s (execArm _p s) := by
  simp [execArm]

@[simp] theorem execDiscard_keepsFuses (_p : Path) (s : State) : KeepsFuses s (execDiscard _p s) := by
  simp [execDiscard]

@[simp] theorem execStrobe_keepsFuses (_p : Path) (d : DieId) (groups : BitVec 16) (s : State) : KeepsFuses s (execStrobe _p d groups s) := by
  simp [execStrobe]

@[simp] theorem execDrop_keepsFuses (_p : Path) (d : DieId) (groups : BitVec 16) (s : State) : KeepsFuses s (execDrop _p d groups s) := by
  simp [execDrop]

@[simp] theorem State.atCore_fuses (s : State) (c : CoreId) (f : Core → Core) : (s.atCore c f).fuses = s.fuses := by
  simp [State.atCore]

@[simp] theorem execCheckLock_keepsFuses (_p : Path) (c : CoreId) (s : State) : KeepsFuses s (execCheckLock _p c s) := by
  simp [execCheckLock]

@[simp] theorem execLadderExhaustedClear_keepsFuses (_p : Path) (c : CoreId) (s : State) : KeepsFuses s (execLadderExhaustedClear _p c s) := by
  simp [execLadderExhaustedClear]

@[simp] theorem execExceptionRecordClear_keepsFuses (_p : Path) (c : CoreId) (s : State) : KeepsFuses s (execExceptionRecordClear _p c s) := by
  simp [execExceptionRecordClear]

@[simp] theorem execConfigFaultClear_keepsFuses (_p : Path) (d : DieId) (s : State) : KeepsFuses s (execConfigFaultClear _p d s) := by
  simp [execConfigFaultClear]

@[simp] theorem execFsCountClear_keepsFuses (_p : Path) (c : CoreId) (s : State) : KeepsFuses s (execFsCountClear _p c s) := by
  simp [execFsCountClear]

@[simp] theorem execClampsClear_keepsFuses (_p : Path) (c : CoreId) (s : State) : KeepsFuses s (execClampsClear _p c s) := by
  simp [execClampsClear]

@[simp] theorem execQeventClear_keepsFuses (_p : Path) (c : CoreId) (s : State) : KeepsFuses s (execQeventClear _p c s) := by
  simp [execQeventClear]

@[simp] theorem execLossesClear_keepsFuses (_p : Path) (s : State) : KeepsFuses s (execLossesClear _p s) := by
  simp [execLossesClear]

@[simp] theorem execCorrectedClear_keepsFuses (_p : Path) (d : DieId) (s : State) : KeepsFuses s (execCorrectedClear _p d s) := by
  simp [execCorrectedClear]

@[simp] theorem execRetriesClear_keepsFuses (_p : Path) (d : DieId) (s : State) : KeepsFuses s (execRetriesClear _p d s) := by
  simp [execRetriesClear]

@[simp] theorem execDraftsClear_keepsFuses (_p : Path) (sv : ServeId) (s : State) : KeepsFuses s (execDraftsClear _p sv s) := by
  simp [execDraftsClear]

@[simp] theorem execRailReading_keepsFuses (baseWatts : Nat) (s : State) : KeepsFuses s (execRailReading baseWatts s) := by
  simp [execRailReading]

@[simp] theorem State.enterHoldover_fuses (s : State) : s.enterHoldover.fuses = s.fuses := by
  simp [State.enterHoldover]

@[simp] theorem State.safeState_fuses (s : State) (p : Path) (a : Place) : (s.safeState p a).fuses = s.fuses := by
  unfold State.safeState
  split <;> simp

@[simp] theorem execConfigParityCheck_keepsFuses (p : Path) (addr : Nat) (s : State) : KeepsFuses s (execConfigParityCheck p addr s) := by
  unfold execConfigParityCheck
  dsimp only
  split <;> simp

@[simp] theorem State.respond_fuses (s : State) (m : MgmtMsg) (status index : Nat) (words : List W32) :
    (s.respond m status index words).fuses = s.fuses := by
  simp [State.respond]

@[simp] theorem State.resend_fuses (s : State) (k : Kept) : (s.resend k).fuses = s.fuses := by
  simp [State.resend]

@[simp] theorem readWords_fuses (s : State) (a n : Nat) : (readWords s a n).1.fuses = s.fuses := by
  induction n generalizing s a with
  | zero => rfl
  | succ n ih =>
    unfold readWords
    split <;> simp [ih]

@[simp] theorem writeWords_fuses (s : State) (a : Nat) (l : List W32) : (writeWords s a l).1.fuses = s.fuses := by
  induction l generalizing s a with
  | nil => rfl
  | cons v l ih =>
    unfold writeWords
    cases hw : s.regWrite .mgmt a v with
    | none => rfl
    | some t => simp [ih, State.regWrite_fuses hw]

@[simp] theorem execMgmtRead_keepsFuses (m : MgmtMsg) (s : State) : KeepsFuses s (execMgmtRead m s) := by
  unfold execMgmtRead
  cases s.keptFor m <;> simp

@[simp] theorem execMgmtWrite_keepsFuses (m : MgmtMsg) (words : List W32) (s : State) : KeepsFuses s (execMgmtWrite m words s) := by
  unfold execMgmtWrite
  cases s.keptFor m <;> simp

/-! ### Machine/Change -/

@[simp] theorem State.clearBlock_fuses (s : State) (c : CoreId) : (s.clearBlock c).fuses = s.fuses := by
  simp [State.clearBlock]

@[simp] theorem State.halfOff_fuses (s : State) (d : DieId) (east : Bool) : (s.halfOff d east).fuses = s.fuses := by
  simp [State.halfOff]

@[simp] theorem State.applyDomains_fuses (s : State) (d : DieId) (v : W32) : (s.applyDomains d v).fuses = s.fuses := by
  simp [State.applyDomains]

@[simp] theorem State.useReady_fuses (s : State) : s.useReady.fuses = s.fuses := by
  simp [State.useReady]

@[simp] theorem execDomainReady_keepsFuses (d : DieId) (bit : Fin 26) (s : State) : KeepsFuses s (execDomainReady d bit s) := by
  simp [execDomainReady]

@[simp] theorem State.applyPkg_fuses (s : State) (off entry : Nat) (v : W32) : (s.applyPkg off entry v).fuses = s.fuses := by
  unfold State.applyPkg
  split <;> simp

@[simp] theorem State.applyWrite_fuses (s : State) (w : BufWrite) : (s.applyWrite w).fuses = s.fuses := by
  unfold State.applyWrite
  split <;> simp

@[simp] theorem State.domainEve_fuses (s : State) (ws : List BufWrite) : (s.domainEve ws).fuses = s.fuses := by
  unfold State.domainEve
  rw [State.useReady_fuses]
  exact State.foldl_fuses (fun _ w => by cases w.domains <;> simp) _ s

theorem State.refusedBy_fuses {s t : State} {ws together : List BufWrite} (h : s.refusedBy ws together = some t) : t.fuses = s.fuses := by
  simp only [State.refusedBy, Option.ite_none_left_eq_some, Option.some.injEq] at h
  obtain ⟨-, rfl⟩ := h
  simp

@[simp] theorem execChangeReport_keepsFuses (s : State) : KeepsFuses s (execChangeReport s) := by
  simp [execChangeReport]

@[simp] theorem State.refuseChanges_fuses (s : State) : s.refuseChanges.fuses = s.fuses := by
  unfold State.refuseChanges
  extract_lets now u
  have hu : u.fuses = s.fuses := by
    unfold u
    split
    · rfl
    split
    next t h =>
      have ht := State.refusedBy_fuses h
      exact ht
    next => rfl
  clear_value u
  split
  · exact hu
  dsimp only
  split
  next t h =>
    have ht := State.refusedBy_fuses h
    exact ht.trans hu
  next => exact hu

@[simp] theorem State.applyPending_fuses (s : State) : s.applyPending.1.fuses = s.fuses := by
  simp [State.applyPending]

@[simp] theorem State.applyArmed_fuses (s : State) : s.applyArmed.1.fuses = s.fuses := by
  unfold State.applyArmed
  dsimp only
  split <;> simp

@[simp] theorem State.joinLate_fuses (s : State) : s.joinLate.fuses = s.fuses := by
  simp [State.joinLate]

@[simp] theorem execChangeRollback_keepsFuses (s : State) : KeepsFuses s (execChangeRollback s) := by
  simp [execChangeRollback]

/-! ### Machine/Load -/

@[simp] theorem State.loadBit_fuses (s : State) (i : Nat) : (s.loadBit i).fuses = s.fuses := by
  simp [State.loadBit]

@[simp] theorem State.tellPeers_fuses (s : State) (msg : LoadMsg) : (s.tellPeers msg).fuses = s.fuses := by
  simp [State.tellPeers]

@[simp] theorem State.tellReader_fuses (s : State) (msg : LoadMsg) : (s.tellReader msg).fuses = s.fuses := by
  simp [State.tellReader]

@[simp] theorem State.answerAll_fuses (s : State) (st : Nat) : (s.answerAll st).fuses = s.fuses := by
  simp only [State.answerAll]
  split <;> split <;> simp

@[simp] theorem State.endLoad_fuses (s : State) (st : Nat) : (s.endLoad st).fuses = s.fuses := by
  simp [State.endLoad]

@[simp] theorem State.endQueued_fuses (s : State) (g : W32) : (s.endQueued g).fuses = s.fuses := by
  simp [State.endQueued]

@[simp] theorem State.peerEnded_fuses (s : State) : s.peerEnded.fuses = s.fuses := by
  simp [State.peerEnded]

@[simp] theorem execLoadAbandon_keepsFuses (s : State) : KeepsFuses s (execLoadAbandon s) := by
  simp [execLoadAbandon]

@[simp] theorem State.startLoad_fuses (s : State) (reader : Bool) (readerMember : Nat) (m : Bytes) (drain : Nat) (escrowPos : Nat) :
    (s.startLoad reader readerMember m drain escrowPos).fuses = s.fuses := by
  simp [State.startLoad]

@[simp] theorem execImgBegin_keepsFuses (h : HostCmd) (descAddr : W64) (metaLen drainTicks : W32) (escrowPos : BitVec 16) (s : State) :
    KeepsFuses s (execImgBegin h descAddr metaLen drainTicks escrowPos s) := by
  simp [execImgBegin]

@[simp] theorem State.takeAnswers_fuses (s : State) : s.takeAnswers.fuses = s.fuses := by
  unfold State.takeAnswers
  split
  · rfl
  dsimp only
  split
  · split <;> simp
  · rfl

@[simp] theorem State.takeMetadata_fuses (s : State) (reader : Nat) (image : Bytes) (drain : Nat) :
    (s.takeMetadata reader image drain).fuses = s.fuses := by
  simp [State.takeMetadata]

@[simp] theorem execMetadataCheck_keepsFuses (member peerStatus : Nat) (image : Bytes) (drainTicks : W32) (s : State) :
    KeepsFuses s (execMetadataCheck member peerStatus image drainTicks s) := by
  simp [execMetadataCheck]

@[simp] theorem execMemberAnswerTimeout_keepsFuses (member : Nat) (s : State) : KeepsFuses s (execMemberAnswerTimeout member s) := by
  simp [execMemberAnswerTimeout]

@[simp] theorem State.takeEnd_fuses (s : State) : s.takeEnd.fuses = s.fuses := by
  unfold State.takeEnd
  split <;> simp

@[simp] theorem State.sendSection_fuses (s : State) (f : Feed) : (s.sendSection f).fuses = s.fuses := by
  unfold State.sendSection
  split <;> simp

@[simp] theorem State.sectionFails_fuses (s : State) (f : Feed) : (s.sectionFails f).fuses = s.fuses := by
  simp [State.sectionFails]

@[simp] theorem State.sectionAcked_fuses (s : State) (f : Feed) (e : SecEnt) (holder : Nat) : (s.sectionAcked f e holder).fuses = s.fuses := by
  simp [State.sectionAcked]

@[simp] theorem execImgFeed_keepsFuses (h : HostCmd) (index : W32) (addr : W64) (s : State) : KeepsFuses s (execImgFeed h index addr s) := by
  unfold execImgFeed
  split
  · simp
  split
  · simp
  split <;> simp

theorem State.stageSection_fuses {s t : State} {i : Nat} {e : SecEnt} {content : Bytes} (h : s.stageSection i e content = some t) :
    t.fuses = s.fuses := by
  unfold State.stageSection at h
  split at h
  · cases h
  split at h <;> cases h <;> rfl

@[simp] theorem State.holdSection_fuses (s : State) (i : Nat) (e : SecEnt) (content : Bytes) : (s.holdSection i e content).fuses = s.fuses := by
  unfold State.holdSection
  cases hs : s.stageSection i e content with
  | none => simp
  | some t => simp [State.stageSection_fuses hs]

@[simp] theorem execSectionArrival_keepsFuses (index holder : Nat) (content : Bytes) (peerAck : Bool) (s : State) :
    KeepsFuses s (execSectionArrival index holder content peerAck s) := by
  unfold execSectionArrival
  split
  · simp
  rename_i e _
  dsimp only
  cases hs : s.stageSection index e content with
  | none => cases s.load.feeds.find? _ <;> simp
  | some t => cases s.load.feeds.find? _ <;> simp [State.stageSection_fuses hs]

@[simp] theorem execSectionTimeout_keepsFuses (index holder : Nat) (s : State) : KeepsFuses s (execSectionTimeout index holder s) := by
  unfold execSectionTimeout
  split <;> simp

@[simp] theorem execImgEnd_keepsFuses (h : HostCmd) (s : State) : KeepsFuses s (execImgEnd h s) := by
  simp [execImgEnd]

@[simp] theorem execImgAbort_keepsFuses (h : HostCmd) (s : State) : KeepsFuses s (execImgAbort h s) := by
  simp [execImgAbort]

@[simp] theorem execEscFeed_keepsFuses (h : HostCmd) (index : W32) (addr : W64) (s : State) : KeepsFuses s (execEscFeed h index addr s) := by
  unfold execEscFeed
  cases (sectionsOf s.load.oldMeta)[index.toNat]? <;> simp

@[simp] theorem execDramScrub_keepsFuses (sv : ServeId) (addr : Nat) (uncorrectable : Bool) (s : State) :
    KeepsFuses s (execDramScrub sv addr uncorrectable s) := by
  unfold execDramScrub
  split
  · simp
  split
  · simp
  split <;> simp

@[simp] theorem State.compareArray_fuses (s : State) (c : CoreId) (faults : List ReadFault) (a : Nat) :
    (s.compareArray c faults a).1.fuses = s.fuses := by
  simp [State.compareArray]

@[simp] theorem execBankCompare_keepsFuses (c : CoreId) (b : BankRead) (s : State) : KeepsFuses s (execBankCompare c b s) := by
  simp only [execBankCompare]
  split
  · simp
  split
  · simp
  · rw [keepsFuses_next]
    dsimp only
    rw [foldl_fst_fuses]
    · simp
    · simp

@[simp] theorem State.writeArray_fuses (s : State) (c : CoreId) (p a : Nat) (e : SecEnt) (content : Bytes) :
    (s.writeArray c p a e content).fuses = s.fuses := by
  simp [State.writeArray]

@[simp] theorem State.writeBank_fuses (s : State) (c : CoreId) (b : Nat) (e : SecEnt) (content : Bytes) :
    (s.writeBank c b e content).fuses = s.fuses := by
  simp [State.writeBank]

@[simp] theorem State.writeBanks_fuses (s : State) : s.writeBanks.fuses = s.fuses := by
  simp [State.writeBanks]

@[simp] theorem execRowWrite_keepsFuses (c : CoreId) (array row : Nat) (content : List Bool) (failing : List Nat) (s : State) :
    KeepsFuses s (execRowWrite c array row content failing s) := by
  simp [execRowWrite]

@[simp] theorem execDraining_keepsFuses (s : State) : KeepsFuses s (execDraining s) := by
  simp [execDraining]

@[simp] theorem execMigrate_keepsFuses (s : State) : KeepsFuses s (execMigrate s) := by
  simp [execMigrate]

@[simp] theorem execWriting_keepsFuses (s : State) : KeepsFuses s (execWriting s) := by
  simp [execWriting]

@[simp] theorem State.replaceBad_fuses (s : State) : s.replaceBad.fuses = s.fuses := by
  refine State.foldl_fuses (fun s x => ?_) _ s
  dsimp only
  split
  · simp
  split <;> simp

@[simp] theorem execMemberWritten_keepsFuses (s : State) : KeepsFuses s (execMemberWritten s) := by
  simp [execMemberWritten]

@[simp] theorem State.keepEscrow_fuses (s : State) : s.keepEscrow.fuses = s.fuses := by
  simp [State.keepEscrow]

@[simp] theorem execCommitted_keepsFuses (s : State) : KeepsFuses s (execCommitted s) := by
  unfold execCommitted
  split
  · simp
  split
  · simp
  split
  · simp
  split <;> simp

/-! ### Machine/Power -/

@[simp] theorem State.emergUpdate_fuses (s : State) : s.emergUpdate.fuses = s.fuses := by
  simp [State.emergUpdate]

@[simp] theorem State.powBit_fuses (s : State) (i : Nat) : (s.powBit i).fuses = s.fuses := by
  simp [State.powBit]

@[simp] theorem execPmbusWarn_keepsFuses (on : Bool) (s : State) : KeepsFuses s (execPmbusWarn on s) := by
  simp [execPmbusWarn]

@[simp] theorem execPmbusFault_keepsFuses (s : State) : KeepsFuses s (execPmbusFault s) := by
  simp [execPmbusFault]

@[simp] theorem execRailShutdown_keepsFuses (_r : Rail) (s : State) : KeepsFuses s (execRailShutdown _r s) := by
  simp [execRailShutdown]

@[simp] theorem execCeilingTrip_keepsFuses (s : State) : KeepsFuses s (execCeilingTrip s) := by
  simp [execCeilingTrip]

@[simp] theorem execLimitHoldEmergency_keepsFuses (s : State) : KeepsFuses s (execLimitHoldEmergency s) := by
  simp [execLimitHoldEmergency]

@[simp] theorem State.endTest_fuses (s : State) (h : HostCmd) (st detail : Nat) : (s.endTest h st detail).fuses = s.fuses := by
  simp [State.endTest]

@[simp] theorem State.queueTest_fuses (s : State) (t : SelfTest) : (s.queueTest t).fuses = s.fuses := by
  unfold State.queueTest
  split <;> simp

@[simp] theorem State.cancelTests_fuses (s : State) (h : HostCmd) (u : W32) : (s.cancelTests h u).fuses = s.fuses := by
  unfold State.cancelTests
  split <;> simp

@[simp] theorem execSelftest_keepsFuses (h : HostCmd) (unit : W32) (kind : BitVec 16) (s : State) : KeepsFuses s (execSelftest h unit kind s) := by
  simp [execSelftest]

@[simp] theorem execSelftestCancel_keepsFuses (h : HostCmd) (unit : W32) (s : State) : KeepsFuses s (execSelftestCancel h unit s) := by
  simp [execSelftestCancel]

@[simp] theorem execSelftestRun_keepsFuses (passed : Bool) (detail : BitVec 16) (s : State) : KeepsFuses s (execSelftestRun passed detail s) := by
  simp only [execSelftestRun]
  split
  · simp
  split <;> simp

/-! ### Machine/Fabric -/

@[simp] theorem State.grpBit_fuses (s : State) (i : Nat) : (s.grpBit i).fuses = s.fuses := by
  simp [State.grpBit]

@[simp] theorem State.setLink_fuses (s : State) (k v : Nat) : (s.setLink k v).fuses = s.fuses := by
  simp [State.setLink]

@[simp] theorem execFabricLinkTraining_keepsFuses (k : Fin 32) (r : LaneResult) (peer : Option Peer) (s : State) :
    KeepsFuses s (execFabricLinkTraining k r peer s) := by
  unfold execFabricLinkTraining
  split
  · simp
  split <;> simp

@[simp] theorem State.linkLoss_fuses (s : State) (k v : Nat) : (s.linkLoss k v).fuses = s.fuses := by
  simp [State.linkLoss]

@[simp] theorem execFabricLaneFail_keepsFuses (k : Fin 32) (fourLeft : Bool) (s : State) : KeepsFuses s (execFabricLaneFail k fourLeft s) := by
  simp [execFabricLaneFail]

@[simp] theorem execEyeSafetyDisable_keepsFuses (o : Fin 4) (port : Nat) (s : State) : KeepsFuses s (execEyeSafetyDisable o port s) := by
  simp [execEyeSafetyDisable]

@[simp] theorem execOpticalDieFail_keepsFuses (o : Fin 4) (s : State) : KeepsFuses s (execOpticalDieFail o s) := by
  simp [execOpticalDieFail]

@[simp] theorem State.takeFlits_fuses (s : State) (f : Frame) : (s.takeFlits f).fuses = s.fuses := by
  simp [State.takeFlits]

@[simp] theorem execDataFrame_keepsFuses (i : FrameIn) (s : State) : KeepsFuses s (execDataFrame i s) := by
  simp only [execDataFrame]
  split
  · simp
  · exact checkWords_fuses _ _ _ fun s => by simp

@[simp] theorem State.takeTransit_fuses (s : State) (g : Frame) (arrival : Fin 32) : (s.takeTransit g arrival).fuses = s.fuses := by
  simp [State.takeTransit]

@[simp] theorem execTransitFrame_keepsFuses (i : FrameIn) (s : State) : KeepsFuses s (execTransitFrame i s) := by
  simp only [execTransitFrame]
  split
  · simp
  · exact checkWords_fuses _ _ _ fun s => by simp

@[simp] theorem execStampFrame_keepsFuses (tag : W32) (p : Stamp) (s : State) : KeepsFuses s (execStampFrame tag p s) := by
  simp [execStampFrame]

@[simp] theorem execTimeMessage_keepsFuses (bytes : Bytes) (s : State) : KeepsFuses s (execTimeMessage bytes s) := by
  unfold execTimeMessage
  split
  · simp
  split <;> simp

@[simp] theorem execTimingLock_keepsFuses (within50ns : Bool) (s : State) : KeepsFuses s (execTimingLock within50ns s) := by
  simp [execTimingLock]

@[simp] theorem execHoldover_keepsFuses (s : State) : KeepsFuses s (execHoldover s) := by
  simp [execHoldover]

/-! ### Machine/Patch -/

@[simp] theorem State.patchStores_fuses (s : State) (a : Almanac) (ws : List (Nat × Nat × Bytes)) : (s.patchStores a ws).fuses = s.fuses := by
  simp [State.patchStores]

@[simp] theorem execAlmPatch_keepsFuses (h : HostCmd) (addr : W64) (len : W32) (target : W48) (s : State) :
    KeepsFuses s (execAlmPatch h addr len target s) := by
  unfold execAlmPatch
  split
  · simp
  split
  · simp
  split
  · simp
  split <;> simp

@[simp] theorem State.applyPatch_fuses (s : State) (p : Patch) : (s.applyPatch p).fuses = s.fuses := by
  unfold State.applyPatch
  split <;> simp

@[simp] theorem State.patchStep_fuses (s : State) (ms : List Nat) : (s.patchStep ms).fuses = s.fuses := by
  unfold State.patchStep
  split <;> simp

@[simp] theorem execStructuralPatchApply_keepsFuses (s : State) : KeepsFuses s (execStructuralPatchApply s) := by
  unfold execStructuralPatchApply
  split <;> simp

@[simp] theorem execPatchRollback_keepsFuses (s : State) : KeepsFuses s (execPatchRollback s) := by
  unfold execPatchRollback
  split
  · simp
  split <;> simp

/-! ### Machine/Group -/

@[simp] theorem State.slew_fuses (s : State) (t : W48) : (s.slew t).fuses = s.fuses := by
  unfold State.slew
  split <;> simp

@[simp] theorem State.callConvening_fuses (s : State) : s.callConvening.fuses = s.fuses := by
  unfold State.callConvening
  split <;> simp

@[simp] theorem State.sendConvene_fuses (s : State) : s.sendConvene.fuses = s.fuses := by
  simp [State.sendConvene]

@[simp] theorem execConveneFrame_keepsFuses (f : Convene) (s : State) : KeepsFuses s (execConveneFrame f s) := by
  simp [execConveneFrame]

@[simp] theorem State.replaceMembers_fuses (s : State) (r : GroupRecord) (ms : List Nat) : (s.replaceMembers r ms).1.fuses = s.fuses := by
  unfold State.replaceMembers
  refine foldl_fst_fuses (fun x m => ?_) ms (s, r)
  split <;> simp

@[simp] theorem State.makeRuling_fuses (s : State) (keep : List Nat) (at_ : W48) : (s.makeRuling keep at_).1.fuses = s.fuses := by
  simp [State.makeRuling]

@[simp] theorem execConveningRuling_keepsFuses (s : State) : KeepsFuses s (execConveningRuling s) := by
  simp [execConveningRuling]

@[simp] theorem execRuling_keepsFuses (f : Ruling) (s : State) : KeepsFuses s (execRuling f s) := by
  simp [execRuling]

@[simp] theorem State.sendRuling_fuses (s : State) : s.sendRuling.fuses = s.fuses := by
  unfold State.sendRuling
  split <;> simp

@[simp] theorem execConveningRoundEnd_keepsFuses (s : State) : KeepsFuses s (execConveningRoundEnd s) := by
  simp [execConveningRoundEnd]

@[simp] theorem State.dropQueue_fuses (s : State) : s.dropQueue.fuses = s.fuses := by
  unfold State.dropQueue
  exact State.foldl_fuses (fun _ _ => State.setRing_fuses ..) _ s

@[simp] theorem State.dropModel_fuses (s : State) : s.dropModel.fuses = s.fuses := by
  simp [State.dropModel]

@[simp] theorem State.fence_fuses (s : State) : s.fence.fuses = s.fuses := by
  simp [State.fence]

@[simp] theorem execGroupSplit_keepsFuses (s : State) : KeepsFuses s (execGroupSplit s) := by
  simp [execGroupSplit]

@[simp] theorem State.revertRequests_fuses (s : State) (t : W48) : (s.revertRequests t).fuses = s.fuses := by
  simp [State.revertRequests]

@[simp] theorem State.dropStaged_fuses (s : State) : s.dropStaged.fuses = s.fuses := by
  simp [State.dropStaged]

@[simp] theorem State.sendJoins_fuses (s : State) (l : List (Nat × BitVec 16)) : (s.sendJoins l).fuses = s.fuses := by
  simp [State.sendJoins]

@[simp] theorem State.leadFailover_fuses (s : State) (f : Ruling) (old : GroupRecord) (fs : List Nat) :
    (s.leadFailover f old fs).fuses = s.fuses := by
  simp [State.leadFailover]

@[simp] theorem State.rejoinFenced_fuses (s : State) : s.rejoinFenced.fuses = s.fuses := by
  simp [State.rejoinFenced]

@[simp] theorem State.sendRestores_fuses (s : State) (old : GroupRecord) (l : List (Nat × BitVec 16)) : (s.sendRestores old l).fuses = s.fuses := by
  simp [State.sendRestores]

@[simp] theorem State.requestEscrow_fuses (s : State) : s.requestEscrow.fuses = s.fuses := by
  simp [State.requestEscrow]

@[simp] theorem execRulingApply_keepsFuses (s : State) : KeepsFuses s (execRulingApply s) := by
  unfold execRulingApply
  split <;> simp

@[simp] theorem State.takeJoin_fuses (s : State) : s.takeJoin.fuses = s.fuses := by
  unfold State.takeJoin
  split <;> simp

@[simp] theorem execJoin_keepsFuses (f : Join) (s : State) : KeepsFuses s (execJoin f s) := by
  simp [execJoin]

@[simp] theorem execJoinTimeout_keepsFuses (s : State) : KeepsFuses s (execJoinTimeout s) := by
  simp [execJoinTimeout]

@[simp] theorem execEscrowBankArrival_keepsFuses (index : Nat) (content : Bytes) (s : State) :
    KeepsFuses s (execEscrowBankArrival index content s) := by
  unfold execEscrowBankArrival
  split
  · simp
  split
  · simp
  dsimp only
  split <;> simp

@[simp] theorem State.orderRebuilds_fuses (s : State) : s.orderRebuilds.fuses = s.fuses := by
  simp [State.orderRebuilds]

@[simp] theorem State.enterService_fuses (s : State) : s.enterService.fuses = s.fuses := by
  unfold State.enterService
  split
  · simp
  split <;> simp

@[simp] theorem State.moveRequest_fuses (s : State) (i : Nat) (r : Req) : (s.moveRequest i r).fuses = s.fuses := by
  unfold State.moveRequest
  split
  · rfl
  rw [State.post_fuses]
  split
  · simp
  split <;> simp

@[simp] theorem State.takeRequests_fuses (s : State) : s.takeRequests.fuses = s.fuses := by
  simp [State.takeRequests]

@[simp] theorem execFailoverHoldEnd_keepsFuses (s : State) : KeepsFuses s (execFailoverHoldEnd s) := by
  simp [execFailoverHoldEnd]

@[simp] theorem execEscrowRefill_keepsFuses (s : State) : KeepsFuses s (execEscrowRefill s) := by
  simp [execEscrowRefill]

@[simp] theorem State.sendLeave_fuses (s : State) : s.sendLeave.fuses = s.fuses := by
  simp [State.sendLeave]

@[simp] theorem execLeave_keepsFuses (groupId : BitVec 16) (member : Nat) (s : State) : KeepsFuses s (execLeave groupId member s) := by
  simp [execLeave]

@[simp] theorem execPresenceBreak_keepsFuses (s : State) : KeepsFuses s (execPresenceBreak s) := by
  simp [execPresenceBreak]

@[simp] theorem execGroupLeave_keepsFuses (h : HostCmd) (s : State) : KeepsFuses s (execGroupLeave h s) := by
  simp [execGroupLeave]

@[simp] theorem execGroupForm_keepsFuses (h : HostCmd) (recordAddr : W64) (s : State) : KeepsFuses s (execGroupForm h recordAddr s) := by
  simp [execGroupForm]

/-! ### Machine/Firmware -/

@[simp] theorem State.packageReset_fuses (s : State) : s.packageReset.fuses = s.fuses := by
  simp [State.packageReset]

@[simp] theorem execPowerOnReset_keepsFuses (s : State) : KeepsFuses s (execPowerOnReset s) := by
  simp [execPowerOnReset]

@[simp] theorem execOrderlyPowerDown_keepsFuses (s : State) : KeepsFuses s (execOrderlyPowerDown s) := by
  simp [execOrderlyPowerDown]

@[simp] theorem execUnplannedPowerLoss_keepsFuses (s : State) : KeepsFuses s (execUnplannedPowerLoss s) := by
  simp [execUnplannedPowerLoss]

@[simp] theorem State.stageBundle_fuses (s : State) (h : HostCmd) (raw : Bytes) : (s.stageBundle h raw).fuses = s.fuses := by
  simp [State.stageBundle]

@[simp] theorem State.bootBundle_fuses (s : State) (b : Bundle) (fallback : Bool) : (s.bootBundle b fallback).fuses = s.fuses := by
  simp [State.bootBundle]

@[simp] theorem State.bootLastGood_fuses (s : State) : s.bootLastGood.fuses = s.fuses := by
  unfold State.bootLastGood
  split <;> simp

@[simp] theorem State.bootPower_fuses (s : State) : s.bootPower.fuses = s.fuses := by
  simp [State.bootPower]

@[simp] theorem State.sendMgmt_fuses (s : State) (m : MgmtOut) : (s.sendMgmt m).fuses = s.fuses := by
  simp [State.sendMgmt]

@[simp] theorem State.trainAtReset_fuses (s : State) : s.trainAtReset.fuses = s.fuses := by
  simp [State.trainAtReset]

@[simp] theorem State.setFetch_fuses (s : State) (f : Fetch) : (s.setFetch f).fuses = s.fuses := by
  simp [State.setFetch]

@[simp] theorem execSolicit_keepsFuses (s : State) : KeepsFuses s (execSolicit s) := by
  unfold execSolicit
  split <;> simp

@[simp] theorem State.issueReads_fuses (s : State) (f : Fetch) : (s.issueReads f).fuses = s.fuses := by
  simp only [State.issueReads, State.setFetch_fuses]
  rw [foldl_fst_fuses]
  simp

@[simp] theorem State.fetched_fuses (s : State) (f : Fetch) : (s.fetched f).fuses = s.fuses := by
  unfold State.fetched
  dsimp only
  split
  · split <;> simp
  · simp

@[simp] theorem execOffer_keepsFuses (object : Byte) (length : W32) (s : State) : KeepsFuses s (execOffer object length s) := by
  unfold execOffer
  split <;> simp

@[simp] theorem execData_keepsFuses (offset : W32) (bytes : Bytes) (s : State) : KeepsFuses s (execData offset bytes s) := by
  unfold execData
  split
  · simp
  split <;> simp

@[simp] theorem execReadRetry_keepsFuses (offset : W32) (s : State) : KeepsFuses s (execReadRetry offset s) := by
  unfold execReadRetry
  split
  · simp
  split <;> simp

@[simp] theorem execFetchTimeout_keepsFuses (s : State) : KeepsFuses s (execFetchTimeout s) := by
  unfold execFetchTimeout
  split <;> simp

@[simp] theorem execFwStage_keepsFuses (h : HostCmd) (src : Byte) (addr : W64) (len : W32) (s : State) :
    KeepsFuses s (execFwStage h src addr len s) := by
  simp [execFwStage]

@[simp] theorem State.actRefused_fuses (s : State) : s.actRefused.fuses = s.fuses := by
  simp [State.actRefused]

@[simp] theorem execFwActivate_keepsFuses (h : HostCmd) (target : W48) (auto : Byte) (s : State) : KeepsFuses s (execFwActivate h target auto s) := by
  simp [execFwActivate]

@[simp] theorem execAutoActivation_keepsFuses (s : State) : KeepsFuses s (execAutoActivation s) := by
  simp [execAutoActivation]

@[simp] theorem State.setProc_fuses (s : State) (p : Proc) (x : ProcState) : (s.setProc p x).fuses = s.fuses := by
  cases p <;> rfl

@[simp] theorem State.applyActivation_fuses (s : State) : s.applyActivation.fuses = s.fuses := by
  unfold State.applyActivation
  split <;> simp

@[simp] theorem State.actStep_fuses (s : State) (ms : List Nat) : (s.actStep ms).fuses = s.fuses := by
  unfold State.actStep
  split <;> simp

@[simp] theorem State.restarted_fuses (s : State) (p : Proc) (cause : RestartCause) : (s.restarted p cause).fuses = s.fuses := by
  simp [State.restarted]

@[simp] theorem State.startProc_fuses (s : State) (p : Proc) : (s.startProc p).fuses = s.fuses := by
  cases p <;> simp [State.startProc]

@[simp] theorem execWatchdog_keepsFuses (p : Proc) (s : State) : KeepsFuses s (execWatchdog p s) := by
  simp [execWatchdog]

@[simp] theorem execFwRestart_keepsFuses (p : Proc) (cause : RestartCause) (s : State) : KeepsFuses s (execFwRestart p cause s) := by
  simp [execFwRestart]

@[simp] theorem execTakeover_keepsFuses (p : Proc) (s : State) : KeepsFuses s (execTakeover p s) := by
  cases p <;> simp [execTakeover]

@[simp] theorem execLastGoodBundle_keepsFuses (s : State) : KeepsFuses s (execLastGoodBundle s) := by
  unfold execLastGoodBundle
  split <;> simp

@[simp] theorem execCommandDieFail_keepsFuses (_east : Bool) (s : State) : KeepsFuses s (execCommandDieFail _east s) := by
  simp [execCommandDieFail]

@[simp] theorem execAttest_keepsFuses (h : HostCmd) (nonceAddr outAddr : W64) (s : State) : KeepsFuses s (execAttest h nonceAddr outAddr s) := by
  simp [execAttest]

@[simp] theorem execOwnerKeyAdd_keepsFuses (h : HostCmd) (modelId : BitVec 128) (keyAddr : W64) (require : Byte) (s : State) :
    KeepsFuses s (execOwnerKeyAdd h modelId keyAddr require s) := by
  simp [execOwnerKeyAdd]

@[simp] theorem execOwnerKeyDelete_keepsFuses (h : HostCmd) (modelId : BitVec 128) (s : State) : KeepsFuses s (execOwnerKeyDelete h modelId s) := by
  simp [execOwnerKeyDelete]

@[simp] theorem execBootCfg_keepsFuses (h : HostCmd) (cfgAddr : W64) (s : State) : KeepsFuses s (execBootCfg h cfgAddr s) := by
  simp [execBootCfg]

/-! ### Machine/Scalar -/

@[simp] theorem alu_keepsFuses (c : CoreId) (rd ra rb : SReg) (imm : W32) (lat : Nat) (f : W64 → W64 → W64) (t : Nat) (s : State) :
    FireKeepsFuses s (alu c rd ra rb imm lat f t s) := by
  simp [alu]

@[simp] theorem loadOp_keepsFuses (c : CoreId) (ra : SReg) (imm : W32) (n : Nat) (put : Core → Nat → Core) (s : State) :
    FireKeepsFuses s (loadOp c ra imm n put s) := by
  simp only [loadOp]
  split
  · simp
  split <;> simp

@[simp] theorem storeOp_keepsFuses (c : CoreId) (ra : SReg) (imm : W32) (bs : Core → Bytes) (t : Nat) (s : State) :
    FireKeepsFuses s (storeOp c ra imm bs t s) := by
  simp only [storeOp]
  split
  · simp
  split <;> simp

@[simp] theorem putP_keepsFuses (c : CoreId) (pd : PReg) (f : Core → Bool) (t : Nat) (s : State) : FireKeepsFuses s (putP c pd f t s) := by
  simp [putP]

/-! ### Machine/Tick -/

@[simp] theorem State.startSlots_fuses (s : State) (a : Almanac) : (s.startSlots a).fuses = s.fuses := by
  simp [State.startSlots]

@[simp] theorem State.startLanes_fuses (s : State) (a : Almanac) : (s.startLanes a).fuses = s.fuses := by
  simp only [State.startLanes]
  split <;> simp

@[simp] theorem State.startGroup_fuses (s : State) (leap : Bool) (elapsed : Nat) : (s.startGroup leap elapsed).fuses = s.fuses := by
  simp [State.startGroup]

@[simp] theorem State.prepare_fuses (s : State) : s.prepare.fuses = s.fuses := by
  unfold State.prepare
  split
  · rfl
  dsimp only
  split
  · rfl
  rw [State.enterLanes_fuses]
  refine State.foldl_fuses (fun s i => ?_) _ _
  split <;> simp

@[simp] theorem State.openTick_fuses (s : State) : s.openTick.fuses = s.fuses := by
  simp [State.openTick]

@[simp] theorem execTickStart_keepsFuses (s : State) : KeepsFuses s (execTickStart s) := by
  simp only [execTickStart]
  split
  · simp
  split <;> simp

@[simp] theorem State.coreDeadline_fuses (s : State) (c : CoreId) : (s.coreDeadline c).fuses = s.fuses := by
  simp [State.coreDeadline]

@[simp] theorem execIssueDeadline_keepsFuses (s : State) : KeepsFuses s (execIssueDeadline s) := by
  simp [execIssueDeadline]

@[simp] theorem State.unitsDeadline_fuses (s : State) (c : CoreId) : (s.unitsDeadline c).fuses = s.fuses := by
  simp [State.unitsDeadline]

@[simp] theorem State.flitsDeadline_fuses (s : State) : s.flitsDeadline.fuses = s.fuses := by
  unfold State.flitsDeadline
  exact State.foldl_fuses (fun s f => (State.modDie_fuses ..).trans (State.lose_fuses ..)) _ s

@[simp] theorem State.reducersDeadline_fuses (s : State) : s.reducersDeadline.fuses = s.fuses := by
  simp [State.reducersDeadline]

@[simp] theorem State.servesDeadline_fuses (s : State) : s.servesDeadline.fuses = s.fuses := by
  unfold State.servesDeadline
  refine (State.foldl_fuses (fun _ _ => State.lose_fuses ..) _ _).trans ?_
  simp

@[simp] theorem State.powerEstimate_fuses (s : State) : s.powerEstimate.fuses = s.fuses := by
  simp [State.powerEstimate]

@[simp] theorem State.thermalRequest_fuses (s : State) : s.thermalRequest.fuses = s.fuses := by
  unfold State.thermalRequest
  split
  · rfl
  · extract_lets x m
    have hx : x.1.fuses = s.fuses := by
      unfold x
      rw [foldl_fst_fuses]
      exact fun _ _ => State.setDie_fuses ..
    clear_value x
    exact hx

@[simp] theorem State.sendStamps_fuses (s : State) : s.sendStamps.fuses = s.fuses := by
  simp [State.sendStamps]

@[simp] theorem execWorkDeadline_keepsFuses (s : State) : KeepsFuses s (execWorkDeadline s) := by
  simp [execWorkDeadline]

@[simp] theorem State.loseTick_fuses (s : State) (t q : W48) (ns : List Notice) : (s.loseTick t q ns).fuses = s.fuses := by
  simp [State.loseTick]

@[simp] theorem State.verdict_fuses (s : State) : s.verdict.fuses = s.fuses := by
  simp only [State.verdict]
  split <;> simp

@[simp] theorem State.groupStretch_fuses (s : State) : s.groupStretch.fuses = s.fuses := by
  simp [State.groupStretch]

@[simp] theorem State.leapSchedule_fuses (s : State) : s.leapSchedule.fuses = s.fuses := by
  simp [State.leapSchedule]

@[simp] theorem State.coreEve_fuses (s : State) (c : CoreId) : (s.coreEve c).fuses = s.fuses := by
  simp [State.coreEve]

@[simp] theorem State.bandEve_fuses (s : State) : s.bandEve.fuses = s.fuses := by
  simp [State.bandEve]

@[simp] theorem State.clockEve_fuses (s : State) : s.clockEve.fuses = s.fuses := by
  simp [State.clockEve]

@[simp] theorem State.applyVerdict_fuses (s : State) : s.applyVerdict.fuses = s.fuses := by
  simp [State.applyVerdict]

@[simp] theorem State.applyChanges_fuses (s : State) : s.applyChanges.1.fuses = s.fuses := by
  simp [State.applyChanges]

@[simp] theorem State.applyCores_fuses (r : State × List BufWrite) : (State.applyCores r).fuses = r.1.fuses := by
  simp [State.applyCores]

@[simp] theorem State.applyGroup_fuses (s : State) : s.applyGroup.fuses = s.fuses := by
  simp [State.applyGroup]

@[simp] theorem State.readCons_fuses (s : State) : s.readCons.fuses = s.fuses := by
  simp [State.readCons]

@[simp] theorem State.applyHost_fuses (s : State) : s.applyHost.fuses = s.fuses := by
  simp [State.applyHost]

@[simp] theorem execApplyPoint_keepsFuses (s : State) : KeepsFuses s (execApplyPoint s) := by
  simp [execApplyPoint]

@[simp] theorem execEmergencyStretch_keepsFuses (s : State) : KeepsFuses s (execEmergencyStretch s) := by
  simp [execEmergencyStretch]

@[simp] theorem execEmergencyStretchEnd_keepsFuses (s : State) : KeepsFuses s (execEmergencyStretchEnd s) := by
  unfold execEmergencyStretchEnd
  split <;> simp

@[simp] theorem execRepeatLossFault_keepsFuses (s : State) : KeepsFuses s (execRepeatLossFault s) := by
  simp [execRepeatLossFault]

@[simp] theorem execRecoveryHoldEnd_keepsFuses (s : State) : KeepsFuses s (execRecoveryHoldEnd s) := by
  unfold execRecoveryHoldEnd
  split <;> simp

@[simp] theorem execRecoveryHoldTimeout_keepsFuses (s : State) : KeepsFuses s (execRecoveryHoldTimeout s) := by
  unfold execRecoveryHoldTimeout
  split <;> simp

/-! ### Every command, and every step -/

/-- An instruction of a core's slot program fires with a body that keeps the fuse table. -/
theorem exec_keepsFuses_of_core {i : Instr} (s : State) (hi : (coreOf i).isSome) : KeepsFuses s (exec i s) := by
  cases i
  case br | call | endProg | rds | wait | nop | add | sub | mul | divu | remu | divs | rems | and | or | xor | shl | shr | sra | min | max | movhi
      | ld | st | ldw | stw | ldd | std | dset | pcmp | pand | por | pxor | pnot | pset | tst | rdst | clst | mvs | accclr | accrd | accst | accld
      | vadd | vsub | vmul | vfma | vmax | vmin | vscl | vcvt | vsum | vmaxr | vnorm | vexp | vrcp | vrsqrt | vsilu | vgelu | vtanh | vsigm | vrope
      | mov | mfill | mgath =>
    exact fire_keepsFuses fun _ => by simp
  case ret | waitd | send | red =>
    exact fire_keepsFuses fun _ => by dsimp only; split <;> simp
  case mvm =>
    exact fire_keepsFuses fun _ => by split <;> simp
  case attn | kvw | samp | gfence =>
    exact fire_keepsFuses fun _ => serveOp_keepsFuses _ _ _ _ _ _ _ _ _ _ fun _ => by simp
  case ldx =>
    refine fire_keepsFuses fun _ => ?_
    dsimp only
    split
    · simp
    split
    · simp
    split
    · simp
    split <;> simp
  case accadd =>
    refine fire_keepsFuses fun _ => ?_
    dsimp only
    split
    next s' cost next hu =>
      have hk : FireKeepsFuses s (.go s' cost next) := hu ▸ unitOp_keepsFuses ..
      split
      · simp
      · exact hk
    next => exact unitOp_keepsFuses ..
  case qnt =>
    refine fire_keepsFuses fun _ => ?_
    dsimp only
    split
    · split <;> simp
    · simp
  all_goals cases hi

/-- Every command but `boot` keeps the fuse table. -/
theorem exec_keepsFuses {i : Instr} (s : State) (hb : ∀ p b, i ≠ .boot p b) : KeepsFuses s (exec i s) := by
  by_cases hi : (coreOf i).isSome
  · exact exec_keepsFuses_of_core s hi
  cases i
  case boot p b => exact absurd rfl (hb p b)
  all_goals simp [exec, coreOf] at hi ⊢

theorem exec_fuses {i : Instr} {s t : State} (h : exec i s = .next t) (hb : ∀ p b, i ≠ .boot p b) : t.fuses = s.fuses := by
  have hk := exec_keepsFuses s hb
  rwa [h] at hk

/-- A boot that comes to pass writes the error of its copy into the fuse table and nothing else (R37). -/
theorem execBoot_fuses {straps : Straps} {b : Bool} {s t : State} (h : execBoot straps b s = .next t) :
    t.fuses = s.fuses ∨ t.fuses = { s.fuses with bad := b } := by
  unfold execBoot at h
  split at h
  · cases h
    exact .inl rfl
  · cases h
    exact .inr (by cases b <;> simp)

/-- Apart from the error of the last copy, no command changes the fuse table. -/
theorem exec_fuses_but_bad {i : Instr} {s t : State} (h : exec i s = .next t) : { t.fuses with bad := s.fuses.bad } = s.fuses := by
  by_cases hb : ∃ p b, i = .boot p b
  · obtain ⟨p, b, rfl⟩ := hb
    rcases execBoot_fuses h with e | e <;> rw [e]
  · rw [exec_fuses h fun p b e => hb ⟨p, b, e⟩]

/-- Settles O58: by the frame lemmas of the commands; a step runs one command on the state with the queue's rest, or idles. -/
theorem fuseTable : Obligations.FuseTable := by
  refine ⟨fun i s t h => ⟨exec_fuses_but_bad h, exec_fuses h⟩, fun s t h => ?_⟩
  unfold step at h
  split at h
  · cases h
    rfl
  · have hf := exec_fuses_but_bad h
    exact hf

end Sys2Proof.Machine
end

section
/-!
The temperature bands of a die half (R138): what the band step of an apply point makes of each weight die, when a half rises, falls and stays,
and that T is the highest of the half's valid sensors.
-/
namespace Sys2Proof.Machine

/-! ### One change made to many dies -/

theorem asDie_val (d : DieId) : asDie d.val = d := Fin.ext (Nat.mod_eq_of_lt d.isLt)

@[simp] theorem State.die_modDie_same (s : State) (d : DieId) (f : Die → Die) : (s.modDie d f).die d = f (s.die d) :=
  State.die_setDie_same ..

theorem State.die_foldl_modDie_of_notMem (f : Die → Die) {d : DieId} {l : List DieId} (hd : d ∉ l) (s : State) :
    (l.foldl (fun s x => s.modDie x f) s).die d = s.die d := by
  induction l generalizing s with
  | nil => rfl
  | cons x l ih =>
    obtain ⟨hx, hl⟩ := not_or.mp (List.mem_cons.not.mp hd)
    exact (ih hl _).trans (State.die_setDie_other s x d _ hx)

/-- A die that a list names once is changed once. -/
theorem State.die_foldl_modDie_of_mem (f : Die → Die) {d : DieId} {l : List DieId} (hn : l.Nodup) (hd : d ∈ l) (s : State) :
    (l.foldl (fun s x => s.modDie x f) s).die d = f (s.die d) := by
  induction l generalizing s with
  | nil => cases hd
  | cons x l ih =>
    obtain ⟨hx, hn⟩ := List.nodup_cons.mp hn
    rcases List.mem_cons.mp hd with rfl | hd
    · exact (State.die_foldl_modDie_of_notMem f hx _).trans (State.die_modDie_same s d f)
    · have hne : d ≠ x := fun e => hx (e ▸ hd)
      exact (ih hn hd _).trans (congrArg f (State.die_setDie_other s x d _ hne))

/-- Changes of dies leave everything but the dies. -/
theorem State.foldl_modDie_frame {α : Type} (d : α → DieId) (f : Die → Die) (l : List α) (s : State) :
    { l.foldl (fun s x => s.modDie (d x) f) s with dies := s.dies } = s := by
  induction l generalizing s with
  | nil => rfl
  | cons x l ih => exact congrArg (fun t : State => { t with dies := s.dies }) (ih (s.modDie (d x) f))

/-! ### The band step of the apply point -/

/-- Each half of a weight die takes the band that follows from its own T. -/
theorem State.die_bandEve (s : State) {d : DieId} (hd : d.val < 24) : s.bandEve.die d =
    { s.die d with
      west := { (s.die d).west with band := nextBand (s.die d).west.band (s.die d).hotW }
      east := { (s.die d).east with band := nextBand (s.die d).east.band (s.die d).hotE } } := by
  have hn : ((List.range 24).map asDie).Nodup := by decide
  have hm : d ∈ (List.range 24).map asDie := List.mem_map.mpr ⟨d.val, List.mem_range.mpr hd, asDie_val d⟩
  have h := State.die_foldl_modDie_of_mem (fun x : Die =>
    { x with west := { x.west with band := nextBand x.west.band x.hotW }, east := { x.east with band := nextBand x.east.band x.hotE } }) hn hm s
  rwa [List.foldl_map] at h

theorem State.bandEve_frame (s : State) : { s.bandEve with dies := s.dies } = s :=
  State.foldl_modDie_frame asDie _ _ s

/-! ### When a half rises, falls and stays -/

/-- Below a band's lower boundary lie only bands of lower rank. -/
theorem rank_bandOf_le_of_lt_lower {b : Band} {t : Int} (h : t < b.lower) : (bandOf t).rank ≤ b.rank := by
  cases b <;> grind [bandOf, Band.rank, Band.lower]

theorem nextBand_of_higher {b : Band} {t : Int} (h : b.rank < (bandOf t).rank) : nextBand b (some t) = bandOf t := if_pos h

theorem nextBand_of_below {b : Band} {t : Int} (h : t < b.lower - 16) : nextBand b (some t) = bandOf (t + 16) := by
  have hr : ¬ b.rank < (bandOf t).rank := not_lt.mpr (rank_bandOf_le_of_lt_lower (by omega))
  exact (if_neg hr).trans (if_pos h)

theorem nextBand_of_within {b : Band} {t : Int} (hr : (bandOf t).rank ≤ b.rank) (hl : b.lower - 16 ≤ t) : nextBand b (some t) = b :=
  (if_neg (not_lt.mpr hr)).trans (if_neg (not_lt.mpr hl))

/-- The Cold band has no lower boundary to fall below. -/
theorem nextBand_cold {t : Int} (hr : (bandOf t).rank ≤ Band.cold.rank) : nextBand .cold (some t) = .cold := by
  rcases lt_or_ge t (Band.cold.lower - 16) with hl | hl
  · have ht : t + 16 < 320 := by simp only [Band.lower] at hl; omega
    exact (nextBand_of_below hl).trans (if_pos ht)
  · exact nextBand_of_within hr hl

/-! ### T of a half -/

theorem hottest_cons (x : Int) (l : List Int) : hottest (x :: l) = some (l.foldl max x) := by
  induction l generalizing x with
  | nil => rfl
  | cons y l ih =>
    calc hottest (x :: y :: l) = hottest (max y x :: l) := rfl
      _ = some ((y :: l).foldl max x) := by rw [ih, max_comm, List.foldl_cons]

theorem hottest_eq_max? : ∀ l : List Int, hottest l = l.max?
  | [] => rfl
  | x :: l => hottest_cons x l

theorem exists_hottest {l : List Int} (h : l ≠ []) : ∃ x ∈ l, hottest l = some x ∧ ∀ y ∈ l, y ≤ x := by
  obtain ⟨x, hx⟩ := Option.ne_none_iff_exists'.mp (mt List.max?_eq_none_iff.mp h)
  obtain ⟨hmem, hmax⟩ := List.max?_eq_some_iff.mp hx
  exact ⟨x, hmem, (hottest_eq_max? l).trans hx, hmax⟩

@[simp] theorem State.die_ite_tmonBit (p : Prop) [Decidable p] (s : State) (i : Nat) (d : DieId) :
    (if p then s.tmonBit i else s).die d = s.die d := by split <;> rfl

theorem State.hotW_setHot {s : State} {d : DieId} {x : Int} (h : hottest ((s.die d).shownTemps (halfSensors d.val false)) = some x) :
    ((s.setHot d).die d).hotW = some x := by
  simp [State.setHot, h]

theorem State.hotE_setHot {s : State} {d : DieId} {x : Int} (hd : d.val < 24)
    (h : hottest ((s.die d).shownTemps (halfSensors d.val true)) = some x) : ((s.setHot d).die d).hotE = some x := by
  simp [State.setHot, h, hd]

/-- Settles O27: each half's band follows `nextBand`, whose three cases are the rise, the fall and the stay of R138. -/
theorem temperatureBands : Obligations.TemperatureBands := by
  unfold Obligations.TemperatureBands
  intro holds low turns s d hd
  have hholds (b : Band) (t : Int) : holds b t → bandOf t = b := by
    cases b <;> simp only [holds] <;> grind [bandOf]
  have hbandOf (t : Int) : holds (bandOf t) t := by
    unfold bandOf
    split_ifs <;> simp only [holds] <;> omega
  have hlow (b : Band) : b = .cold ∨ low b = some b.lower := by cases b <;> simp [low, Band.lower]
  have hlower (b : Band) (l : Int) (hl : low b = some l) : b.lower = l :=
    (hlow b).elim (fun hc => by subst hc; cases hl) fun hb => Option.some.inj (hb.symm.trans hl)
  have hturns (h : Half) (hot : Option Int) : turns h { h with band := nextBand h.band hot } hot := by
    rintro t rfl
    refine ⟨rfl, fun b hb hr => ?_, fun l b hl ht hb => ?_, fun hr hl => ?_⟩
    · obtain rfl := hholds b t hb
      exact nextBand_of_higher hr
    · obtain rfl := hholds b _ hb
      obtain rfl := hlower h.band l hl
      exact nextBand_of_below ht
    · have hrank := hr _ (hbandOf t)
      rcases hlow h.band with hc | hc
      · rw [hc] at hrank ⊢
        exact nextBand_cold hrank
      · exact nextBand_of_within hrank (hl _ hc)
  refine ⟨?_, ?_, s.bandEve_frame, ?_, ?_⟩
  · rw [s.die_bandEve hd]
    exact hturns _ _
  · rw [s.die_bandEve hd]
    exact hturns _ _
  · rintro _ rfl ht
    obtain ⟨x, hx, hhot, hmax⟩ := exists_hottest ht
    exact ⟨x, hx, State.hotW_setHot hhot, hmax⟩
  · rintro _ rfl ht
    obtain ⟨x, hx, hhot, hmax⟩ := exists_hottest ht
    exact ⟨x, hx, State.hotE_setHot hd hhot, hmax⟩

end Sys2Proof.Machine
end

section
/-!
The stretch step of an apply point (R185): what the group stretch becomes during an emergency stretch and otherwise, and what it depends on.
-/
namespace Sys2Proof.Machine

/-! ### The requests and the emergency -/

/-- The stretch requests in the stamps of the eve before, which an apply point looks at. -/
def State.stretchRequests (s : State) : List Nat :=
  s.stampers.filterMap fun m => (s.stampOf (s.tick.count - 1) m).map Stamp.stretch

/-- An emergency stretch is in force (R178): its end is still to come. -/
def State.EmergencyStretch (s : State) : Prop :=
  ∃ e, s.tick.emergUntil = some e ∧ s.tick.count ≠ e ∧ laterThan s.tick.count e = false

theorem State.stretchRequests_congr {s s' : State} (hm : s.stampers = s'.stampers)
    (hr : ∀ m ∈ s.stampers, (s.stampOf (s.tick.count - 1) m).map Stamp.stretch = (s'.stampOf (s'.tick.count - 1) m).map Stamp.stretch) :
    s.stretchRequests = s'.stretchRequests := by
  unfold State.stretchRequests
  rw [← hm]
  exact List.filterMap_congr hr

theorem State.emergencyStretch_congr {s s' : State} (hc : s.tick.count = s'.tick.count) (he : s.tick.emergUntil = s'.tick.emergUntil) :
    s.EmergencyStretch ↔ s'.EmergencyStretch := by
  unfold State.EmergencyStretch
  rw [hc, he]

/-! ### The stretch step -/

theorem State.groupStretch_frame (s : State) :
    { s.groupStretch with tick := { s.groupStretch.tick with stretch := s.tick.stretch } } = s := rfl

theorem State.stretch_groupStretch_of_emergency {s : State} (h : s.EmergencyStretch) : s.groupStretch.tick.stretch = 50 := by
  obtain ⟨e, he, hne, hlater⟩ := h
  simp [State.groupStretch, he, hne, hlater]

theorem State.stretch_groupStretch_of_not_emergency {s : State} (h : ¬ s.EmergencyStretch) :
    s.groupStretch.tick.stretch = min 50 (s.stretchRequests.foldl max (s.tick.stretch - 2)) := by
  cases he : s.tick.emergUntil with
  | none => simp [State.groupStretch, State.stretchRequests, he]
  | some e =>
    have hover : s.tick.count = e ∨ laterThan s.tick.count e = true := by
      by_contra hc
      obtain ⟨hne, hlater⟩ := not_or.mp hc
      exact h ⟨e, he, hne, Bool.eq_false_of_not_eq_true hlater⟩
    rcases hover with hover | hover <;> simp [State.groupStretch, State.stretchRequests, he, hover]

/-- The fold of the stretch step takes the largest of the requests and of the value it starts from. -/
theorem foldl_max_greatest (l : List Nat) (a : Nat) : l.foldl max a ∈ a :: l ∧ ∀ r ∈ a :: l, r ≤ l.foldl max a :=
  List.max?_eq_some_iff.mp List.max?_cons'

/-- With requests and the stretch in force within their field, the bound of 50 points changes nothing. -/
theorem State.stretch_groupStretch_of_le {s : State} (h : ¬ s.EmergencyStretch) (hr : ∀ r ∈ s.stretchRequests, r ≤ 50) (hs : s.tick.stretch ≤ 50) :
    s.groupStretch.tick.stretch = s.stretchRequests.foldl max (s.tick.stretch - 2) := by
  rw [State.stretch_groupStretch_of_not_emergency h]
  refine min_eq_right ?_
  rcases List.mem_cons.mp (foldl_max_greatest s.stretchRequests (s.tick.stretch - 2)).1 with he | hmem
  · omega
  · exact hr _ hmem

/-- What the next group stretch is made of: the members' requests, the tick count, the stretch in force and the end of an emergency stretch. -/
theorem State.stretch_groupStretch_congr {s s' : State} (hc : s.tick.count = s'.tick.count) (hs : s.tick.stretch = s'.tick.stretch)
    (he : s.tick.emergUntil = s'.tick.emergUntil) (hr : s.stretchRequests = s'.stretchRequests) :
    s.groupStretch.tick.stretch = s'.groupStretch.tick.stretch := by
  have hem := State.emergencyStretch_congr hc he
  by_cases h : s.EmergencyStretch
  · rw [State.stretch_groupStretch_of_emergency h, State.stretch_groupStretch_of_emergency (hem.mp h)]
  · rw [State.stretch_groupStretch_of_not_emergency h, State.stretch_groupStretch_of_not_emergency (mt hem.mpr h), hr, hs]

/-- Settles O25: outside an emergency stretch the step is the fold of `max` over the requests, begun at the stretch in force less 2 points. -/
theorem groupStretch : Obligations.GroupStretch := by
  unfold Obligations.GroupStretch
  refine ⟨fun s => ⟨s.groupStretch_frame, State.stretch_groupStretch_of_emergency, fun hem hr hs => ?_⟩,
    fun s s' hm hc hs he hr => State.stretch_groupStretch_congr hc hs he (State.stretchRequests_congr hm hr)⟩
  obtain ⟨hmem, hmax⟩ := foldl_max_greatest s.stretchRequests (s.tick.stretch - 2)
  rw [← State.stretch_groupStretch_of_le hem hr hs] at hmem hmax
  obtain ⟨hdecay, hasked⟩ := List.forall_mem_cons.mp hmax
  exact ⟨hasked, hdecay, (List.mem_cons.mp hmem).symm⟩

end Sys2Proof.Machine
end

section
/-!
Scalar arithmetic (R250, R210): the value of each operation as the manual words it, and the one scalar register that an operation writes.
-/
namespace Sys2Proof.Machine

/-! ### The operations' values -/

theorem divU_eq (a b : W64) : divU a b = if b = 0 then BitVec.allOnes 64 else BitVec.ofNat 64 (a.toNat / b.toNat) := by
  rw [divU, BitVec.udiv_def]

theorem remU_eq (a b : W64) : remU a b = if b = 0 then a else BitVec.ofNat 64 (a.toNat % b.toNat) := by
  rw [remU, BitVec.umod_def]

/-- The signed quotient wraps: `sdiv` is the truncated quotient modulo 2^64, −2^63 / −1 included. -/
theorem ofInt_tdiv_eq_sdiv (a b : W64) : BitVec.ofInt 64 (a.toInt.tdiv b.toInt) = a.sdiv b :=
  BitVec.eq_of_toInt_eq ((BitVec.toInt_ofInt _).trans (BitVec.toInt_sdiv a b).symm)

theorem ofInt_tmod_eq_srem (a b : W64) : BitVec.ofInt 64 (a.toInt.tmod b.toInt) = a.srem b := by
  rw [← BitVec.toInt_srem, BitVec.ofInt_toInt]

theorem divS_eq (a b : W64) : divS a b = if b = 0 then BitVec.allOnes 64 else a.sdiv b := by
  rw [divS, ofInt_tdiv_eq_sdiv]

theorem remS_eq (a b : W64) : remS a b = if b = 0 then a else a.srem b := by
  rw [remS, ofInt_tmod_eq_srem]

/-- The signed comparison of `min` and `max` is that of the two numbers. -/
theorem ite_slt_eq_ite_toInt_lt (a b x y : W64) : (if a.slt b then x else y) = if a.toInt < b.toInt then x else y := by
  simp only [BitVec.slt_iff_toInt_lt]

/-- What `movhi` puts together: IMM above the low 32 bits of the operand. -/
theorem shiftLeft_or_low_eq_append (imm : W32) (a : W64) :
    imm.setWidth 64 <<< 32 ||| (a &&& 0xFFFF_FFFF#64) = imm ++ a.setWidth 32 := by
  have hlow : a &&& 0xFFFF_FFFF#64 = (a.setWidth 32).setWidth 64 := BitVec.eq_of_toNat_eq <|
    calc (a &&& 0xFFFF_FFFF#64).toNat = a.toNat &&& (2 ^ 32 - 1) := BitVec.toNat_and ..
      _ = a.toNat % 2 ^ 32 := Nat.and_two_pow_sub_one_eq_mod ..
      _ = ((a.setWidth 32).setWidth 64).toNat := by simp only [BitVec.toNat_setWidth]; omega
  rw [hlow, BitVec.append_def, BitVec.shiftLeftZeroExtend_eq, BitVec.setWidth'_eq]

/-! ### The register an operation writes -/

/-- An instruction whose body is the scalar operation f writes f of its operands into s[RD]. -/
theorem writesS_alu {i : Instr} {c : CoreId} {g : Guard} {rd ra rb : SReg} {imm : W32} {lat : Nat} {s : State} {f : W64 → W64 → W64}
    {v : Core → W64} (he : exec i s = .next (fire c i g (alu c rd ra rb imm lat f) s))
    (hv : ∀ k : Core, f (k.sreg ra) (k.opB rb imm) = v k) : writesS i c g rd lat s v := by
  refine writesS_of he ?_
  rw [← hv]
  rfl

theorem writesS_movhi (c : CoreId) (g : Guard) (rd ra : SReg) (imm : W32) (s : State) :
    writesS (.movhi c g rd ra imm) c g rd 1 s (fun k => imm ++ (k.sreg ra).setWidth 32) := by
  refine writesS_of rfl ?_
  rw [← shiftLeft_or_low_eq_append]
  rfl

/-- Settles O2: every operation but `movhi` is `alu` with a function of the two operands, whose value is the manual's. -/
theorem scalarArithmetic : Obligations.ScalarArithmetic := by
  unfold Obligations.ScalarArithmetic
  intro c g rd ra rb imm s
  refine ⟨?add, ?sub, ?mul, ?divu, ?remu, ?divs, ?rems, ?and, ?or, ?xor, ?shl, ?shr, ?sra, ?min, ?max, ?movhi⟩
  case divu => exact writesS_alu rfl fun _ => divU_eq _ _
  case remu => exact writesS_alu rfl fun _ => remU_eq _ _
  case divs => exact writesS_alu rfl fun _ => divS_eq _ _
  case rems => exact writesS_alu rfl fun _ => remS_eq _ _
  case min => exact writesS_alu rfl fun _ => ite_slt_eq_ite_toInt_lt _ _ _ _
  case max => exact writesS_alu rfl fun _ => ite_slt_eq_ite_toInt_lt _ _ _ _
  case movhi => exact writesS_movhi c g rd ra imm s
  case add | sub | mul | and | or | xor | shl | shr | sra => exact writesS_alu rfl fun _ => rfl

end Sys2Proof.Machine
end

section
/-!
The Aithal word (R229 to R231): for each format, what the decoder's fields read from the word that the encoder builds; then, by cases on the
instruction, that its word decodes to it.
-/
namespace Sys2Proof.Machine

/-! ### The guard, and the fields of each format -/

/-- The head of a word is its opcode byte, PRED and PNEG, at their places. -/
theorem exists_encHead (op : Nat) (g : Guard) :
    ∃ p n, encHead op g = op * 2 ^ 56 + p * 2 ^ 53 + n * 2 ^ 52 ∧ p = g.pred.val ∧ p < 8 ∧ n = g.neg.toNat ∧ n < 2 := by
  refine ⟨g.pred.val, g.neg.toNat, ?_, rfl, g.pred.isLt, rfl, Bool.toNat_lt _⟩
  obtain ⟨p, n⟩ := g
  cases n <;> simp [encHead]

theorem wGuard_of_fields {w : Nat} {g : Guard} (hp : field w 55 53 = g.pred.val) (hn : field w 52 52 = g.neg.toNat) : wGuard w = g := by
  obtain ⟨p, n⟩ := g
  simp only [wGuard, hp, hn, preg]
  cases n <;> simp

/-- What the decoder reads from a word of format S. -/
structure ReadsS (w op : Nat) (g : Guard) (rd ra rb sub imm : Nat) : Prop where
  op_eq : field w 63 56 = op
  guard_eq : wGuard w = g
  rd_eq : wRD w = rd
  ra_eq : wRA w = ra
  rb_eq : wRB w = rb
  sub_eq : wSUB w = sub
  imm_eq : wIMM w = BitVec.ofNat 32 imm

/-- What the decoder reads from a word of format T. -/
structure ReadsT (w op : Nat) (g : Guard) (td ta tb sa pd mod : Nat) : Prop where
  op_eq : field w 63 56 = op
  guard_eq : wGuard w = g
  td_eq : wT1 w = td
  ta_eq : wT2 w = ta
  tb_eq : wT3 w = tb
  sa_eq : wSA w = sa
  pd_eq : wPD w = pd
  mod_eq : wIMM w = BitVec.ofNat 32 mod
  tile_eq : mvsTile w = mvsTile mod

/-- What the decoder reads from a word of format N. -/
structure ReadsN (w op : Nat) (g : Guard) (ta tb route sa sb mod : Nat) : Prop where
  op_eq : field w 63 56 = op
  guard_eq : wGuard w = g
  ta_eq : wT1 w = ta
  tb_eq : wT2 w = tb
  route_eq : wROUTE w = BitVec.ofNat 16 route
  sa_eq : wNSA w = sa
  sb_eq : wNSB w = sb
  mod_eq : wNMOD w = mod

/-- What the decoder reads from a word of format J. -/
structure ReadsJ (w op : Nat) (g : Guard) (ra cond off : Nat) : Prop where
  op_eq : field w 63 56 = op
  guard_eq : wGuard w = g
  ra_eq : wRD w = ra
  cond_eq : field w 46 43 = cond
  zero_eq : field w 42 32 = 0
  high_eq : field w 51 32 = ra * 2 ^ 15 + cond * 2 ^ 11
  off_eq : wIMM w = BitVec.ofNat 32 off

/-- The tile of an `mvs` lies in MOD. -/
theorem mvsTile_low (w : Nat) : mvsTile w = mvsTile (field w 31 0) := by
  simp only [mvsTile, Tile.mk.injEq]
  refine ⟨?_, ?_, ?_, ?_, ?_⟩ <;> congr 1 <;> simp only [field] <;> omega

theorem readsS_encS {op rd ra rb sub imm : Nat} (g : Guard)
    (h : op < 256 ∧ rd < 32 ∧ ra < 32 ∧ rb < 32 ∧ sub < 32 ∧ imm < 2 ^ 32) : ReadsS (encS op g rd ra rb sub imm) op g rd ra rb sub imm := by
  obtain ⟨p, n, he, hp, hp8, hn, hn2⟩ := exists_encHead op g
  constructor
  case guard_eq => apply wGuard_of_fields <;> simp only [encS, he, field] <;> omega
  case imm_eq => rw [wIMM]; congr 1; simp only [encS, he, field]; omega
  all_goals simp only [wRD, wRA, wRB, wSUB, encS, he, field]; omega

theorem readsT_encT {op td ta tb sa pd mod : Nat} (g : Guard)
    (h : op < 256 ∧ td < 16 ∧ ta < 16 ∧ tb < 16 ∧ sa < 32 ∧ pd < 8 ∧ mod < 2 ^ 32) : ReadsT (encT op g td ta tb sa pd mod) op g td ta tb sa pd mod := by
  obtain ⟨p, n, he, hp, hp8, hn, hn2⟩ := exists_encHead op g
  have hm : field (encT op g td ta tb sa pd mod) 31 0 = mod := by simp only [encT, he, field]; omega
  constructor
  case guard_eq => apply wGuard_of_fields <;> simp only [encT, he, field] <;> omega
  case mod_eq => rw [wIMM, hm]
  case tile_eq => rw [mvsTile_low, hm]
  all_goals simp only [wT1, wT2, wT3, wSA, wPD, encT, he, field]; omega

theorem readsN_encN {op ta tb route sa sb mod : Nat} (g : Guard)
    (h : op < 256 ∧ ta < 16 ∧ tb < 16 ∧ route < 2 ^ 16 ∧ sa < 32 ∧ sb < 32 ∧ mod < 2 ^ 18) :
    ReadsN (encN op g ta tb route sa sb mod) op g ta tb route sa sb mod := by
  obtain ⟨p, n, he, hp, hp8, hn, hn2⟩ := exists_encHead op g
  constructor
  case guard_eq => apply wGuard_of_fields <;> simp only [encN, he, field] <;> omega
  case route_eq => rw [wROUTE]; congr 1; simp only [encN, he, field]; omega
  all_goals simp only [wT1, wT2, wNSA, wNSB, wNMOD, encN, he, field]; omega

theorem readsJ_encJ {op ra cond off : Nat} (g : Guard) (h : op < 256 ∧ ra < 32 ∧ cond < 16 ∧ off < 2 ^ 32) :
    ReadsJ (encJ op g ra cond off) op g ra cond off := by
  obtain ⟨p, n, he, hp, hp8, hn, hn2⟩ := exists_encHead op g
  constructor
  case guard_eq => apply wGuard_of_fields <;> simp only [encJ, he, field] <;> omega
  case off_eq => rw [wIMM]; congr 1; simp only [encJ, he, field]; omega
  all_goals simp only [wRD, encJ, he, field]; omega

/-! ### From the fields to the instruction -/

/-- An instruction has a word, and it decodes to the instruction. -/
def RoundTrip (c : CoreId) (i : Instr) : Prop := ∃ w, encode i = some w ∧ decodeAithal c w = some (asWord i)

theorem roundTrip_of {c : CoreId} {i : Instr} {n : Nat} (he : encodeNat i = some n) (hn : n < 2 ^ 64) (hd : decodeNat c n = some (asWord i)) :
    RoundTrip c i :=
  ⟨BitVec.ofNat 64 n, by rw [encode, he]; rfl, by rw [decodeAithal, BitVec.toNat_ofNat, Nat.mod_eq_of_lt hn, hd]⟩

theorem roundTrip_encS {c : CoreId} {i : Instr} {op rd ra rb sub imm : Nat} {g : Guard} (he : encodeNat i = some (encS op g rd ra rb sub imm))
    (h : op < 256 ∧ rd < 32 ∧ ra < 32 ∧ rb < 32 ∧ sub < 32 ∧ imm < 2 ^ 32)
    (hd : ∀ w, ReadsS w op g rd ra rb sub imm → decodeNat c w = some (asWord i)) : RoundTrip c i := by
  refine roundTrip_of he ?_ (hd _ (readsS_encS g h))
  obtain ⟨p, n, hh, -, hp8, -, hn2⟩ := exists_encHead op g
  simp only [encS, hh]
  omega

theorem roundTrip_encT {c : CoreId} {i : Instr} {op td ta tb sa pd mod : Nat} {g : Guard} (he : encodeNat i = some (encT op g td ta tb sa pd mod))
    (h : op < 256 ∧ td < 16 ∧ ta < 16 ∧ tb < 16 ∧ sa < 32 ∧ pd < 8 ∧ mod < 2 ^ 32)
    (hd : ∀ w, ReadsT w op g td ta tb sa pd mod → decodeNat c w = some (asWord i)) : RoundTrip c i := by
  refine roundTrip_of he ?_ (hd _ (readsT_encT g h))
  obtain ⟨p, n, hh, -, hp8, -, hn2⟩ := exists_encHead op g
  simp only [encT, hh]
  omega

theorem roundTrip_encN {c : CoreId} {i : Instr} {op ta tb route sa sb mod : Nat} {g : Guard}
    (he : encodeNat i = some (encN op g ta tb route sa sb mod))
    (h : op < 256 ∧ ta < 16 ∧ tb < 16 ∧ route < 2 ^ 16 ∧ sa < 32 ∧ sb < 32 ∧ mod < 2 ^ 18)
    (hd : ∀ w, ReadsN w op g ta tb route sa sb mod → decodeNat c w = some (asWord i)) : RoundTrip c i := by
  refine roundTrip_of he ?_ (hd _ (readsN_encN g h))
  obtain ⟨p, n, hh, -, hp8, -, hn2⟩ := exists_encHead op g
  simp only [encN, hh]
  omega

theorem roundTrip_encJ {c : CoreId} {i : Instr} {op ra cond off : Nat} {g : Guard} (he : encodeNat i = some (encJ op g ra cond off))
    (h : op < 256 ∧ ra < 32 ∧ cond < 16 ∧ off < 2 ^ 32)
    (hd : ∀ w, ReadsJ w op g ra cond off → decodeNat c w = some (asWord i)) : RoundTrip c i := by
  refine roundTrip_of he ?_ (hd _ (readsJ_encJ g h))
  obtain ⟨p, n, hh, -, hp8, -, hn2⟩ := exists_encHead op g
  simp only [encJ, hh]
  omega

@[simp] theorem sreg_val (r : SReg) : sreg r.val = r := by simp [sreg]
@[simp] theorem treg_val (r : TReg) : treg r.val = r := by simp [treg]
@[simp] theorem preg_val (r : PReg) : preg r.val = r := by simp [preg]


/-! ### Codes of fields -/

theorem condOf_condCode (x : Cond) : condOf (condCode x) = some x := by cases x <;> rfl
theorem specialOf_specialCode (x : Special) : specialOf (specialCode x) = some x := by cases x <;> rfl
theorem cmpOf_cmpCode (x : Cmp) : cmpOf (cmpCode x) = some x := by cases x <;> rfl
theorem dfieldOf_dfieldCode (x : DField) : dfieldOf (dfieldCode x) = some x := by cases x <;> rfl
theorem modeOf_modeCode (x : Mode) : modeOf (modeCode x) = some x := by cases x <;> rfl
theorem actwOf_actwCode (x : ActW) : actwOf (actwCode x) = some x := by cases x <;> rfl
theorem rgpOf_rgpCode (x : Rgp) : rgpOf (rgpCode x) = some x := by cases x <;> rfl
theorem condCode_lt (x : Cond) : condCode x < 16 := by cases x <;> decide
theorem specialCode_lt (x : Special) : specialCode x < 32 := by cases x <;> decide
theorem cmpCode_lt (x : Cmp) : cmpCode x < 32 := by cases x <;> decide
theorem dfieldCode_lt (x : DField) : dfieldCode x < 32 := by cases x <;> decide
theorem modeCode_lt (x : Mode) : modeCode x < 4 := by cases x <;> decide
theorem actwCode_lt (x : ActW) : actwCode x < 4 := by cases x <;> decide
theorem rgpCode_lt (x : Rgp) : rgpCode x < 8 := by cases x <;> decide

/-- A short immediate stands in the low bits of the 32-bit field. -/
theorem toNat_mod_lt {n k : Nat} (b : BitVec n) (h : 2 ^ n = k) : b.toNat % 4294967296 < k :=
  h ▸ Nat.lt_of_le_of_lt (Nat.mod_le _ _) b.isLt

theorem mvsTile_encTile (t : Tile) : mvsTile (encTile t) = t := by
  obtain ⟨a, k, n, lo, hi⟩ := t
  have ha := a.isLt; have hk := k.isLt; have hn := n.isLt; have hlo := lo.isLt; have hhi := hi.isLt
  simp only [mvsTile, encTile, field, Tile.mk.injEq]
  refine ⟨?_, ?_, ?_, ?_, ?_⟩ <;> refine BitVec.eq_of_toNat_eq ?_ <;> simp only [BitVec.toNat_ofNat] <;> omega

theorem encTile_lt (t : Tile) : encTile t < 2 ^ 31 := by
  obtain ⟨a, k, n, lo, hi⟩ := t
  simp only [encTile]
  omega

/-- What the decoder reads from a word of format M. -/
structure ReadsM (w : Nat) (g : Guard) (o : MvmOp) : Prop where
  op_eq : field w 63 56 = 0x40
  guard_eq : wGuard w = g
  tacc_eq : wT1 w = o.tacc.val
  tact_eq : wT2 w = o.tact.val
  abase_eq : field w 43 32 = o.tile.abase.toNat
  kspan_eq : field w 31 26 = o.tile.kspanM1.toNat
  nspan_eq : field w 25 21 = o.tile.nspanM1.toNat
  mode_eq : field w 20 19 = modeCode o.mode
  aw_eq : field w 18 17 = actwCode o.aw
  rgp_eq : field w 16 14 = rgpCode o.rgp
  sx_eq : field w 13 9 = o.sx.val
  clr_eq : field w 8 8 = o.clr.toNat
  rowlo_eq : field w 7 4 = o.tile.rowlo.toNat
  rowhi_eq : field w 3 0 = o.tile.rowhi.toNat

/-- CLR of format M, at its place. -/
theorem clr_place (b : Bool) : (if b then 2 ^ 8 else 0) = b.toNat * 2 ^ 8 := by cases b <;> rfl

theorem readsM_encM (g : Guard) (o : MvmOp) : ReadsM (encM 0x40 g o) g o := by
  obtain ⟨p, n, he, hp, hp8, hn, hn2⟩ := exists_encHead 0x40 g
  have hmo := modeCode_lt o.mode
  have haw := actwCode_lt o.aw
  have hrg := rgpCode_lt o.rgp
  have hcl := Bool.toNat_lt o.clr
  constructor
  case guard_eq => apply wGuard_of_fields <;> simp only [encM, he, clr_place, field] <;> omega
  all_goals simp only [wT1, wT2, encM, he, clr_place, field]; omega

theorem encM_lt (g : Guard) (o : MvmOp) : encM 0x40 g o < 2 ^ 64 := by
  obtain ⟨p, n, he, hp, hp8, hn, hn2⟩ := exists_encHead 0x40 g
  have hmo := modeCode_lt o.mode
  have haw := actwCode_lt o.aw
  have hrg := rgpCode_lt o.rgp
  have hcl := Bool.toNat_lt o.clr
  simp only [encM, he, clr_place]
  omega

theorem decodeNat_readsM {w : Nat} {g : Guard} {o : MvmOp} (c : CoreId) (hw : ReadsM w g o) (h : o.tile.legal = true) :
    decodeNat c w = some (.mvm c g o []) := by
  obtain ⟨ho, hg, h1, h2, h3, h4, h5, h6, h7, h8, h9, h10, h11, h12⟩ := hw
  have hc : (o.clr.toNat == 1) = o.clr := by cases o.clr <;> rfl
  simp [decodeNat, decodeMvm, ok, ho, hg, h1, h2, h3, h4, h5, h6, h7, h8, h9, h10, h11, h12, modeOf_modeCode, actwOf_actwCode, rgpOf_rgpCode, h, hc]

/-! ### The shared forms -/

section
variable {c : CoreId} {w op imm : Nat} {g : Guard}

theorem decodeAlu_readsS {rd ra rb : SReg} (h : ReadsS w op g rd.val ra.val rb.val 0 imm) (f : CoreId → Guard → SReg → SReg → SReg → W32 → Instr) :
    decodeAlu c w f = some (f c g rd ra rb (BitVec.ofNat 32 imm)) := by
  obtain ⟨ho, hg, hd, ha, hb, hs, hi⟩ := h
  simp [decodeAlu, ok, hg, hd, ha, hb, hs, hi]

theorem decodeP3_readsS {pd pa pb : PReg} (h : ReadsS w op g pd.val pa.val pb.val 0 0) (f : CoreId → Guard → PReg → PReg → PReg → Instr) :
    decodeP3 c w f = some (f c g pd pa pb) := by
  obtain ⟨ho, hg, hd, ha, hb, hs, hi⟩ := h
  simp [decodeP3, ok, hg, hd, ha, hb, hs, hi]

theorem decodeV2_readsT {td ta : TReg} (h : ReadsT w op g td.val ta.val 0 0 0 0) (f : CoreId → Guard → TReg → TReg → Instr) :
    decodeV2 c w f = some (f c g td ta) := by
  obtain ⟨ho, hg, hd, ha, hb, hs, hp, hm, _⟩ := h
  simp [decodeV2, ok, hg, hd, ha, hb, hs, hp, hm]

theorem decodeV3_readsT {td ta tb : TReg} (h : ReadsT w op g td.val ta.val tb.val 0 0 0) (f : CoreId → Guard → TReg → TReg → TReg → Instr) :
    decodeV3 c w f = some (f c g td ta tb) := by
  obtain ⟨ho, hg, hd, ha, hb, hs, hp, hm, _⟩ := h
  simp [decodeV3, ok, hg, hd, ha, hb, hs, hp, hm]

end

/-! ### Every instruction -/


section
variable (c : CoreId) (g : Guard)

theorem roundTrip_wait (m : BitVec 6) : RoundTrip c (.wait c g m) := by
  refine roundTrip_encS rfl (by omega) fun w ⟨ho, hg, hd, ha, hb, hs, hi⟩ => ?_
  rw [decodeNat, ho]
  simp [ok, asWord, hg, hd, ha, hb, hs, hi, toNat_mod_lt m]

theorem roundTrip_rds (rd : SReg) (sp : Special) : RoundTrip c (.rds c g rd sp) := by
  have := specialCode_lt sp
  refine roundTrip_encS rfl (by omega) fun w ⟨ho, hg, hd, ha, hb, hs, hi⟩ => ?_
  rw [decodeNat, ho]
  simp [ok, asWord, hg, hd, ha, hb, hs, hi, specialOf_specialCode]

theorem roundTrip_pcmp (pd : PReg) (cm : Cmp) (ra rb : SReg) (imm : W32) : RoundTrip c (.pcmp c g pd cm ra rb imm) := by
  have := cmpCode_lt cm
  refine roundTrip_encS rfl (by omega) fun w ⟨ho, hg, hd, ha, hb, hs, hi⟩ => ?_
  rw [decodeNat, ho]
  simp [ok, asWord, hg, hd, ha, hb, hs, hi, cmpOf_cmpCode]

theorem roundTrip_dset (td : TReg) (f : DField) (ra : SReg) (imm : W32) : RoundTrip c (.dset c g td f ra imm) := by
  have := dfieldCode_lt f
  refine roundTrip_encS rfl (by omega) fun w ⟨ho, hg, hd, ha, hb, hs, hi⟩ => ?_
  rw [decodeNat, ho]
  simp [ok, asWord, hg, hd, ha, hb, hs, hi, dfieldOf_dfieldCode]

theorem roundTrip_pset (pd : PReg) (b : Bool) : RoundTrip c (.pset c g pd b) := by
  refine roundTrip_encS rfl (by cases b <;> simp <;> omega) fun w ⟨ho, hg, hd, ha, hb, hs, hi⟩ => ?_
  rw [decodeNat, ho]
  cases b <;> simp [ok, asWord, hg, hd, ha, hb, hs, hi]

theorem roundTrip_mvs (td ta : TReg) (sa : SReg) (t : Tile) : RoundTrip c (.mvs c g td ta sa t) := by
  have ht := encTile_lt t
  refine roundTrip_encT rfl (by omega) fun w ⟨ho, hg, hd, ha, hb, hs, hp, hm, htile⟩ => ?_
  rw [decodeNat, ho]
  simp [ok, asWord, hg, hd, ha, hb, hs, hp, hm, htile, mvsTile_encTile]
  omega

theorem roundTrip_red (ta : TReg) (r : BitVec 16) (sa : SReg) (b : Bool) : RoundTrip c (.red c g ta r sa b) := by
  refine roundTrip_encN rfl (by cases b <;> simp <;> omega) fun w ⟨ho, hg, ha, hb, hr, hs, ht, hm⟩ => ?_
  rw [decodeNat, ho]
  cases b <;> simp [ok, asWord, hg, ha, hb, hr, hs, ht, hm]

theorem roundTrip_br (ra : SReg) (cd : Cond) (off : W32) : RoundTrip c (.br c g ra cd off) := by
  have := condCode_lt cd
  refine roundTrip_encJ rfl (by omega) fun w ⟨ho, hg, ha, hd, hz, hh, hi⟩ => ?_
  rw [decodeNat, ho]
  simp [ok, asWord, hg, ha, hd, hz, hi, condOf_condCode]

theorem roundTrip_call (off : W32) : RoundTrip c (.call c g off) := by
  refine roundTrip_encJ rfl (by omega) fun w ⟨ho, hg, ha, hd, hz, hh, hi⟩ => ?_
  rw [decodeNat, ho]
  simp [ok, asWord, hg, hh, hi]

end

/-- A well-formed Aithal instruction has a word that decodes to it: the format of its row gives the word, and the fields of that format the decoder's answer. -/
theorem roundTrip_of_wellFormed {i : Instr} {c : CoreId} (hc : coreOf i = some c) (hw : wellFormed i = true) : RoundTrip c i := by
  cases i
  case add | sub | mul | divu | remu | divs | rems | and | or | xor | shl | shr | sra | min | max =>
    cases hc
    refine roundTrip_encS rfl (by omega) fun w h => ?_
    rw [decodeNat, h.op_eq]
    exact (decodeAlu_readsS h _).trans (by rw [BitVec.ofNat_toNat, BitVec.setWidth_eq]; rfl)
  case pand | por | pxor =>
    cases hc
    refine roundTrip_encS rfl (by omega) fun w h => ?_
    rw [decodeNat, h.op_eq]
    exact decodeP3_readsS h _
  case movhi | ld | ldw | ldd | ldx | st | stw | std | ret | endProg | nop | pnot | rdst | clst | tst =>
    cases hc
    refine roundTrip_encS rfl (by omega) fun w ⟨ho, hg, hd, ha, hb, hs, hi⟩ => ?_
    rw [decodeNat, ho]
    simp [ok, asWord, hg, hd, ha, hb, hs, hi]
  case wait => cases hc; exact roundTrip_wait ..
  case rds => cases hc; exact roundTrip_rds ..
  case pcmp => cases hc; exact roundTrip_pcmp ..
  case dset => cases hc; exact roundTrip_dset ..
  case pset => cases hc; exact roundTrip_pset ..
  case accst | accld | accadd | vcvt | vsum | vmaxr | vexp | vrcp | vrsqrt | vsilu | vgelu | vtanh | vsigm | mov =>
    cases hc
    refine roundTrip_encT rfl (by omega) fun w h => ?_
    rw [decodeNat, h.op_eq]
    exact decodeV2_readsT h _
  case vadd | vsub | vmul | vfma | vmax | vmin | mgath =>
    cases hc
    refine roundTrip_encT rfl (by omega) fun w h => ?_
    rw [decodeNat, h.op_eq]
    exact decodeV3_readsT h _
  case accclr | vscl | vrope | mfill | waitd =>
    cases hc
    refine roundTrip_encT rfl (by omega) fun w ⟨ho, hg, hd, ha, hb, hs, hp, hm, _⟩ => ?_
    rw [decodeNat, ho]
    simp [ok, asWord, hg, hd, ha, hb, hs, hp, hm]
  case accrd r | qnt r | vnorm r =>
    cases hc
    refine roundTrip_encT rfl (by omega) fun w ⟨ho, hg, hd, ha, hb, hs, hp, hm, _⟩ => ?_
    rw [decodeNat, ho]
    simp [ok, asWord, hg, hd, ha, hb, hs, hp, hm, toNat_mod_lt r]
  case mvs => cases hc; exact roundTrip_mvs ..
  case mvm o f =>
    cases hc
    simp only [wellFormed, Bool.and_eq_true] at hw
    exact roundTrip_of rfl (encM_lt _ o) (decodeNat_readsM _ (readsM_encM _ o) hw.1)
  case send | samp | gfence | attn | kvw =>
    cases hc
    refine roundTrip_encN rfl (by omega) fun w ⟨ho, hg, ha, hb, hr, hs, ht, hm⟩ => ?_
    rw [decodeNat, ho]
    simp [ok, asWord, hg, ha, hb, hr, hs, ht, hm] <;> omega
  case red => cases hc; exact roundTrip_red ..
  case br => cases hc; exact roundTrip_br ..
  case call => cases hc; exact roundTrip_call ..
  all_goals cases hc

/-- Settles O56: the fields of its format read back every operand of a well-formed instruction. -/
theorem encodingRoundTrip : Obligations.EncodingRoundTrip := by
  unfold Obligations.EncodingRoundTrip
  intro i c hc hw
  exact roundTrip_of_wellFormed hc hw

end Sys2Proof.Machine
end

section
/-! The step itself, the order of APPLY_POINT, the manual's words, the reset state, and the fields that act at once. -/
namespace Sys2Proof.Machine

/-- Settles O1: `step` matches on the queue. -/
theorem stepRunsTheFrontCommand : Obligations.StepRunsTheFrontCommand := by
  refine ⟨fun c rest s h => ?_, fun s h => ?_⟩
  · simp [step, h]
  · simp [step, h]

/-- Settles O23: the three parts of APPLY_POINT in a powered package whose reports are in. -/
theorem applyPointOrder : Obligations.ApplyPointOrder := by
  intro s hp ht verdict pending armed graded cores ready
  have hrun : exec .applyPoint s = execApplyPoint s := rfl
  have hverdict : s.applyVerdict = verdict := rfl
  have hchanges : verdict.applyChanges = (armed.1.joinLate, pending.2 ++ armed.2) := rfl
  have hcores : State.applyCores (armed.1.joinLate, pending.2 ++ armed.2) = cores := rfl
  have hready : cores.applyGroup.applyHost = ready := rfl
  clear_value ready cores graded armed pending verdict
  simp only [hrun, execApplyPoint, hp, ht, ne_eq, not_true_eq_false, decide_false, Bool.or_self, Bool.false_eq_true, if_false, hverdict, hchanges, hcores, hready]

/-- Settles O57: the decoder on ten words; only the core number of the answer is open. -/
theorem manualWords : Obligations.ManualWords := by
  intro c
  refine ⟨rfl, rfl, rfl, rfl, rfl, rfl, rfl, rfl, rfl⟩

theorem smGet_nil {α : Type} (d : Nat → α) (k : Nat) : smGet d [] k = d k := rfl

@[simp] theorem State.core_reset (c : CoreId) : State.reset.core c = coreDefault c.val := rfl
@[simp] theorem State.sd_reset (n : Nat) : State.reset.sd n = serveDefault n := rfl
@[simp] theorem State.die_reset (d : DieId) : State.reset.die d = dieDefault d.val := rfl
@[simp] theorem State.ring_reset (n : Nat) : State.reset.ring n = ringDefault n := rfl

theorem State.canonical_reset : State.reset.canonical := ⟨fun _ => rfl, fun _ => rfl, rfl, rfl⟩

/-- Settles O60: every table of the reset state is empty, and reads its default. -/
theorem resetState : Obligations.ResetState := by
  refine ⟨State.canonical_reset, rfl, rfl, rfl, rfl, rfl, rfl, rfl, rfl, rfl, rfl, rfl, rfl, fun c => ?_, fun n => ?_, fun d k => ?_, fun d => ?_, rfl, rfl, rfl,
    fun p c => ?_, fun n => rfl⟩
  · exact ⟨rfl, rfl, rfl, rfl, rfl, rfl, rfl, fun _ => rfl⟩
  · exact ⟨rfl, rfl⟩
  · simp [dieDefault, nth]
  · exact ⟨rfl, rfl⟩
  · simp only [State.reset, smGet, shareDefault]
    congr 2
    omega

/-! ### Fields that act at once -/

theorem State.atCore_reached {s : State} {c : CoreId} (hp : s.power = 0) (hc : s.coreReach c = true) (f : Core → Core) :
    s.atCore c f = s.setCore c (f (s.core c)) := by
  simp [State.atCore, hp, hc, State.modCore]

theorem State.atCore_unreached {s : State} {c : CoreId} (hc : s.coreReach c = false) (f : Core → Core) : s.atCore c f = s := by
  simp [State.atCore, hc]

/-- Clearing the ladder's event clears its fault record. -/
theorem Core.clearEvents_ladder (k : Core) : k.clearEvents 0x20 = { k with eventStat := k.eventStat &&& 0xFFFF_FFDF#32, faultInfo := 0 } := by
  simp [Core.clearEvents, w1c, evLadder]

theorem State.armChange_armed {s : State} (h : s.chg.armed.isSome = true) : s.armChange = s := by
  simp [State.armChange, h]

/-- STROBE moves the waiting writes of the named groups to the pending change, each marked late or not. -/
theorem execStrobe_moves (p : Path) (d : DieId) (groups : BitVec 16) (s : State) (hp : s.power = 0) :
    let hit := fun (w : BufWrite) => w.die == d && decide (w.group ≠ 0) && groups.getLsbD w.group
    ∃ t, exec (.strobe p d groups) s = .next t ∧
      t.chg.pending = s.chg.pending ++ (s.chg.waiting.filter hit).map (fun w => { w with late := s.afterEve }) ∧
      t.chg.waiting = s.chg.waiting.filter (fun w => !hit w) ∧
      (s.chg.waiting.filter hit ≠ [] → d.val ∈ t.chg.eligible) ∧
      { t with chg := { t.chg with pending := s.chg.pending, waiting := s.chg.waiting, eligible := s.chg.eligible } } = s := by
  intro hit
  have hrun : exec (.strobe p d groups) s = .next (s.strobeGroups d groups 0) := by
    change execStrobe p d groups s = _
    simp [execStrobe, hp]
  refine ⟨_, hrun, ?_, ?_, ?_, rfl⟩
  · simp [State.strobeGroups, hit]
  · simp [State.strobeGroups, hit]
  · intro hne
    simp only [State.strobeGroups]
    rw [if_neg (by simpa [hit, List.isEmpty_iff] using hne)]
    unfold addNew
    split
    · assumption
    · simp

/-- Settles O46: each field's command is one named change of the state. -/
theorem fieldCommands : Obligations.FieldCommands := by
  intro p d c sv on groups s hp k hit
  have at1 (f : Core → Core) := State.atCore_reached (f := f) (s := s) (c := c) hp
  have at0 (f : Core → Core) := State.atCore_unreached (f := f) (s := s) (c := c)
  have on1 (i : Instr) (t : State) (h : exec i s = .next (if s.power ≠ 0 then s else t)) : exec i s = .next t := by simpa [hp] using h
  refine ⟨on1 _ _ rfl, on1 _ _ rfl, fun h => ?_, fun h => ?_, on1 _ _ rfl, execStrobe_moves p d groups s hp, on1 _ _ rfl, on1 _ _ rfl, on1 _ _ rfl, on1 _ _ rfl,
    on1 _ _ rfl, on1 _ _ rfl, fun h => ?_, fun h => ?_⟩
  · rw [on1 _ _ (rfl : exec (.arm p) s = .next (if s.power ≠ 0 then s else s.armChange))]
    simp [State.armChange, h]
  · rw [on1 _ _ (rfl : exec (.arm p) s = .next (if s.power ≠ 0 then s else s.armChange)), State.armChange_armed h]
  · refine ⟨congrArg _ (at1 _ h), ?_, congrArg _ (at1 _ h), congrArg _ (at1 _ h), congrArg _ (at1 _ h), congrArg _ (at1 _ h)⟩
    exact congrArg _ ((at1 _ h).trans (by rw [Core.clearEvents_ladder]))
  · exact ⟨congrArg _ (at0 _ h), congrArg _ (at0 _ h), congrArg _ (at0 _ h), congrArg _ (at0 _ h), congrArg _ (at0 _ h), congrArg _ (at0 _ h)⟩

end Sys2Proof.Machine
end

section
/-! Scalar loads and stores, predicates and STATUS, and control (R249, R251, R252). -/
namespace Sys2Proof.Machine

/-! ### Loads -/

/-- What a scalar load of n bytes needs to reach the core store (R217, R232, R239, R251). -/
structure LoadGood (k : Core) (a n : Nat) : Prop where
  aligned : a % n = 0
  allowed : k.access false a (a + n) = none
  sound : k.badRange a (a + n) = false
  free : k.inflight.any (fun e => e.writes.any (Extent.overlaps ⟨false, a, a + n⟩)) = false

/-- A good load puts the number that its bytes hold. -/
theorem loadOp_good {c : CoreId} {ra : SReg} {imm : W32} {n : Nat} {s : State} (h : LoadGood (s.core c) ((s.core c).addr ra imm) n)
    (put : Core → Nat → Core) :
    loadOp c ra imm n put s = .go (s.setCore c (put (s.core c) (readNat (s.core c).store ((s.core c).addr ra imm) n))) 1 none := by
  simp [loadOp, h.aligned, h.allowed, h.sound, h.free]

/-- An immediate below 2^31 is not negative. -/
theorem msb_eq_false_of_lt {x : W32} (h : x.toNat < 2 ^ 31) : x.msb = false := by
  rw [BitVec.msb_eq_decide]
  simpa using h

/-- Settles O3: the load's checks pass, so its body is the write of one register. -/
theorem scalarLoads : Obligations.ScalarLoads := by
  refine ⟨?scalar, ?extent⟩
  case scalar =>
    intro c g rd ra td imm s n k a halign haccess hbad hfree
    have hload : LoadGood (s.core c) ((s.core c).addr ra imm) n := ⟨halign, haccess, hbad, hfree⟩
    refine ⟨?_, ?_, ?_⟩ <;> rintro rfl
    · exact writesS_of rfl (loadOp_good hload _)
    · exact writesS_of rfl (loadOp_good hload _)
    · exact writesT_of rfl (loadOp_good hload _)
  case extent =>
    intro c g rd ta imm s
    dsimp only
    intro hdesc halign hsmall hin haccess hbad hfree harrived
    refine writesS_of rfl ?_
    have hwait := not_and.2 fun h2 => Bool.not_eq_false _ ▸ harrived h2
    simp only [hdesc, halign, msb_eq_false_of_lt hsmall, Nat.not_lt.2 hin, decide_false, haccess, hbad, hfree, hwait, ne_eq, not_true_eq_false, Bool.or_self,
      Bool.false_eq_true, if_false, readNat]

/-! ### Stores -/

@[simp] theorem leBytes_length (n v : Nat) : (leBytes n v).length = n := by simp [leBytes]

/-- What a scalar store of n bytes needs to reach the core store (R217, R232, R251). -/
structure StoreGood (k : Core) (a n : Nat) : Prop where
  aligned : a % n = 0
  allowed : k.access true a (a + n) = none
  free : k.inflight.any (fun e => (e.reads ++ e.writes).any (Extent.overlaps ⟨false, a, a + n⟩)) = false

theorem storeOp_good {c : CoreId} {ra : SReg} {imm : W32} {bs : Core → Bytes} {t : Nat} {s : State}
    (h : StoreGood (s.core c) ((s.core c).addr ra imm) (bs (s.core c)).length) :
    storeOp c ra imm bs t s = .go (s.setCore c (((s.core c).storeAt ((s.core c).addr ra imm) (bs (s.core c))).usableFrom ((s.core c).addr ra imm)
      ((s.core c).addr ra imm + (bs (s.core c)).length) t (t + 4))) 1 none := by
  have hfree := h.free
  simp [storeOp, h.aligned, h.allowed] at hfree ⊢
  simpa using hfree

/-- What a ready store of n bytes with value v leaves. -/
def Stores (c : CoreId) (g : Guard) (a n : Nat) (s : State) (i : Instr) (v : Nat) : Prop :=
  Ready c i g s → turnsCore i c s fun k' =>
    readBytes k'.store a n = leBytes n v ∧ (∀ x, x < a ∨ a + n ≤ x → memGet k'.store x = memGet (s.core c).store x) ∧
    (∃ old, k'.stored = old ++ [(⟨false, a, a + n⟩, s.fireAt c i g + 4)]) ∧
    k'.pc = (s.core c).pc + 8 ∧ k'.cyc = s.fireAt c i g + 1 ∧ (s.core c).sameButStore k'

theorem Core.sameButStore_stored (k : Core) (a lo hi t n m : Nat) (bs : Bytes) (p : W64) :
    k.sameButStore (((k.storeAt a bs).usableFrom lo hi t n).advance p m) := rfl

/-- A store instruction with a good address leaves the bytes of its source there, and the rest as it was. -/
theorem stores_of_good {c : CoreId} {g : Guard} {ra : SReg} {imm : W32} {s : State} {n : Nat} {i : Instr} {v : Core → Nat}
    (he : exec i s = .next (fire c i g (storeOp c ra imm fun k => leBytes n (v k)) s))
    (h : StoreGood (s.core c) ((s.core c).addr ra imm) n) : Stores c g ((s.core c).addr ra imm) n s i (v (s.core c)) := by
  intro hr
  have hgood : StoreGood (s.core c) ((s.core c).addr ra imm) (leBytes n (v (s.core c))).length := by simpa using h
  have hrun := fire_ready_core hr (storeOp c ra imm fun k => leBytes n (v k)) (fun k => (k.storeAt (k.addr ra imm) (leBytes n (v k))).usableFrom (k.addr ra imm)
    (k.addr ra imm + (leBytes n (v k)).length) (s.fireAt c i g) (s.fireAt c i g + 4)) 1 none (storeOp_good hgood)
  refine ⟨_, he.trans (congrArg _ hrun), ?_, ?_, ⟨(s.core c).stored.filter fun e => decide (s.fireAt c i g < e.2), ?_⟩, rfl, rfl, Core.sameButStore_stored ..⟩
  · show readBytes (writeBytes _ _ _) _ _ = _
    simpa using readBytes_writeBytes (s.core c).store ((s.core c).addr ra imm) (leBytes n (v (s.core c)))
  · intro x hx
    exact memGet_writeBytes_out _ _ _ _ (by simpa using hx)
  · simp only [Core.advance, Core.usableFrom, leBytes_length]
    rfl

/-- The bits of a number with one field replaced. -/
theorem testBit_setField (n v : Nat) {hi lo : Nat} (h : lo ≤ hi) (j : Nat) :
    (setField n hi lo v).testBit j = if lo ≤ j ∧ j ≤ hi then v.testBit (j - lo) else n.testBit j := by
  set w := hi + 1 - lo with hw
  have hlow : n % 2 ^ lo < 2 ^ lo := Nat.mod_lt _ (by positivity)
  have hv : v % 2 ^ w < 2 ^ w := Nat.mod_lt _ (by positivity)
  have hsplit : n = 2 ^ lo * (2 ^ w * (n / 2 ^ lo / 2 ^ w) + n / 2 ^ lo % 2 ^ w) + n % 2 ^ lo := by
    rw [Nat.div_add_mod, Nat.div_add_mod]
  have hset : setField n hi lo v = 2 ^ lo * (2 ^ w * (n / 2 ^ lo / 2 ^ w) + v % 2 ^ w) + n % 2 ^ lo := by
    have hmul : 2 ^ lo * (2 ^ w * (n / 2 ^ lo / 2 ^ w) + n / 2 ^ lo % 2 ^ w) =
        2 ^ lo * (2 ^ w * (n / 2 ^ lo / 2 ^ w)) + n / 2 ^ lo % 2 ^ w * 2 ^ lo := by ring
    have hmul' : 2 ^ lo * (2 ^ w * (n / 2 ^ lo / 2 ^ w) + v % 2 ^ w) =
        2 ^ lo * (2 ^ w * (n / 2 ^ lo / 2 ^ w)) + v % 2 ^ w * 2 ^ lo := by ring
    simp only [setField, field, Nat.shiftLeft_eq, Nat.shiftRight_eq_div_pow, ← hw]
    omega
  rw [hset]
  conv_rhs => rw [hsplit]
  simp only [Nat.testBit_two_pow_mul_add _ hlow, Nat.testBit_two_pow_mul_add _ hv, Nat.testBit_two_pow_mul_add _ (Nat.mod_lt (n / 2 ^ lo) (Nat.two_pow_pos w)),
    Nat.testBit_mod_two_pow]
  by_cases h1 : j < lo
  · simp [h1, Nat.not_le.2 h1]
  by_cases h2 : j - lo < w
  · have hj : lo ≤ j ∧ j ≤ hi := by omega
    simp [h1, h2, hj]
  · have hj : ¬ (lo ≤ j ∧ j ≤ hi) := by omega
    simp [h1, h2, hj]

/-- The bits of a descriptor register that `dset` has written. -/
theorem getLsbD_setField (x : BitVec 128) (v : W64) {hi lo : Nat} (h : lo ≤ hi) (h64 : hi < 128) (j : Nat) :
    (BitVec.ofNat 128 (setField x.toNat hi lo v.toNat)).getLsbD j =
      if lo ≤ j ∧ j ≤ hi then v.getLsbD (j - lo) else x.getLsbD j := by
  rw [BitVec.getLsbD_ofNat, testBit_setField _ _ h]
  by_cases hj : j < 128
  · simp only [hj, decide_true, Bool.true_and]
    rfl
  · have hout : ¬ (lo ≤ j ∧ j ≤ hi) := by omega
    simp [hj, hout, BitVec.getLsbD_of_ge x j (Nat.not_lt.1 hj)]

theorem dset_sets (c : CoreId) (g : Guard) (td : TReg) (f : DField) (ra : SReg) (imm : W32) (s : State) (hr : Ready c (.dset c g td f ra imm) g s) :
    turnsCore (.dset c g td f ra imm) c s fun k' =>
      (∀ j, (k'.treg td).getLsbD j =
        if (dfieldBits f).2 ≤ j ∧ j ≤ (dfieldBits f).1 then ((s.core c).sreg ra + imm.signExtend 64).getLsbD (j - (dfieldBits f).2)
        else ((s.core c).treg td).getLsbD j) ∧
      (∀ r, r ≠ td → k'.treg r = (s.core c).treg r) ∧ k'.pc = (s.core c).pc + 8 ∧ (s.core c).sameButT k' := by
  have hbits : (dfieldBits f).2 ≤ (dfieldBits f).1 ∧ (dfieldBits f).1 < 128 := by cases f <;> decide
  refine ⟨_, congrArg Host.Outcome.next (fire_ready_core hr _ (fun k => (k.setT td
    (BitVec.ofNat 128 (setField (k.treg td).toNat (dfieldBits f).1 (dfieldBits f).2 (k.addr ra imm)))).readyT td (s.fireAt c _ g + 1)) 1 none rfl),
    fun j => ?_, fun r hne => Core.treg_setT_other _ _ _ _ hne, rfl, rfl⟩
  rw [← getLsbD_setField _ _ hbits.1 hbits.2]
  exact congrArg (BitVec.getLsbD · j) (Core.treg_setT_same _ _ _)

/-- Settles O4: a store's checks pass, so its body writes bytes; `dset` replaces one field. -/
theorem scalarStores : Obligations.ScalarStores := by
  refine ⟨?scalar, ?dset⟩
  case scalar =>
    intro c g rb ra tb imm s n k a stores halign haccess hfree
    have hgood : StoreGood (s.core c) ((s.core c).addr ra imm) n := ⟨halign, haccess, hfree⟩
    refine ⟨?_, ?_, ?_⟩ <;> rintro rfl
    · exact stores_of_good (v := fun k => (k.sreg rb).toNat) rfl hgood
    · exact stores_of_good (v := fun k => (k.sreg rb).toNat) rfl hgood
    · exact stores_of_good (v := fun k => (k.treg tb).toNat) rfl hgood
  case dset =>
    intro c g td f ra imm s hr
    have h := dset_sets c g td f ra imm s hr
    cases f <;> exact h

/-! ### Predicates, STATUS and special values -/

/-- An instruction whose body puts f into a predicate register. -/
theorem writesP_put {i : Instr} {c : CoreId} {g : Guard} {pd : PReg} {s : State} {f v : Core → Bool}
    (he : exec i s = .next (fire c i g (putP c pd f) s)) (hv : ∀ k, f k = v k) : writesP i c g pd s v :=
  writesP_of he (by rw [← hv]; rfl)

/-- `rds` writes the special value of the cycle it fires in. -/
theorem writesS_rds {c : CoreId} {g : Guard} {rd : SReg} {sp : Special} {s : State} {v : Core → W64}
    (hv : specialValue s c (s.fireAt c (.rds c g rd sp) g) sp = v (s.core c)) : writesS (.rds c g rd sp) c g rd 1 s v :=
  writesS_of rfl (by rw [← hv]; rfl)

theorem slt_eq_decide (a b : W64) : a.slt b = decide (a.toInt < b.toInt) := by simp [BitVec.slt]

theorem not_slt_eq_decide (a b : W64) : (!a.slt b) = decide (b.toInt ≤ a.toInt) := by
  rw [slt_eq_decide, ← decide_not, decide_eq_decide]
  omega

theorem not_ult_eq_decide (a b : W64) : (!a.ult b) = decide (b.toNat ≤ a.toNat) := by
  rw [BitVec.ult_eq_decide, ← decide_not, decide_eq_decide]
  omega

theorem bne_eq_decide_ne {α : Type} [DecidableEq α] (a b : α) : (a != b) = decide (a ≠ b) := by
  simp [bne, decide_not, beq_eq_decide]

/-- CLST takes the named bits out of STATUS, and nothing else. -/
theorem clst_clears (c : CoreId) (g : Guard) (imm : W32) (s : State) (hr : Ready c (.clst c g imm) g s) :
    turnsCore (.clst c g imm) c s fun k' =>
      (∀ j, k'.status.getLsbD j = ((s.core c).status.getLsbD j && !imm.getLsbD j)) ∧
      { k' with status := (s.core c).status, pc := (s.core c).pc, cyc := (s.core c).cyc } = s.core c ∧ k'.pc = (s.core c).pc + 8 := by
  refine ⟨_, congrArg Host.Outcome.next (fire_ready_core hr _ (fun k => { k with status := k.status &&& ~~~imm }) 1 none rfl), fun j => ?_, rfl, rfl⟩
  show ((s.core c).status &&& ~~~imm).getLsbD j = _
  by_cases hj : j < 32
  · simp [hj]
  · simp [BitVec.getLsbD_of_ge _ j (Nat.not_lt.1 hj)]

/-- Settles O5: each instruction is the write of one register, or of STATUS. -/
theorem predicatesAndStatus : Obligations.PredicatesAndStatus := by
  refine ⟨?predicates, ?special⟩
  case predicates =>
    intro c g pd pa pb b ra rb rd imm s x y
    refine ⟨?eq, ?ne, ?lt, ?ge, ?ltu, ?geu, ?and, ?or, ?xor, ?not, ?set, ?tst, ?rdst, clst_clears c g imm s⟩
    case lt => exact writesP_put rfl fun _ => slt_eq_decide _ _
    case ge => exact writesP_put rfl fun _ => not_slt_eq_decide _ _
    case ltu => exact writesP_put rfl fun _ => BitVec.ult_eq_decide
    case geu => exact writesP_put rfl fun _ => not_ult_eq_decide _ _
    case ne | tst => exact writesP_put rfl fun _ => bne_eq_decide_ne _ _
    case eq => exact writesP_put rfl fun _ => beq_eq_decide _ _
    case rdst => exact writesS_of rfl rfl
    case and | or | xor | not | set => exact writesP_put rfl fun _ => rfl
  case special =>
    intro c g rd s
    refine ⟨writesS_rds rfl, writesS_rds rfl, writesS_rds rfl, fun a ha => writesS_rds ?epoch, writesS_rds rfl, writesS_rds rfl, writesS_rds rfl⟩
    case epoch => simp only [specialValue, ha]

/-! ### Control -/

/-- A ready instruction that leaves the core but for the PC and the cycle. -/
theorem turnsCore_onward {i : Instr} {c : CoreId} {g : Guard} {s : State} {body : Nat → State → Fire} {cost : Nat} {next : Option W64}
    (he : exec i s = .next (fire c i g body s)) (hr : Ready c i g s) (hb : body (s.fireAt c i g) s = .go s cost next) :
    turnsCore i c s fun k' => k' = { s.core c with pc := next.getD ((s.core c).pc + 8), cyc := s.fireAt c i g + cost } := by
  refine ⟨_, ?_, rfl⟩
  rw [he, fire_ready hr, hb]
  rfl

/-- A ready instruction that changes its core by f, and the PC and the cycle. -/
theorem turnsCore_core {i : Instr} {c : CoreId} {g : Guard} {s : State} {body : Nat → State → Fire} {cost : Nat} {next : Option W64} (f : Core → Core)
    (he : exec i s = .next (fire c i g body s)) (hr : Ready c i g s) (hb : body (s.fireAt c i g) s = .go (s.setCore c (f (s.core c))) cost next) :
    turnsCore i c s fun k' => k' = (f (s.core c)).advance (next.getD ((s.core c).pc + 8)) (s.fireAt c i g + cost) :=
  ⟨_, he.trans (congrArg _ (fire_ready_core hr body f cost next hb)), rfl⟩

/-- The conditions of R230 on a signed value. -/
theorem condHolds_iff (cond : Cond) (x : W64) : condHolds cond x = true ↔ match cond with
    | .always => True | .z => x.toInt = 0 | .nz => x.toInt ≠ 0 | .lt => x.toInt < 0 | .ge => 0 ≤ x.toInt | .gt => 0 < x.toInt | .le => x.toInt ≤ 0 := by
  have hzero : x.toInt = 0 ↔ x = 0#64 := by rw [← BitVec.toInt_inj]; simp
  cases cond
  case always => simp [condHolds]
  case z => simp [condHolds, hzero]
  case nz => simp [condHolds, hzero]
  case lt => simp [condHolds, BitVec.slt]
  case ge => simp [condHolds, BitVec.slt]
  case gt => simp [condHolds, BitVec.slt]
  case le => simp [condHolds, BitVec.slt]

/-- Settles O6: each control instruction's body, when what it waits for is there. -/
theorem controlFlow : Obligations.ControlFlow := by
  intro c g ra cond off mask ta s k dest v taken onward
  have htaken : taken ↔ condHolds cond (k.sreg ra) = true := by
    refine Iff.trans ?_ (condHolds_iff cond (k.sreg ra)).symm
    cases cond <;> exact Iff.rfl
  refine ⟨fun hr ht => ?br, fun hr ht => ?brNot, fun hr hs => ?call, fun p rest hr hs => ?ret, fun hr => ?endProg, fun hr hw => ?wait, fun hr hd hw ha => ?waitd,
    fun hr => turnsCore_onward (cost := 1) (next := none) rfl hr rfl⟩
  case br =>
    exact turnsCore_onward rfl hr (next := some dest) (if_pos (htaken.1 ht))
  case brNot =>
    exact turnsCore_onward (next := none) rfl hr (if_neg fun h => ht (htaken.2 h))
  case call =>
    exact turnsCore_core (fun k => { k with stack := (k.pc + 8) :: k.stack }) rfl hr (next := some dest) (if_neg (Nat.not_le.2 hs))
  case ret =>
    have hbody := turnsCore_core (fun k => { k with stack := rest }) rfl hr (cost := 3) (next := some p)
    exact hbody (by simp only [show (s.core c).stack = p :: rest from hs])
  case endProg =>
    exact turnsCore_core (fun k => { k with run := false, ended := true }) rfl hr rfl
  case wait =>
    refine turnsCore_onward (next := none) rfl hr (if_neg ?_)
    simpa using hw
  case waitd =>
    refine turnsCore_onward (cost := 1) (next := none) rfl hr ?_
    have hfree : (k.inflight.any fun u => u.writes.any ((descOf (k.treg ta)).extent s.tick.seq).overlaps) = false := by simpa using hw
    simp only [k] at hd hfree ha
    simp only [hd, hfree, ha, Bool.false_eq_true, if_false, if_true]

/-! ### Guards that are off, and completion -/

/-- An instruction whose guard is off costs one cycle (R211). -/
theorem fire_guardOff {c : CoreId} {g : Guard} {i : Instr} (body : Nat → State → Fire) {s : State} (hrun : (s.core c).run = true)
    (hwork : s.tick.phase = .work) (hin : (s.core c).inProgram (s.core c).pc = true)
    (hsound : (s.core c).badRange (s.core c).pc.toNat ((s.core c).pc.toNat + 8) = false)
    (hword : decodeAithal c (s.core c).fetch = some (asWord i)) (hfree : (s.core c).pendingReg ⟨[], [], [g.pred]⟩ = false)
    (htime : (s.core c).regsReady ⟨[], [], [g.pred]⟩ < s.dln c) (hoff : (s.core c).enabled g = false) :
    fire c i g body s =
      s.setCore c { s.core c with pc := (s.core c).pc + 8, cyc := (s.core c).regsReady ⟨[], [], [g.pred]⟩ + 1 } := by
  simp only [fire, hrun, hwork, hin, hsound, hword, hfree, hoff, Nat.not_le.2 htime, Bool.not_true, Bool.not_false, bne_self_eq_false,
    Bool.or_self, Bool.false_eq_true, if_false, if_true, ne_eq, not_true_eq_false, decide_false]
  simp only [State.modCore, Core.advance, hrun]

/-- Settles O7: the guard is read before the body, and a completion takes its instruction out of flight. -/
theorem firingAndCompletion : Obligations.FiringAndCompletion := by
  refine ⟨?guard, ?completion⟩
  case guard =>
    intro c g i body s k hrun hwork hin hsound hword hfree htime hoff
    exact fire_guardOff body hrun hwork hin hsound hword hfree htime hoff
  case completion =>
    intro c u d s k hfind hdone hsettled hlast hphase
    have hopen : (s.tick.phase == .work || s.tick.phase == .drain) = true := by
      obtain h | h := hphase <;> simp [h]
    change execUnitInstructionComplete c u.id s = _
    simp only [execUnitInstructionComplete, show (s.core c).inflight.find? (fun v => v.id == u.id) = some u from hfind, hdone, hsettled, hopen,
      hlast, decide_true, Bool.and_self, if_true]
    rfl

/-! ### Traps -/

/-- Core 0 stands before `ret` with an empty return stack; its guard p0 is usable from cycle 1 on. -/
def lateRet : State :=
  { State.reset with
    tick := { State.reset.tick with phase := .work }
    cores := [(0, { coreDefault 0 with
      run := true, pc := 0x10_0000, prog0 := 0x10_0000, prog1 := 0x100, pReady := [(0, 1)]
      store := writeBytes [] 0x10_0000 (leBytes 8 ((encode (.ret 0 ⟨0, false⟩)).getD 0).toNat) })] }

theorem lateRet_ready : Ready 0 (.ret 0 ⟨0, false⟩) ⟨0, false⟩ lateRet :=
  ⟨rfl, rfl, by decide +kernel, by decide +kernel, by decide +kernel, by decide +kernel, by decide +kernel, by decide +kernel, by decide +kernel⟩

/-- The cycle that core 0 has reached in the state an outcome leaves. -/
def cycAfter : Out → Option Nat
  | .next t => some (t.core 0).cyc
  | _ => none

/-- The trap of `lateRet` leaves the core in the cycle the instruction fired in; the bare halt response leaves it in the cycle before. -/
theorem lateRet_cyc : cycAfter (exec (.ret 0 ⟨0, false⟩) lateRet) = some 1 ∧
    cycAfter (.next (haltCore 0 0x11 (lateRet.core 0).pc lateRet)) = some 0 := by
  decide +kernel

/-- Refutes O8: an instruction that waited for a register traps in the cycle it fires in, and its core has reached that cycle; the statement's
`haltCore c code k.pc s` keeps the earlier cycle of `s`. -/
theorem not_haltsAndTraps : ¬ Obligations.HaltsAndTraps := by
  rintro ⟨htraps, -⟩
  obtain ⟨-, -, -, -, -, hret⟩ := htraps 0 ⟨0, false⟩ 0 0 0 lateRet
  have hrun := hret rfl lateRet_ready
  obtain ⟨hfired, hbare⟩ := lateRet_cyc
  rw [hrun, hbare] at hfired
  cases hfired

end Sys2Proof.Machine
end

section
/-! The tick: leap ticks, verdicts, what may follow an apply point, starts and deadlines (R163 to R182, R198 to R209). -/
namespace Sys2Proof.Machine

/-! ### Single bits of a register -/

theorem getLsbD_setBit (r : W32) (i j : Nat) : (setBit r i).getLsbD j = (r.getLsbD j || (decide (j = i) && decide (i < 32))) := by
  unfold setBit
  by_cases hj : j < 32
  · by_cases hij : j = i
    · subst hij
      simp [hj]
    · by_cases hlt : j < i
      · simp [hj, hlt, hij]
      · have hpos : j - i ≠ 0 := by omega
        simp [hj, hij, hlt, hpos]
  · simp only [BitVec.getLsbD_of_ge _ j (Nat.not_lt.1 hj), Bool.false_or]
    rcases Nat.lt_or_ge i 32 with hi | hi
    · simp [show j ≠ i by omega]
    · simp [Nat.not_lt.2 hi]

/-! ### Leap ticks -/

/-- A stamp of the eve before asks for a leap tick (R182). -/
def State.leapAsked (s : State) : Bool :=
  s.stampers.any fun m => match s.stampOf (s.tick.count - 1) m with | some x => x.leap | none => false

/-- A leap tick fell within the 62 ticks before (R182). -/
def State.leapNear (s : State) : Bool := match s.tick.lastLeap with
  | some l => decide ((s.tick.count - l).toNat ≤ 62)
  | none => false

/-- What stands against a leap tick that is asked for (R182). -/
def State.leapBarred (s : State) : Bool := s.lostNow || s.held || (s.leapNear && !s.emergency)

theorem State.leapAsked_iff (s : State) :
    s.leapAsked = true ↔ ∃ m ∈ s.stampers, ∃ p, s.stampOf (s.tick.count - 1) m = some p ∧ p.leap = true := by
  simp only [State.leapAsked, List.any_eq_true]
  refine exists_congr fun m => and_congr_right fun _ => ?_
  cases s.stampOf (s.tick.count - 1) m <;> simp

theorem State.leapNear_iff (s : State) : s.leapNear = true ↔ ∃ l, s.tick.lastLeap = some l ∧ (s.tick.count - l).toNat ≤ 62 := by
  unfold State.leapNear
  cases s.tick.lastLeap <;> simp

theorem State.leapBarred_iff (s : State) : s.leapBarred = true ↔
    s.lostNow = true ∨ s.held = true ∨ ((∃ l, s.tick.lastLeap = some l ∧ (s.tick.count - l).toNat ≤ 62) ∧ s.emergency = false) := by
  simp only [State.leapBarred, Bool.or_eq_true, Bool.and_eq_true, State.leapNear_iff, Bool.not_eq_true', or_assoc]

/-- LEAP_TICK_SCHEDULING in a tick that is no leap tick and outside a recovery hold (R182). -/
theorem State.leapSchedule_eq {s : State} (hleap : s.tick.leap = false) (hrec : s.tick.recovery = none) : s.leapSchedule =
    { s with tick := { s.tick with
        leapTaken := s.tick.leapReqs, event := if s.leapAsked && s.leapBarred then setBit s.tick.event 5 else s.tick.event
        leapNext := if s.leapAsked && !s.leapBarred then true else s.tick.leapNext } } := by
  have hasked : (!s.tick.leap && s.tick.recovery.isNone && s.leapAsked) = s.leapAsked := by simp [hleap, hrec]
  change (if (!(!s.tick.leap && s.tick.recovery.isNone && s.leapAsked)) = true then _ else if s.leapBarred = true then _ else _) = _
  rw [hasked]
  cases s.leapAsked <;> cases s.leapBarred <;> rfl

/-- Settles O26: the request is taken up, deferred, or not there. -/
theorem leapTicks : Obligations.LeapTicks := by
  intro s hleap hrec
  dsimp only
  rw [← State.leapAsked_iff, ← State.leapBarred_iff, State.leapSchedule_eq hleap hrec]
  refine ⟨fun ha hb => ?_, fun ha hb => ?_, fun ha => ?_, rfl, rfl⟩
  · simp [ha, hb]
  · simp only [ha, hb, Bool.and_self, Bool.not_true, Bool.and_false, Bool.false_eq_true, if_true, if_false, true_and]
    refine ⟨by simp [getLsbD_setBit], fun j hj => by simp [getLsbD_setBit, hj]⟩
  · simp [ha]

/-! ### One change made in turn -/

/-- What one turn keeps, many turns keep. -/
theorem foldl_keeps {α β σ : Type} (p : σ → β) {f : σ → α → σ} (h : ∀ s x, p (f s x) = p s) (l : List α) (s : σ) : p (l.foldl f s) = p s := by
  induction l generalizing s with
  | nil => rfl
  | cons x l ih => exact (ih _).trans (h s x)

theorem State.foldl_modCore_frame {α : Type} (c : α → CoreId) (f : State → α → Core → Core) (l : List α) (s : State) :
    { l.foldl (fun s x => s.modCore (c x) (f s x)) s with cores := s.cores } = s :=
  foldl_keeps (f := fun s x => s.modCore (c x) (f s x)) (fun u => { u with cores := s.cores }) (fun _ _ => rfl) l s

theorem asCore_val (c : CoreId) : asCore c.val = c := Fin.ext (Nat.mod_eq_of_lt c.isLt)

/-- A change that is idempotent leaves a core as its first turn does. -/
theorem State.core_foldl_modCore_idem {f : Core → Core} (hf : ∀ k, f (f k) = f k) (g : Nat → CoreId) (c : CoreId) (l : List Nat) (s : State) :
    (l.foldl (fun s i => s.modCore (g i) f) s).core c = if c ∈ l.map g then f (s.core c) else s.core c := by
  induction l generalizing s with
  | nil => rfl
  | cons i l ih =>
    rw [List.foldl_cons, ih]
    by_cases hc : c = g i
    · subst hc
      simp [hf]
    · have hne : (s.modCore (g i) f).core c = s.core c := State.core_modCore_other s (g i) c f hc
      simp [hne, hc]

theorem smGet_of_notMem {α : Type} (d : Nat → α) {m : SMap α} {k : Nat} (h : k ∉ m.map Prod.fst) : smGet d m k = d k := by
  induction m with
  | nil => rfl
  | cons e m ih =>
    obtain ⟨hk, hm⟩ := not_or.1 (List.mem_cons.not.1 h)
    simp only [smGet, if_neg hk, ih hm]

/-- A core that the state does not list reads as reset leaves it. -/
theorem State.core_of_notMem {s : State} {c : CoreId} (h : c.val ∉ s.cores.map Prod.fst) : s.core c = coreDefault c.val :=
  smGet_of_notMem _ h

/-- An idempotent change of the listed cores that leaves a core at reset alone is the change of every core. -/
theorem State.core_eachCore {f : Core → Core} (hf : ∀ k, f (f k) = f k) (h0 : ∀ n, f (coreDefault n) = coreDefault n) (s : State) (c : CoreId) :
    (s.eachCore f).core c = f (s.core c) := by
  refine (State.core_foldl_modCore_idem hf _ c (s.cores.map Prod.fst) s).trans ?_
  split
  case isTrue => rfl
  case isFalse h =>
    have hval : c.val ∉ s.cores.map Prod.fst := fun hm => h (List.mem_map.2 ⟨c.val, hm, asCore_val c⟩)
    rw [State.core_of_notMem hval, h0]

theorem State.eachCore_frame (f : Core → Core) (s : State) : { s.eachCore f with cores := s.cores } = s :=
  State.foldl_modCore_frame _ (fun _ _ => f) _ s

/-! ### The verdict -/

theorem Core.dropFails_idem (t : W48) (k : Core) : (k.dropFails t).dropFails t = k.dropFails t := by
  simp [Core.dropFails, List.filter_filter]

theorem State.core_discardTick (s : State) (t : W48) (c : CoreId) : (s.discardTick t).core c = (s.core c).dropFails t :=
  State.core_eachCore (Core.dropFails_idem t) (fun _ => rfl) s c

theorem State.discardTick_srv (s : State) (t : W48) : (s.discardTick t).srv = { s.srv with
    refusals := s.srv.refusals.filter fun p => p.tick != t
    kv := s.srv.kv.filter fun w => w.tick != t
    draws := s.srv.draws.filter fun d => d.tick != t } := rfl

/-- Discarding a tick touches the failure lists of cores and three lists of staged effects. -/
theorem State.discardTick_frame (s : State) (t : W48) : { s.discardTick t with cores := s.cores, srv := s.srv } = s :=
  congrArg (fun u : State => { u with srv := s.srv }) (State.eachCore_frame (fun k => k.dropFails t) s)

/-! #### The commit leaves other ticks' staged effects -/

/-- The side effects at the home dies that wait for the verdict on their tick: staged KV writes and draws. -/
def State.staged (s : State) : List KvStage × List Draw := (s.srv.kv, s.srv.draws)

/-- An update of the state that leaves both lists. -/
@[simp] theorem State.staged_mk (s : State) (pending fab grp free fuses cores dies tick alm member flits nextFlit reducers inbox wire outbound nextReq serve
    rings fw loadPhase aux genActive genStaged chg regs pow load power) (reqs stage freed nextOrder lanes fills kept refusals ledger laneLog) :
    (State.mk pending fab grp free fuses cores dies tick alm member flits nextFlit reducers inbox wire outbound nextReq serve
      (Serving.mk reqs stage freed nextOrder lanes fills s.srv.draws kept s.srv.kv refusals ledger laneLog) rings fw
      loadPhase aux genActive genStaged chg regs pow load power).staged = s.staged := rfl

@[simp] theorem State.staged_ite (p : Prop) [Decidable p] (s t : State) : (if p then s else t).staged = if p then s.staged else t.staged := apply_ite ..
@[simp] theorem State.modSd_staged (s : State) (d : Nat) (f : ServeDie → ServeDie) : (s.modSd d f).staged = s.staged := rfl
@[simp] theorem State.modReq_staged (s : State) (i : Nat) (f : Req → Req) : (s.modReq i f).staged = s.staged := rfl
@[simp] theorem State.writeCarve_staged (s : State) (o a : Nat) (bs : Bytes) : (s.writeCarve o a bs).staged = s.staged := by
  unfold State.writeCarve; split <;> rfl
@[simp] theorem State.eachCore_staged (s : State) (f : Core → Core) : (s.eachCore f).staged = s.staged :=
  foldl_keeps (f := fun s i => s.modCore ⟨i % 96, by omega⟩ f) State.staged (fun _ _ => rfl) _ s
@[simp] theorem State.ringPut_staged (s : State) (i : Nat) (e : TokEnt) : (s.ringPut i e).staged = s.staged := by
  simp [State.ringPut]
@[simp] theorem State.emitToken_staged (s : State) (i : Nat) (d : Draw) (draft last : Bool) : (s.emitToken i d draft last).staged = s.staged := by
  simp [State.emitToken]
@[simp] theorem State.finish_staged (s : State) (i : Nat) (c : EndCause) : (s.finish i c).staged = s.staged := rfl
@[simp] theorem State.settleKv_staged (s : State) (r n : Nat) : (s.settleKv r n).staged = s.staged := rfl
@[simp] theorem State.commitKv_staged (s : State) (w : KvStage) : (s.commitKv w).staged = s.staged := by
  cases h : s.layerRec w.die.val w.layer <;> simp [State.commitKv, h]

theorem State.emitTokens_staged (i a n : Nat) (l : List (Nat × Draw)) (s : State) :
    (l.foldl (fun s x => if (s.req i).final.isSome then s else s.emitToken i x.2 (decide (x.1 < a)) (x.1 + 1 == n)) s).staged = s.staged :=
  foldl_keeps State.staged (fun s x => by simp) l s

@[simp] theorem State.decideStep_staged (s : State) (i : Nat) (st : Step) (ys : List Draw) : (s.decideStep i st ys).staged = s.staged := by
  simp [State.decideStep, State.emitTokens_staged]

@[simp] theorem State.commitDraw_staged (s : State) (d : Draw) : (s.commitDraw d).staged = s.staged := by
  cases hs : (s.req d.tag.req).step <;> simp [State.commitDraw, hs]

theorem State.commitTick_staged (s : State) (t : W48) :
    (∀ w ∈ (s.commitTick t).srv.kv, w.tick ≠ t) ∧ (∀ w ∈ (s.commitTick t).srv.draws, w.tick ≠ t) := by
  unfold State.commitTick
  extract_lets ps _ s1 s2 ks _ s3 s4 ds _ s5
  have h4 : s4.staged = s3.staged := foldl_keeps State.staged State.commitKv_staged ks s3
  have h5 : ((ds.foldl State.commitDraw s5).eachCore fun k => k.countFails t s5.tick.count).staged = s5.staged :=
    (State.eachCore_staged ..).trans (foldl_keeps State.staged State.commitDraw_staged ds s5)
  have hkv : s5.srv.kv = s2.srv.kv.filter fun w => w.tick != t := congrArg Prod.fst h4
  have hdraws : s5.srv.draws = s4.srv.draws.filter fun d => d.tick != t := rfl
  simp only [State.staged, Prod.mk.injEq] at h5
  obtain ⟨h5kv, h5draws⟩ := h5
  refine ⟨fun w hw => ?_, fun w hw => ?_⟩
  · rw [h5kv, hkv] at hw
    simpa using (List.mem_filter.1 hw).2
  · rw [h5draws, hdraws] at hw
    simpa using (List.mem_filter.1 hw).2

/-! #### The verdict itself -/

/-- The state that a verdict on tick t starts from: MISSING_STAMP is set when a stamp has not come. -/
def State.stampsChecked (s : State) (t : W48) : State :=
  if s.stampers.any fun m => (s.stampOf t m).isNone then { s with tick := { s.tick with event := setBit s.tick.event 6 } } else s

theorem State.exists_stampsChecked (s : State) (t : W48) : ∃ e, s.stampsChecked t = { s with tick := { s.tick with event := e } } := by
  unfold State.stampsChecked
  split
  · exact ⟨_, rfl⟩
  · exact ⟨s.tick.event, rfl⟩

/-- The verdict on a tick of almanac work that is not void. -/
theorem State.verdict_eq {s : State} {r : TickRec} (hr : s.tick.hist.find? (fun x => x.tick == s.tick.count - 1) = some r) (hv : r.void = false)
    (hl : r.leap = false) (hh : r.hold = false) : s.verdict =
    if (s.verdictNotices (s.tick.count - 1)).isEmpty then
      let u := (s.stampsChecked (s.tick.count - 1)).commitTick (s.tick.count - 1)
      { u with tick := { u.tick with streak := none }, grp := { u.grp with lastCommit := s.tick.count - 1 } }
    else (s.stampsChecked (s.tick.count - 1)).loseTick (s.tick.count - 1) r.seq (s.verdictNotices (s.tick.count - 1)) := by
  simp only [State.verdict, hr, hv, hl, hh, Bool.or_self, Bool.false_eq_true, if_false, State.stampsChecked]

theorem State.discardTick_tick (s : State) (t : W48) : (s.discardTick t).tick = s.tick :=
  (congrArg State.tick (State.discardTick_frame s t) :)

/-- A lost tick changes cores, TICK and the lists of staged effects alone. -/
theorem State.loseTick_frame (s : State) (t q : W48) (ns : List Notice) :
    { s.loseTick t q ns with cores := s.cores, srv := s.srv, tick := s.tick } = s := by
  have h1 := State.discardTick_frame s t
  have h2 := State.discardTick_frame (s.discardTick t) s.tick.count
  have h3 := congrArg (fun u : State => { u with cores := s.cores, srv := s.srv, tick := s.tick }) h2
  exact Eq.trans h3 (congrArg (fun u : State => { u with tick := s.tick }) h1)

theorem State.core_loseTick (s : State) (t q : W48) (ns : List Notice) (c : CoreId) :
    (s.loseTick t q ns).core c = ((s.core c).dropFails t).dropFails s.tick.count := by
  have h : (s.loseTick t q ns).core c = ((s.discardTick t).discardTick s.tick.count).core c := rfl
  rw [h, State.core_discardTick, State.core_discardTick]

theorem State.loseTick_srv (s : State) (t q : W48) (ns : List Notice) : (s.loseTick t q ns).srv = { s.srv with
    refusals := (s.srv.refusals.filter fun p => p.tick != t).filter fun p => p.tick != s.tick.count
    kv := (s.srv.kv.filter fun w => w.tick != t).filter fun w => w.tick != s.tick.count
    draws := (s.srv.draws.filter fun d => d.tick != t).filter fun d => d.tick != s.tick.count
    ledger := ledgerShift s.srv.ledger t 2 } := rfl

/-- What two discards leave of a list of staged effects. -/
theorem tick_ne_of_mem_filter {α : Type} {f : α → W48} {l : List α} {t n : W48} :
    ∀ w ∈ (l.filter fun w => f w != t).filter (fun w => f w != n), f w ≠ t ∧ f w ≠ n := by
  intro w hw
  simp only [List.mem_filter, bne_iff_ne] at hw
  exact ⟨hw.1.2, hw.2⟩

/-- TICK of a lost tick (R176, R178, R206), but for the recovery hold. -/
theorem State.loseTick_tick (s : State) (t q : W48) (n : Notice) (ns : List Notice) :
    let k := (s.loseTick t q (n :: ns)).tick
    k.seq = q - 1 ∧ k.count = s.tick.count ∧ k.losses = satAdd 0x7FFF_FFFF s.tick.losses 1 ∧
    (k.event = setBit (setBit s.tick.event 1) 2 ∨ k.event = setBit (setBit (setBit s.tick.event 1) 2) 4) ∧
    k.lossInfo = BitVec.ofNat 32 (t.toNat % 2 ^ 16 + 2 ^ 16 * (n.cause % 16) + 2 ^ 20 * (n.member % 16) + 2 ^ 24 * (n.die % 256)) ∧
    k.hist = (s.tick.hist.map fun r => if r.tick == s.tick.count then { r with void := true } else r) ∧
    k.streak = some (q, match s.tick.streak with | some x => if x.1 = q then x.2 + 1 else 1 | none => 1) := by
  have hd : ((s.discardTick t).discardTick s.tick.count).tick = s.tick := by rw [State.discardTick_tick, State.discardTick_tick]
  simp only [State.loseTick, hd]
  split
  · exact ⟨rfl, rfl, rfl, .inr rfl, rfl, rfl, rfl⟩
  · exact ⟨rfl, rfl, rfl, .inl rfl, rfl, rfl, rfl⟩

theorem lossInfo_toNat (t : W48) (n : Notice) :
    (BitVec.ofNat 32 (t.toNat % 2 ^ 16 + 2 ^ 16 * (n.cause % 16) + 2 ^ 20 * (n.member % 16) + 2 ^ 24 * (n.die % 256))).toNat =
      t.toNat % 2 ^ 16 + 2 ^ 16 * (n.cause % 16) + 2 ^ 20 * (n.member % 16) + 2 ^ 24 * (n.die % 256) := by
  rw [BitVec.toNat_ofNat]
  omega

/-- The two ticks' side effects that a lost tick takes away. -/
theorem State.loseTick_lists (s : State) (t q : W48) (ns : List Notice) :
    let u := s.loseTick t q ns
    (∀ w ∈ u.srv.kv, w.tick ≠ t ∧ w.tick ≠ s.tick.count) ∧ (∀ w ∈ u.srv.draws, w.tick ≠ t ∧ w.tick ≠ s.tick.count) ∧
    (∀ w ∈ u.srv.refusals, w.tick ≠ t ∧ w.tick ≠ s.tick.count) ∧ u.srv.lanes = s.srv.lanes ∧ u.srv.reqs = s.srv.reqs := by
  dsimp only
  rw [State.loseTick_srv]
  exact ⟨tick_ne_of_mem_filter, tick_ne_of_mem_filter, tick_ne_of_mem_filter, rfl, rfl⟩

theorem State.loseTick_fails (s : State) (t q : W48) (ns : List Notice) (c : CoreId) :
    ((s.loseTick t q ns).core c).fails = (s.core c).fails.filter (fun x => x.1 != t && x.1 != s.tick.count) ∧
    { (s.loseTick t q ns).core c with fails := (s.core c).fails } = s.core c := by
  rw [State.core_loseTick]
  generalize s.core c = k
  refine ⟨?_, rfl⟩
  simp only [Core.dropFails, List.filter_filter]
  exact List.filter_congr fun x _ => Bool.and_comm ..

theorem void_of_mem_marked {l : List TickRec} {n : W48} :
    ∀ x ∈ l.map (fun r => if r.tick == n then { r with void := true } else r), x.tick = n → x.void = true := by
  intro x hx hxt
  obtain ⟨y, -, rfl⟩ := List.mem_map.1 hx
  by_cases hy : y.tick = n
  · simp [hy]
  · simp [hy] at hxt

/-- Settles O24: a lost tick discards, another one that is not void commits. -/
theorem lossVerdict : Obligations.LossVerdict := by
  intro s r
  dsimp only
  intro hr hv hl hh
  have hu := State.verdict_eq hr hv hl hh
  generalize s.verdict = u at hu ⊢
  generalize s.tick.count - 1 = t at hu ⊢
  obtain ⟨e, he⟩ := s.exists_stampsChecked t
  rw [he] at hu
  refine ⟨fun n ns' hns => ?lost, fun hns => ?kept⟩
  case kept =>
    rw [if_pos (by rw [hns]; rfl)] at hu
    rw [hu]
    exact ⟨rfl, rfl, State.commitTick_staged _ t⟩
  case lost =>
    rw [hns, if_neg (by simp)] at hu
    generalize hs1 : ({ s with tick := { s.tick with event := e } } : State) = s1 at hu
    have hcore (c : CoreId) : s1.core c = s.core c := hs1 ▸ rfl
    have hcount1 : s1.tick.count = s.tick.count := hs1 ▸ rfl
    obtain ⟨hseq, hcount, hlosses, hevent, hinfo, hhist, hstreak⟩ := State.loseTick_tick s1 t r.seq n ns'
    obtain ⟨hkv, hdraws, hrefusals, hlanes, hreqs⟩ := State.loseTick_lists s1 t r.seq (n :: ns')
    have hfails := State.loseTick_fails s1 t r.seq (n :: ns')
    have hframe := State.loseTick_frame s1 t r.seq (n :: ns')
    have hserve := congrArg State.serve hframe
    have hrings := congrArg State.rings hframe
    rw [hcount1] at hcount hkv hdraws hrefusals hhist
    simp only [hcore, hcount1] at hfails
    rw [← hu] at hseq hcount hlosses hevent hinfo hhist hstreak hkv hdraws hrefusals hlanes hreqs
    have hbits : u.tick.event.getLsbD 1 = true ∧ u.tick.event.getLsbD 2 = true := by
      rcases hevent with h | h <;> simp [h, getLsbD_setBit]
    refine ⟨hseq, hcount, ?_, hbits.1, hbits.2, hinfo ▸ lossInfo_toNat t n, ?_, ?_, hkv, hdraws, hrefusals, ?_, ?_, ?_, ?_, ?_⟩
    · exact hlosses.trans (hs1 ▸ rfl)
    · rw [hhist]; exact void_of_mem_marked
    · exact hstreak.trans (hs1 ▸ rfl)
    · rw [hu]; exact hfails
    · exact hlanes.trans (hs1 ▸ rfl)
    · exact hreqs.trans (hs1 ▸ rfl)
    · rw [hu]; exact hserve.trans (hs1 ▸ rfl)
    · rw [hu]; exact hrings.trans (hs1 ▸ rfl)

/-! ### What may follow an apply point -/

theorem laterThan_of_lt {a b : W48} (h : (a - b).toNat < 2 ^ 47) : (a == b || laterThan a b) = true := by
  rcases Nat.eq_zero_or_pos (a - b).toNat with h0 | h1
  · have hab : a = b := by
      have := BitVec.eq_of_toNat_eq (x := a - b) (y := 0#48) (by simpa using h0)
      simpa using congrArg (· + b) this
    simp [hab]
  · have : laterThan a b = true := by simp only [laterThan, decide_eq_true_eq]; omega
    simp [this]

theorem State.patchEnd_tick (s : State) (v : Nat) : (s.patchEnd v).tick = s.tick := State.post_tick ..
theorem State.patchEnd_alm (s : State) (v : Nat) : (s.patchEnd v).alm = s.alm := State.post_alm ..

/-- The frame of a patch's stores and of the windows that it places: cores and sections. -/
theorem State.patchStores_tick (s : State) (a : Almanac) (ws : List (Nat × Nat × Bytes)) : (s.patchStores a ws).tick = s.tick :=
  foldl_keeps (f := fun (s : State) (w : Nat × Nat × Bytes) => s.modCore (asCore w.1) fun k => k.storeAt w.2.1 w.2.2) State.tick (fun _ _ => rfl) ws _

theorem State.placeCores_tick (a : Almanac) (aux : State → List AuxSec) (l : List CoreEnt) (s : State) :
    (l.foldl (fun (s : State) e => s.placeCore a (aux s) e) s).tick = s.tick :=
  foldl_keeps (f := fun (s : State) e => s.placeCore a (aux s) e) State.tick (fun _ _ => rfl) l s

theorem State.setBudgets_frame (b : Nat) (s : State) :
    { [0, 1].foldl (fun (s : State) d => if s.tick.budgetSet.contains d then s else s.modSd d fun x => { x with budget := b }) s with serve := s.serve } = s :=
  foldl_keeps (fun u : State => { u with serve := s.serve }) (fun s d => by split <;> rfl) _ s

/-- A patch whose almanac is there leaves the counts of TICK, and its almanac with the next epoch is in force. -/
theorem State.applyPatch_some {s : State} {p : Patch} {a b : Almanac} (ha : s.alm = some a) (hb : p.alm = some b) :
    let b' := almOf (withEpoch b.raw (a.patchEpoch + 1))
    (s.applyPatch p).tick = { s.tick with patch := none, basePeriod := b'.period } ∧ (s.applyPatch p).alm = some b' := by
  simp only [State.applyPatch, ha, hb, State.patchEnd_tick, State.patchEnd_alm]
  generalize almOf (withEpoch b.raw (a.patchEpoch + 1)) = b'
  have h1 := s.patchStores_tick b' p.writes
  generalize s.patchStores b' p.writes = s1 at h1 ⊢
  have h2 : (if p.structural = true then b'.cores.foldl (fun s e => s.placeCore b' s.aux e) s1 else s1).tick = s.tick := by
    split
    · exact (State.placeCores_tick b' State.aux b'.cores s1).trans h1
    · exact h1
  generalize (if p.structural = true then b'.cores.foldl (fun s e => s.placeCore b' s.aux e) s1 else s1) = s2 at h2 ⊢
  split
  · refine ⟨(congrArg State.tick (State.setBudgets_frame _ _)).trans ?_, (congrArg State.alm (State.setBudgets_frame _ _)).trans rfl⟩
    simp only [h2]
  · simp only [h2, and_self]

/-- A patch leaves the counts of TICK. -/
theorem State.applyPatch_counts (s : State) (p : Patch) :
    (s.applyPatch p).tick.count = s.tick.count ∧ (s.applyPatch p).tick.seq = s.tick.seq := by
  cases ha : s.alm with
  | none => simp [State.applyPatch, ha]
  | some a =>
    cases hb : p.alm with
    | none => simp [State.applyPatch, ha, hb]
    | some b => simp [(State.applyPatch_some ha hb).1]

/-- STRUCTURAL_PATCH_APPLY at an apply point with no lane in flight and no lost verdict (R200). -/
theorem structuralPatchApply_applies {s : State} {p : Patch} (h0 : s.power = 0) (ht : s.tick.phase = .applied) (hp : s.tick.patch = some p)
    (hs : p.structural = true) (hg : p.agreed = true) (hl : laterThan p.target (s.tick.count + 1) = false) (he : s.srv.lanes = []) (hn : s.lostNow = false) :
    exec .structuralPatchApply s = .next { s.applyPatch p with tick := { (s.applyPatch p).tick with leapNext := true }, reducers := [] } := by
  have h : exec .structuralPatchApply s = execStructuralPatchApply s := rfl
  rw [h]
  simp only [execStructuralPatchApply, hp, h0, ht, hs, hg, hl, he, hn, ne_eq, not_true_eq_false, decide_false, Bool.not_true, Bool.or_self,
    List.isEmpty_nil, Bool.false_eq_true, if_false]

/-- CHANGE_ROLLBACK touches the changes alone, each when its moves are used up (R536). -/
theorem changeRollback_rolls (s : State) (h0 : s.power = 0) (ht : s.tick.phase = .applied) :
    ∃ t, exec .changeRollback s = .next t ∧ { t with chg := s.chg } = s ∧
      (16 < s.chg.pMoves → t.chg.pending = [] ∧ t.chg.result = 3) ∧ (16 < s.chg.aMoves → t.chg.armed = none ∧ t.chg.result = 3) ∧
      (s.chg.pMoves ≤ 16 → t.chg.pending = s.chg.pending) ∧ (s.chg.aMoves ≤ 16 → t.chg.armed = s.chg.armed) := by
  refine ⟨_, if_neg (by simp [h0, ht]), ?_⟩
  by_cases hp : 16 < s.chg.pMoves
  · by_cases ha : 16 < s.chg.aMoves
    · simp [hp, ha]
    · simp [hp, ha]
  · by_cases ha : 16 < s.chg.aMoves
    · simp [hp, ha]
    · simp [hp, ha]

/-- Settles O28: each command's guard holds, and its arm is the change stated. -/
theorem afterTheApplyPoint : Obligations.AfterTheApplyPoint := by
  intro s h0 ht
  refine ⟨fun h => ?stretch, fun u hu hlt => ?stretchEnd, fun h => ?repeatLoss, fun r hr hall => ?holdEnd, fun r hr hf hwhy => ?timeout,
    fun p hp hs hg hl he hn => ?structural, fun p hp hm => ?rollback, changeRollback_rolls s h0 ht⟩
  case stretch =>
    change execEmergencyStretch s = _
    simp [execEmergencyStretch, h0, ht, h, setBit]
  case stretchEnd =>
    change execEmergencyStretchEnd s = _
    simp [execEmergencyStretchEnd, h0, ht, hu, laterThan_of_lt hlt]
  case repeatLoss =>
    change execRepeatLossFault s = _
    simp [execRepeatLossFault, h0, h]
  case holdEnd =>
    change execRecoveryHoldEnd s = _
    have hall : (r.arrays.all fun x => s.handedOver (asCore x.1) x.2.1 x.2.2) = true := List.all_eq_true.2 hall
    simp [execRecoveryHoldEnd, h0, ht, hr, hall]
  case timeout =>
    change execRecoveryHoldTimeout s = _
    have hwhy : (decide (1024 ≤ (s.tick.count - r.since + 1).toNat) || r.arrays.any fun x => s.noSpareFor (asCore x.1) x.2.1 x.2.2) = true := by
      rw [Bool.or_eq_true, decide_eq_true_eq, List.any_eq_true]
      exact hwhy
    simp only [execRecoveryHoldTimeout, hr, h0, ht, hf, hwhy, ne_eq, not_true_eq_false, decide_false, Bool.not_true, Bool.or_self, Bool.false_eq_true, if_false]
  case structural =>
    refine ⟨_, structuralPatchApply_applies h0 ht hp hs hg hl he hn, rfl, rfl, (s.applyPatch_counts p).1, (s.applyPatch_counts p).2, fun a b ha hb => ?_⟩
    obtain ⟨htick, halm⟩ := State.applyPatch_some ha hb
    exact ⟨congrArg Tick.patch htick, halm⟩
  case rollback =>
    change execPatchRollback s = _
    simp [execPatchRollback, h0, ht, hp, Nat.not_le.2 hm, setBit]

end Sys2Proof.Machine
end

section
/-! The start of a tick and of its slot programs (R163 to R167, R208). -/
namespace Sys2Proof.Machine

/-! ### What the filling of a slot leaves -/

/-- A state without its serving dies and its home dies' tables. -/
def State.aroundServe (s : State) : State := { s with serve := [], srv := State.reset.srv }

/-- What a serving die holds of the KV store: its DRAM, page table, directories and budget. -/
def ServeDie.kvSide (x : ServeDie) : List Host.Cell × SMap PageEnt × SMap Dir × Nat := (x.dram, x.pages, x.dirs, x.budget)

theorem State.sd_setSd (s : State) (d e : Nat) (x : ServeDie) : (s.setSd d x).sd e = if e = d then x else s.sd e := smGet_smSet ..

theorem State.sd_modSd (s : State) (d e : Nat) (f : ServeDie → ServeDie) : (s.modSd d f).sd e = if e = d then f (s.sd d) else s.sd e := State.sd_setSd ..

theorem State.kvSide_modSd {f : ServeDie → ServeDie} (hf : ∀ x, (f x).kvSide = x.kvSide) (s : State) (d e : Nat) :
    ((s.modSd d f).sd e).kvSide = (s.sd e).kvSide := by
  rw [State.sd_modSd]
  split
  case isTrue h => rw [hf, h]
  case isFalse => rfl

/-- Only the counts and event registers of the serving dies, and the home dies' tables, differ. -/
structure FillKeeps (s t : State) : Prop where
  around : t.aroundServe = s.aroundServe
  kvSide : ∀ e, (t.sd e).kvSide = (s.sd e).kvSide

theorem FillKeeps.refl (s : State) : FillKeeps s s := ⟨rfl, fun _ => rfl⟩

theorem FillKeeps.trans {s t u : State} (h : FillKeeps s t) (k : FillKeeps t u) : FillKeeps s u :=
  ⟨k.around.trans h.around, fun e => (k.kvSide e).trans (h.kvSide e)⟩

theorem FillKeeps.ite {s t u : State} (p : Prop) [Decidable p] (h : FillKeeps s t) (k : FillKeeps s u) : FillKeeps s (if p then t else u) := by
  split <;> assumption

theorem FillKeeps.modSd {f : ServeDie → ServeDie} (hf : ∀ x, (f x).kvSide = x.kvSide) (s : State) (d : Nat) : FillKeeps s (s.modSd d f) :=
  ⟨rfl, State.kvSide_modSd hf s d⟩

theorem FillKeeps.srv (s : State) (x : Serving) : FillKeeps s { s with srv := x } := ⟨rfl, fun _ => rfl⟩

theorem FillKeeps.place_go (f : Filling) (slot : Nat) (e : W48) (budget : Nat → Nat) (t : LaneTag) (s : State) (r : Req) (hf : f.s = s) :
    FillKeeps s (Filling.place.go f slot e budget t s r).s := by
  unfold Filling.place.go
  dsimp only
  split
  case h_1 c _ =>
    split
    · exact .srv s _
    · have h : FillKeeps s (if c.die / 2 = s.member then s.modSd (c.die % 2) fun x => (x.attnBit 7).attnBit 8 else s) :=
        .ite _ (.modSd (fun _ => by rfl) s _) (.refl s)
      exact h.trans (.srv _ _)
  case h_2 =>
    split
    · exact hf ▸ .refl s
    · dsimp only
      exact .ite _ ((FillKeeps.srv s _).trans (.modSd (fun _ => by rfl) _ _)) (.srv s _)

theorem FillKeeps.place (f : Filling) (slot cap : Nat) (e : W48) (budget : Nat → Nat) (t : LaneTag) :
    FillKeeps f.s (f.place slot cap e budget t).s := by
  unfold Filling.place
  split
  · exact .refl _
  dsimp only
  split
  · split
    · dsimp only
      exact .modSd (fun _ => by rfl) _ _
    · exact .place_go f slot e budget t _ _ rfl
  · split
    · exact .refl _
    · exact .place_go f slot e budget t _ _ rfl

theorem FillKeeps.foldl_place (l : List LaneTag) (f : Filling) (slot cap : Nat) (e : W48) (budget : Nat → Nat) :
    FillKeeps f.s (l.foldl (fun (f : Filling) t => f.place slot cap e budget t) f).s := by
  induction l generalizing f with
  | nil => exact .refl _
  | cons t l ih => exact (FillKeeps.place f slot cap e budget t).trans (ih _)

theorem FillKeeps.fillSlot (s : State) (slot cap : Nat) (e : W48) (budget : Nat → Nat) : FillKeeps s (fillSlot s slot cap e budget).1 :=
  (FillKeeps.foldl_place _ ⟨s, [], false⟩ slot cap e budget).trans (FillKeeps.foldl_place _ _ slot cap e budget)

theorem FillKeeps.enterLanes (s : State) (n e : W48) (assign : Bool) (budget : Nat → Nat) : FillKeeps s (s.enterLanes n e assign budget) := by
  unfold State.enterLanes
  dsimp only
  split
  · exact .refl s
  split
  · exact .refl s
  split
  · exact .srv s _
  · refine FillKeeps.trans (t := (if assign = true then s.slotLanes n e _ _ budget else (s, [])).1) ?_ (.srv _ _)
    split
    · unfold State.slotLanes
      split
      · exact .fillSlot s _ _ e budget
      · exact .refl s
    · exact .refl s

/-! ### Arming and filling before the tick -/

/-- The tick to come carries no almanac work. -/
def State.noWorkNext (s : State) : Bool := s.tick.leapNext || s.tick.recovery.isSome || s.held || decide (s.loadPhase = 3)

theorem State.prepare_noWork {s : State} (h : s.alm = none ∨ s.noWorkNext = true) : s.prepare = { s with reducers := [] } := by
  unfold State.prepare
  split
  · rfl
  · exact if_pos (h.resolve_left (by simp [*]))

/-- Arming reducers and filling lanes leaves all but the reducers, the home dies' tables and the serving dies' counts. -/
theorem State.prepare_keeps (s : State) : FillKeeps s { s.prepare with reducers := s.reducers } := by
  unfold State.prepare
  split
  · exact .refl s
  split
  · exact .refl s
  · extract_lets n slot _ s1 assign
    have h1 : { s1 with reducers := s.reducers } = s :=
      foldl_keeps (σ := State) (fun u => { u with reducers := s.reducers }) (fun u i => by
        split
        · split <;> rfl
        · rfl) (slotReductions _ slot) _
    have h := FillKeeps.enterLanes s1 n (s1.tick.count + 1) assign s1.placeBudget
    exact ⟨(congrArg (fun u : State => { u with reducers := s.reducers }) h.around).trans (congrArg State.aroundServe h1), fun e => (h.kvSide e).trans
      (congrArg (fun u : State => (u.sd e).kvSide) h1 :)⟩

/-! ### The tick's first step -/

/-- The tick that starts is a leap tick (R180, R182). -/
def State.leapsNow (s : State) : Bool := !(s.held || decide (s.loadPhase = 3)) && (s.tick.leapNext || s.tick.recovery.isSome)

/-- The tick that starts carries no almanac work, and is no leap tick (R163, R432). -/
def State.idlesNow (s : State) : Bool := (s.held || decide (s.loadPhase = 3)) || (s.alm.isNone && !s.leapsNow)

/-- The counters and registers of the tick that starts, before its cores do. -/
def State.counted (s : State) (leap idle : Bool) : State :=
  let s := s.prepare.startGroup leap s.tick.pEff
  let s := { s with tick := s.tick.next leap idle }
  if leap then { s with srv := { s.srv with ledger := ledgerShift s.srv.ledger s.tick.count 1 } } else s

/-- The state with the slot programs started, before the frames of the group go out. -/
def State.slotsStarted (s : State) (leap idle : Bool) : State :=
  match s.alm with
  | some a => if leap || idle then s else (s.startSlots a).startLanes a
  | none => s

theorem exec_tickStart {s : State} (h0 : s.power = 0) (ht : s.tick.phase = .applied) : exec .tickStart s =
    .next (((s.counted s.leapsNow s.idlesNow).openTick.slotsStarted s.leapsNow s.idlesNow).sendConvene.sendRuling.rejoinFenced) :=
  if_neg (by simp [h0, ht])

/-- A state without what the start of slot programs and the group's frames touch. -/
def State.aroundStart (s : State) : State :=
  { s with cores := [], flits := [], nextFlit := 0, grp := State.reset.grp, fab := { s.fab with frames := [] }, srv := { s.srv with freed := [], stage := 0 } }

/-- What two states share that differ in what the start of slot programs touches alone. -/
structure StartKeeps (s t : State) : Prop where
  tick : t.tick = s.tick
  alm : t.alm = s.alm
  fuses : t.fuses = s.fuses
  rings : t.rings = s.rings
  dies : t.dies = s.dies
  serve : t.serve = s.serve
  reqs : t.srv.reqs = s.srv.reqs
  count : t.fab.count = s.fab.count
  fw : t.fw = s.fw

theorem StartKeeps.of_aroundStart {s t : State} (h : t.aroundStart = s.aroundStart) : StartKeeps s t :=
  ⟨(congrArg State.tick h :), (congrArg State.alm h :), (congrArg State.fuses h :), (congrArg State.rings h :), (congrArg State.dies h :),
    (congrArg State.serve h :), (congrArg (fun u : State => u.srv.reqs) h :), (congrArg (fun u : State => u.fab.count) h :), (congrArg State.fw h :)⟩

@[simp] theorem State.aroundStart_inject (s : State) (src : Nat) (die : DieId) (router : Nat) (inj req : Option Nat) (fs : List FlitBody) :
    (s.inject src die router inj req fs).aroundStart = s.aroundStart := rfl

@[simp] theorem State.aroundStart_modCore (s : State) (c : CoreId) (f : Core → Core) : (s.modCore c f).aroundStart = s.aroundStart := rfl

@[simp] theorem State.aroundStart_eachCore (s : State) (f : Core → Core) : (s.eachCore f).aroundStart = s.aroundStart :=
  foldl_keeps (f := fun s i => s.modCore ⟨i % 96, by omega⟩ f) State.aroundStart (fun _ _ => rfl) _ s

@[simp] theorem State.aroundStart_openTick (s : State) : s.openTick.aroundStart = s.aroundStart := by
  unfold State.openTick
  dsimp only
  rw [foldl_keeps State.aroundStart fun _ _ => by rfl]
  split
  · exact State.aroundStart_eachCore ..
  · rfl

/-- The slot index of a tick of almanac a (R192). -/
def Almanac.slotOf (a : Almanac) (n : W48) : Nat := if a.slots = 0 then 0 else n.toNat % a.slots

/-- The entry point of a core's program in a slot, if it has one (R192). -/
def CoreEnt.entryAt (e : CoreEnt) (slot : Nat) : Option Nat := match e.slots[slot]? with
  | some r => if r.entry = 0xFFFF_FFFF then none else some r.entry
  | none => none

theorem State.startSlots_eq (s : State) (a : Almanac) : s.startSlots a = a.cores.foldl (fun t e =>
    if t.coreStarts (asCore e.core) then
      t.modCore (asCore e.core) fun k => k.startSlot (asCore e.core).val s.tick.seq.toNat (a.slotOf s.tick.seq) (e.entryAt (a.slotOf s.tick.seq))
    else t) s := rfl

theorem State.aroundStart_startSlots (s : State) (a : Almanac) : (s.startSlots a).aroundStart = s.aroundStart := by
  rw [State.startSlots_eq]
  exact foldl_keeps State.aroundStart (fun s e => by split <;> rfl) a.cores s

theorem State.aroundStart_startLanes (s : State) (a : Almanac) : (s.startLanes a).aroundStart = s.aroundStart := by
  unfold State.startLanes
  dsimp only
  split
  · unfold State.deliverLanes
    split
    · rfl
    · exact foldl_keeps State.aroundStart (fun _ _ => by rfl) _ s
  · rfl

@[simp] theorem State.aroundStart_slotsStarted (s : State) (leap idle : Bool) : (s.slotsStarted leap idle).aroundStart = s.aroundStart := by
  unfold State.slotsStarted
  split
  · split
    · rfl
    · rw [State.aroundStart_startLanes, State.aroundStart_startSlots]
  · rfl

/-- What the sending of frames leaves. -/
theorem State.sendFrames_frame (s : State) (l : List OutFrame) : { s.sendFrames l with fab := { (s.sendFrames l).fab with frames := s.fab.frames } } = s := by
  unfold State.sendFrames
  split <;> rfl

/-- The group's messages at the start of a tick change frames and the group alone. -/
theorem State.sendConvene_frame (s : State) : { s.sendConvene with fab := { s.sendConvene.fab with frames := s.fab.frames }, grp := s.grp } = s := by
  unfold State.sendConvene
  split
  · rfl
  · exact congrArg (fun u : State => { u with grp := s.grp }) (s.sendFrames_frame _)

theorem State.sendRuling_frame (s : State) : { s.sendRuling with fab := { s.sendRuling.fab with frames := s.fab.frames }, grp := s.grp } = s := by
  unfold State.sendRuling
  split
  · rfl
  · exact congrArg (fun u : State => { u with grp := s.grp }) (s.sendFrames_frame _)

theorem State.rejoinFenced_frame (s : State) : { s.rejoinFenced with fab := { s.rejoinFenced.fab with frames := s.fab.frames }, grp := s.grp } = s := by
  unfold State.rejoinFenced
  dsimp only
  split
  · rfl
  · exact congrArg (fun u : State => { u with grp := s.grp }) (s.sendFrames_frame _)

/-! ### The cores at the start of a tick -/

/-- The last step's frames leave the cores. -/
theorem State.sends_cores (s : State) : s.sendConvene.sendRuling.rejoinFenced.cores = s.cores :=
  ((congrArg State.cores s.sendConvene.sendRuling.rejoinFenced_frame :).trans (congrArg State.cores s.sendConvene.sendRuling_frame :)).trans
    (congrArg State.cores s.sendConvene_frame :)

theorem State.aroundStart_sends (s : State) : s.sendConvene.sendRuling.rejoinFenced.aroundStart = s.aroundStart :=
  ((congrArg State.aroundStart s.sendConvene.sendRuling.rejoinFenced_frame :).trans (congrArg State.aroundStart s.sendConvene.sendRuling_frame :)).trans
    (congrArg State.aroundStart s.sendConvene_frame :)

/-- The slot index that core k has in the tick that starts (R243). -/
def State.slotNow (s : State) (k : Core) : Nat := match s.alm with
  | some a => a.slotOf s.tick.seq
  | none => k.slot

theorem Core.rewrite_idem (k : Core) : k.rewrite.rewrite = k.rewrite := by
  have h : k.rewrite.rewritable = k.rewritable := rfl
  simp only [Core.rewrite, List.filter_filter]
  congr 1
  exact List.filter_congr fun w _ => Bool.and_self _

theorem State.core_openTick (s : State) (c : CoreId) : s.openTick.core c =
    let k := if s.fw.sch.runs then (s.core c).rewrite else s.core c
    { k.newTick with slot := s.slotNow k } := by
  have hopen : s.openTick = (List.range 96).foldl (fun u i => u.modCore (asCore i) fun k => { k.newTick with slot := s.slotNow k })
      (if s.fw.sch.runs then ({ s with srv := { s.srv with freed := [], stage := 0 } } : State).eachCore Core.rewrite
        else { s with srv := { s.srv with freed := [], stage := 0 } }) := rfl
  have hmem : c ∈ (List.range 96).map asCore := List.mem_map.2 ⟨c.val, List.mem_range.2 c.isLt, asCore_val c⟩
  have hidem (k : Core) : ({ ({ k.newTick with slot := s.slotNow k } : Core).newTick with slot := s.slotNow { k.newTick with slot := s.slotNow k } } : Core) =
      { k.newTick with slot := s.slotNow k } := by
    unfold State.slotNow
    cases s.alm <;> rfl
  rw [hopen, State.core_foldl_modCore_idem hidem, if_pos hmem]
  split
  · rw [State.core_eachCore Core.rewrite_idem fun _ => rfl]; rfl
  · rfl

/-- What a core holds in its storages and units: the start of its slot program keeps it. -/
def Core.held (k : Core) : List Host.Cell × SMap (BitVec 256) × SMap ArrayInfo × SMap Nat × List UnitInst × List Nat :=
  (k.store, k.acc, k.arrays, k.arrayMap, k.inflight, k.badStore)

/-- The core whose receive extents of the slot's bank have no arrival bit (R221). -/
def Core.unarrived (k : Core) (n : Nat) : Core :=
  k.recvMap.foldl (fun (k : Core) e => k.markLines (e.1 + n % 3 * e.2) (e.1 + n % 3 * e.2 + e.2) false) k

/-- The registers that a slot begins with. -/
def Core.cleared (k : Core) (slot : Nat) : Core :=
  { k with sregs := [], tregs := [], preds := 1, status := 0, stack := [], cyc := 0, sReady := [], tReady := [], pReady := [], stored := [], slot := slot }

theorem Core.startSlot_none (k : Core) (c n slot : Nat) :
    k.startSlot c n slot none = { (k.unarrived n).cleared slot with idle := true, run := false } := rfl

theorem Core.startSlot_some (k : Core) (c n slot a : Nat) : k.startSlot c n slot (some a) =
    { (((((k.unarrived n).cleared slot).setS 1 (BitVec.ofNat 64 n)).setS 2 (BitVec.ofNat 64 slot)).setS 3 (BitVec.ofNat 64 c)) with
      idle := false, run := true, pc := BitVec.ofNat 64 a } := rfl

theorem Core.unarrived_frame (k : Core) (n : Nat) : { k.unarrived n with arrival := k.arrival } = k :=
  foldl_keeps (fun u : Core => { u with arrival := k.arrival }) (fun _ _ => by rfl) k.recvMap k

theorem Core.startSlot_held (k : Core) (c n slot : Nat) (entry : Option Nat) : (k.startSlot c n slot entry).held = k.held := by
  have h : ((k.unarrived n).cleared slot).held = k.held := (congrArg Core.held (k.unarrived_frame n) :)
  cases entry with
  | none => exact h
  | some a => exact h

theorem State.startSlots_held (s : State) (a : Almanac) (c : CoreId) : ((s.startSlots a).core c).held = (s.core c).held := by
  rw [State.startSlots_eq]
  refine foldl_keeps (fun u : State => (u.core c).held) (fun u e => ?_) a.cores s
  split
  · by_cases hc : c = asCore e.core
    · subst hc
      rw [State.core_modCore_same, Core.startSlot_held]
    · rw [State.core_modCore_other _ _ _ _ hc]
  · rfl

theorem State.startLanes_cores (s : State) (a : Almanac) : (s.startLanes a).cores = s.cores := by
  unfold State.startLanes
  dsimp only
  split
  · unfold State.deliverLanes
    split
    · rfl
    · exact foldl_keeps State.cores (fun _ _ => by rfl) _ s
  · rfl

theorem State.slotsStarted_held (s : State) (leap idle : Bool) (c : CoreId) : ((s.slotsStarted leap idle).core c).held = (s.core c).held := by
  unfold State.slotsStarted
  split
  case h_1 a _ =>
    split
    · rfl
    · have h : ((s.startSlots a).startLanes a).core c = (s.startSlots a).core c := by
        unfold State.core
        rw [State.startLanes_cores]
      rw [h, State.startSlots_held]
  case h_2 => rfl

theorem State.slotsStarted_noWork (s : State) {leap idle : Bool} (h : (leap || idle) = true) : s.slotsStarted leap idle = s := by
  unfold State.slotsStarted
  split
  · exact if_pos h
  · rfl

/-! ### The counters at the start of a tick -/

theorem State.counted_tick (s : State) (leap idle : Bool) : (s.counted leap idle).tick = s.tick.next leap idle := by
  have h : s.prepare.tick = s.tick := (congrArg State.tick s.prepare_keeps.around :)
  unfold State.counted
  dsimp only
  split
  · exact congrArg (Tick.next · leap idle) h
  · exact congrArg (Tick.next · leap idle) h

/-- What the counting of a tick leaves, besides TICK, the fabric, the group, the power registers and the home dies' tables. -/
structure CountKeeps (s t : State) : Prop where
  alm : t.alm = s.alm
  fuses : t.fuses = s.fuses
  rings : t.rings = s.rings
  dies : t.dies = s.dies
  cores : t.cores = s.cores
  fw : t.fw = s.fw
  kvSide : ∀ e, (t.sd e).kvSide = (s.sd e).kvSide

theorem State.counted_keeps (s : State) (leap idle : Bool) : CountKeeps s (s.counted leap idle) := by
  obtain ⟨haround, hkv⟩ := s.prepare_keeps
  unfold State.counted
  dsimp only
  split
  · exact ⟨(congrArg State.alm haround :), (congrArg State.fuses haround :), (congrArg State.rings haround :), (congrArg State.dies haround :),
      (congrArg State.cores haround :), (congrArg State.fw haround :), hkv⟩
  · exact ⟨(congrArg State.alm haround :), (congrArg State.fuses haround :), (congrArg State.rings haround :), (congrArg State.dies haround :),
      (congrArg State.cores haround :), (congrArg State.fw haround :), hkv⟩

theorem State.counted_count (s : State) (leap idle : Bool) : (s.counted leap idle).fab.count = s.fab.count + BitVec.ofNat 64 s.tick.pEff := by
  have h : s.prepare.fab = s.fab := (congrArg State.fab s.prepare_keeps.around :)
  unfold State.counted
  dsimp only
  split
  · exact congrArg (fun x : Fabric => x.count + BitVec.ofNat 64 s.tick.pEff) h
  · exact congrArg (fun x : Fabric => x.count + BitVec.ofNat 64 s.tick.pEff) h

theorem State.counted_noWork {s : State} (h : s.alm = none ∨ s.noWorkNext = true) (leap idle : Bool) :
    (s.counted leap idle).serve = s.serve ∧ (s.counted leap idle).srv.reqs = s.srv.reqs := by
  unfold State.counted
  rw [State.prepare_noWork h]
  dsimp only
  split
  · exact ⟨rfl, rfl⟩
  · exact ⟨rfl, rfl⟩

/-- A leap tick and an idle tick carry no almanac work. -/
theorem State.noWork_of_leaps_or_idles {s : State} (h : (s.leapsNow || s.idlesNow) = true) : s.alm = none ∨ s.noWorkNext = true := by
  simp only [State.leapsNow, State.idlesNow, State.noWorkNext, Bool.or_eq_true, Bool.and_eq_true, Option.isNone_iff_eq_none] at h ⊢
  tauto

/-! ### The whole step -/

/-- The state that TICK_START leaves. -/
def State.tickStarted (s : State) : State :=
  ((s.counted s.leapsNow s.idlesNow).openTick.slotsStarted s.leapsNow s.idlesNow).sendConvene.sendRuling.rejoinFenced

theorem State.aroundStart_tickStarted (s : State) : s.tickStarted.aroundStart = (s.counted s.leapsNow s.idlesNow).aroundStart := by
  unfold State.tickStarted
  rw [State.aroundStart_sends, State.aroundStart_slotsStarted, State.aroundStart_openTick]

theorem State.core_tickStarted (s : State) (c : CoreId) :
    s.tickStarted.core c = ((s.counted s.leapsNow s.idlesNow).openTick.slotsStarted s.leapsNow s.idlesNow).core c :=
  congrArg (smGet coreDefault · c.val) (State.sends_cores _)

/-- Storages and units of a core in the tick that starts: nothing in flight, and the rewritten words no longer fail. -/
theorem State.tickStarted_held (s : State) (c : CoreId) : (s.tickStarted.core c).held =
    ((s.core c).store, (s.core c).acc, (s.core c).arrays, (s.core c).arrayMap, [],
      if s.fw.sch.runs then (s.core c).badStore.filter fun w => !(s.core c).rewritable (16 * w) else (s.core c).badStore) := by
  have hkeeps := s.counted_keeps s.leapsNow s.idlesNow
  rw [State.core_tickStarted, State.slotsStarted_held, State.core_openTick, State.core, hkeeps.cores, hkeeps.fw]
  split <;> rfl

theorem State.core_tickStarted_stopped {s : State} (h : (s.leapsNow || s.idlesNow) = true) (c : CoreId) : (s.tickStarted.core c).run = false := by
  rw [State.core_tickStarted, State.slotsStarted_noWork _ h, State.core_openTick]
  rfl

theorem State.leapsNow_iff (s : State) : s.leapsNow = true ↔
    ¬ (s.grp.state = .convening ∨ s.grp.state = .failover ∨ s.loadPhase = 3) ∧ (s.tick.leapNext = true ∨ s.tick.recovery.isSome = true) := by
  simp only [State.leapsNow, State.held, Bool.and_eq_true, Bool.not_eq_true', Bool.or_eq_false_iff, Bool.or_eq_true, beq_eq_false_iff_ne, decide_eq_false_iff_not]
  tauto

theorem State.idlesNow_iff (s : State) : s.idlesNow = true ↔
    (s.grp.state = .convening ∨ s.grp.state = .failover ∨ s.loadPhase = 3) ∨ (s.alm = none ∧ ¬ s.leapsNow = true) := by
  simp only [State.idlesNow, State.held, Bool.and_eq_true, Bool.not_eq_true', Bool.or_eq_true, beq_iff_eq, decide_eq_true_eq, Option.isNone_iff_eq_none,
    Bool.not_eq_true, or_assoc]

theorem Core.mem_rewrite (k : Core) (w : Nat) : (w ∈ k.badStore.filter fun w => !k.rewritable (16 * w)) ↔
    w ∈ k.badStore ∧ ¬ ((k.progLo ≤ 16 * w ∧ 16 * w < k.progHi) ∨ (k.cLo ≤ 16 * w ∧ 16 * w < k.cHi)) := by
  simp only [List.mem_filter, Core.rewritable, Bool.not_eq_true', Bool.or_eq_false_iff, decide_eq_false_iff_not, not_or]

/-- Settles O20: the counters first, then the cores, which start nothing in a tick without almanac work. -/
theorem tickStarts : Obligations.TickStarts := by
  intro s h0 ht
  dsimp only
  rw [← State.leapsNow_iff, ← State.idlesNow_iff]
  have hstart := StartKeeps.of_aroundStart s.aroundStart_tickStarted
  have hkeeps := s.counted_keeps s.leapsNow s.idlesNow
  have htick : s.tickStarted.tick = s.tick.next s.leapsNow s.idlesNow := hstart.tick.trans (s.counted_tick _ _)
  have hwork : (s.leapsNow = true ∨ s.idlesNow = true) → (s.leapsNow || s.idlesNow) = true := fun h => by simpa using h
  refine ⟨s.tickStarted, exec_tickStart h0 ht, ?count, ?phase, ?notices, ?leapNext, fun h => ?seqKept, fun h => ?seqNext, ?leap, ?idle, ?period, ?timing,
    fun h c => State.core_tickStarted_stopped (hwork h) c, fun c => ?storages, fun hsch c w => ?badStore,
    hstart.alm.trans hkeeps.alm, hstart.fuses.trans hkeeps.fuses, hstart.rings.trans hkeeps.rings, hstart.dies.trans hkeeps.dies, fun h => ?serve, fun e => ?kv⟩
  case count | phase | notices | leapNext | period => rw [htick]; rfl
  case leap | idle => rw [htick]; exact Iff.rfl
  case seqKept => rw [htick]; exact if_pos (hwork h)
  case seqNext => rw [htick]; exact if_neg fun hw => h (by simpa using hw)
  case timing =>
    exact hstart.count.trans (s.counted_count _ _)
  case storages =>
    have h := s.tickStarted_held c
    simp only [Core.held, Prod.mk.injEq] at h
    obtain ⟨hstore, hacc, harrays, hmap, hinflight, -⟩ := h
    exact ⟨hstore, hacc, harrays, hmap, hinflight⟩
  case badStore =>
    have h := s.tickStarted_held c
    simp only [Core.held, Prod.mk.injEq, hsch, if_true] at h
    obtain ⟨-, -, -, -, -, hbad⟩ := h
    rw [hbad, Core.mem_rewrite]
  case serve =>
    obtain ⟨h1, h2⟩ := State.counted_noWork (State.noWork_of_leaps_or_idles (hwork h)) s.leapsNow s.idlesNow
    exact ⟨hstart.serve.trans h1, hstart.reqs.trans h2⟩
  case kv =>
    have hsd : s.tickStarted.sd e = (s.counted s.leapsNow s.idlesNow).sd e := congrArg (smGet serveDefault · e) hstart.serve
    have h := hkeeps.kvSide e
    simp only [ServeDie.kvSide, Prod.mk.injEq, ← hsd] at h
    obtain ⟨hdram, hpages, hdirs, hbudget⟩ := h
    exact ⟨hdram, hpages, hdirs, hbudget⟩

/-! ### One slot program -/

/-- One core's turn in the start of the slot programs of sequence n. -/
def State.startOne (a : Almanac) (n : W48) (t : State) (e : CoreEnt) : State :=
  if t.coreStarts (asCore e.core) then
    t.modCore (asCore e.core) fun k => k.startSlot (asCore e.core).val n.toNat (a.slotOf n) (e.entryAt (a.slotOf n))
  else t

theorem State.startSlots_eq_foldl (s : State) (a : Almanac) : s.startSlots a = a.cores.foldl (State.startOne a s.tick.seq) s := rfl

theorem State.core_startOne_other (a : Almanac) (n : W48) (t : State) {e : CoreEnt} {c : CoreId} (hc : c ≠ asCore e.core) :
    (t.startOne a n e).core c = t.core c := by
  unfold State.startOne
  split
  · exact State.core_modCore_other _ _ _ _ hc
  · rfl

theorem State.coreStarts_startOne_other (a : Almanac) (n : W48) (t : State) {e : CoreEnt} {c : CoreId} (hc : c ≠ asCore e.core) :
    (t.startOne a n e).coreStarts c = t.coreStarts c := by
  have hcore := State.core_startOne_other a n t hc
  unfold State.startOne at hcore ⊢
  split
  case isTrue h =>
    rw [if_pos h] at hcore
    unfold State.coreStarts
    rw [hcore]
    rfl
  case isFalse => rfl

theorem State.core_foldl_startOne_of_notMem (a : Almanac) (n : W48) {c : CoreId} {l : List CoreEnt} (hl : ∀ x ∈ l, c ≠ asCore x.core) (t : State) :
    (l.foldl (State.startOne a n) t).core c = t.core c := by
  induction l generalizing t with
  | nil => rfl
  | cons x l ih =>
    rw [List.foldl_cons, ih fun y hy => hl y (List.mem_cons_of_mem _ hy)]
    exact State.core_startOne_other a n t (hl x List.mem_cons_self)

/-- A core that takes part, and that the almanac lists once, starts its own slot program. -/
theorem State.core_foldl_startOne (a : Almanac) (n : W48) {c : CoreId} {e : CoreEnt} {l : List CoreEnt} (hn : (l.map fun x => asCore x.core).Nodup)
    (he : e ∈ l) (hc : asCore e.core = c) (t : State) (ht : t.coreStarts c = true) :
    (l.foldl (State.startOne a n) t).core c = (t.core c).startSlot c.val n.toNat (a.slotOf n) (e.entryAt (a.slotOf n)) := by
  induction l generalizing t with
  | nil => cases he
  | cons x l ih =>
    obtain ⟨hx, hn⟩ := List.nodup_cons.1 (List.map_cons ▸ hn)
    rw [List.foldl_cons]
    rcases List.mem_cons.1 he with rfl | he
    · have hl : ∀ y ∈ l, c ≠ asCore y.core := fun y hy h => hx (List.mem_map.2 ⟨y, hy, h ▸ hc.symm⟩)
      rw [State.core_foldl_startOne_of_notMem a n hl]
      subst hc
      unfold State.startOne
      rw [if_pos ht, State.core_modCore_same]
    · have hne : c ≠ asCore x.core := fun h => hx (List.mem_map.2 ⟨e, he, hc.trans h⟩)
      rw [ih hn he _ ((State.coreStarts_startOne_other a n t hne).trans ht), State.core_startOne_other a n t hne]

theorem asCore_nodup {l : List CoreEnt} (hn : (l.map CoreEnt.core).Nodup) (hlt : ∀ x ∈ l, x.core < 96) : (l.map fun x => asCore x.core).Nodup := by
  refine List.Nodup.map_on (fun x hx y hy h => ?_) hn.of_map
  have hval : x.core % 96 = y.core % 96 := congrArg Fin.val h
  rw [Nat.mod_eq_of_lt (hlt x hx), Nat.mod_eq_of_lt (hlt y hy)] at hval
  exact List.inj_on_of_nodup_map hn hx hy hval

/-- The registers at cycle 0 of a slot program (R208). -/
theorem Core.startSlot_registers (k : Core) (c slot a : Nat) (n : W48) :
    let k' := k.startSlot c n.toNat slot (some a)
    k'.run = true ∧ k'.idle = false ∧ k'.pc = BitVec.ofNat 64 a ∧ k'.slot = slot ∧ k'.cyc = 0 ∧
    (∀ q : SReg, k'.sreg q =
      if q.val = 1 then n.setWidth 64 else if q.val = 2 then BitVec.ofNat 64 slot else if q.val = 3 then BitVec.ofNat 64 c else 0) ∧
    (∀ q : TReg, k'.treg q = 0) ∧ (∀ q : PReg, k'.preg q = decide (q.val = 0)) ∧ k'.status = 0 ∧ k'.stack = [] ∧
    k'.inflight = k.inflight ∧ k'.exc0 = k.exc0 := by
  have hframe := k.unarrived_frame n.toNat
  generalize hk' : k.startSlot c n.toNat slot (some a) = k'
  rw [Core.startSlot_some] at hk'
  generalize k.unarrived n.toNat = u at hframe hk'
  subst hk'
  refine ⟨rfl, rfl, rfl, rfl, rfl, fun q => ?_, fun q => rfl, fun q => ?_, rfl, rfl, (congrArg Core.inflight hframe :), (congrArg Core.exc0 hframe :)⟩
  · change ((((u.cleared slot).setS 1 (BitVec.ofNat 64 n.toNat)).setS 2 (BitVec.ofNat 64 slot)).setS 3 (BitVec.ofNat 64 c)).sreg q = _
    by_cases h3 : q = 3
    · subst h3; simp
    by_cases h2 : q = 2
    · subst h2
      rw [Core.sreg_setS_other _ _ _ _ h3]
      simp
    by_cases h1 : q = 1
    · subst h1
      rw [Core.sreg_setS_other _ _ _ _ h3, Core.sreg_setS_other _ _ _ _ h2]
      simp [BitVec.ofNat_toNat]
    · have v1 : q.val ≠ 1 := fun h => h1 (Fin.ext h)
      have v2 : q.val ≠ 2 := fun h => h2 (Fin.ext h)
      have v3 : q.val ≠ 3 := fun h => h3 (Fin.ext h)
      rw [Core.sreg_setS_other _ _ _ _ h3, Core.sreg_setS_other _ _ _ _ h2, Core.sreg_setS_other _ _ _ _ h1, if_neg v1, if_neg v2, if_neg v3]
      exact ite_self _
  · change (if q.val = 0 then true else (1#8).getLsbD q.val) = decide (q.val = 0)
    revert q
    decide

/-- Settles O21: the tick has almanac work, so its cores start, each in its own turn. -/
theorem slotProgramStarts : Obligations.SlotProgramStarts := by
  intro s a c e r
  dsimp only
  intro h0 ht ha hconv hfail hload hleap hrec hnodup hlt hmem hcore hslot hentry hmap hbad huse hsafe hctrl
  have hleaps : s.leapsNow = false := by
    rw [← Bool.not_eq_true, State.leapsNow_iff]
    simp [hleap, hrec]
  have hidles : s.idlesNow = false := by
    rw [← Bool.not_eq_true, State.idlesNow_iff]
    simp [hconv, hfail, hload, ha]
  have hkeeps := s.counted_keeps s.leapsNow s.idlesNow
  have htick := s.counted_tick s.leapsNow s.idlesNow
  have hopen := StartKeeps.of_aroundStart (State.aroundStart_openTick (s.counted s.leapsNow s.idlesNow))
  have hk := State.core_openTick (s.counted s.leapsNow s.idlesNow) c
  have hrun := s.core_tickStarted c
  have hcounted : (s.counted s.leapsNow s.idlesNow).core c = s.core c := congrArg (smGet coreDefault · c.val) hkeeps.cores
  rw [hcounted] at hk
  have hv : ((s.counted s.leapsNow s.idlesNow).openTick.core c).inflight = [] ∧
      ((s.counted s.leapsNow s.idlesNow).openTick.core c).exc0 = (s.core c).exc0 ∧
      ((s.counted s.leapsNow s.idlesNow).openTick.core c).seqSafe = (s.core c).seqSafe := by
    rw [hk]
    split
    · exact ⟨rfl, rfl, rfl⟩
    · exact ⟨rfl, rfl, rfl⟩
  clear hk
  generalize s.counted s.leapsNow s.idlesNow = u at hkeeps htick hopen hrun hv
  generalize u.openTick = v at hopen hrun hv
  obtain ⟨hinflight, hexc, hsafe'⟩ := hv
  have hseq : v.tick.seq = s.tick.seq + 1 := by rw [hopen.tick, htick, hleaps, hidles]; rfl
  have hc : asCore e.core = c := by rw [hcore]; exact asCore_val c
  have hstarts : v.coreStarts c = true := by
    simp only [State.coreStarts, State.good, State.die, hsafe', hopen.fuses, hkeeps.fuses, hopen.dies, hkeeps.dies, hopen.fw, hkeeps.fw, hmap, hbad, hsafe,
      Bool.not_false, Bool.and_true, Bool.true_and, Bool.and_eq_true, bne_iff_ne]
    exact ⟨huse, hctrl⟩
  have hslots : (v.slotsStarted s.leapsNow s.idlesNow).core c = (v.startSlots a).core c := by
    have hone : v.slotsStarted s.leapsNow s.idlesNow = (v.startSlots a).startLanes a := by
      simp only [State.slotsStarted, hopen.alm, hkeeps.alm, ha, hleaps, hidles, Bool.or_self, Bool.false_eq_true, if_false]
    rw [hone]
    exact congrArg (smGet coreDefault · c.val) (State.startLanes_cores _ _)
  have hentryAt : e.entryAt (a.slotOf (s.tick.seq + 1)) = some r.entry := by
    simp only [CoreEnt.entryAt, Almanac.slotOf, hslot, if_neg hentry]
  rw [hslots, State.startSlots_eq_foldl, State.core_foldl_startOne a _ (asCore_nodup hnodup hlt) hmem hc v hstarts, hseq, hentryAt] at hrun
  obtain ⟨r1, r2, r3, r4, r5, r6, r7, r8, r9, r10, r11, r12⟩ := (v.core c).startSlot_registers c.val (a.slotOf (s.tick.seq + 1)) r.entry (s.tick.seq + 1)
  rw [← hrun] at r1 r2 r3 r4 r5 r6 r7 r8 r9 r10 r11 r12
  exact ⟨s.tickStarted, exec_tickStart h0 ht, r1, r2, r3, r4, r5, r6, r7, r8, r9, r10, r11.trans hinflight, r12.trans hexc⟩

end Sys2Proof.Machine
end

section
/-! The deadlines of a tick and the change report (R172, R173, R209, R534). -/
namespace Sys2Proof.Machine

/-! ### A step that each core takes in its own turn -/

/-- If a step of one core gives P, which steps of other cores before it and any steps after it leave, then so do the steps of a list of cores. -/
theorem foldl_turn {f : State → CoreId → State} {K : State → State → Prop} {P : CoreId → State → State → Prop} (hrefl : ∀ s, K s s)
    (htrans : ∀ {s t u}, K s t → K t u → K s u) (hstep : ∀ s c, K s (f s c)) (hown : ∀ s c, P c s (f s c))
    (hother : ∀ s c x u, x ≠ c → P x (f s c) u → P x s u) (hlater : ∀ c s t u, P c s t → K t u → P c s u) (l : List CoreId) (s : State) :
    K s (l.foldl f s) ∧ ∀ c ∈ l, P c s (l.foldl f s) := by
  induction l generalizing s with
  | nil => exact ⟨hrefl s, fun _ hc => nomatch hc⟩
  | cons x l ih =>
    obtain ⟨hk, hp⟩ := ih (f s x)
    refine ⟨htrans (hstep s x) hk, fun c hc => ?_⟩
    by_cases hx : c = x
    · subst hx
      exact hlater c s _ _ (hown s c) hk
    · exact hother s x c _ hx (hp c ((List.mem_cons.1 hc).resolve_left hx))

theorem foldl_range_asCore (f : State → CoreId → State) (s : State) :
    (List.range 96).foldl (fun s i => f s (asCore i)) s = ((List.range 96).map asCore).foldl f s := List.foldl_map.symm

theorem mem_allCores (c : CoreId) : c ∈ (List.range 96).map asCore := List.mem_map.2 ⟨c.val, List.mem_range.2 c.isLt, asCore_val c⟩

theorem State.core_of_cores {s t : State} (h : t.cores = s.cores) (c : CoreId) : t.core c = s.core c := congrArg (smGet coreDefault · c.val) h

/-! ### The issue deadline -/

/-- What one core's issue deadline may change, seen from the whole package. -/
structure IssueKeeps (s t : State) : Prop where
  frame : { t with cores := s.cores, tick := s.tick, flits := s.flits } = s
  tick : { t.tick with event := s.tick.event, notices := s.tick.notices } = s.tick
  notices : ∀ n ∈ s.tick.notices, n ∈ t.tick.notices
  flits : ∀ f ∈ t.flits, f ∈ s.flits
  core : ∀ c, (t.core c).store = (s.core c).store ∧ (t.core c).sregs = (s.core c).sregs ∧ ((s.core c).run = false → (t.core c).run = false)

theorem IssueKeeps.refl (s : State) : IssueKeeps s s := ⟨rfl, rfl, fun _ h => h, fun _ h => h, fun _ => ⟨rfl, rfl, id⟩⟩

theorem IssueKeeps.trans {s t u : State} (h : IssueKeeps s t) (k : IssueKeeps t u) : IssueKeeps s u where
  frame := (congrArg (fun v : State => { v with cores := s.cores, tick := s.tick, flits := s.flits }) k.frame).trans h.frame
  tick := (congrArg (fun v : Tick => { v with event := s.tick.event, notices := s.tick.notices }) k.tick).trans h.tick
  notices n hn := k.notices n (h.notices n hn)
  flits f hf := h.flits f (k.flits f hf)
  core c := by
    obtain ⟨h1, h2, h3⟩ := h.core c
    obtain ⟨k1, k2, k3⟩ := k.core c
    exact ⟨k1.trans h1, k2.trans h2, fun hr => k3 (h3 hr)⟩

theorem IssueKeeps.dln {s t : State} (h : IssueKeeps s t) (c : CoreId) : t.dln c = s.dln c := by
  have halm : t.alm = s.alm := (congrArg State.alm h.frame :)
  have hdies : t.dies = s.dies := (congrArg State.dies h.frame :)
  have hp : t.tick.pEff = s.tick.pEff := (congrArg Tick.pEff h.tick :)
  have hg : t.guardSteps = s.guardSteps := congrArg (fun a : Option Almanac => match a with | some a => a.guardSteps | none => 0) halm
  have hh : t.half c = s.half c := congrArg (fun d : SMap Die => if isEast c then (smGet dieDefault d (dieOf c).val).east else (smGet dieDefault d (dieOf c).val).west) hdies
  unfold State.dln State.window
  rw [hg, hh, hp]

theorem IssueKeeps.member {s t : State} (h : IssueKeeps s t) : t.member = s.member := (congrArg State.member h.frame :)

/-- A core that stops sending: its flits of later cycles are gone. -/
theorem State.mem_quiet (s : State) (c : CoreId) (f : Flit) :
    f ∈ (s.quiet c).flits ↔ f ∈ s.flits ∧ ¬ (f.src = 1000 * s.member + c.val ∧ ∃ i, f.inj = some i ∧ (s.core c).cyc < i) := by
  simp only [State.quiet, List.mem_filter, Bool.not_eq_true', ← Bool.not_eq_true, Bool.and_eq_true, beq_iff_eq]
  cases f.inj <;> simp

theorem overrun_eq (c : CoreId) (cause : Nat) (s : State) : overrun c cause s =
    { s.modCore c (fun k => { k with run := false }) with
      flits := ((s.modCore c fun k => { k with run := false }).quiet c).flits
      tick := { s.tick with event := setBit s.tick.event 0, notices := addNew s.tick.notices ⟨cause, s.member, (dieOf c).val⟩ } } := rfl

theorem overrun_cores (c : CoreId) (cause : Nat) (s : State) : (overrun c cause s).cores = (s.modCore c fun k => { k with run := false }).cores := rfl

/-- A change of one core that keeps what `IssueKeeps` speaks of. -/
theorem IssueKeeps.modCore {f : Core → Core} (hf : ∀ k, (f k).store = k.store ∧ (f k).sregs = k.sregs ∧ (k.run = false → (f k).run = false)) (s : State) (c : CoreId) :
    IssueKeeps s (s.modCore c f) := by
  refine ⟨rfl, rfl, fun _ h => h, fun _ h => h, fun x => ?_⟩
  by_cases hx : x = c
  · subst hx
    rw [State.core_modCore_same]
    exact hf _
  · rw [State.core_modCore_other _ _ _ _ hx]
    exact ⟨rfl, rfl, id⟩

theorem IssueKeeps.overrun (c : CoreId) (cause : Nat) (s : State) : IssueKeeps s (overrun c cause s) := by
  have h := IssueKeeps.modCore (f := fun k => { k with run := false }) (fun _ => ⟨rfl, rfl, fun _ => rfl⟩) s c
  rw [overrun_eq]
  exact ⟨rfl, rfl, fun n hn => (mem_addNew _ _ _).2 (.inl hn), fun f hf => ((State.mem_quiet _ c f).1 hf).1, h.core⟩

/-- What the overrun of a running core leaves by its issue deadline. -/
structure Overran (c : CoreId) (s t : State) : Prop where
  quiet : ∀ f ∈ t.flits, f.src = 1000 * s.member + c.val → ∀ i, f.inj = some i → i ≤ s.dln c
  notice : (⟨0, s.member, (dieOf c).val⟩ : Notice) ∈ t.tick.notices ∨ ⟨2, s.member, (dieOf c).val⟩ ∈ t.tick.notices

theorem Overran.later {c : CoreId} {s t u : State} (h : Overran c s t) (k : IssueKeeps t u) : Overran c s u :=
  ⟨fun f hf => h.quiet f (k.flits f hf), h.notice.imp (k.notices _) (k.notices _)⟩

/-- A core that is stopped in cycle DLN and overruns. -/
theorem Overran.of_overrun {c : CoreId} {cause : Nat} (hc : cause = 0 ∨ cause = 2) {s u : State} (hu : IssueKeeps s u) :
    Overran c s (overrun c cause (u.modCore c fun k => { k with cyc := u.dln c })) := by
  rw [overrun_eq]
  refine ⟨fun f hf hsrc i hi => ?_, ?_⟩
  · have hq := ((State.mem_quiet _ c f).1 hf).2
    simp only [State.core_modCore_same, State.modCore_member, hu.member, hu.dln] at hq
    exact Nat.not_lt.1 fun hlt => hq ⟨hsrc, i, hi, hlt⟩
  · simp only [mem_addNew, State.modCore_member, hu.member]
    rcases hc with rfl | rfl
    · exact .inl (.inr rfl)
    · exact .inr (.inr rfl)

theorem Core.putAccs_frame (es : List (Nat × BitVec 256)) (k : Core) : { k.putAccs es with acc := k.acc, badAcc := k.badAcc } = k :=
  foldl_keeps (fun u : Core => { u with acc := k.acc, badAcc := k.badAcc }) (fun _ _ => by rfl) es k

theorem Core.undoLate_frame (l : List UnitInst) (k : Core) :
    { l.foldl (fun (k : Core) u => match u.issue with | some i => k.putAccs i.undo | none => k) k with acc := k.acc, badAcc := k.badAcc } = k :=
  foldl_keeps (fun u : Core => { u with acc := k.acc, badAcc := k.badAcc }) (fun u x => by
    cases x.issue with
    | none => rfl
    | some i => exact congrArg (fun v : Core => { v with acc := k.acc, badAcc := k.badAcc }) (u.putAccs_frame i.undo)) l k

/-- Issues of a core are aborted by its issue deadline, their entries as they were (R172). -/
def Core.abort (k : Core) (lates : List UnitInst) (dln : Nat) : Core :=
  let k := lates.reverse.foldl (fun (k : Core) u => match u.issue with | some i => k.putAccs i.undo | none => k) k
  { k with inflight := k.inflight.filter (fun u => !u.late dln), cyc := dln }

theorem Core.abort_keeps (k : Core) (lates : List UnitInst) (dln : Nat) :
    (k.abort lates dln).store = k.store ∧ (k.abort lates dln).sregs = k.sregs ∧ (k.run = false → (k.abort lates dln).run = false) := by
  have h := Core.undoLate_frame lates.reverse k
  unfold Core.abort
  generalize lates.reverse.foldl _ k = u at h ⊢
  exact ⟨(congrArg Core.store h :), (congrArg Core.sregs h :), fun hr => (congrArg Core.run h :).trans hr⟩

/-- The core's late issues at its issue deadline. -/
def State.lates (s : State) (c : CoreId) : List UnitInst := (s.core c).inflight.filter fun u => u.late (s.dln c)

/-- The state after the aborts of one core's late issues. -/
def State.aborted (s : State) (c : CoreId) : State :=
  if (s.lates c).isEmpty then s else overrun c 1 (s.modCore c fun k => k.abort (s.lates c) (s.dln c))

theorem State.coreDeadline_eq (s : State) (c : CoreId) : s.coreDeadline c =
    if (s.core c).run then overrun c (if s.gateHolds c then 0 else 2) ((s.aborted c).modCore c fun k => { k with cyc := s.dln c }) else s.aborted c := rfl

theorem IssueKeeps.aborted (s : State) (c : CoreId) : IssueKeeps s (s.aborted c) := by
  unfold State.aborted
  split
  · exact .refl s
  · exact (IssueKeeps.modCore (fun k => k.abort_keeps _ _) s c).trans (.overrun c 1 _)

theorem IssueKeeps.coreDeadline (s : State) (c : CoreId) : IssueKeeps s (s.coreDeadline c) := by
  rw [State.coreDeadline_eq]
  split
  · exact ((IssueKeeps.aborted s c).trans (.modCore (f := fun k => { k with cyc := s.dln c }) (fun _ => ⟨rfl, rfl, id⟩) _ c)).trans (.overrun c _ _)
  · exact .aborted s c

theorem State.coreDeadline_overran {s : State} {c : CoreId} (hr : (s.core c).run = true) : Overran c s (s.coreDeadline c) := by
  have hu := IssueKeeps.aborted s c
  rw [State.coreDeadline_eq, if_pos hr, ← hu.dln c]
  refine Overran.of_overrun ?_ hu
  split
  · exact .inl rfl
  · exact .inr rfl

theorem overrun_stops (c : CoreId) (cause : Nat) (s : State) : ((overrun c cause s).core c).run = false := by
  rw [State.core_of_cores (overrun_cores c cause s), State.core_modCore_same]

theorem State.coreDeadline_stops (s : State) (c : CoreId) : ((s.coreDeadline c).core c).run = false := by
  cases hr : (s.core c).run with
  | false => exact ((IssueKeeps.coreDeadline s c).core c).2.2 hr
  | true =>
    rw [State.coreDeadline_eq, if_pos hr, overrun_stops]

theorem State.core_overrun_other (c x : CoreId) (hx : x ≠ c) (cause : Nat) (s : State) : (overrun c cause s).core x = s.core x := by
  rw [State.core_of_cores (overrun_cores c cause s), State.core_modCore_other _ _ _ _ hx]

theorem State.core_coreDeadline_other (s : State) {c x : CoreId} (hx : x ≠ c) : (s.coreDeadline c).core x = s.core x := by
  have hu : (s.aborted c).core x = s.core x := by
    unfold State.aborted
    split
    · rfl
    · rw [State.core_overrun_other c x hx, State.core_modCore_other _ _ _ _ hx]
  rw [State.coreDeadline_eq]
  split
  · rw [State.core_overrun_other c x hx, State.core_modCore_other _ _ _ _ hx, hu]
  · exact hu

/-- What its issue deadline does to one core. -/
def AtIssueDeadline (c : CoreId) (s t : State) : Prop := (t.core c).run = false ∧ ((s.core c).run = true → Overran c s t)

theorem atIssueDeadline_other (s : State) (c x : CoreId) (u : State) (hx : x ≠ c) (h : AtIssueDeadline x (s.coreDeadline c) u) : AtIssueDeadline x s u := by
  have hstep := IssueKeeps.coreDeadline s c
  obtain ⟨hstop, hover⟩ := h
  rw [State.core_coreDeadline_other s hx] at hover
  refine ⟨hstop, fun hr => ?_⟩
  obtain ⟨hquiet, hnotice⟩ := hover hr
  rw [hstep.member, hstep.dln] at hquiet
  rw [hstep.member] at hnotice
  exact ⟨hquiet, hnotice⟩

/-- Each core meets its deadline in its own turn. -/
theorem foldl_coreDeadline (l : List CoreId) (s : State) :
    IssueKeeps s (l.foldl State.coreDeadline s) ∧ ∀ c ∈ l, AtIssueDeadline c s (l.foldl State.coreDeadline s) :=
  foldl_turn IssueKeeps.refl IssueKeeps.trans IssueKeeps.coreDeadline (fun s c => ⟨State.coreDeadline_stops s c, State.coreDeadline_overran⟩)
    atIssueDeadline_other (fun c _ _ _ h k => ⟨(k.core c).2.2 h.1, fun hr => (h.2 hr).later k⟩) l s

/-- ISSUE_DEADLINE (R172, R209). -/
theorem issueDeadline_stops (s : State) (h0 : s.power = 0) (ht : s.tick.phase = .work) :
    ∃ t, exec .issueDeadline s = .next t ∧ t.tick.phase = .drain ∧ t.tick.count = s.tick.count ∧ t.tick.seq = s.tick.seq ∧
      (∀ n ∈ s.tick.notices, n ∈ t.tick.notices) ∧ (∀ c, (t.core c).run = false ∧ (t.core c).store = (s.core c).store ∧ (t.core c).sregs = (s.core c).sregs) ∧
      (∀ f ∈ t.flits, f ∈ s.flits) ∧
      (∀ c, (s.core c).run = true → (∀ f ∈ t.flits, f.src = 1000 * s.member + c.val → ∀ i, f.inj = some i → i ≤ s.dln c) ∧
        ((⟨0, s.member, (dieOf c).val⟩ : Notice) ∈ t.tick.notices ∨ ⟨2, s.member, (dieOf c).val⟩ ∈ t.tick.notices)) ∧
      { t with cores := s.cores, tick := s.tick, flits := s.flits } = s := by
  have hrun : exec .issueDeadline s = .next { (List.range 96).foldl (fun s i => s.coreDeadline (asCore i)) s with
      tick := { ((List.range 96).foldl (fun s i => s.coreDeadline (asCore i)) s).tick with phase := .drain } } := if_neg (by simp [h0, ht])
  rw [foldl_range_asCore State.coreDeadline] at hrun
  obtain ⟨hall, hone⟩ := foldl_coreDeadline ((List.range 96).map asCore) s
  have hone (c : CoreId) := hone c (mem_allCores c)
  generalize ((List.range 96).map asCore).foldl State.coreDeadline s = t at hrun hall hone
  exact ⟨_, hrun, rfl, (congrArg Tick.count hall.tick :), (congrArg Tick.seq hall.tick :), hall.notices,
    fun c => ⟨(hone c).1, (hall.core c).1, (hall.core c).2.1⟩, hall.flits, fun c hr => ⟨((hone c).2 hr).quiet, ((hone c).2 hr).notice⟩, hall.frame⟩

/-! ### The work deadline: units -/

/-- What the work deadline of one core's units may change, seen from the whole package. -/
structure UnitsKeeps (s t : State) : Prop where
  frame : { t with cores := s.cores, tick := s.tick } = s
  tick : { t.tick with notices := s.tick.notices } = s.tick
  notices : ∀ n ∈ s.tick.notices, n ∈ t.tick.notices
  core : ∀ c, (t.core c).store = (s.core c).store ∧ (t.core c).acc = (s.core c).acc ∧
    ((s.core c).run = false ∧ (s.core c).inflight = [] → (t.core c).run = false ∧ (t.core c).inflight = [])

theorem UnitsKeeps.refl (s : State) : UnitsKeeps s s := ⟨rfl, rfl, fun _ h => h, fun _ => ⟨rfl, rfl, id⟩⟩

theorem UnitsKeeps.trans {s t u : State} (h : UnitsKeeps s t) (k : UnitsKeeps t u) : UnitsKeeps s u where
  frame := (congrArg (fun v : State => { v with cores := s.cores, tick := s.tick }) k.frame).trans h.frame
  tick := (congrArg (fun v : Tick => { v with notices := s.tick.notices }) k.tick).trans h.tick
  notices n hn := k.notices n (h.notices n hn)
  core c := by
    obtain ⟨h1, h2, h3⟩ := h.core c
    obtain ⟨k1, k2, k3⟩ := k.core c
    exact ⟨k1.trans h1, k2.trans h2, fun hr => k3 (h3 hr)⟩

theorem UnitsKeeps.wdl {s t : State} (h : UnitsKeeps s t) (c : CoreId) : t.wdl c = s.wdl c := by
  have hdies : t.dies = s.dies := (congrArg State.dies h.frame :)
  have hp : t.tick.pEff = s.tick.pEff := (congrArg Tick.pEff h.tick :)
  have hh : t.half c = s.half c := congrArg (fun d : SMap Die => if isEast c then (smGet dieDefault d (dieOf c).val).east else (smGet dieDefault d (dieOf c).val).west) hdies
  unfold State.wdl
  rw [hh, hp]

/-- An instruction of a quantiser, vector or move unit that has not completed by cycle w. -/
def UnitInst.open9 (w : Nat) (u : UnitInst) : Bool :=
  (u.unit == .quant || u.unit == .vector || u.unit == .move) && (match u.done with | some d => decide (w < d) | none => true)

/-- The units of a core that stop at cycle w: what has completed shows its conditions. -/
def Core.unitsStop (k : Core) (l : List UnitInst) (w : Nat) : Core :=
  { l.foldl (fun k u => if u.settled && u.done.any (decide <| · ≤ w) then k.showFlags u.flags else k) k with run := false, inflight := [] }

theorem State.unitsDeadline_eq (s : State) (c : CoreId) : s.unitsDeadline c =
    let u := if (s.core c).inflight.any (UnitInst.open9 (s.wdl c)) then s.lose 9 (dieOf c).val else s
    if (s.core c).inflight.isEmpty && !(s.core c).run then u else u.modCore c fun k => k.unitsStop k.inflight (s.wdl c) := rfl

theorem Core.unitsStop_keeps (k : Core) (l : List UnitInst) (w : Nat) : (k.unitsStop l w).store = k.store ∧ (k.unitsStop l w).acc = k.acc := by
  have h : { l.foldl (fun k u => if u.settled && u.done.any (decide <| · ≤ w) then k.showFlags u.flags else k) k with
      status := k.status, numStat := k.numStat } = k :=
    foldl_keeps (fun u : Core => { u with status := k.status, numStat := k.numStat }) (fun u x => by split <;> rfl) l k
  exact ⟨(congrArg Core.store h :), (congrArg Core.acc h :)⟩

theorem UnitsKeeps.lose (s : State) (cause d : Nat) : UnitsKeeps s (s.lose cause d) :=
  ⟨rfl, rfl, fun n hn => (mem_addNew _ _ _).2 (.inl hn), fun _ => ⟨rfl, rfl, id⟩⟩

theorem UnitsKeeps.unitsStop (s : State) (c : CoreId) (w : Nat) : UnitsKeeps s (s.modCore c fun k => k.unitsStop k.inflight w) := by
  refine ⟨rfl, rfl, fun _ h => h, fun x => ?_⟩
  by_cases hx : x = c
  · subst hx
    rw [State.core_modCore_same]
    obtain ⟨hs, ha⟩ := (s.core x).unitsStop_keeps (s.core x).inflight w
    exact ⟨hs, ha, fun _ => ⟨rfl, rfl⟩⟩
  · rw [State.core_modCore_other _ _ _ _ hx]
    exact ⟨rfl, rfl, id⟩

theorem UnitsKeeps.unitsDeadline (s : State) (c : CoreId) : UnitsKeeps s (s.unitsDeadline c) := by
  have hu : UnitsKeeps s (if (s.core c).inflight.any (UnitInst.open9 (s.wdl c)) then s.lose 9 (dieOf c).val else s) := by
    split
    · exact .lose s _ _
    · exact .refl s
  rw [State.unitsDeadline_eq]
  dsimp only
  split
  · exact hu
  · exact hu.trans (.unitsStop _ c _)

/-- What its work deadline does to one core's units. -/
def AtWorkDeadline (c : CoreId) (s t : State) : Prop :=
  ((t.core c).run = false ∧ (t.core c).inflight = []) ∧
  ((s.core c).inflight.any (UnitInst.open9 (s.wdl c)) = true → (⟨9, s.member, (dieOf c).val⟩ : Notice) ∈ t.tick.notices)

theorem State.core_unitsDeadline_other (s : State) {c x : CoreId} (hx : x ≠ c) : (s.unitsDeadline c).core x = s.core x := by
  have hu (p : Prop) [Decidable p] : (if p then s.lose 9 (dieOf c).val else s).core x = s.core x := by split <;> rfl
  rw [State.unitsDeadline_eq]
  dsimp only
  split
  · exact hu _
  · rw [State.core_modCore_other _ _ _ _ hx]
    exact hu _

theorem atWorkDeadline_own (s : State) (c : CoreId) : AtWorkDeadline c s (s.unitsDeadline c) := by
  have hlose : (s.core c).inflight.any (UnitInst.open9 (s.wdl c)) = true →
      (⟨9, s.member, (dieOf c).val⟩ : Notice) ∈ (if (s.core c).inflight.any (UnitInst.open9 (s.wdl c)) then s.lose 9 (dieOf c).val else s).tick.notices := fun h => by
    rw [if_pos h]
    exact (mem_addNew _ _ _).2 (.inr rfl)
  have hcore : (if (s.core c).inflight.any (UnitInst.open9 (s.wdl c)) then s.lose 9 (dieOf c).val else s).core c = s.core c := by split <;> rfl
  rw [State.unitsDeadline_eq]
  dsimp only
  by_cases hidle : ((s.core c).inflight.isEmpty && !(s.core c).run) = true
  · rw [if_pos hidle]
    simp only [Bool.and_eq_true, List.isEmpty_iff, Bool.not_eq_true'] at hidle
    exact ⟨hcore.symm ▸ ⟨hidle.2, hidle.1⟩, hlose⟩
  · rw [if_neg hidle]
    refine ⟨?_, hlose⟩
    rw [State.core_modCore_same]
    exact ⟨rfl, rfl⟩

theorem atWorkDeadline_other (s : State) (c x : CoreId) (u : State) (hx : x ≠ c) (h : AtWorkDeadline x (s.unitsDeadline c) u) : AtWorkDeadline x s u := by
  have hstep := UnitsKeeps.unitsDeadline s c
  have hmember : (s.unitsDeadline c).member = s.member := (congrArg State.member hstep.frame :)
  unfold AtWorkDeadline at h ⊢
  rwa [State.core_unitsDeadline_other s hx, hstep.wdl, hmember] at h

theorem foldl_unitsDeadline (l : List CoreId) (s : State) :
    UnitsKeeps s (l.foldl State.unitsDeadline s) ∧ ∀ c ∈ l, AtWorkDeadline c s (l.foldl State.unitsDeadline s) :=
  foldl_turn UnitsKeeps.refl UnitsKeeps.trans UnitsKeeps.unitsDeadline atWorkDeadline_own atWorkDeadline_other
    (fun c _ _ _ h k => ⟨(k.core c).2.2 h.1, fun ho => k.notices _ (h.2 ho)⟩) l s


/-! ### The work deadline: flits, reductions, requests, estimates, stamps -/

/-- What the rest of the work deadline may change before the stamps go. -/
structure DrainKeeps (s t : State) : Prop where
  frame : { t with dies := s.dies, tick := s.tick, serve := s.serve, pow := s.pow } = s
  tick : { t.tick with notices := s.tick.notices } = s.tick
  notices : ∀ n ∈ s.tick.notices, n ∈ t.tick.notices

theorem DrainKeeps.refl (s : State) : DrainKeeps s s := ⟨rfl, rfl, fun _ h => h⟩

theorem DrainKeeps.trans {s t u : State} (h : DrainKeeps s t) (k : DrainKeeps t u) : DrainKeeps s u where
  frame := (congrArg (fun v : State => { v with dies := s.dies, tick := s.tick, serve := s.serve, pow := s.pow }) k.frame).trans h.frame
  tick := (congrArg (fun v : Tick => { v with notices := s.tick.notices }) k.tick).trans h.tick
  notices n hn := k.notices n (h.notices n hn)

theorem DrainKeeps.foldl {α : Type} {f : State → α → State} (h : ∀ s x, DrainKeeps s (f s x)) (l : List α) (s : State) : DrainKeeps s (l.foldl f s) := by
  induction l generalizing s with
  | nil => exact .refl s
  | cons x l ih => exact (h s x).trans (ih _)

theorem DrainKeeps.lose (s : State) (cause d : Nat) : DrainKeeps s (s.lose cause d) := ⟨rfl, rfl, fun n hn => (mem_addNew _ _ _).2 (.inl hn)⟩

theorem DrainKeeps.modDie (s : State) (d : DieId) (f : Die → Die) : DrainKeeps s (s.modDie d f) := ⟨rfl, rfl, fun _ h => h⟩

theorem DrainKeeps.setDie (s : State) (d : DieId) (x : Die) : DrainKeeps s (s.setDie d x) := ⟨rfl, rfl, fun _ h => h⟩

theorem DrainKeeps.modSd (s : State) (d : Nat) (f : ServeDie → ServeDie) : DrainKeeps s (s.modSd d f) := ⟨rfl, rfl, fun _ h => h⟩

theorem DrainKeeps.pow (s : State) (p : Power) : DrainKeeps s { s with pow := p } := ⟨rfl, rfl, fun _ h => h⟩

theorem DrainKeeps.member {s t : State} (h : DrainKeeps s t) : t.member = s.member := (congrArg State.member h.frame :)

theorem DrainKeeps.cores {s t : State} (h : DrainKeeps s t) : t.cores = s.cores := (congrArg State.cores h.frame :)

/-- Unfinished flits of the sequence are lost. -/
theorem State.flitsDeadline_drops (s : State) : ∃ u, DrainKeeps s u ∧
    s.flitsDeadline = { u with flits := u.flits.filter fun f => !(f.via.isNone && f.body.hdr.seq == s.tick.seq.setWidth 8) } :=
  ⟨_, .foldl (fun u f => (DrainKeeps.lose u _ _).trans (.modDie _ _ _)) _ s, rfl⟩

theorem State.reducersDeadline_keeps (s : State) : DrainKeeps s s.reducersDeadline :=
  .foldl (fun u e => by
    split
    · exact (DrainKeeps.lose u _ _).trans (.modDie _ _ _)
    · exact .refl u) _ s

/-- A reduction that failed or did not deliver is told of. -/
theorem State.reducersDeadline_tells (s : State) (e : Nat × Reducer) (he : e ∈ s.reducers) (ha : e.2.armed = true) (hf : e.2.failed = true ∨ e.2.delivered = false) :
    (⟨4, s.member, e.1 / 16⟩ : Notice) ∈ s.reducersDeadline.tick.notices := by
  have hstep (u : State) (x : Nat × Reducer) :
      DrainKeeps u (if u.incomplete x.2 then (u.lose 4 (x.1 / 16)).modDie (asDie (x.1 / 16)) fun d => d.red 0 else u) := by
    split
    · exact (DrainKeeps.lose u _ _).trans (.modDie _ _ _)
    · exact .refl u
  obtain ⟨l₁, l₂, hl⟩ := List.append_of_mem (he : e ∈ s.reducers)
  unfold State.reducersDeadline
  rw [hl, List.foldl_append, List.foldl_cons]
  have hu : DrainKeeps s (l₁.foldl _ s) := .foldl hstep l₁ s
  generalize l₁.foldl _ s = u at hu ⊢
  have hinc : u.incomplete e.2 = true := by
    unfold State.incomplete
    rcases hf with h | h <;> simp [ha, h]
  rw [if_pos hinc]
  refine (DrainKeeps.foldl hstep l₂ _).notices _ ?_
  rw [← hu.member]
  exact (mem_addNew _ _ _).2 (.inr rfl)

theorem State.servesDeadline_drops (s : State) : ∃ u, DrainKeeps s u ∧ s.servesDeadline = { u with inbox := [], wire := [], outbound := [] } := by
  have hlate (u : State) (d : Nat) : DrainKeeps u ((u.lose 8 (24 + d)).modSd d fun x => x.attnBit 9) := (DrainKeeps.lose u _ _).trans (.modSd _ _ _)
  have h1 : DrainKeeps s ((s.inbox ++ s.wire).foldl (fun s q => (s.lose 8 (24 + q.at % 2)).modSd (q.at % 2) fun x => x.attnBit 9) s) :=
    .foldl (fun u q => hlate u _) _ s
  refine ⟨_, (h1.trans (.foldl (fun u d => ?_) _ _)).trans (.foldl (fun u q => DrainKeeps.lose u _ _) _ _), rfl⟩
  dsimp only
  split
  · exact .refl u
  · exact (hlate u d).trans (.modSd _ _ _)

theorem State.powerEstimate_keeps (s : State) : DrainKeeps s s.powerEstimate := by
  unfold State.powerEstimate
  dsimp only
  refine .trans (.trans ?_ (.pow _ _)) (.foldl (fun u d => .modDie u _ _) _ _)
  split
  · exact .pow s _
  · exact .refl s

theorem State.thermalDies_keeps {α : Type} {f : State × α → Nat → State × α} (hf : ∀ x d, DrainKeeps x.1 (f x d).1) (l : List Nat) (x : State × α) :
    DrainKeeps x.1 (l.foldl f x).1 := by
  induction l generalizing x with
  | nil => exact .refl _
  | cons d l ih => exact (hf x d).trans (ih _)

theorem State.thermalRequest_keeps (s : State) : DrainKeeps s s.thermalRequest := by
  unfold State.thermalRequest
  split
  · exact .pow s _
  · exact (State.thermalDies_keeps (x := (s, 0)) (fun x d => .setDie x.1 _ _) _).trans (.pow _ _)

/-- The own stamp is kept, with the tick's first eight notices. -/
theorem State.sendStamps_own (s : State) : { s.sendStamps with fab := s.fab, grp := s.grp } = s ∧
    ∃ p ∈ s.sendStamps.grp.stamps, p.tick = s.tick.count ∧ p.member = s.member ∧ p.notices = s.tick.notices.take 8 := by
  have hready : { (if s.grp.restoring && !s.grp.ready && s.restored then { s with grp := { s.grp with ready := true } } else s) with grp := s.grp } = s := by
    split <;> rfl
  unfold State.sendStamps
  dsimp only
  generalize (if s.grp.restoring && !s.grp.ready && s.restored then { s with grp := { s.grp with ready := true } } else s) = u at hready ⊢
  have htick : u.tick = s.tick := (congrArg State.tick hready :)
  refine ⟨?_, _, List.mem_append_right _ (List.mem_singleton.2 rfl), congrArg Tick.count htick, (congrArg State.member hready :), congrArg (fun k : Tick => k.notices.take 8) htick⟩
  exact (congrArg (fun v : State => { v with fab := s.fab, grp := s.grp }) (u.sendFrames_frame _)).trans (congrArg (fun v : State => { v with fab := s.fab }) hready)

/-- What the work deadline may change, the cores' own parts apart. -/
structure WorkKeeps (s t : State) : Prop where
  frame : { t with dies := s.dies, tick := s.tick, serve := s.serve, pow := s.pow, flits := s.flits, inbox := s.inbox, wire := s.wire, outbound := s.outbound, fab := s.fab, grp := s.grp } = s
  tick : { t.tick with notices := s.tick.notices } = s.tick
  notices : ∀ n ∈ s.tick.notices, n ∈ t.tick.notices

theorem WorkKeeps.trans {s t u : State} (h : WorkKeeps s t) (k : WorkKeeps t u) : WorkKeeps s u where
  frame := (congrArg (fun v : State => { v with dies := s.dies, tick := s.tick, serve := s.serve, pow := s.pow, flits := s.flits, inbox := s.inbox, wire := s.wire, outbound := s.outbound, fab := s.fab, grp := s.grp }) k.frame).trans h.frame
  tick := (congrArg (fun v : Tick => { v with notices := s.tick.notices }) k.tick).trans h.tick
  notices n hn := k.notices n (h.notices n hn)

theorem DrainKeeps.work {s t : State} (h : DrainKeeps s t) : WorkKeeps s t :=
  ⟨(congrArg (fun v : State => { v with flits := s.flits, inbox := s.inbox, wire := s.wire, outbound := s.outbound, fab := s.fab, grp := s.grp }) h.frame :), h.tick, h.notices⟩

theorem WorkKeeps.flits {s t : State} (h : WorkKeeps s t) (l : List Flit) : WorkKeeps s { t with flits := l } := ⟨h.frame, h.tick, h.notices⟩

theorem WorkKeeps.queues {s t : State} (h : WorkKeeps s t) (a b c : List ServeReq) : WorkKeeps s { t with inbox := a, wire := b, outbound := c } := ⟨h.frame, h.tick, h.notices⟩

theorem WorkKeeps.of_stamps {s t : State} (h : { t with fab := s.fab, grp := s.grp } = s) : WorkKeeps s t :=
  ⟨(congrArg (fun v : State => { v with dies := s.dies, tick := s.tick, serve := s.serve, pow := s.pow, flits := s.flits, inbox := s.inbox, wire := s.wire, outbound := s.outbound }) h :),
    (congrArg (fun v : State => { v.tick with notices := s.tick.notices }) h :), fun n hn => (congrArg (fun v : State => v.tick.notices) h).symm ▸ hn⟩

/-- WORK_DEADLINE after the units' part. -/
theorem State.drain_of_units (s t : State) (ht : s.flitsDeadline.reducersDeadline.servesDeadline.powerEstimate.thermalRequest.sendStamps = t) :
    WorkKeeps s t ∧ t.inbox = [] ∧ t.wire = [] ∧ t.outbound = [] ∧ (∀ f ∈ t.flits, f.via = none → f.body.hdr.seq ≠ s.tick.seq.setWidth 8) ∧
      (∀ e ∈ s.reducers, e.2.armed = true → (e.2.failed = true ∨ e.2.delivered = false) → (⟨4, s.member, e.1 / 16⟩ : Notice) ∈ t.tick.notices) ∧
      (∃ p ∈ t.grp.stamps, p.tick = s.tick.count ∧ p.member = s.member ∧ p.notices = t.tick.notices.take 8) := by
  obtain ⟨u, hu, hflits⟩ := s.flitsDeadline_drops
  have h1 : WorkKeeps s s.flitsDeadline := hflits ▸ hu.work.flits _
  have hgone : ∀ f ∈ s.flitsDeadline.flits, f.via = none → f.body.hdr.seq ≠ s.tick.seq.setWidth 8 := fun f hf hv => by
    rw [hflits] at hf
    simpa [hv] using (List.mem_filter.1 hf).2
  generalize s.flitsDeadline = a at h1 hgone ht
  have h2 := State.reducersDeadline_keeps a
  have htells := State.reducersDeadline_tells a
  generalize a.reducersDeadline = b at h2 htells ht
  obtain ⟨v, hv, hserves⟩ := b.servesDeadline_drops
  have h3 : WorkKeeps b b.servesDeadline := hserves ▸ hv.work.queues _ _ _
  have hdrop : b.servesDeadline.inbox = [] ∧ b.servesDeadline.wire = [] ∧ b.servesDeadline.outbound = [] := hserves ▸ ⟨rfl, rfl, rfl⟩
  have hfl : b.servesDeadline.flits = b.flits := hserves ▸ (congrArg State.flits hv.frame :)
  generalize b.servesDeadline = c at h3 hdrop hfl ht
  have h4 := (State.powerEstimate_keeps c).trans (State.thermalRequest_keeps _)
  obtain ⟨hstamps, hown⟩ := State.sendStamps_own c.powerEstimate.thermalRequest
  generalize c.powerEstimate.thermalRequest = w at h4 hstamps hown ht
  rw [ht] at hstamps hown
  have hw : WorkKeeps s w := ((h1.trans h2.work).trans h3).trans h4.work
  have hall : WorkKeeps s t := hw.trans (.of_stamps hstamps)
  have hqueues : t.inbox = c.inbox ∧ t.wire = c.wire ∧ t.outbound = c.outbound :=
    ⟨(congrArg State.inbox hstamps).trans (congrArg State.inbox h4.frame :), (congrArg State.wire hstamps).trans (congrArg State.wire h4.frame :),
      (congrArg State.outbound hstamps).trans (congrArg State.outbound h4.frame :)⟩
  obtain ⟨hinbox, hwire, hout⟩ := hdrop
  have hflitsT : t.flits = a.flits := calc
    t.flits = w.flits := (congrArg State.flits hstamps :)
    _ = c.flits := (congrArg State.flits h4.frame :)
    _ = b.flits := hfl
    _ = a.flits := (congrArg State.flits h2.frame :)
  refine ⟨hall, hqueues.1.trans hinbox, hqueues.2.1.trans hwire, hqueues.2.2.trans hout, hflitsT ▸ hgone, fun e he ha hf => ?_, ?_⟩
  · have hmember : a.member = s.member := (congrArg State.member h1.frame :)
    have hreds : a.reducers = s.reducers := (congrArg State.reducers h1.frame :)
    rw [← hmember]
    exact ((h3.trans h4.work).trans (.of_stamps hstamps)).notices _ (htells e (hreds ▸ he) ha hf)
  · have htick : t.tick = w.tick := (congrArg State.tick hstamps :)
    obtain ⟨p, hp, h1, h2, h3⟩ := hown
    exact ⟨p, hp, h1.trans (congrArg Tick.count hw.tick :), h2.trans (congrArg State.member hw.frame :), h3.trans (congrArg (fun k : Tick => k.notices.take 8) htick.symm)⟩

/-- WORK_DEADLINE (R171, R173, R209, R295, R300, R329, R421). -/
theorem workDeadline_drains (s : State) (h0 : s.power = 0) (ht : s.tick.phase = .drain) :
    ∃ t, exec .workDeadline s = .next t ∧ t.tick.phase = .eve ∧ t.tick.count = s.tick.count ∧ t.tick.seq = s.tick.seq ∧
      (∀ n ∈ s.tick.notices, n ∈ t.tick.notices) ∧ t.inbox = [] ∧ t.wire = [] ∧ t.outbound = [] ∧ (∀ f ∈ t.flits, f.via = none → f.body.hdr.seq ≠ s.tick.seq.setWidth 8) ∧
      (∀ e ∈ s.reducers, e.2.armed = true → (e.2.failed = true ∨ e.2.delivered = false) → (⟨4, s.member, e.1 / 16⟩ : Notice) ∈ t.tick.notices) ∧
      (∀ c, (t.core c).run = false ∧ (t.core c).inflight = [] ∧ (t.core c).store = (s.core c).store ∧ (t.core c).acc = (s.core c).acc) ∧
      (∀ c, ∀ u ∈ (s.core c).inflight, (u.unit = .quant ∨ u.unit = .vector ∨ u.unit = .move) → (∀ d, u.done = some d → s.wdl c < d) →
        (⟨9, s.member, (dieOf c).val⟩ : Notice) ∈ t.tick.notices) ∧
      (∃ p ∈ t.grp.stamps, p.tick = s.tick.count ∧ p.member = s.member ∧ p.notices = t.tick.notices.take 8) := by
  have hrun : exec .workDeadline s = .next { ((List.range 96).foldl (fun s i => s.unitsDeadline (asCore i)) s).flitsDeadline.reducersDeadline.servesDeadline.powerEstimate.thermalRequest.sendStamps with
      tick := { ((List.range 96).foldl (fun s i => s.unitsDeadline (asCore i)) s).flitsDeadline.reducersDeadline.servesDeadline.powerEstimate.thermalRequest.sendStamps.tick with phase := .eve } } :=
    if_neg (by simp [h0, ht])
  rw [foldl_range_asCore State.unitsDeadline] at hrun
  obtain ⟨hunits, hone⟩ := foldl_unitsDeadline ((List.range 96).map asCore) s
  have hone (c : CoreId) := hone c (mem_allCores c)
  generalize ((List.range 96).map asCore).foldl State.unitsDeadline s = u at hrun hunits hone
  obtain ⟨hall, hinbox, hwire, hout, hflits, htells, hown⟩ := u.drain_of_units _ rfl
  generalize u.flitsDeadline.reducersDeadline.servesDeadline.powerEstimate.thermalRequest.sendStamps = t at hrun hall hinbox hwire hout hflits htells hown
  have hmember : u.member = s.member := (congrArg State.member hunits.frame :)
  have hcount : u.tick.count = s.tick.count := (congrArg Tick.count hunits.tick :)
  have hseq : u.tick.seq = s.tick.seq := (congrArg Tick.seq hunits.tick :)
  have hreds : u.reducers = s.reducers := (congrArg State.reducers hunits.frame :)
  have hcore (c : CoreId) : t.core c = u.core c := State.core_of_cores (congrArg State.cores hall.frame :) c
  rw [hseq] at hflits
  rw [hreds, hmember] at htells
  rw [hcount, hmember] at hown
  refine ⟨_, hrun, rfl, (congrArg Tick.count hall.tick).trans hcount, (congrArg Tick.seq hall.tick).trans hseq, fun n hn => hall.notices n (hunits.notices n hn), hinbox, hwire, hout,
    hflits, htells, fun c => ?_, fun c x hx hunit hd => hall.notices _ ((hone c).2 ?_), hown⟩
  · show (t.core c).run = false ∧ (t.core c).inflight = [] ∧ (t.core c).store = (s.core c).store ∧ (t.core c).acc = (s.core c).acc
    rw [hcore]
    exact ⟨(hone c).1.1, (hone c).1.2, (hunits.core c).1, (hunits.core c).2.1⟩
  · refine List.any_eq_true.2 ⟨x, hx, ?_⟩
    unfold UnitInst.open9
    rw [Bool.and_eq_true]
    refine ⟨by rcases hunit with h | h | h <;> rw [h] <;> rfl, ?_⟩
    cases hdone : x.done with
    | none => rfl
    | some d => exact decide_eq_true (hd d hdone)

/-! ### The change report -/

/-- A report is made exactly when one of the writes has a cause against it. -/
theorem State.nakIn_isSome (s : State) (ws : List BufWrite) (n : W48) : (s.nakIn ws n).isSome = true ↔ ∃ w ∈ ws, ∃ x, s.nakOf w n = some x := by
  suffices h : ∀ a, (ws.foldl (fun a w => match s.nakOf w n with | some c => some (w.die.val, c) | none => a) a).isSome = true ↔
      a.isSome = true ∨ ∃ w ∈ ws, ∃ x, s.nakOf w n = some x by
    exact (h none).trans (by simp)
  induction ws with
  | nil => simp
  | cons w ws ih =>
    intro a
    rw [List.foldl_cons, ih]
    cases hw : s.nakOf w n <;> simp [hw]

/-- CHANGE_REPORT (R534): the reports alone change. -/
theorem changeReport_reports (s : State) (h0 : s.power = 0) (ht : s.tick.phase = .eve) :
    ∃ t, exec .changeReport s = .next t ∧ t.tick = { s.tick with phase := .reported } ∧
      { t with tick := s.tick, chg := s.chg } = s ∧ t.chg.pending = s.chg.pending ∧ t.chg.armed = s.chg.armed ∧
      (t.chg.pNak = true ↔ ∃ w ∈ s.chg.pending, w.late = false ∧ ∃ x, s.nakOf w (s.tick.count + 1) = some x) := by
  refine ⟨_, if_neg (by simp [h0, ht]), rfl, rfl, rfl, rfl, ?_⟩
  refine (s.nakIn_isSome s.chg.due _).trans ?_
  simp only [Change.due, List.mem_filter, Bool.not_eq_true', and_assoc]

/-- Settles O22: each core meets its deadline in its own turn, and what follows adds notices alone. -/
theorem tickDeadlines : Obligations.TickDeadlines := fun s h0 => ⟨issueDeadline_stops s h0, workDeadline_drains s h0, changeReport_reports s h0⟩

end Sys2Proof.Machine
end

section
/-! The rings: completions, events, command taking and doorbells (R458 to R461, R464 to R466). -/
namespace Sys2Proof.Machine

/-! ### Writes to the carve-outs and single ring sets -/

/-- Bytes of a carve-out change the carve-outs alone. -/
theorem State.rings_writeCarve (s : State) (o a : Nat) (bs : Bytes) :
    { (s.writeCarve o a bs).rings with carve0 := s.rings.carve0, carve1 := s.rings.carve1 } = s.rings := by
  unfold State.writeCarve
  split <;> rfl

@[simp] theorem State.queues_writeCarve (s : State) (o a : Nat) (bs : Bytes) : (s.writeCarve o a bs).rings.queues = s.rings.queues :=
  (congrArg HostIf.queues (s.rings_writeCarve o a bs) :)

@[simp] theorem State.begun_writeCarve (s : State) (o a : Nat) (bs : Bytes) : (s.writeCarve o a bs).rings.begun = s.rings.begun :=
  (congrArg HostIf.begun (s.rings_writeCarve o a bs) :)

@[simp] theorem State.fwEvt_writeCarve (s : State) (o a : Nat) (bs : Bytes) : (s.writeCarve o a bs).rings.fwEvt = s.rings.fwEvt :=
  (congrArg HostIf.fwEvt (s.rings_writeCarve o a bs) :)

@[simp] theorem State.queues_writeIndices (s : State) (i : Nat) : (s.writeIndices i).rings.queues = s.rings.queues := s.queues_writeCarve _ _ _

@[simp] theorem State.begun_writeIndices (s : State) (i : Nat) : (s.writeIndices i).rings.begun = s.rings.begun := s.begun_writeCarve _ _ _

@[simp] theorem State.fwEvt_writeIndices (s : State) (i : Nat) : (s.writeIndices i).rings.fwEvt = s.rings.fwEvt := s.fwEvt_writeCarve _ _ _

@[simp] theorem State.queues_setRing (s : State) (i : Nat) (r : RingSet) : (s.setRing i r).rings.queues = s.rings.queues := rfl

@[simp] theorem State.begun_setRing (s : State) (i : Nat) (r : RingSet) : (s.setRing i r).rings.begun = s.rings.begun := rfl

/-- A completion's slot is used, in its own set. -/
@[simp] theorem State.ring_putCompletion_same (s : State) (i : Nat) (tag : W32) (op st : Nat) (res : Bytes) (fin : Bool) (t : W48) :
    (s.putCompletion i tag op st res fin t).ring i = { s.ring i with cplProd := (s.ring i).cplProd + 1 } := by
  simp [State.putCompletion]

theorem State.ring_putCompletion_other (s : State) {i j : Nat} (h : j ≠ i) (tag : W32) (op st : Nat) (res : Bytes) (fin : Bool) (t : W48) :
    (s.putCompletion i tag op st res fin t).ring j = s.ring j := by
  simp [State.putCompletion, State.ring_setRing_other _ _ _ _ h]

@[simp] theorem State.queues_putCompletion (s : State) (i : Nat) (tag : W32) (op st : Nat) (res : Bytes) (fin : Bool) (t : W48) :
    (s.putCompletion i tag op st res fin t).rings.queues = s.rings.queues := by
  simp [State.putCompletion]

@[simp] theorem State.begun_putCompletion (s : State) (i : Nat) (tag : W32) (op st : Nat) (res : Bytes) (fin : Bool) (t : W48) :
    (s.putCompletion i tag op st res fin t).rings.begun = s.rings.begun := by
  simp [State.putCompletion]

/-- An event's slot is used, in its own set. -/
@[simp] theorem State.ring_putEvent_same (s : State) (i code cls die : Nat) (data : Bytes) :
    (s.putEvent i code cls die data).ring i = { s.ring i with evtProd := (s.ring i).evtProd + 1 } := by
  simp [State.putEvent]

theorem State.ring_putEvent_other (s : State) {i j : Nat} (h : j ≠ i) (code cls die : Nat) (data : Bytes) :
    (s.putEvent i code cls die data).ring j = s.ring j := by
  simp [State.putEvent, State.ring_setRing_other _ _ _ _ h]

theorem nth_set_same {α : Type} (d : α) (l : List α) (i : Nat) (x : α) (h : i < l.length) : nth d (l.set i x) i = x := by simp [nth, h]

theorem nth_set_other {α : Type} (d : α) (l : List α) {i j : Nat} (x : α) (h : j ≠ i) : nth d (l.set i x) j = nth d l j := by
  unfold nth
  rw [List.getElem?_set_ne (Ne.symm h)]

theorem queueOf_lt (op : Nat) : queueOf op < 4 := by
  unfold queueOf
  split
  · decide
  · split
    · decide
    · split <;> decide

/-! ### Completions -/

/-- A command that its processor has taken completes (R461). -/
theorem State.completeCmd_taken (h : HostCmd) (op st : Nat) (res : Bytes) (s : State) (he : (⟨h.set.val, h.tag, op⟩ : QCmd) ∈ nth [] s.rings.queues (queueOf op)) :
    s.completeCmd h op st res = (({ s with rings := { s.rings with
        queues := s.rings.queues.set (queueOf op) ((nth [] s.rings.queues (queueOf op)).erase ⟨h.set.val, h.tag, op⟩), begun := s.rings.begun.erase ⟨h.set.val, h.tag, op⟩ } } : State).setRing
        h.set.val { s.ring h.set.val with reserved := (s.ring h.set.val).reserved - 1 }).putCompletion h.set.val h.tag op st res false s.tick.count :=
  if_pos he

theorem completeCmd_completes (h : HostCmd) (op st : Nat) (res : Bytes) (s : State) :
    let i := h.set.val
    let r := s.ring i
    let e : QCmd := ⟨i, h.tag, op⟩
    let t := s.completeCmd h op st res
    { t with rings := s.rings } = s ∧
    (e ∈ nth [] s.rings.queues (queueOf op) → s.rings.queues.length = 4 →
      nth [] t.rings.queues (queueOf op) = (nth [] s.rings.queues (queueOf op)).erase e ∧ (∀ q, q ≠ queueOf op → nth [] t.rings.queues q = nth [] s.rings.queues q) ∧
      (t.ring i).cplProd = r.cplProd + 1 ∧ (t.ring i).reserved = r.reserved - 1 ∧ t.rings.begun = s.rings.begun.erase e ∧ (∀ j, j ≠ i → t.ring j = s.ring j)) ∧
    (e ∉ nth [] s.rings.queues (queueOf op) → r.enabled = true → 0 < r.cplFree → t = s.putCompletion i h.tag op st res false s.tick.count) ∧
    (e ∉ nth [] s.rings.queues (queueOf op) → (r.enabled = false ∨ r.cplFree = 0) → t = s) := by
  dsimp only
  refine ⟨s.completeCmd_rings h op st res, fun he hl => ?_, fun he hen hfree => ?_, fun he hno => ?_⟩
  · rw [s.completeCmd_taken h op st res he]
    have hlt : queueOf op < s.rings.queues.length := hl ▸ queueOf_lt op
    refine ⟨?_, fun q hq => ?_, ?_, ?_, ?_, fun j hj => ?_⟩
    · simp [nth_set_same, hlt]
    · simp [nth_set_other _ _ _ hq]
    · simp
    · simp
    · simp
    · rw [State.ring_putCompletion_other _ hj, State.ring_setRing_other _ _ _ _ hj]
      rfl
  · exact (if_neg he).trans (if_pos (by simp [hen, hfree]))
  · exact (if_neg he).trans (if_neg (by rcases hno with h | h <;> simp [h]))

/-! ### Events -/

theorem State.flushLost_none (s : State) (i : Nat) (h : (s.ring i).lostSince = 0) : s.flushLost i = s := if_neg (by simp [h])

theorem State.ring_flushLost_other (s : State) {i j : Nat} (h : j ≠ i) : (s.flushLost i).ring j = s.ring j := by
  unfold State.flushLost
  dsimp only
  split
  · rw [State.ring_writeIndices, State.ring_setRing_other _ _ _ _ h, State.ring_putEvent_other _ h]
  · rfl

theorem State.ring_postTo_other (s : State) {i j : Nat} (h : j ≠ i) (code cls die : Nat) (data : Bytes) : (s.postTo code cls die data i).ring j = s.ring j := by
  unfold State.postTo
  dsimp only
  split
  · split
    · rw [State.ring_writeIndices, State.ring_putEvent_other _ h, State.ring_flushLost_other _ h]
    · rw [State.ring_writeIndices]
      exact (State.ring_setRing_other _ _ _ _ h).trans (State.ring_flushLost_other _ h)
  · rfl

/-- A set that takes the event's class, with nothing lost. -/
theorem State.postTo_masked (s : State) (code cls die : Nat) (data : Bytes) (i : Nat) (hen : (s.ring i).enabled = true) (hmask : (s.ring i).mask.getLsbD cls = true)
    (hlost : (s.ring i).lostSince = 0) : s.postTo code cls die data i =
      if (s.ring i).evtFree then (s.putEvent i code cls die data).writeIndices i
      else ({ (s.setRing i { s.ring i with evtLost := satAdd 0xFFFF (s.ring i).evtLost 1, lostSince := (s.ring i).lostSince + 1 }) with
        rings := { (s.setRing i { s.ring i with evtLost := satAdd 0xFFFF (s.ring i).evtLost 1, lostSince := (s.ring i).lostSince + 1 }).rings with fwEvt := setBit s.rings.fwEvt 4 } } : State).writeIndices i := by
  unfold State.postTo
  rw [s.flushLost_none i hlost]
  exact if_pos (by simp [hen, hmask])

theorem postTo_posts (code cls die : Nat) (data : Bytes) (i : Nat) (s : State) :
    let r := s.ring i
    let t := s.postTo code cls die data i
    { t with rings := s.rings } = s ∧ (∀ j, j ≠ i → t.ring j = s.ring j) ∧
    (r.enabled = false ∨ r.mask.getLsbD cls = false → t = s) ∧
    (r.enabled = true → r.mask.getLsbD cls = true → r.lostSince = 0 →
      (r.evtFree = true → t.ring i = { r with evtProd := r.evtProd + 1 }) ∧
      (r.evtFree = false → t.ring i = { r with evtLost := min 0xFFFF (r.evtLost + 1), lostSince := 1 } ∧ t.rings.fwEvt.getLsbD 4 = true)) := by
  dsimp only
  refine ⟨s.postTo_rings code cls die data i, fun j hj => s.ring_postTo_other hj code cls die data, fun hno => if_neg (by rcases hno with h | h <;> simp [h]),
    fun hen hmask hlost => ?_⟩
  rw [s.postTo_masked code cls die data i hen hmask hlost]
  refine ⟨fun hfree => ?_, fun hfull => ?_⟩
  · simp [hfree]
  · rw [if_neg (by simp [hfull])]
    refine ⟨?_, ?_⟩
    · rw [State.ring_writeIndices]
      refine (s.ring_setRing_same i _).trans ?_
      rw [hlost]
      rfl
    · rw [State.fwEvt_writeIndices]
      exact (getLsbD_setBit _ _ _).trans (by simp)

/-! ### The ring engine and the doorbells -/

/-- The engine looks at a set's next command (R461). -/
theorem commandTake_ready (n : Fin 16) (s : State) (hstop : s.rings.stopped = false) (hen : (s.ring n.val).enabled = true) (hcmd : (s.ring n.val).cmdHead ≠ (s.ring n.val).cmdTail)
    (hfree : (s.ring n.val).cplFree ≠ 0) (hend : (s.ring n.val).endings = []) : exec (.commandTake n) s =
    (let i := n.val
     let r := s.ring i
     let bs := readBytes (s.carve r.owner) (r.cmdBase + 64 * (r.cmdHead.toNat % 2 ^ r.cmdLog2)) 64
     let op := leAt bs 0 2
     match s.takeStatus i bs with
     | some st => .next ((s.setRing i { r with cmdHead := r.cmdHead + 1 }).putCompletion i (BitVec.ofNat 32 (leAt bs 4 4)) op st [] false s.tick.count)
     | none =>
       if 256 ≤ (nth [] s.rings.queues (queueOf op)).length then .next s
       else .next (({ (s.setRing i { r with cmdHead := r.cmdHead + 1, reserved := r.reserved + 1 }) with rings := {
         (s.setRing i { r with cmdHead := r.cmdHead + 1, reserved := r.reserved + 1 }).rings with
         queues := s.rings.queues.set (queueOf op) (nth [] s.rings.queues (queueOf op) ++ [⟨i, BitVec.ofNat 32 (leAt bs 4 4), op⟩]) } } : State).writeIndices i)) :=
  if_neg (by simp [hstop, hen, hcmd, hfree, hend])

/-- Settles O43: completions, events and commands use one slot of their own set and write carve-outs; doorbells within bounds move one index. -/
theorem rings : Obligations.Rings := by
  refine ⟨⟨completeCmd_completes, postTo_posts⟩, ?_⟩
  intro n x s
  dsimp only
  refine ⟨fun hstop hen hcmd hfree hend => ?_, fun h1 h2 => if_pos ⟨h1, h2⟩, fun h => if_neg fun hb => absurd hb.1 (Nat.not_le.2 h), fun h => if_pos h,
    fun h => if_neg (Nat.not_le.2 h), fun h => if_pos h, fun h => if_neg (Nat.not_le.2 h), fun hen hlost hfree => ?_⟩
  · rw [commandTake_ready n s hstop hen hcmd hfree hend]
    dsimp only
    generalize readBytes (s.carve (s.ring n.val).owner) ((s.ring n.val).cmdBase + 64 * ((s.ring n.val).cmdHead.toNat % 2 ^ (s.ring n.val).cmdLog2)) 64 = bs
    refine ⟨fun hst hroom hl => ?_, fun st hst => ?_⟩
    · rw [hst]
      have hlt : queueOf (leAt bs 0 2) < s.rings.queues.length := hl ▸ queueOf_lt _
      refine ⟨_, if_neg (Nat.not_le.2 hroom), ?_, ?_, State.rings_trans ?_ (State.writeIndices_rings _ _)⟩
      · rw [State.ring_writeIndices]
        exact s.ring_setRing_same _ _
      · rw [State.queues_writeIndices]
        exact nth_set_same _ _ _ _ hlt
      · rfl
    · rw [hst]
      refine ⟨_, rfl, ?_, ?_, State.rings_trans (State.setRing_rings s n.val _) (State.putCompletion_rings _ _ _ _ _ _ _ _)⟩
      · simp
      · simp
  · refine ⟨_, rfl, ?_, s.flushLost_rings n.val⟩
    have hflush : s.flushLost n.val = (State.setRing (s.putEvent n.val 0x0E 3 26 (leBytes 2 (min (s.ring n.val).lostSince 0xFFFF))) n.val
        { (s.putEvent n.val 0x0E 3 26 (leBytes 2 (min (s.ring n.val).lostSince 0xFFFF))).ring n.val with lostSince := 0 }).writeIndices n.val :=
      if_pos (by simp [hen, hlost, hfree])
    rw [hflush]
    simp

end Sys2Proof.Machine
end

section
/-! Almanac and group commands, firmware commands and self-tests (R194, R197, R429, R445, R463 to R518). -/
namespace Sys2Proof.Machine

/-! ### Almanac and group commands -/

theorem State.installAlmanac_alm (s : State) (a : Almanac) (aux : List AuxSec) :
    (s.installAlmanac a aux).alm = some a ∧ (s.installAlmanac a aux).tick.basePeriod = a.period := ⟨rfl, rfl⟩

theorem almPatch_stages (h : HostCmd) (a : W64) (len : W32) (target : W48) (s : State) (hh : s.handles h 0x30 = true) (hin : a.toNat + len.toNat ≤ s.rings.carveSize)
    (hp : s.tick.patch = none) (ha : s.fw.act = none) (al : Almanac) (hal : s.alm = some al) :
    ∃ p : Patch, exec (.almPatch h a len target) s = .next (({ s with tick := { s.tick with patch := some p } } : State).completeCmd h 0x30 0 []) ∧
      p.target = target ∧ p.moves = 0 ∧ p.agreed = false ∧ p.cmd = h ∧
      p.alm = some (almOf (Config.patchAlmanac al.raw (readBytes (s.carve (s.ring h.set.val).owner) a.toNat len.toNat))) ∧
      p.writes = Config.patchWrites (readBytes (s.carve (s.ring h.set.val).owner) a.toNat len.toNat) := by
  have hrun : exec (.almPatch h a len target) s = _ := (if_neg (by simp [hh])).trans ((if_neg (by simp [State.inCarve, hin])).trans (if_neg (by simp [hp, ha])))
  rw [hrun, hal]
  exact ⟨_, rfl, rfl, rfl, rfl, rfl, rfl, rfl⟩

theorem almLoad_loads (h : HostCmd) (a : W64) (len : W32) (s : State) (hh : s.handles h 0x31 = true) (ht : s.tick.phase = .applied) (hin : a.toNat + len.toNat ≤ s.rings.carveSize)
    (hg : s.genActive = 0) (hl : s.loadPhase = 0) (hheld : s.held = false) (bs : Bytes) (hbs : bs = readBytes (s.carve (s.ring h.set.val).owner) a.toNat len.toNat) :
    exec (.almLoad h a len) s = .next (if s.allSwept = true ∧ s.almOk bs s.aux s.member = true then (s.installAlmanac (almOf bs) s.aux).completeCmd h 0x31 0 [] else s.completeCmd h 0x31 0x103 []) := by
  refine (if_neg (by simp [hh, ht])).trans ((if_neg (by simp [State.inCarve, hin])).trans ((if_neg (by simp [hg, hl, hheld])).trans ?_))
  dsimp only
  rw [← hbs]
  by_cases hok : s.allSwept = true ∧ s.almOk bs s.aux s.member = true
  · rw [if_neg (by simp [hok]), if_pos hok]
  · rw [if_pos (by cases hs : s.allSwept <;> simp_all), if_neg hok]

/-- Settles O44: each command passes its tests in order, and the last alternative is its effect. -/
theorem almanacAndGroupCommands : Obligations.AlmanacAndGroupCommands := by
  intro h a len target s
  dsimp only
  refine ⟨fun hh => if_pos hh, fun hh hin hp ha al hal => almPatch_stages h a len target s hh hin hp ha al hal,
    fun hh ht hin hg hl hheld => ⟨almLoad_loads h a len s hh ht hin hg hl hheld _ rfl, s.installAlmanac_alm _ _⟩, fun hh hin hform => ?_,
    fun hh hspare => (if_neg (by simp [hh])).trans (if_neg (by simp [hspare])), fun hh hspare => (if_neg (by simp [hh])).trans (if_pos (by simp [hspare]))⟩
  have hrun : exec (.groupForm h a) s = _ := (if_neg (by simp [hh])).trans (if_neg (by simp [State.inCarve, hin]))
  rw [hrun]
  generalize readBytes (s.carve (s.ring h.set.val).owner) a.toNat 128 = bs at hform ⊢
  refine ⟨fun hspare he hf => ?_, fun hserving hid => ?_⟩
  · exact (if_neg (by simp [hform, State.held, hspare])).trans ((if_neg (by simp [hspare])).trans (if_neg (by simp [he, hf])))
  · exact (if_neg (by simp [hform, State.held, hserving])).trans ((if_pos (by simp [hserving])).trans (if_neg (by simp [hid])))


/-! ### Firmware commands -/

theorem fwStage_stages (h : HostCmd) (a : W64) (len : W32) (s : State) (hh : s.handles h 0x50 = true) (hd : s.denied h 0x50 = false) (hr : s.fw.sec.runs = true)
    (hin : a.toNat + len.toNat ≤ s.rings.carveSize) (raw : Bytes) (hraw : raw = readBytes (s.carve (s.ring h.set.val).owner) a.toNat len.toNat) :
    ∃ u : State, exec (.fwStage h 1 a len) s = .next (u.completeCmd h 0x50 (bundleStatus s.fw.nv.minSvn raw) (sliceBytes raw 8 8 ++ sliceBytes raw 16 4)) ∧
      (bundleStatus s.fw.nv.minSvn raw = 0 → u.fw.staged = some (bundleOf raw)) ∧ (bundleStatus s.fw.nv.minSvn raw ≠ 0 → u.fw.staged = s.fw.staged) ∧ u.fw.pendingAuto = false ∧
      { u with fw := s.fw } = s := by
  have hrun : exec (.fwStage h 1 a len) s = .next (s.stageBundle h (readBytes (s.carve (s.ring h.set.val).owner) a.toNat len.toNat)) :=
    (if_neg (by simp [hh])).trans ((if_neg (by simp [hd])).trans ((if_neg (by simp [hr])).trans ((if_neg (by decide)).trans ((if_neg (by decide)).trans
      (if_neg (by simp [State.inCarve, hin]))))))
  rw [hrun, ← hraw]
  exact ⟨{ s with fw := { s.fw with staged := if bundleStatus s.fw.nv.minSvn raw = 0 then some (bundleOf raw) else s.fw.staged, pendingAuto := false } }, rfl,
    fun h0 => if_pos h0, fun h0 => if_neg h0, rfl, rfl⟩

theorem fwStage_fetches (h : HostCmd) (a : W64) (len : W32) (s : State) (hh : s.handles h 0x50 = true) (hd : s.denied h 0x50 = false) (hr : s.fw.sec.runs = true)
    (hf : s.fw.fetch = none) : exec (.fwStage h 0 a len) s =
      .next { s.begins h 0x50 with fw := { s.fw with fetch := some (newFetch 0 (some (h.set.val, h.tag))), pendingAuto := false } } :=
  (if_neg (by simp [hh])).trans ((if_neg (by simp [hd])).trans ((if_neg (by simp [hr])).trans ((if_pos rfl).trans (if_neg (by simp [hf])))))

/-- An activation is refused, deferred or waits for its target (R475, R484). -/
theorem fwActivate_waits (h : HostCmd) (auto : Byte) (target : W48) (s : State) (hh : s.handles h 0x51 = true) :
    let u : State := { s with fw := { s.fw with pendingAuto := false } }
    let busy := s.loadPhase = 3 ∨ s.tick.patch.isSome = true ∨ s.fw.act.isSome = true
    (busy → exec (.fwActivate h target auto) s = .next (u.actRefused.completeCmd h 0x51 0x108 [])) ∧
    (¬ busy → s.emergBits ≠ 0 → auto = 0 → exec (.fwActivate h target auto) s = .next (u.actRefused.completeCmd h 0x51 0x105 [])) ∧
    (¬ busy → s.emergBits ≠ 0 → auto ≠ 0 → exec (.fwActivate h target auto) s = .next (({ s with fw := { s.fw with pendingAuto := true } } : State).completeCmd h 0x51 0x109 [])) ∧
    (¬ busy → s.emergBits = 0 → exec (.fwActivate h target auto) s =
      .next (({ s with fw := { s.fw with pendingAuto := false, act := some ⟨target, auto != 0, 0⟩ } } : State).completeCmd h 0x51 0 [])) := by
  intro u busy
  have hbusy : ((decide (s.loadPhase = 3) || s.tick.patch.isSome || s.fw.act.isSome) = true) ↔ busy := by simp [busy, or_assoc]
  refine ⟨fun hb => (if_neg (by simp [hh])).trans (if_pos (hbusy.2 hb)), fun hb he ha => ?_, fun hb he ha => ?_, fun hb he => ?_⟩
  · exact (if_neg (by simp [hh])).trans ((if_neg (mt hbusy.1 hb)).trans ((if_pos he).trans (if_pos ha)))
  · exact (if_neg (by simp [hh])).trans ((if_neg (mt hbusy.1 hb)).trans ((if_pos he).trans (if_neg ha)))
  · exact (if_neg (by simp [hh])).trans ((if_neg (mt hbusy.1 hb)).trans (if_neg (Decidable.not_not.2 he)))

theorem attest_signs (h : HostCmd) (a b : W64) (s : State) (hh : s.handles h 0x60 = true) (hr : s.fw.sec.runs = true) (ha : a.toNat + 32 ≤ s.rings.carveSize)
    (hb : b.toNat + 5861 ≤ s.rings.carveSize) (hx : s.fw.nv.xmssIdx < 2 ^ 40) :
    let rep := s.attestReport (readBytes (s.carve (s.ring h.set.val).owner) a.toNat 32)
    let sig := sliceBytes (Config.xmssSign s.fw.nv.xmssIdx (sliceBytes (shake256 rep) 0 32)) 0 5605
    exec (.attest h a b) s = .next ((({ s with fw := { s.fw with nv := { s.fw.nv with xmssIdx := s.fw.nv.xmssIdx + 1 } } } : State).writeCarve (s.ring h.set.val).owner b.toNat
      (rep ++ sig)).completeCmd h 0x60 0 (leBytes 8 s.fw.nv.xmssIdx)) :=
  (if_neg (by simp [hh])).trans ((if_neg (by simp [hr])).trans ((if_neg (by simp [State.inCarve, ha, hb])).trans (if_neg (Nat.not_le.2 hx))))

/-! ### Self-tests -/

/-- A test of the package, not of one array, queues nothing. -/
theorem State.queueTest_pkg (s : State) (t : SelfTest) (hk : 1 < t.kind) : s.queueTest t = s := by
  unfold State.queueTest
  cases unitCore t.unit with
  | none => rfl
  | some c => exact if_pos hk

/-- The only test of a list runs (R517, R518): what the processor makes of it. -/
theorem selftestRun_only (ok : Bool) (detail : BitVec 16) (s : State) (h0 : s.power = 0) (hr : s.fw.pwr.runs = true) (t : SelfTest) (ht : s.pow.tests = [t]) (hk : 1 < t.kind)
    (t' : SelfTest) (ht' : (if t.kind == 4 && t.state != 3 then { t with state := if (unitCore t.unit).any s.coreFree then 1 else 2 } else t) = t')
    (hruns : ({ s with pow := { s.pow with tests := [t'] } } : State).testRuns t' = true) : exec (.selftestRun ok detail) s =
      if t'.state ≠ 3 ∧ 4 ≤ t'.kind then .next { s with pow := { s.pow with tests := [{ t' with state := 3 }] } }
      else .next (({ s with pow := { s.pow with tests := [] } } : State).endTest t'.cmd (if ok then 0 else 1) (if ok then 0 else detail.toNat)) := by
  have hqueue : s.pow.tests.foldl State.queueTest s = s := by
    rw [ht]
    exact s.queueTest_pkg t hk
  refine (if_neg (by simp [h0, hr])).trans ?_
  dsimp only
  rw [hqueue, ht, List.map_singleton, ht', List.find?_cons_of_pos hruns]
  simp

theorem selftest_queues (h : HostCmd) (unit : W32) (kind : BitVec 16) (s : State) (hh : s.handles h 0x70 = true) (hu : unit.toNat < 2 ^ 20) :
    let todo := if 1 < kind.toNat then [] else if unitArray unit = 0x1FFF then List.range 4224 else [unitArray unit]
    let t : SelfTest := ⟨h, unit, kind.toNat, 1, todo⟩
    let u : State := { s.begins h 0x70 with pow := { s.pow with tests := s.pow.tests ++ [t] } }
    let waits := (s.pow.tests.filter fun t => t.state != 3).length
    (kind ≠ 15 → s.testUnit unit kind.toNat = false → exec (.selftest h unit kind) s = .next (s.endTest h 3 0)) ∧
    (kind ≠ 15 → s.testUnit unit kind.toNat = true → 64 ≤ waits → exec (.selftest h unit kind) s = .next (s.completeCmd h 0x70 0x103 [])) ∧
    (kind ≠ 15 → s.testUnit unit kind.toNat = true → waits < 64 → exec (.selftest h unit kind) s = .next (if kind = 5 then u.askLeap 3 else u.queueTest t)) ∧
    (kind = 15 → exec (.selftest h unit kind) s = .next (s.cancelTests h unit)) ∧
    exec (.selftestCancel h unit) s = .next (s.cancelTests h unit) ∧
    ((∀ t ∈ s.pow.tests, t.unit ≠ unit) → s.cancelTests h unit = s.endTest h 0 0) := by
  intro todo t u waits
  have hstart : exec (.selftest h unit kind) s = _ := (if_neg (by simp [hh])).trans (if_neg (Nat.not_le.2 hu))
  rw [hstart]
  refine ⟨fun hk ht => ?_, fun hk ht hw => ?_, fun hk ht hw => ?_, fun hk => if_pos hk, (if_neg (by simp [hh])).trans (if_neg (Nat.not_le.2 hu)), fun hall => ?_⟩
  · exact (if_neg hk).trans (if_pos (by simp [ht]))
  · exact (if_neg hk).trans ((if_neg (by simp [ht])).trans (if_pos hw))
  · exact (if_neg hk).trans ((if_neg (by simp [ht])).trans (if_neg (Nat.not_le.2 hw)))
  · have hnone : (s.pow.tests.filter fun t => t.unit == unit && t.state != 3) = [] := List.filter_eq_nil_iff.2 fun t ht => by simp [hall t ht]
    have hrest : (s.pow.tests.filter fun t => !(t.unit == unit && t.state != 3)) = s.pow.tests := List.filter_eq_self.2 fun t ht => by simp [hall t ht]
    unfold State.cancelTests
    dsimp only
    rw [hnone, hrest]
    rfl

/-- Settles O45: each command passes its tests in order; the last alternative is its effect. -/
theorem firmwareCommands : Obligations.FirmwareCommands := by
  intro h a b len unit kind detail auto req src model target ok s h0
  dsimp only
  refine ⟨fun hh hd => (if_neg (by simp [hh])).trans (if_pos hd), fun hh hd hr => ⟨fun hin => fwStage_stages h a len s hh hd hr hin _ rfl, fwStage_fetches h a len s hh hd hr⟩,
    fwActivate_waits h auto target s, fun ht hp hc he hpatch ha hl => if_neg (by simp [h0, ht, hp, he, hpatch, ha, hl, Nat.not_lt.2 hc]),
    attest_signs h a b s, fun hh hd hr => ⟨fun ha hk => ?_, ?_⟩,
    fun hh hd => ⟨(if_neg (by simp [hh])).trans (if_pos hd), (if_neg (by simp [hh])).trans (if_pos hd)⟩, fun hh hd hr => ?_,
    fun hh hd => (if_neg (by simp [hh])).trans (if_pos hd), selftest_queues h unit kind s, fun hr t ht => ⟨fun hk => ?_, fun hk hs he c hc hfree => ?_, fun hk hs he hl => ?_⟩⟩
  · exact (if_neg (by simp [hh])).trans ((if_neg (by simp [hd])).trans ((if_neg (by simp [hr])).trans ((if_neg (by simp [State.inCarve, ha])).trans (if_neg (Nat.not_le.2 hk)))))
  · exact (if_neg (by simp [hh])).trans ((if_neg (by simp [hd])).trans (if_neg (by simp [hr])))
  · refine (if_neg (by simp [hh])).trans ((if_neg (by simp [hd])).trans ((if_neg (by simp [hr])).trans ?_))
    by_cases hin : a.toNat + Config.bootLen ≤ s.rings.carveSize
    · rw [if_pos hin]
      exact if_neg (by simp [State.inCarve, hin])
    · rw [if_neg hin]
      exact if_pos (by simpa [State.inCarve] using hin)
  · have hkind : 1 < t.kind := by omega
    have hsame : (t.kind == 4 && t.state != 3) = false := by rcases hk with h | h | ⟨h, _⟩ <;> simp [h]
    have hruns : ({ s with pow := { s.pow with tests := [t] } } : State).testRuns t = true := by
      rcases hk with h | h | ⟨h, _⟩ <;> simp [State.testRuns, h]
    rw [selftestRun_only ok detail s h0 hr t ht hkind t (by rw [hsame]; rfl) hruns]
    exact if_neg fun hn => by omega
  · have hruns : ({ s with pow := { s.pow with tests := [{ t with state := 1 }] } } : State).testRuns { t with state := 1 } = true := by
      have hcalm : ({ s with pow := { s.pow with tests := [{ t with state := 1 }] } } : State).emergBits = 0 := he
      have hcore : ({ s with pow := { s.pow with tests := [{ t with state := 1 }] } } : State).coreFree c = true := hfree
      unfold State.testRuns
      dsimp only
      rw [if_neg (by decide), if_neg (by omega), if_pos hk, hcalm, hc]
      exact hcore
    rw [selftestRun_only ok detail s h0 hr t ht (by omega) { t with state := 1 } (by simp [hk, hs, hc, hfree]) hruns]
    exact if_pos ⟨Nat.ne_of_lt (by decide : 1 < 3), by simp [hk]⟩
  · have hruns : ({ s with pow := { s.pow with tests := [t] } } : State).testRuns t = true := by
      have hcalm : ({ s with pow := { s.pow with tests := [t] } } : State).emergBits = 0 := he
      simp [State.testRuns, hk, hl, hcalm]
    rw [selftestRun_only ok detail s h0 hr t ht (by omega) t (by simp [hk]) hruns]
    exact if_pos ⟨hs, by omega⟩

end Sys2Proof.Machine
end

section
/-! Sensors, the shutdown latch, and power emergencies (R484, R490 to R505, R575). -/
namespace Sys2Proof.Machine

/-! ### Stopping the package -/

theorem Core.stop_stop (k : Core) : k.stop.stop = k.stop := rfl

/-- Every core stopped, the rest as it was. -/
def State.stopCores (s : State) : State := (List.range 96).foldl (fun s i => s.modCore (asCore i) Core.stop) s

/-- What the shutdown does outside the cores. -/
def State.off (u : State) : State := { u with
    power := 1, flits := [], inbox := [], wire := [], outbound := [], reducers := []
    tick := { u.tick with phase := .applied }
    rings := { u.rings with sets := [], queues := [[], [], [], []], begun := [] }
    fab := { u.fab with launch := false, frames := [] }
    pow := { u.pow with railsUp := false }
    fw := { u.fw with nv := { u.fw.nv with orderly := false } } }

theorem State.shutdown_eq (s : State) : s.shutdown = s.stopCores.off := rfl

theorem State.stopCores_frame (s : State) : { s.stopCores with cores := s.cores } = s := by
  unfold State.stopCores
  generalize List.range 96 = l
  exact State.foldl_modCore_frame asCore (fun _ _ => Core.stop) l s

theorem State.core_stopCores (s : State) (c : CoreId) : s.stopCores.core c = (s.core c).stop :=
  (State.core_foldl_modCore_idem Core.stop_stop asCore c (List.range 96) s).trans (if_pos (mem_allCores c))

/-- The package's shutdown (R505, R575): what lies in cells, DRAM and the NV region stays. -/
structure ShutDown (s t : State) : Prop where
  core : ∀ c, t.core c = (s.core c).stop
  alm : t.alm = s.alm
  fuses : t.fuses = s.fuses
  serve : t.serve = s.serve
  dies : t.dies = s.dies
  pow : t.pow = { s.pow with railsUp := false }
  nv : t.fw.nv = { s.fw.nv with orderly := false }
  flits : t.flits = []
  power : t.power = 1

theorem ShutDown.of_stopped {s u : State} (h : { u with cores := s.cores } = s) (hc : ∀ c, u.core c = (s.core c).stop) : ShutDown s u.off where
  core := hc
  alm := (congrArg State.alm h :)
  fuses := (congrArg State.fuses h :)
  serve := (congrArg State.serve h :)
  dies := (congrArg State.dies h :)
  pow := (congrArg (fun v : State => { v.pow with railsUp := false }) h :)
  nv := (congrArg (fun v : State => { v.fw.nv with orderly := false }) h :)
  flits := rfl
  power := rfl

theorem State.shutdown_shutDown (s : State) : ShutDown s s.shutdown := s.shutdown_eq ▸ .of_stopped s.stopCores_frame s.core_stopCores

/-! ### Samples -/

/-- What a sample may change before the latch is looked at. -/
structure SampleKeeps (s t : State) : Prop where
  frame : { t with dies := s.dies, pow := s.pow, grp := s.grp, rings := s.rings } = s
  latch : ∀ e, (t.die e).latch = (s.die e).latch
  since : t.pow.sinceShown = s.pow.sinceShown

theorem SampleKeeps.refl (s : State) : SampleKeeps s s := ⟨rfl, fun _ => rfl, rfl⟩

theorem SampleKeeps.trans {s t u : State} (h : SampleKeeps s t) (k : SampleKeeps t u) : SampleKeeps s u where
  frame := (congrArg (fun v : State => { v with dies := s.dies, pow := s.pow, grp := s.grp, rings := s.rings }) k.frame).trans h.frame
  latch e := (k.latch e).trans (h.latch e)
  since := k.since.trans h.since

theorem SampleKeeps.foldl {α : Type} {f : State → α → State} (h : ∀ s x, SampleKeeps s (f s x)) (l : List α) (s : State) : SampleKeeps s (l.foldl f s) := by
  induction l generalizing s with
  | nil => exact .refl s
  | cons x l ih => exact (h s x).trans (ih _)

theorem SampleKeeps.modDie (s : State) (d : DieId) {f : Die → Die} (hf : ∀ x, (f x).latch = x.latch) : SampleKeeps s (s.modDie d f) := by
  refine ⟨rfl, fun e => ?_, rfl⟩
  by_cases he : e = d
  · subst he
    rw [State.die_modDie_same, hf]
  · exact congrArg Die.latch (State.die_setDie_other _ _ _ _ he)

theorem SampleKeeps.tmonBit (s : State) (i : Nat) : SampleKeeps s (s.tmonBit i) := ⟨rfl, fun _ => rfl, rfl⟩

theorem SampleKeeps.takeReadings (s : State) (rs : List Reading) : SampleKeeps s (s.takeReadings rs) :=
  .foldl (fun u r => by
    split
    · exact .refl u
    · exact .modDie u _ fun _ => rfl) rs s

theorem SampleKeeps.crossChecks (s : State) (rs : List Reading) : SampleKeeps s (s.crossChecks rs) := by
  unfold State.crossChecks
  refine .foldl (fun u r => ?_) rs s
  dsimp only
  split
  · exact .refl u
  · split
    · exact (SampleKeeps.modDie u _ fun _ => by rfl).trans (.tmonBit _ _)
    · exact .modDie u _ fun _ => rfl

theorem Die.foldl_modSensor_latch (f : Nat → Sensor → Sensor) (l : List Nat) (x : Die) : (l.foldl (fun x i => x.modSensor i (f i)) x).latch = x.latch :=
  foldl_keeps (f := fun (x : Die) i => x.modSensor i (f i)) Die.latch (fun _ _ => rfl) l x

theorem SampleKeeps.showHalf (s : State) (d : DieId) (east : Bool) (n : Nat) : SampleKeeps s (s.showHalf d east n) := by
  unfold State.showHalf
  split
  · exact .modDie s d fun x => Die.foldl_modSensor_latch (fun _ y => { y with shown := y.temp }) _ x
  · exact .refl s

theorem SampleKeeps.setHot (s : State) (d : DieId) : SampleKeeps s (s.setHot d) := by
  unfold State.setHot
  dsimp only
  split
  · exact (SampleKeeps.modDie s d fun _ => by rfl).trans (.tmonBit _ _)
  · exact .modDie s d fun _ => rfl

theorem SampleKeeps.countHot (s : State) (r : Reading) : SampleKeeps s (s.countHot r) := by
  unfold State.countHot
  split
  · exact .refl s
  · exact .modDie s _ fun _ => rfl

theorem SampleKeeps.packageFault (s : State) (cause : Nat) : SampleKeeps s (s.packageFault cause) := by
  have h := s.packageFault_rings cause
  generalize s.packageFault cause = t at h ⊢
  refine ⟨(congrArg (fun v : State => { v with dies := s.dies, pow := s.pow, grp := s.grp }) h :), fun e => ?_, (congrArg (fun v : State => v.pow.sinceShown) h :)⟩
  exact (congrArg (fun v : State => (v.die e).latch) h :)

theorem SampleKeeps.tripOutput (s : State) : SampleKeeps s s.tripOutput := by
  unfold State.tripOutput
  dsimp only
  split
  · split <;> exact ⟨rfl, fun _ => rfl, rfl⟩
  · split <;> exact ⟨rfl, fun _ => rfl, rfl⟩

/-- The trip output is raised by any valid reading of 110 °C or more (R504). -/
theorem State.tripOutput_trips (s : State) (h : ∃ v ∈ s.allTemps, 880 ≤ v) : s.tripOutput.pow.trip = true := by
  obtain ⟨v, hv, hhot⟩ := h
  unfold State.tripOutput
  dsimp only
  rw [if_pos (List.any_eq_true.2 ⟨v, hv, decide_eq_true hhot⟩)]
  split
  · assumption
  · rfl

theorem State.tripOutput_temps (s : State) : s.tripOutput.allTemps = s.allTemps := by
  unfold State.tripOutput
  dsimp only
  split
  · split <;> rfl
  · split <;> rfl

/-- A sensor of the die has counted two samples at 115 °C or more (R505). -/
def State.latches (s : State) (d : DieId) : Bool := (List.range (sensorCount d.val)).any fun i => decide (2 ≤ ((s.die d).sensor i).hot)

theorem State.latchCheck_none (s : State) (ds : List DieId) (h : ds.any s.latches = false) : s.latchCheck ds = s :=
  if_neg (Bool.not_eq_true _ ▸ h)

theorem State.latchFold (hot : DieId → Bool) (ds : List DieId) (s : State) :
    { ds.foldl (fun s d => if hot d then s.modDie d fun x => { x with latch := true } else s) s with dies := s.dies } = s ∧
    ∀ e, ((s.die e).latch = true ∨ (e ∈ ds ∧ hot e = true)) →
      ((ds.foldl (fun s d => if hot d then s.modDie d fun x => { x with latch := true } else s) s).die e).latch = true := by
  induction ds generalizing s with
  | nil => exact ⟨rfl, fun e h => h.resolve_right fun h => nomatch h.1⟩
  | cons d ds ih =>
    obtain ⟨hframe, hlatch⟩ := ih (if hot d then s.modDie d fun x => { x with latch := true } else s)
    refine ⟨(congrArg (fun v : State => { v with dies := s.dies }) hframe).trans (by split <;> rfl), fun e he => hlatch e ?_⟩
    by_cases hd : e = d
    · subst hd
      refine .inl ?_
      cases hh : hot e with
      | true => rw [if_pos rfl, State.die_modDie_same]
      | false => simpa [hh] using he
    · have hsame : (if hot d then s.modDie d fun x => { x with latch := true } else s).die e = s.die e := by
        split
        · exact State.die_setDie_other _ _ _ _ hd
        · rfl
      rw [hsame]
      exact he.imp_right fun h => ⟨(List.mem_cons.1 h.1).resolve_left hd, h.2⟩

/-- The trip output of a latched package. -/
def State.raiseTrip (u : State) : State := { u with pow := { u.pow with trip := true } }

/-- The latch of each die whose sensor counts. -/
def State.setLatches (s : State) (ds : List DieId) : State :=
  ds.foldl (fun u d => if s.latches d then u.modDie d fun x => { x with latch := true } else u) s

theorem State.latchCheck_some (s : State) (ds : List DieId) (h : ds.any s.latches = true) :
    s.latchCheck ds = (if s.pow.trip then (s.setLatches ds).raiseTrip else (s.setLatches ds).raiseTrip.tmonBit 2).shutdown := if_pos h

/-- The latch check goes on, or stops the package with a latch set and the trip output raised. -/
theorem State.latchCheck_cases (s : State) (ds : List DieId) : s.latchCheck ds = s ∨
    ∃ u : State, s.latchCheck ds = u.shutdown ∧ { u with dies := s.dies, pow := s.pow } = s ∧ u.pow.trip = true ∧ ∃ e, (u.die e).latch = true := by
  cases h : ds.any s.latches with
  | false => exact .inl (s.latchCheck_none ds h)
  | true =>
    obtain ⟨e, he, hhot⟩ := List.any_eq_true.1 h
    obtain ⟨hframe, hlatch⟩ : { s.setLatches ds with dies := s.dies } = s ∧ _ := State.latchFold s.latches ds s
    have hset : ((s.setLatches ds).die e).latch = true := hlatch e (.inr ⟨he, hhot⟩)
    rw [s.latchCheck_some ds h]
    generalize s.setLatches ds = u at hframe hset
    refine .inr ⟨_, rfl, ?_⟩
    have hpow := congrArg (fun v : State => { v with pow := s.pow }) hframe
    split
    · exact ⟨hpow, rfl, e, hset⟩
    · exact ⟨hpow, rfl, e, hset⟩

/-- What stands after a sample: cells, stores and the serving dies as they were; the package goes on, or it has stopped. -/
structure Sampled (s t : State) : Prop where
  fuses : t.fuses = s.fuses
  alm : t.alm = s.alm
  serve : t.serve = s.serve
  core : ∀ c, (t.core c).store = (s.core c).store ∧ (t.core c).arrays = (s.core c).arrays
  goes : t.power = 0 ∨ (t.power = 1 ∧ t.pow.trip = true ∧ t.pow.railsUp = false ∧ ∃ e, (t.die e).latch = true)
  going : t.power = 0 → (t.pow.sinceShown = s.pow.sinceShown + 1 ∧ ((∃ v ∈ t.allTemps, 880 ≤ v) → t.pow.trip = true) ∧ (∀ e, (t.die e).latch = (s.die e).latch))

/-- A state with one more sample counted. -/
def State.countSample (s : State) : State := { s with pow := { s.pow with sinceShown := s.pow.sinceShown + 1 } }

theorem Sampled.of_going {s a b : State} (h0 : s.power = 0) (ha : SampleKeeps s a) (hb : SampleKeeps a.countSample b) (htrip : (∃ v ∈ b.allTemps, 880 ≤ v) → b.pow.trip = true) :
    Sampled s b where
  fuses := (congrArg State.fuses hb.frame).trans (congrArg State.fuses ha.frame :)
  alm := (congrArg State.alm hb.frame).trans (congrArg State.alm ha.frame :)
  serve := (congrArg State.serve hb.frame).trans (congrArg State.serve ha.frame :)
  core c := by
    have h : b.core c = s.core c := State.core_of_cores ((congrArg State.cores hb.frame).trans (congrArg State.cores ha.frame :)) c
    rw [h]
    exact ⟨rfl, rfl⟩
  goes := .inl (((congrArg State.power hb.frame).trans (congrArg State.power ha.frame :)).trans h0)
  going _ := ⟨hb.since.trans (congrArg (· + 1) ha.since), htrip, fun e => (hb.latch e).trans (ha.latch e)⟩

theorem Sampled.shutdown {s b u : State} (h : Sampled s b) (hu : { u with dies := b.dies, pow := b.pow } = b) (htrip : u.pow.trip = true) (hlatch : ∃ e, (u.die e).latch = true) :
    Sampled s u.shutdown := by
  have hoff := u.shutdown_shutDown
  have hdie (e : DieId) : u.shutdown.die e = u.die e := congrArg (smGet dieDefault · e.val) hoff.dies
  have hcore (c : CoreId) : u.core c = b.core c := State.core_of_cores (congrArg State.cores hu :) c
  generalize u.shutdown = t at hoff hdie ⊢
  refine ⟨hoff.fuses.trans ((congrArg State.fuses hu).trans h.fuses :), hoff.alm.trans ((congrArg State.alm hu).trans h.alm :), hoff.serve.trans ((congrArg State.serve hu).trans h.serve :),
    fun c => ?_, .inr ⟨hoff.power, hoff.pow ▸ htrip, hoff.pow ▸ rfl, hlatch.imp fun e he => hdie e ▸ he⟩, fun hp => absurd (hp.symm.trans hoff.power) (by decide)⟩
  rw [hoff.core, hcore]
  exact h.core c

/-- Every sampled die shows its sample, the `n`th since reset. -/
def State.showDies (s : State) (ds : List DieId) (n : Nat) : State := ds.foldl (fun s d => ((s.showHalf d false n).showHalf d true n).setHot d) s

/-- Too few valid sensors on a die that had enough of them in a state before. -/
def State.fewNow (s old : State) (ds : List DieId) : Bool := ds.any fun d => decide ((s.die d).validCount d.val < 4) && !decide ((old.die d).validCount d.val < 4)

/-- SENSOR_SAMPLE up to the latch check. -/
def State.sampled (s : State) (readings : List Reading) : State :=
  let u := (s.takeReadings readings).crossChecks readings
  let v := u.countSample.showDies (sampledDies readings) u.pow.sinceShown
  readings.foldl State.countHot (if v.fewNow s (sampledDies readings) then v.packageFault 5 else v)

theorem sensorSample_eq (rs : List Reading) (s : State) (h0 : s.power = 0) : exec (.sensorSample rs) s = .next ((s.sampled rs).tripOutput.latchCheck (sampledDies rs)) :=
  if_neg (not_not.2 h0)

theorem SampleKeeps.showDies (s : State) (ds : List DieId) (n : Nat) : SampleKeeps s (s.showDies ds n) :=
  .foldl (fun u d => ((SampleKeeps.showHalf u d false n).trans (.showHalf _ d true n)).trans (.setHot _ d)) ds s

theorem SampleKeeps.sampled (s : State) (rs : List Reading) : SampleKeeps ((s.takeReadings rs).crossChecks rs).countSample (s.sampled rs) := by
  have hshow := SampleKeeps.showDies ((s.takeReadings rs).crossChecks rs).countSample (sampledDies rs) ((s.takeReadings rs).crossChecks rs).pow.sinceShown
  unfold State.sampled
  dsimp only
  refine .trans (hshow.trans ?_) (.foldl SampleKeeps.countHot rs _)
  split
  · exact .packageFault _ _
  · exact .refl _

/-- SENSOR_SAMPLE (R497 to R500, R504, R505). -/
theorem sensorSample_sampled (rs : List Reading) (s : State) (h0 : s.power = 0) : ∃ t, exec (.sensorSample rs) s = .next t ∧ Sampled s t := by
  refine ⟨_, sensorSample_eq rs s h0, ?_⟩
  have ha := (SampleKeeps.takeReadings s rs).trans (.crossChecks _ rs)
  have hb := (SampleKeeps.sampled s rs).trans (.tripOutput _)
  have hgoing : Sampled s (s.sampled rs).tripOutput := .of_going h0 ha hb fun h => (s.sampled rs).tripOutput_trips ((s.sampled rs).tripOutput_temps ▸ h)
  rcases (s.sampled rs).tripOutput.latchCheck_cases (sampledDies rs) with h | ⟨u, h, hu, htrip, hlatch⟩
  · exact h.symm ▸ hgoing
  · exact h.symm ▸ hgoing.shutdown hu htrip hlatch

/-- Settles O48: a sample goes through the sensors' dies alone, and only the latch stops the package. -/
theorem sensors : Obligations.Sensors := by
  intro p d i rs s h0
  dsimp only
  refine ⟨fun hi hx => if_neg (by simp [h0, Nat.not_le.2 hi, hx]), fun hx hr ha => if_neg (by simp [h0, hx, hr, Nat.not_lt.2 ha]), ?_⟩
  obtain ⟨t, ht, h⟩ := sensorSample_sampled rs s h0
  exact ⟨t, ht, h.fuses, h.alm, h.serve, h.core, h.goes, h.going⟩


/-! ### Power emergencies -/

/-- An emergency that has a cause is in force, with the package's causes; the processor's state and the rings change alone (R484). -/
theorem State.emergUpdate_begins (s : State) (hb : s.emergBits ≠ 0) :
    { s.emergUpdate with rings := s.rings } = { s with fw := { s.fw with emerg := true, emergCause := s.emergBits, clearTicks := 0 } } := by
  unfold State.emergUpdate
  dsimp only
  rw [if_neg (by simp [hb]), if_pos hb]
  split
  · rfl
  · exact State.post_rings ({ s with fw := { s.fw with emerg := true, emergCause := s.emergBits, clearTicks := 0 } }) _ _ _ _

theorem bit_true : bit true = 1 := rfl

theorem State.emergBits_limit (s : State) (h : 1024 < s.pow.limitTicks) : s.emergBits.testBit 2 = true := by
  have hlim : bit (decide (1024 < s.pow.limitTicks)) = 1 := by rw [decide_eq_true h, bit_true]
  unfold State.emergBits
  rw [hlim]
  unfold bit
  split <;> split <;> split <;> split <;> rfl

theorem State.emergBits_regulator (s : State) (h : s.pow.evt.getLsbD 3 = true) : s.emergBits.testBit 3 = true := by
  have hfault : bit (s.pow.pmbusWarn || s.pow.evt.getLsbD 3) = 1 := by rw [h, Bool.or_true, bit_true]
  unfold State.emergBits
  rw [hfault]
  unfold bit
  split <;> split <;> split <;> split <;> rfl

theorem ne_zero_of_testBit {n i : Nat} (h : n.testBit i = true) : n ≠ 0 := fun h0 => by simp [h0] at h

/-- Settles O50: each command sets its bit and looks at the emergency again; a lost rail is the shutdown. -/
theorem powerEmergencies : Obligations.PowerEmergencies := by
  intro w r s h0
  refine ⟨fun hr hw => if_neg (by simp [h0, hr, Nat.not_lt.2 hw]), if_neg (not_not.2 h0), if_neg (not_not.2 h0), ?_, fun hne hall => ?_, fun hl => ?_, ?_, ?_⟩
  · have hrun : exec .pmbusFault s = .next (s.powBit 3).emergUpdate := congrArg Host.Outcome.next (if_neg (not_not.2 h0))
    have hbit : (s.powBit 3).emergBits.testBit 3 = true := State.emergBits_regulator _ ((getLsbD_setBit s.pow.evt 3 3).trans (by simp))
    have h := State.emergUpdate_begins (s.powBit 3) (ne_zero_of_testBit hbit)
    generalize (s.powBit 3).emergUpdate = t at hrun h
    refine ⟨t, hrun, (congrArg State.pow h :), (congrArg (fun v : State => v.fw.emerg) h :), (congrArg (fun v : State => v.fw.clearTicks) h :), ?_,
      (congrArg (fun v : State => { v with pow := s.pow, fw := s.fw, rings := s.rings }) h :)⟩
    rw [show t.fw.emergCause = (s.powBit 3).emergBits from (congrArg (fun v : State => v.fw.emergCause) h :), hbit]
  · have hany : s.pow.ceiling.any (fun e => !e.2) = false := List.any_eq_false.2 fun e he => by simp [hall e he]
    exact if_neg (by simp [h0, hne, hany])
  · have hrun : exec .limitHoldEmergency s = .next s.emergUpdate := congrArg Host.Outcome.next (if_neg (by simp [h0, hl]))
    have hbit := s.emergBits_limit hl
    have h := s.emergUpdate_begins (ne_zero_of_testBit hbit)
    generalize s.emergUpdate = t at hrun h
    refine ⟨t, hrun, (congrArg (fun v : State => v.fw.emerg) h :), ?_, (congrArg (fun v : State => { v with fw := s.fw, rings := s.rings }) h :)⟩
    rw [show t.fw.emergCause = s.emergBits from (congrArg (fun v : State => v.fw.emergCause) h :), hbit]
  · have h := s.shutdown_shutDown
    exact ⟨s.shutdown, congrArg Host.Outcome.next (if_neg (not_not.2 h0)), h.power, h.nv, h.flits, h.serve, h.dies, h.fuses, fun c => by rw [h.core]; exact ⟨rfl, rfl, rfl⟩⟩
  · have h := s.shutdown_shutDown
    exact ⟨s.shutdown, congrArg Host.Outcome.next (if_neg (not_not.2 h0)), h.power, h.nv, h.serve, fun c => by rw [h.core]; rfl⟩

end Sys2Proof.Machine
end

section
/-! Register access (R10, R544, R550 to R561). -/
namespace Sys2Proof.Machine

/-! ### Buffered registers -/

/-- The write as it waits in the pending change or for its group's strobe (R554, R555). -/
def State.bufWrite (s : State) (p : Path) (a : Nat) (v : W32) (d : DieId) (b : Nat) : BufWrite :=
  let g := if (match placeOf a with | .die _ off => decide (off < 8) | _ => false) then 0 else (s.die d).updGroup b
  ⟨d, b, g, a, s.entryOf p (placeOf a), v &&& BitVec.ofNat 32 (s.rwMask (placeOf a)), p, decide (g = 0) && s.afterEve⟩

/-- A buffered write takes the place of an earlier one to its register. -/
def State.putWrite (s : State) (w : BufWrite) : State :=
  let other (x : BufWrite) : Bool := !(x.addr == w.addr && x.entry == w.entry)
  let k := { s.chg with waiting := s.chg.waiting.filter other, pending := s.chg.pending.filter other }
  { s with chg := if w.group = 0 then { k with pending := k.pending ++ [w] } else { k with waiting := k.waiting ++ [w] } }

theorem State.bufferWrite_buffers {s : State} {p : Path} {a : Nat} (v : W32) {d : DieId} {b : Nat} (hb : blockOf (placeOf a) = some (d, b)) (hm : s.rwMask (placeOf a) ≠ 0)
    (hi : s.ignoresWrite p (placeOf a) = false) :
    (if (s.bufWrite p a v d b).group = 0 then s.bufWrite p a v d b ∈ (s.bufferWrite p a v).chg.pending else s.bufWrite p a v d b ∈ (s.bufferWrite p a v).chg.waiting) ∧
    { s.bufferWrite p a v with chg := s.chg } = s := by
  have hrun : s.bufferWrite p a v = s.putWrite (s.bufWrite p a v d b) := by
    unfold State.bufferWrite
    dsimp only
    rw [hb]
    exact if_neg (by simp [hm, hi])
  rw [hrun]
  refine ⟨?_, rfl⟩
  generalize s.bufWrite p a v d b = w
  by_cases hg : w.group = 0
  · rw [if_pos hg, State.putWrite, if_pos hg]
    exact List.mem_append_right _ (List.mem_singleton.2 rfl)
  · rw [if_neg hg, State.putWrite, if_neg hg]
    exact List.mem_append_right _ (List.mem_singleton.2 rfl)

/-- A write to a buffered register does nothing at once, but for the lock of ARR_CHECK_CTRL. -/
theorem State.regWrite_buffered {s : State} {p : Path} {a : Nat} (v : W32) (hm : s.rwMask (placeOf a) ≠ 0) (hr : s.readReg p a ≠ none) :
    ∃ t, s.regWrite p a v = some t ∧ { t with cores := (s.bufferWrite p a v).cores } = s.bufferWrite p a v := by
  have hread : ¬ (s.readReg p a).isNone = true := by simpa using hr
  unfold State.regWrite
  rw [if_neg hread]
  dsimp only
  generalize s.bufferWrite p a v = u
  generalize placeOf a = pl at hm
  unfold State.rwMask at hm
  split at hm
  case h_22 => exact absurd rfl hm
  all_goals exact ⟨_, rfl, rfl⟩

theorem registerWrite_buffers {p : Path} {a : Nat} {v : W32} {s : State} (h0 : s.power = 0) {d : DieId} {b : Nat} (hb : blockOf (placeOf a) = some (d, b)) (hm : s.rwMask (placeOf a) ≠ 0)
    (hi : s.ignoresWrite p (placeOf a) = false) (hr : s.readReg p a ≠ none) :
    ∃ t, exec (.registerWrite p a v) s = .next t ∧ (if (s.bufWrite p a v d b).group = 0 then s.bufWrite p a v d b ∈ t.chg.pending else s.bufWrite p a v d b ∈ t.chg.waiting) ∧
      t.pow.limit = s.pow.limit ∧ t.fab.shares = s.fab.shares ∧ t.alm = s.alm := by
  obtain ⟨t, ht, hcores⟩ := State.regWrite_buffered v hm hr
  obtain ⟨hw, hkeep⟩ := State.bufferWrite_buffers v hb hm hi
  have hrun : exec (.registerWrite p a v) s = .next ((s.regWrite p a v).getD s) := if_neg (not_not.2 h0)
  rw [ht] at hrun
  generalize s.bufferWrite p a v = u at hcores hw hkeep
  have hchg : t.chg = u.chg := (congrArg State.chg hcores :)
  exact ⟨t, hrun, hchg.symm ▸ hw, (congrArg (fun v : State => v.pow.limit) hcores).trans (congrArg (fun v : State => v.pow.limit) hkeep :),
    (congrArg (fun v : State => v.fab.shares) hcores).trans (congrArg (fun v : State => v.fab.shares) hkeep :), (congrArg State.alm hcores).trans (congrArg State.alm hkeep :)⟩

theorem placeOf_die_map (a : Nat) : (match placeOf a with | .die _ off => decide (off < 8) | _ => false) = decide (a % 0x1_0000 < 8 ∧ 0x10_0000 ≤ a ∧ a < 0x30_0000) := by
  unfold placeOf
  by_cases h1 : a < 0x1_0000
  · rw [if_pos h1]
    exact (decide_eq_false (by omega)).symm
  · rw [if_neg h1]
    by_cases h2 : 0x10_0000 ≤ a ∧ a < 0x30_0000
    · rw [if_pos h2]
      exact decide_eq_decide.2 (by omega)
    · rw [if_neg h2]
      refine Eq.trans ?_ (decide_eq_false (by omega)).symm
      split_ifs <;> rfl

theorem State.bufWrite_eq (s : State) (p : Path) (a : Nat) (v : W32) (d : DieId) (b : Nat) : s.bufWrite p a v d b =
    ⟨d, b, if a % 0x1_0000 < 8 ∧ 0x10_0000 ≤ a ∧ a < 0x30_0000 then 0 else (s.die d).updGroup b, a, s.entryOf p (placeOf a),
      v &&& BitVec.ofNat 32 (s.rwMask (placeOf a)), p, decide ((s.bufWrite p a v d b).group = 0) && s.afterEve⟩ := by
  have h := placeOf_die_map a
  unfold State.bufWrite
  simp only [h, decide_eq_true_eq]

/-! ### Reads -/

/-- A read's shadows are the path's high words (R557). -/
theorem State.latch_frame (s : State) (p : Path) (a : Nat) : { s.latch p a with regs := { (s.latch p a).regs with shadow := s.regs.shadow } } = s :=
  foldl_keeps (fun u : State => { u with regs := { u.regs with shadow := s.regs.shadow } }) (fun _ _ => by rfl) (s.highFor p a) s

theorem State.latch_count (s : State) (p : Path) : (s.latch p 0).shadow p 4 = s.tick.count.toNat / 2 ^ 32 := by
  have hhigh : s.highFor p 0 = [(4, s.tick.count.toNat / 2 ^ 32)] := rfl
  have hlt : s.tick.count.toNat / 2 ^ 32 < 2 ^ 32 := by omega
  unfold State.latch
  rw [hhigh]
  refine (congrArg BitVec.toNat (smGet_smSet_same (fun _ => 0) s.regs.shadow (shadowKey p 4) (BitVec.ofNat 32 (s.tick.count.toNat / 2 ^ 32)))).trans ?_
  rw [BitVec.toNat_ofNat, Nat.mod_eq_of_lt hlt]

theorem lowWordRead_latches (p : Path) (a : Nat) (s : State) (h0 : s.power = 0) :
    ∃ t, exec (.lowWordRead p a) s = .next t ∧ { t with regs := s.regs } = s ∧ t.regs.sel = s.regs.sel ∧ (a = 0 → t.shadow p 4 = s.tick.count.toNat / 2 ^ 32) := by
  by_cases hr : (s.readReg p a).isSome = true
  · refine ⟨_, if_pos (by simp [h0, hr]), (congrArg (fun u : State => { u with regs := s.regs }) (s.latch_frame p a) :), (congrArg (fun u : State => u.regs.sel) (s.latch_frame p a) :), ?_⟩
    rintro rfl
    exact s.latch_count p
  · refine ⟨s, if_neg (by simp [hr]), rfl, rfl, ?_⟩
    rintro rfl
    exact absurd rfl hr

/-- Words are read up to the first bus error; reading latches shadows alone. -/
theorem readWords_reads (n a : Nat) (s : State) :
    { (readWords s a n).1 with regs := s.regs } = s ∧ (readWords s a n).2.1.length ≤ n ∧ ((readWords s a n).2.2 = true ↔ (readWords s a n).2.1.length = n) := by
  induction n generalizing a s with
  | zero => exact ⟨rfl, Nat.le_refl 0, by simp [readWords]⟩
  | succ n ih =>
    obtain ⟨hframe, hle, hall⟩ := ih (a + 4) (s.latch .mgmt a)
    cases hw : s.readWord .mgmt a with
    | none =>
      have h : readWords s a (n + 1) = (s, [], false) := by rw [readWords, hw]
      rw [h]
      exact ⟨rfl, Nat.zero_le _, by simp⟩
    | some w =>
      have h : readWords s a (n + 1) = ((readWords (s.latch .mgmt a) (a + 4) n).1, BitVec.ofNat 32 w :: (readWords (s.latch .mgmt a) (a + 4) n).2.1,
          (readWords (s.latch .mgmt a) (a + 4) n).2.2) := by rw [readWords, hw]
      rw [h]
      refine ⟨(congrArg (fun u : State => { u with regs := s.regs }) hframe).trans (congrArg (fun u : State => { u with regs := s.regs }) (s.latch_frame .mgmt a) :), ?_, ?_⟩
      · exact Nat.succ_le_succ hle
      · rw [hall]
        simp

/-! ### Parity -/

theorem Die.configFault_valid (x : Die) (a : Nat) {block : Nat} (hb : block < 16) (pkg : Bool) : (x.configFault a block pkg).cfgFault.getLsbD 22 = true := by
  unfold Die.configFault
  cases h : x.cfgFault.getLsbD 22 with
  | true => rw [if_pos rfl]; exact (getLsbD_setBit _ _ _).trans (by simp [h])
  | false =>
    rw [if_neg (by decide)]
    show (BitVec.ofNat 32 (a % 2 ^ 16 + 2 ^ 16 * block + 2 ^ 20 * bit pkg + 2 ^ 22)).getLsbD 22 = true
    have hbit : bit pkg ≤ 1 := by unfold bit; split <;> decide
    have htest : (a % 2 ^ 16 + 2 ^ 16 * block + 2 ^ 20 * bit pkg + 2 ^ 22).testBit 22 = true := by
      rw [Nat.testBit_eq_decide_div_mod_eq]
      have hdiv : (a % 2 ^ 16 + 2 ^ 16 * block + 2 ^ 20 * bit pkg + 2 ^ 22) / 2 ^ 22 = 1 := by omega
      rw [hdiv]
      rfl
    rw [BitVec.getLsbD_ofNat, htest]
    rfl

/-- A core without windows, which its sequencer waits for. -/
def Core.unwindow (k : Core) : Core := { k with prog1 := 0, cwin1 := 0, dwin1 := 0, seqSafe := true }

/-- The buffered writes without those of a die's block. -/
def Change.dropBlock (k : Change) (d : DieId) (b : Nat) : Change :=
  let keep (w : BufWrite) : Bool := !(true && w.die == d && w.block == b)
  { k with waiting := k.waiting.filter keep, pending := k.pending.filter keep, armed := k.armed.map fun (x : List BufWrite × W48) => (x.1.filter keep, x.2) }

/-- A fault's record and dropped writes keep the cores; a core's change keeps the dies. -/
theorem State.faulted_fields (s : State) (d : DieId) (f : Die → Die) (k : Change) (c : CoreId) (g : Core → Core) :
    (({ s.modDie d f with chg := k } : State).modCore c g).cores = (s.modCore c g).cores ∧ (({ s.modDie d f with chg := k } : State).modCore c g).die d = f (s.die d) :=
  ⟨rfl, s.die_modDie_same d f⟩

/-- A parity fault in a window register of a core (R560, R561). -/
theorem configParityCheck_window (p : Path) (c : CoreId) (s : State) (h0 : s.power = 0) {a : Nat} (ha : placeOf a = .core c 0x08C) (hr : s.readReg p a ≠ none) :
    ∃ t, exec (.configParityCheck p a) s = .next t ∧
      (t.core c).prog1 = 0 ∧ (t.core c).cwin1 = 0 ∧ (t.core c).dwin1 = 0 ∧ (t.core c).seqSafe = true ∧ (t.core c).store = (s.core c).store ∧ t.grp.fault = true ∧
      (t.die (dieOf c)).cfgFault.getLsbD 22 = true ∧ ∀ e, e ≠ c → t.core e = s.core e := by
  have hread : (s.readReg p a).isNone = false := by
    cases h : s.readReg p a with
    | none => exact absurd h hr
    | some _ => rfl
  have hrun : exec (.configParityCheck p a) s = .next (((({ s.modDie (dieOf c) (fun x => x.configFault a (8 + c.val % 4) true) with chg := s.chg.dropBlock (dieOf c) (8 + c.val % 4) } : State).modCore c Core.unwindow)).packageFault 5) := by
    show execConfigParityCheck p a s = _
    unfold execConfigParityCheck
    dsimp only
    rw [ha]
    exact if_neg (by simp [h0, hread, State.hasParity, State.rwMask])
  obtain ⟨hcores, hdie⟩ := s.faulted_fields (dieOf c) (fun x => x.configFault a (8 + c.val % 4) true) (s.chg.dropBlock (dieOf c) (8 + c.val % 4)) c Core.unwindow
  have hvalid := Die.configFault_valid (s.die (dieOf c)) a (block := 8 + c.val % 4) (by omega) true
  generalize (({ s.modDie (dieOf c) (fun x => x.configFault a (8 + c.val % 4) true) with chg := s.chg.dropBlock (dieOf c) (8 + c.val % 4) } : State).modCore c Core.unwindow) = u at hrun hcores hdie
  rw [← hdie] at hvalid
  have hcore (e : CoreId) : (u.packageFault 5).core e = (s.modCore c Core.unwindow).core e := State.core_of_cores ((State.packageFault_cores u 5).trans hcores) e
  refine ⟨_, hrun, ?_⟩
  rw [hcore c, State.core_modCore_same]
  refine ⟨rfl, rfl, rfl, rfl, rfl, by rw [State.packageFault_grp], ?_, fun e he => (hcore e).trans (State.core_modCore_other _ _ _ _ he)⟩
  exact (congrArg (fun d => (smGet dieDefault d (dieOf c).val).cfgFault.getLsbD 22) (State.packageFault_dies u 5)).trans hvalid

/-- Settles O47: a write waits in the pending change, a read latches shadows, and each message is one response. -/
theorem registerAccess : Obligations.RegisterAccess := by
  intro p a v m ws c s h0
  refine ⟨fun hr => ?_, fun d b hb hm hi hr => ?_, (if_neg (not_not.2 h0)).trans rfl, lowWordRead_latches p a s h0, fun hans hk => ⟨fun hs => ⟨?_, fun hw => ?_⟩, fun hs => ?_, fun hs hc w t hws hwt => ?_⟩,
    fun hans x hk => ?_, fun ha hr => ?_⟩
  · have hnone : s.regWrite p a v = none := if_pos (by simp [hr])
    exact (if_neg (not_not.2 h0)).trans (by rw [hnone]; rfl)
  · obtain ⟨t, ht, hrest⟩ := registerWrite_buffers h0 hb hm hi hr
    exact ⟨t, _, ht, s.bufWrite_eq p a v d b, hrest⟩
  · refine (if_neg (by simp [hans])).trans ?_
    rw [hk]
    exact if_pos hs
  · refine (if_neg (by simp [hans, hw])).trans ?_
    rw [hk]
    exact if_pos hs
  · obtain ⟨hframe, hle, hall⟩ := readWords_reads m.count m.addr s
    refine ⟨(readWords s m.addr m.count).1, (readWords s m.addr m.count).2.1, (if_neg (by simp [hans])).trans ?_, hframe, hle⟩
    rw [hk]
    refine (if_neg (not_not.2 hs)).trans ?_
    dsimp only
    simp only [← hall]
  · subst hws
    refine (if_neg (by simp [hans, hc])).trans ?_
    rw [hk]
    refine (if_neg (not_not.2 hs)).trans ?_
    dsimp only
    rw [writeWords, hwt]
    rfl
  · refine (if_neg (by simp [hans])).trans ?_
    rw [hk]
    rfl
  · refine configParityCheck_window p c s h0 ?_ hr
    have hc := c.isLt
    have hcore : asCore ((a - 0x100_0000) / 0x1000) = c := by
      rw [show (a - 0x100_0000) / 0x1000 = c.val by omega]
      exact asCore_val c
    unfold placeOf
    rw [if_neg (by omega), if_neg (by omega), if_pos (by omega), hcore, show (a - 0x100_0000) % 0x1000 = 0x08C by omega]

end Sys2Proof.Machine
end

section
/-! Housekeeping converters and calibration (R506 to R515). -/
namespace Sys2Proof.Machine

/-! ### Converters -/

@[simp] theorem Die.conv_setConv_same (x : Die) (east : Bool) (v : Converter) : (x.setConv east v).conv east = v := by cases east <;> rfl

/-- HSK_RES is no part of a converter. -/
theorem Die.conv_hskRes (x : Die) (r : W32) (east : Bool) : Die.conv { x with hskRes := r } east = x.conv east := rfl

theorem Die.serving_self {x : Die} {east : Bool} (h : (x.conv east).retired = false) : x.serving east = some east := by simp [Die.serving, h]

theorem Die.request_queued {x : Die} {r : HskReq} (hc : r.chan.toNat < 10) (hv : (x.conv r.east).retired = false) (urgent : Bool) : x.request r urgent =
    if urgent then x.setConv r.east { x.conv r.east with urgent := (x.conv r.east).urgent ++ [r] }
    else if 16 ≤ (x.conv r.east).queue.length then x.hskBit 5 else x.setConv r.east { x.conv r.east with queue := (x.conv r.east).queue ++ [r] } := by
  unfold Die.request
  rw [if_neg (Nat.not_le.2 hc), Die.serving_self hv]

theorem Die.hskBit_full (x : Die) : x.hskBit 5 = { x with hskEvt := x.hskEvt ||| 32#32 } := rfl

/-- A bandgap comparison leaves the requests of its converter. -/
theorem Die.conv_compare (x : Die) (east : Bool) (bandgap : Nat) : ((x.compare east bandgap).2.conv east) = { x.conv east with bandgap := bandgap } := by
  unfold Die.compare
  dsimp only
  split
  · exact x.conv_setConv_same east _
  · split
    · exact x.conv_setConv_same east _
    · exact x.conv_setConv_same east _

theorem Converter.trimmed_lt (v : Converter) {raw : Nat} (h : raw < 4096) : v.trimmed raw < 4096 := by
  unfold Converter.trimmed
  split
  · exact h
  · exact Nat.lt_of_le_of_lt (Nat.min_le_left _ _) (by decide)

/-- An input in range converts to the nearest code (R509). -/
theorem adcCode_inRange {input : Int} (h0 : 0 ≤ input) (h1 : input ≤ 8190) : adcCode input = (((input + 1) / 2).toNat, false, false) ∧ ((input + 1) / 2).toNat < 4096 := by
  have hlt : ((input + 1) / 2).toNat < 4096 := by omega
  unfold adcCode
  rw [if_neg (by omega), if_neg (by omega), Nat.min_eq_right (by omega)]
  exact ⟨rfl, hlt⟩

/-- HSK_RES's fields (R521). -/
theorem hskRes_fields {code : Nat} (hc : code < 4096) (tag : BitVec 6) {b : Nat} (hb : b ≤ 1) :
    (BitVec.ofNat 32 (code + 2 ^ 12 * tag.toNat + 2 ^ 20 * b + 2 ^ 21)).toNat % 4096 = code ∧
    (BitVec.ofNat 32 (code + 2 ^ 12 * tag.toNat + 2 ^ 20 * b + 2 ^ 21)).toNat / 4096 % 64 = tag.toNat ∧
    (BitVec.ofNat 32 (code + 2 ^ 12 * tag.toNat + 2 ^ 20 * b + 2 ^ 21)).getLsbD 21 = true := by
  have ht := tag.isLt
  have hlt : code + 2 ^ 12 * tag.toNat + 2 ^ 20 * b + 2 ^ 21 < 2 ^ 32 := by omega
  have htest : (code + 2 ^ 12 * tag.toNat + 2 ^ 20 * b + 2 ^ 21).testBit 21 = true := by
    rw [Nat.testBit_eq_decide_div_mod_eq]
    exact decide_eq_true (by omega)
  refine ⟨?_, ?_, ?_⟩
  · rw [BitVec.toNat_ofNat, Nat.mod_eq_of_lt hlt]
    omega
  · rw [BitVec.toNat_ofNat, Nat.mod_eq_of_lt hlt]
    omega
  · rw [BitVec.getLsbD_ofNat, htest]
    rfl

/-- The converter whose first request is taken. -/
structure TakesFirst (v w : Converter) (rest : List HskReq) : Prop where
  rest : w.urgent ++ w.queue = rest
  trims : w.offset = v.offset ∧ w.gainRef = v.gainRef

theorem TakesFirst.trimmed {v w : Converter} {rest : List HskReq} (h : TakesFirst v w rest) (raw : Nat) : w.trimmed raw = v.trimmed raw := by
  unfold Converter.trimmed
  rw [h.trims.1, h.trims.2]

/-- A die after a conversion of a request for a converter w that has taken it (R509). -/
def Die.converted (x : Die) (east : Bool) (w : Converter) (q : HskReq) (input : Int) (bandgap : Nat) : Die :=
  let c := adcCode input
  let code := if c.2.1 || c.2.2 then c.1 else w.trimmed c.1
  let y := (x.setConv east w).compare east bandgap
  { y.2 with hskRes := BitVec.ofNat 32 (code + 2 ^ 12 * q.tag.toNat + 2 ^ 18 * bit c.2.1 + 2 ^ 19 * bit c.2.2 + 2 ^ 20 * bit (!y.1) + 2 ^ 21) }

/-- The first request of a converter is the one converted (R506, R507). -/
theorem conversionDone_takes {d : DieId} {east : Bool} (sense : HskSense) {s : State} (h0 : s.power = 0) {q : HskReq} {rest : List HskReq}
    (hq : ((s.die d).conv east).urgent ++ ((s.die d).conv east).queue = q :: rest) : ∃ w, TakesFirst ((s.die d).conv east) w rest ∧
      exec (.conversionDone d east sense) s = .next (s.modDie d fun x =>
        x.converted east w q (if 24 ≤ d.val ∧ 6 ≤ q.chan.toNat ∧ q.chan.toNat ≤ 8 then 0 else sense.input) sense.bandgap) := by
  have hrun : exec (.conversionDone d east sense) s = execConversionDone d east sense s := rfl
  unfold execConversionDone at hrun
  generalize (s.die d).conv east = v at hq hrun
  cases hu : v.urgent with
  | cons r u =>
    rw [hu] at hq
    obtain ⟨rfl, hrest⟩ := List.cons.inj hq
    refine ⟨{ v with urgent := u }, ⟨hrest, rfl, rfl⟩, hrun.trans ?_⟩
    simp only [hu, decide_eq_true_eq]
    exact if_neg (not_not.2 h0)
  | nil =>
    rw [hu] at hq
    have hqueue : v.queue = q :: rest := hq
    refine ⟨{ v with queue := rest }, ⟨by rw [hu]; rfl, rfl, rfl⟩, hrun.trans ?_⟩
    simp only [hu, hqueue, decide_eq_true_eq]
    exact if_neg (not_not.2 h0)

/-- What a conversion of an input in range leaves (R509). -/
theorem Die.converted_inRange {x : Die} {east : Bool} {w : Converter} {rest : List HskReq} (hw : TakesFirst (x.conv east) w rest) (q : HskReq) {input : Int} (h0 : 0 ≤ input) (h1 : input ≤ 8190)
    (bandgap : Nat) : (((x.converted east w q input bandgap).conv east).urgent ++ ((x.converted east w q input bandgap).conv east).queue = rest) ∧
      ((x.converted east w q input bandgap).hskRes.toNat % 4096 = (x.conv east).trimmed ((input + 1) / 2).toNat) ∧
      ((x.converted east w q input bandgap).hskRes.toNat / 4096 % 64 = q.tag.toNat) ∧ (x.converted east w q input bandgap).hskRes.getLsbD 21 = true := by
  obtain ⟨hcode, hlt⟩ := adcCode_inRange h0 h1
  have hconv : (x.converted east w q input bandgap).conv east = { w with bandgap := bandgap } := by
    unfold Die.converted
    rw [Die.conv_hskRes, Die.conv_compare, Die.conv_setConv_same]
  have hres : (x.converted east w q input bandgap).hskRes = BitVec.ofNat 32 ((x.conv east).trimmed ((input + 1) / 2).toNat + 2 ^ 12 * q.tag.toNat +
      2 ^ 20 * bit (!((x.setConv east w).compare east bandgap).1) + 2 ^ 21) := by
    unfold Die.converted
    rw [hcode]
    have hbit : bit false = 0 := rfl
    simp only [Bool.or_false, Bool.false_eq_true, if_false, hbit, Nat.mul_zero, Nat.add_zero, hw.trimmed]
  have hbit : bit (!((x.setConv east w).compare east bandgap).1) ≤ 1 := by unfold bit; split <;> decide
  rw [hconv, hres]
  exact ⟨hw.rest, hskRes_fields (((x.conv east).trimmed_lt hlt)) q.tag hbit⟩

/-! ### Retiring a converter -/

/-- Which converters of a die retire (R508). -/
def Die.retires (x : Die) (w e : Bool) : Die :=
  let retire (v : Converter) : Converter := { v with retired := true, urgent := [], queue := [] }
  let merge (v u : Converter) : Converter := { v with urgent := v.urgent ++ u.urgent, queue := (v.queue ++ u.queue).take 16 }
  let x := { x with misses := 0 }
  if w == e then ({ x with convW := retire x.convW, convE := retire x.convE }).hskBit 4
  else if w then { x with convW := retire x.convW, convE := merge x.convE x.convW }
  else { x with convE := retire x.convE, convW := merge x.convW x.convE }

theorem Die.retires_spec (x : Die) (w e : Bool) (hw : x.convW.retired = false) (he : x.convE.retired = false) :
    (x.retires w e).misses = 0 ∧ (x.retires w e).convW.retired = (w || !e) ∧ (x.retires w e).convE.retired = (!w || e) := by
  cases w <;> cases e
  · exact ⟨rfl, rfl, rfl⟩
  · exact ⟨rfl, hw, rfl⟩
  · exact ⟨rfl, rfl, he⟩
  · exact ⟨rfl, rfl, rfl⟩

theorem converterRetire_retires (d : DieId) (rw re : Nat) (s : State) (h0 : s.power = 0) (hm : 4 ≤ (s.die d).misses) (hw : (s.die d).convW.retired = false) (he : (s.die d).convE.retired = false) :
    ∃ t, exec (.converterRetire d rw re) s = .next t ∧ { t with dies := s.dies } = s ∧ (t.die d).misses = 0 ∧
      ((t.die d).convW.retired = true ↔ 8 < gapOf rw (s.die d).convW.ref ∨ gapOf re (s.die d).convE.ref ≤ 8) ∧
      ((t.die d).convE.retired = true ↔ gapOf rw (s.die d).convW.ref ≤ 8 ∨ 8 < gapOf re (s.die d).convE.ref) := by
  refine ⟨s.modDie d fun x => x.retires (decide (8 < gapOf rw (s.die d).convW.ref)) (decide (8 < gapOf re (s.die d).convE.ref)),
    if_neg (by simp [h0, hw, he, Nat.not_lt.2 hm]), rfl, ?_⟩
  rw [State.die_modDie_same]
  obtain ⟨h1, h2, h3⟩ := (s.die d).retires_spec (decide (8 < gapOf rw (s.die d).convW.ref)) (decide (8 < gapOf re (s.die d).convE.ref)) hw he
  refine ⟨h1, ?_, ?_⟩
  · rw [h2]
    simp
  · rw [h3]
    simp

/-! ### Calibration -/

/-- A calibration counted (R514). -/
theorem State.calDone_cals (s : State) (key : Nat) : smGet (fun _ => (0, 0)) (s.calDone key).pow.cals key =
    (min 0xFFFF_FFFF ((smGet (fun _ => (0, 0)) s.pow.cals key).1 + 1), s.tick.count) := smGet_smSet_same _ _ _ _

theorem State.mem_stageTrim (s : State) (key : Nat) (v : Int) : (key, v) ∈ (s.stageTrim key v).pow.trimsNext := List.mem_append_right _ (List.mem_singleton.2 rfl)

theorem State.mem_stageTrim_of_mem {s : State} {x : Nat × Int} (h : x ∈ s.pow.trimsNext) (key : Nat) (v : Int) : x ∈ (s.stageTrim key v).pow.trimsNext := List.mem_append_left _ h

theorem State.calDone_trimsNext (s : State) (key : Nat) : (s.calDone key).pow.trimsNext = s.pow.trimsNext := rfl

theorem State.calibrated_frame (s : State) (key : Nat) (trim : Int) : { (s.calDone key).stageTrim key trim with pow := s.pow } = s := by
  unfold State.stageTrim State.calDone
  rfl

/-- The flags of REF_FAULT change alone. -/
structure RefKeeps (s t : State) : Prop where
  frame : { t with dies := s.dies } = s
  conv : ∀ d e, (t.die d).conv e = (s.die d).conv e

theorem RefKeeps.put (b : Bool) (l : List Nat) (s : State) : RefKeeps s (l.foldl (fun s d => s.modDie (asDie d) fun x => { x with refFault := b }) s) := by
  refine ⟨State.foldl_modDie_frame asDie (fun x => { x with refFault := b }) l s, fun d e => ?_⟩
  refine foldl_keeps (f := fun (s : State) i => s.modDie (asDie i) fun x => { x with refFault := b }) (fun u : State => (u.die d).conv e) (fun u i => ?_) l s
  by_cases hd : d = asDie i
  · rw [hd, State.die_modDie_same]
    rfl
  · exact congrArg (fun x : Die => x.conv e) (State.die_setDie_other _ _ _ _ hd)

theorem RefKeeps.refCheck (s : State) : RefKeeps s s.refCheck := by
  unfold State.refCheck
  dsimp only
  split
  · exact .put true _ s
  · split
    · exact .put false _ s
    · exact ⟨rfl, fun _ _ => rfl⟩

theorem referenceConversion_stages (d : DieId) (east : Bool) (rw re err : Nat) (s : State) (h0 : s.power = 0) (hv : ((s.die d).conv east).retired = false) :
    ∃ t, exec (.referenceConversion d east rw re err) s = .next t ∧ ((t.die d).conv east).ref = rw ∧ ((t.die d).conv east).bandgap = err ∧
      (2 ^ 25 + calKey d.val (bit east) 0 0, (re : Int)) ∈ t.pow.trimsNext ∧ ((t.die d).refFault = false → (2 ^ 24 + calKey d.val (bit east) 0 0, (rw : Int)) ∈ t.pow.trimsNext) ∧
      (smGet (fun _ => (0, 0)) t.pow.cals (calKey d.val (bit east) 0 0)).2 = s.tick.count ∧ t.cores = s.cores := by
  have href := RefKeeps.refCheck (s.modDie d fun x => x.setConv east { x.conv east with ref := rw, bandgap := err })
  have hrun : exec (.referenceConversion d east rw re err) s = _ := if_neg (by simp [h0, hv])
  dsimp only at hrun
  generalize calKey d.val (bit east) 0 0 = key at hrun ⊢
  generalize (s.modDie d fun x => x.setConv east { x.conv east with ref := rw, bandgap := err }).refCheck = u at href hrun
  have hconv : (u.die d).conv east = { (s.die d).conv east with ref := rw, bandgap := err } := by
    rw [href.conv, State.die_modDie_same, Die.conv_setConv_same]
  have hcount : u.tick.count = s.tick.count := (congrArg (fun v : State => v.tick.count) href.frame :)
  have hcores : u.cores = s.cores := (congrArg State.cores href.frame :)
  generalize hw : (if (u.die d).refFault = true then u else u.stageTrim (2 ^ 24 + key) rw) = w at hrun
  have hkeep : { w with pow := u.pow } = u ∧ ((u.die d).refFault = false → (2 ^ 24 + key, (rw : Int)) ∈ w.pow.trimsNext) := by
    rw [← hw]
    cases hf : (u.die d).refFault with
    | true => exact ⟨rfl, fun h => nomatch h⟩
    | false => exact ⟨rfl, fun _ => State.mem_stageTrim _ _ _⟩
  obtain ⟨hwu, hmem⟩ := hkeep
  have hdie : w.die d = u.die d := (congrArg (fun v : State => v.die d) hwu :)
  have hlast : ((w.stageTrim (2 ^ 25 + key) re).calDone key).die d = w.die d := rfl
  have hlastCores : ((w.stageTrim (2 ^ 25 + key) re).calDone key).cores = w.cores := rfl
  refine ⟨_, hrun, ?_, ?_, ?_, fun hf => ?_, ?_, hlastCores.trans ((congrArg State.cores hwu).trans hcores :)⟩
  · rw [hlast, hdie, hconv]
  · rw [hlast, hdie, hconv]
  · rw [State.calDone_trimsNext]
    exact State.mem_stageTrim _ _ _
  · rw [State.calDone_trimsNext]
    rw [hlast, hdie] at hf
    exact State.mem_stageTrim_of_mem (hmem hf) _ _
  · rw [State.calDone_cals]
    exact (congrArg (fun v : State => v.tick.count) hwu).trans hcount

theorem calibration_stages (d : DieId) (block core index : Nat) (trim : Int) (s : State) (h0 : s.power = 0) (hb : s.calBlock d block core index = true)
    (hs : ((s.die d).serving false).isSome = true) (hf : (s.die d).refFault = false) (ht : block ≠ 2 ∨ trim.natAbs ≤ 24) :
    ∃ t, exec (.calibration d block core index trim) s = .next t ∧ t.pow.trimsNext = s.pow.trimsNext ++ [(calKey d.val block core index, trim)] ∧
      smGet (fun _ => (0, 0)) t.pow.cals (calKey d.val block core index) =
        (min 0xFFFF_FFFF ((smGet (fun _ => (0, 0)) s.pow.cals (calKey d.val block core index)).1 + 1), s.tick.count) ∧ { t with pow := s.pow } = s := by
  have hsome : ((s.die d).serving false).isNone = false := by
    cases h : (s.die d).serving false with
    | none => rw [h] at hs; cases hs
    | some _ => rfl
  have hfault : ((s.calDone (calKey d.val block core index)).die d).refFault = false := hf
  have hrun : exec (.calibration d block core index trim) s = .next ((s.calDone (calKey d.val block core index)).stageTrim (calKey d.val block core index) trim) :=
    (if_neg (by simp [h0, hb, hsome])).trans ((if_neg (by omega)).trans (if_neg (by simp [hfault])))
  generalize calKey d.val block core index = key at hrun ⊢
  have hcals : ((s.calDone key).stageTrim key trim).pow.cals = (s.calDone key).pow.cals := rfl
  refine ⟨_, hrun, rfl, ?_, s.calibrated_frame key trim⟩
  rw [hcals]
  exact s.calDone_cals key

theorem lightCheck_queues (c : CoreId) (arr err : Nat) (s : State) (ha : s.coreActs c = true) (hr : arr < 4224) :
    ∃ t, exec (.lightCheck c arr err) s = .next t ∧ (err ≤ 100 → t.cores = s.cores) ∧
      (100 < err → s.inService c arr = true → t.core c = (s.core c).queueHoliday arr 5 5) ∧ (∀ e, e ≠ c → t.core e = s.core e) ∧
      (smGet (fun _ => (0, 0)) t.pow.cals (calKey (dieOf c).val 6 (c.val % 4) arr)).2 = s.tick.count := by
  have hrun : exec (.lightCheck c arr err) s = .next (if 100 < err && s.inService c arr then (s.calDone (calKey (dieOf c).val 6 (c.val % 4) arr)).modCore c fun k => k.queueHoliday arr 5 5
      else s.calDone (calKey (dieOf c).val 6 (c.val % 4) arr)) := if_neg (by simp [ha, Nat.not_le.2 hr])
  have hcal := congrArg Prod.snd (s.calDone_cals (calKey (dieOf c).val 6 (c.val % 4) arr))
  by_cases h : (100 < err && s.inService c arr) = true
  · rw [if_pos h] at hrun
    have herr : 100 < err := of_decide_eq_true (Bool.and_eq_true _ _ ▸ h).1
    exact ⟨_, hrun, fun hle => absurd herr (Nat.not_lt.2 hle), fun _ _ => State.core_modCore_same _ _ _, fun e he => State.core_modCore_other _ _ _ _ he, hcal⟩
  · rw [if_neg h] at hrun
    exact ⟨_, hrun, fun _ => rfl, fun h1 h2 => absurd (by simp [h1, h2]) h, fun _ _ => rfl, hcal⟩

/-- Settles O49: a conversion takes its converter's first request; calibrations stage trims and count. -/
theorem converters : Obligations.Converters := by
  intro p d east r sense c arr err rw re block core index trim s h0
  have hon (x y : State) : (if s.power ≠ 0 then x else y) = y := if_neg (not_not.2 h0)
  dsimp only
  refine ⟨fun hc hv => ⟨fun hl => ?_, fun hl => ?_, ?_⟩, fun hc => ?_, fun q rest hq => ?_, fun hv hu hq => if_neg (by simp [h0, hv, hu, hq]),
    converterRetire_retires d rw re s h0, referenceConversion_stages d east rw re err s h0, calibration_stages d block core index trim s h0, lightCheck_queues c arr err s⟩
  · exact congrArg Host.Outcome.next ((hon _ _).trans (congrArg (s.setDie d) ((Die.request_queued hc hv false).trans (if_neg (Nat.not_le.2 hl)))))
  · exact congrArg Host.Outcome.next ((hon _ _).trans (congrArg (s.setDie d) ((Die.request_queued hc hv false).trans (if_pos hl))))
  · exact congrArg Host.Outcome.next ((hon _ _).trans (congrArg (s.setDie d) (Die.request_queued hc hv true)))
  · exact congrArg Host.Outcome.next ((hon _ _).trans (congrArg (s.setDie d) (if_pos hc)))
  · intro hlo hhi
    obtain ⟨w, hw, hrun⟩ := conversionDone_takes sense h0 hq
    obtain ⟨h1, h2, h3, h4⟩ := Die.converted_inRange hw q hlo hhi sense.bandgap
    refine ⟨_, hrun, ?_, ?_, ?_, ?_, fun e he => State.die_setDie_other _ _ _ _ he, rfl⟩
    · rw [State.die_modDie_same]; exact h1
    · rw [State.die_modDie_same]; exact h2
    · rw [State.die_modDie_same]; exact h3
    · rw [State.die_modDie_same]; exact h4

end Sys2Proof.Machine
end

section
/-! Firmware processors (R474, R479, R480, R485). -/
namespace Sys2Proof.Machine

/-! ### A processor's state -/

@[simp] theorem State.proc_setProc (s : State) (p : Proc) (x : ProcState) : (s.setProc p x).proc p = x := by
  cases p with
  | security => rfl
  | power => rfl
  | scheduler => rfl
  | control c => exact smGet_smSet_same _ _ _ _

/-- A processor's state is its own and its list's. -/
theorem State.setProc_frame (s : State) (p : Proc) (x : ProcState) :
    { s.setProc p x with fw := { (s.setProc p x).fw with sec := s.fw.sec, pwr := s.fw.pwr, sch := s.fw.sch, ctrl := s.fw.ctrl } } = s := by
  cases p <;> rfl

theorem State.proc_of_fw {s t : State} (h : t.fw = s.fw) (p : Proc) : t.proc p = s.proc p := by
  cases p with
  | security => exact congrArg (fun f => f.sec) h
  | power => exact congrArg (fun f => f.pwr) h
  | scheduler => exact congrArg (fun f => f.sch) h
  | control c => exact congrArg (fun f => smGet procDefault f.ctrl c.val) h

/-! ### Events set bits of FW_EVT alone -/

theorem State.fwEvt_flushLost (s : State) (i : Nat) : (s.flushLost i).rings.fwEvt = s.rings.fwEvt := by
  unfold State.flushLost
  dsimp only
  split
  · rw [State.fwEvt_writeIndices]
    exact State.fwEvt_writeCarve _ _ _ _
  · rfl

theorem State.fwEvt_postTo {s : State} {j : Nat} (hj : s.rings.fwEvt.getLsbD j = true) (code cls die : Nat) (data : Bytes) (i : Nat) :
    (s.postTo code cls die data i).rings.fwEvt.getLsbD j = true := by
  rw [← s.fwEvt_flushLost i] at hj
  unfold State.postTo
  dsimp only
  split
  · split
    · rw [State.fwEvt_writeIndices]
      exact (congrArg (fun r : W32 => r.getLsbD j) (State.fwEvt_writeCarve _ _ _ _)).trans hj
    · rw [State.fwEvt_writeIndices]
      exact (getLsbD_setBit _ _ _).trans (Bool.or_eq_true_iff.2 (.inl hj))
  · exact (s.fwEvt_flushLost i) ▸ hj

/-- A bit of FW_EVT that is set stays set under events (R466). -/
theorem State.fwEvt_post {s : State} {j : Nat} (hj : s.rings.fwEvt.getLsbD j = true) (code cls die : Nat) (data : Bytes) :
    (s.post code cls die data).rings.fwEvt.getLsbD j = true := by
  unfold State.post
  generalize List.range 16 = l
  induction l generalizing s with
  | nil => exact hj
  | cons i l ih => exact ih (State.fwEvt_postTo hj code cls die data i)

/-! ### Restarts -/

/-- One restart counted before its event is posted. -/
def State.countRestart (s : State) (p : Proc) : State :=
  let s := { s with fw := { s.fw with restartCnt := s.fw.restartCnt.set (procCode p).1 (satAdd 0xFF (nth 0 s.fw.restartCnt (procCode p).1) 1), goodTicks := 0 } }
  s.setProc p { s.proc p with recent := (s.tick.time :: (s.proc p).recent).take 3 }

theorem State.restarted_eq (s : State) (p : Proc) (cause : RestartCause) :
    s.restarted p cause = (s.countRestart p).post 0x08 3 26 (leBytes 1 (procCode p).1 ++ leBytes 1 (procCode p).2 ++ leBytes 1 (causeCode cause)) := rfl

theorem State.countRestart_spec (s : State) (p : Proc) : (s.countRestart p).proc p = { s.proc p with recent := (s.tick.time :: (s.proc p).recent).take 3 } ∧
    (s.countRestart p).fw.goodTicks = 0 ∧ { s.countRestart p with fw := s.fw } = s := by
  refine ⟨?_, ?_, ?_⟩
  · refine (State.proc_setProc _ _ _).trans ?_
    cases p <;> rfl
  · cases p <;> rfl
  · cases p <;> rfl

/-- A restart is counted, and nothing but the firmware's state and the rings changes (R480). -/
theorem State.restarted_spec (s : State) (p : Proc) (cause : RestartCause) :
    (s.restarted p cause).proc p = { s.proc p with recent := (s.tick.time :: (s.proc p).recent).take 3 } ∧ (s.restarted p cause).fw.goodTicks = 0 ∧
    (s.restarted p cause).cores = s.cores ∧ (s.restarted p cause).tick = s.tick := by
  obtain ⟨hproc, hgood, hframe⟩ := s.countRestart_spec p
  rw [s.restarted_eq]
  refine ⟨(State.proc_of_fw (State.post_fw _ _ _ _ _) p).trans hproc, ?_, ?_, ?_⟩
  · rw [State.post_fw, hgood]
  · rw [State.post_cores]
    exact (congrArg State.cores hframe :)
  · rw [State.post_tick]
    exact (congrArg State.tick hframe :)

/-- The watchdog of a running processor (R479). -/
theorem watchdog_expires {p : Proc} {s : State} (h0 : s.power = 0) (ha : s.absent p = false) (hr : (s.proc p).runs = true) : ∃ t, exec (.watchdog p) s = .next t ∧
    (t.proc p).state = 1 ∧ (t.proc p).onC1 = (s.proc p).onC1 ∧ (t.proc p).recent = (s.tick.time :: (s.proc p).recent).take 3 ∧
      t.rings.fwEvt.getLsbD 1 = true ∧ t.fw.goodTicks = 0 ∧ t.cores = s.cores ∧ t.tick = s.tick := by
  obtain ⟨hproc, hgood, hcores, htick⟩ := s.restarted_spec p .watchdog
  have hrun : exec (.watchdog p) s = .next (State.setProc { s.restarted p .watchdog with rings := { (s.restarted p .watchdog).rings with fwEvt := setBit (s.restarted p .watchdog).rings.fwEvt 1 } }
      p { State.proc { s.restarted p .watchdog with rings := { (s.restarted p .watchdog).rings with fwEvt := setBit (s.restarted p .watchdog).rings.fwEvt 1 } } p with state := 1 }) :=
    if_neg (by simp [h0, ha, hr])
  generalize s.restarted p .watchdog = u at hproc hgood hcores htick hrun
  have hbit : (setBit u.rings.fwEvt 1).getLsbD 1 = true := (getLsbD_setBit _ _ _).trans (by simp)
  have hu : State.proc { u with rings := { u.rings with fwEvt := setBit u.rings.fwEvt 1 } } p = u.proc p := State.proc_of_fw rfl p
  have hfields : ∀ v : State, v = { u with rings := { u.rings with fwEvt := setBit u.rings.fwEvt 1 } } →
      v.rings.fwEvt.getLsbD 1 = true ∧ v.fw.goodTicks = 0 ∧ v.cores = s.cores ∧ v.tick = s.tick := by
    rintro v rfl
    exact ⟨hbit, hgood, hcores, htick⟩
  generalize hv : ({ u with rings := { u.rings with fwEvt := setBit u.rings.fwEvt 1 } } : State) = v at hrun hu
  obtain ⟨h1, h2, h3, h4⟩ := hfields v hv.symm
  have hframe := v.setProc_frame p { v.proc p with state := 1 }
  have hset := v.proc_setProc p { v.proc p with state := 1 }
  have hu : v.proc p = { s.proc p with recent := (s.tick.time :: (s.proc p).recent).take 3 } := hu.trans hproc
  generalize v.setProc p { v.proc p with state := 1 } = t at hrun hframe hset
  rw [hu] at hset
  refine ⟨t, hrun, ?_⟩
  rw [hset]
  exact ⟨rfl, rfl, rfl, (congrArg (fun w : State => w.rings.fwEvt.getLsbD 1) hframe).trans h1, (congrArg (fun w : State => w.fw.goodTicks) hframe).trans h2,
    (congrArg State.cores hframe).trans h3, (congrArg State.tick hframe).trans h4⟩

theorem takeover_stands {p : Proc} {s : State} (h0 : s.power = 0) (ha : s.absent p = false) (hs : (s.proc p).state ≠ 3) (hf : (s.proc p).failing s.tick.time = true) (hp : ∀ c, p ≠ .control c) :
    exec (.takeover p) s = if (s.proc p).onC1 then .next ((s.setProc p { s.proc p with state := 3 }).packageFault 3)
      else .next (State.post { s.setProc p ⟨2, true, []⟩ with rings := { (s.setProc p ⟨2, true, []⟩).rings with fwEvt := setBit (s.setProc p ⟨2, true, []⟩).rings.fwEvt 2 } }
        0x08 3 27 (leBytes 1 (procCode p).1 ++ leBytes 1 0 ++ leBytes 1 3)) := by
  refine (if_neg (by simp [h0, ha, hs, hf])).trans ?_
  cases p with
  | control c => exact absurd rfl (hp c)
  | _ => rfl

/-- Settles O55: each command passes its tests in order; a restart counts in the processor's state alone. -/
theorem processors : Obligations.Processors := by
  intro p x east s h0
  dsimp only
  have hon (y z : State) : (if s.power ≠ 0 then y else z) = z := if_neg (not_not.2 h0)
  have hrestart (ha : s.absent p = false) (hs : (s.proc p).state = 1) : exec (.fwRestart p x) s = .next (s.startProc p) :=
    (if_neg (by simp [h0, ha, hs])).trans (if_neg (by simp [ProcState.runs, hs]))
  refine ⟨fun ha => ⟨if_pos (by simp [ha]), if_pos (by simp [ha]), if_pos (by simp [ha])⟩, fun ha hr => watchdog_expires h0 ha hr, fun ha hs hp => ?_, fun ha hs c hp hh => ?_,
    fun ha hs hf hp => ⟨fun hc => ?_, fun hc => ?_⟩, fun ha hs hf c hp => ?_, fun b hb hsaved hgood hr => ?_, congrArg Host.Outcome.next (hon _ _)⟩
  · rw [hrestart ha hs]
    cases p with
    | control c => exact absurd rfl (hp c)
    | _ => rfl
  · rw [hrestart ha hs]
    subst hp
    unfold State.startProc State.restartHolidays
    dsimp only
    rw [show (s.setProc (.control c) { s.proc (.control c) with state := if (s.proc (.control c)).onC1 then 2 else 0 }).core c = s.core c from rfl, hh]
    rfl
  · rw [takeover_stands h0 ha hs hf hp, if_neg (by simp [hc])]
    refine ⟨_, rfl, ?_, State.fwEvt_post ((getLsbD_setBit _ _ _).trans (by simp)) _ _ _ _, ?_⟩
    · rw [State.proc_of_fw (State.post_fw _ _ _ _ _)]
      exact (State.proc_of_fw (s := s.setProc p ⟨2, true, []⟩) rfl p).trans (s.proc_setProc p _)
    · rw [State.post_cores]
      exact (congrArg State.cores (s.setProc_frame p ⟨2, true, []⟩) :)
  · rw [takeover_stands h0 ha hs hf hp, if_pos hc]
  · refine (if_neg (by simp [h0, ha, hs, hf])).trans ?_
    subst hp
    rfl
  · have hrun : exec .lastGoodBundle s = execLastGoodBundle s := rfl
    unfold execLastGoodBundle at hrun
    simp only [hb] at hrun
    refine ⟨_, hrun.trans (if_neg (by simp [h0, hsaved, hr, Nat.not_lt.2 hgood])), rfl, rfl, ?_, rfl⟩
    cases hraise : b.raise with
    | false => simp
    | true =>
      by_cases hlt : s.fw.nv.minSvn.toNat < b.svn.toNat
      · simp [hlt, Nat.max_eq_right (Nat.le_of_lt hlt)]
      · simp [hlt, Nat.max_eq_left (Nat.not_lt.1 hlt)]

end Sys2Proof.Machine
end

section
/-! The fetch of a bundle (R35, R468 to R471). -/
namespace Sys2Proof.Machine

/-! ### READs -/

/-- A message goes out alone. -/
theorem State.sendMgmt_frame (s : State) (m : MgmtOut) : { s.sendMgmt m with fw := { (s.sendMgmt m).fw with out := s.fw.out } } = s := by
  unfold State.sendMgmt
  split <;> rfl

theorem State.sendMgmt_up {s : State} (hu : s.mgmtUp = true) (m : MgmtOut) : s.sendMgmt m = { s with fw := { s.fw with out := s.fw.out ++ [m] } } := if_pos hu

theorem State.sendMgmt_out {s : State} (hu : s.mgmtUp = true) (m : MgmtOut) : (s.sendMgmt m).fw.out = s.fw.out ++ [m] := by rw [State.sendMgmt_up hu]

/-- One READ of a fetch, if there is room and something left to read (R469). -/
def State.issueOne (x : State × Fetch) : State × Fetch :=
  if 16 ≤ x.2.reads.length ∨ x.2.length ≤ x.2.nextOff then x
  else (x.1.sendMgmt (.read x.2.object x.2.nextOff (min 1024 (x.2.length - x.2.nextOff))),
    { x.2 with reads := x.2.reads ++ [⟨x.2.nextOff, min 1024 (x.2.length - x.2.nextOff), 0⟩], nextOff := x.2.nextOff + min 1024 (x.2.length - x.2.nextOff) })

/-- What READs leave of a state and a fetch. -/
structure ReadsOut (x y : State × Fetch) : Prop where
  frame : { y.1 with fw := { y.1.fw with out := x.1.fw.out } } = x.1
  fetch : { y.2 with reads := x.2.reads, nextOff := x.2.nextOff } = x.2
  reads : ∃ l, y.2.reads = x.2.reads ++ l ∧ (∀ r ∈ l, x.2.nextOff ≤ r.offset) ∧
    (x.1.mgmtUp = true → y.1.fw.out = x.1.fw.out ++ l.map fun r => .read x.2.object r.offset r.len)
  next : x.2.nextOff ≤ y.2.nextOff

theorem ReadsOut.refl (x : State × Fetch) : ReadsOut x x := ⟨rfl, rfl, ⟨[], by simp⟩, Nat.le_refl _⟩

theorem ReadsOut.trans {x y z : State × Fetch} (h : ReadsOut x y) (k : ReadsOut y z) : ReadsOut x z := by
  obtain ⟨l, hl, hoff, hout⟩ := h.reads
  obtain ⟨m, hm, moff, mout⟩ := k.reads
  have hup : y.1.mgmtUp = x.1.mgmtUp := (congrArg State.mgmtUp h.frame :)
  have hobj : y.2.object = x.2.object := (congrArg Fetch.object h.fetch :)
  refine ⟨(congrArg (fun s : State => { s with fw := { s.fw with out := x.1.fw.out } }) k.frame).trans h.frame,
    (congrArg (fun f : Fetch => { f with reads := x.2.reads, nextOff := x.2.nextOff }) k.fetch).trans h.fetch, ⟨l ++ m, ?_, fun r hr => ?_, fun hu => ?_⟩, h.next.trans k.next⟩
  · rw [hm, hl, List.append_assoc]
  · exact (List.mem_append.1 hr).elim (hoff r) fun hr => h.next.trans (moff r hr)
  · rw [mout (hup.trans hu), hout hu, hobj, List.map_append, List.append_assoc]

theorem ReadsOut.issueOne (x : State × Fetch) : ReadsOut x (State.issueOne x) := by
  unfold State.issueOne
  split
  · exact .refl x
  · refine ⟨?_, rfl, ⟨[_], rfl, fun r hr => ?_, fun hu => ?_⟩, Nat.le_add_right _ _⟩
    · exact x.1.sendMgmt_frame _
    · rw [List.mem_singleton.1 hr]
    · exact State.sendMgmt_out hu _

/-- The READs of n turns. -/
def State.issue (n : Nat) (x : State × Fetch) : State × Fetch := (List.range n).foldl (fun x _ => State.issueOne x) x

theorem State.issue_succ (n : Nat) (x : State × Fetch) : State.issue (n + 1) x = State.issueOne (State.issue n x) := by
  unfold State.issue
  rw [List.range_succ, List.foldl_append]
  rfl

theorem State.issueReads_eq (s : State) (f : Fetch) : s.issueReads f = (State.issue 16 (s, f)).1.setFetch (State.issue 16 (s, f)).2 := rfl

theorem ReadsOut.issue (n : Nat) (x : State × Fetch) : ReadsOut x (State.issue n x) := by
  induction n with
  | zero => exact .refl x
  | succ n ih => rw [State.issue_succ]; exact ih.trans (.issueOne _)

/-- A fresh fetch has a READ out for each turn, up to its end: the number of READs and the next offset. -/
theorem State.issue_fresh (s : State) (f : Fetch) (hr : f.reads = []) (hn : f.nextOff = 0) (n : Nat) (h16 : n ≤ 16) :
    (State.issue n (s, f)).2.reads.length = min n (ceilDiv f.length 1024) ∧ (State.issue n (s, f)).2.nextOff = min (1024 * n) f.length := by
  have hceil : ceilDiv f.length 1024 = (f.length + 1023) / 1024 := rfl
  induction n with
  | zero => simp [State.issue, hr, hn]
  | succ n ih =>
    obtain ⟨hlen, hoff⟩ := ih (by omega)
    have hlength : (State.issue n (s, f)).2.length = f.length := (congrArg Fetch.length (ReadsOut.issue n (s, f)).fetch :)
    rw [State.issue_succ]
    generalize State.issue n (s, f) = x at hlen hoff hlength
    unfold State.issueOne
    split
    case isTrue h =>
      omega
    case isFalse h =>
      simp only [List.length_append, List.length_singleton]
      omega


/-- The READs of a fetch go out, and nothing but the firmware's state changes. -/
theorem State.issueReads_spec (s : State) (f : Fetch) : ∃ g l, (s.issueReads f).fw.fetch = some g ∧ { g with reads := f.reads, nextOff := f.nextOff } = f ∧ g.reads = f.reads ++ l ∧
    (∀ r ∈ l, f.nextOff ≤ r.offset) ∧ (s.mgmtUp = true → (s.issueReads f).fw.out = s.fw.out ++ l.map fun r => .read f.object r.offset r.len) ∧ { s.issueReads f with fw := s.fw } = s := by
  obtain ⟨hframe, hfetch, ⟨l, hl, hoff, hout⟩, -⟩ := ReadsOut.issue 16 (s, f)
  rw [State.issueReads_eq]
  generalize State.issue 16 (s, f) = x at hframe hfetch hl hout ⊢
  exact ⟨_, l, rfl, hfetch, hl, hoff, hout, (congrArg (fun u : State => { u with fw := s.fw }) hframe :)⟩

theorem offer_reads {f : Fetch} {len : W32} {s : State} (h0 : s.power = 0) (hf : s.fw.fetch = some f) (hup : s.mgmtUp = true) (hs : f.soliciting = true) (hobj : f.object < 2)
    (hpos : 0 < len.toNat) (hle : len.toNat ≤ 0x40_0000) : ∃ t, exec (.offer (BitVec.ofNat 8 f.object) len) s = .next t ∧
      (∃ g, t.fw.fetch = some g ∧ g.soliciting = false ∧ g.length = len.toNat ∧ g.got = 0 ∧ g.reads.length = min 16 (ceilDiv len.toNat 1024) ∧
        t.fw.out = s.fw.out ++ g.reads.map (fun r => .read f.object r.offset r.len)) ∧ { t with fw := s.fw } = s := by
  have hobj8 : (BitVec.ofNat 8 f.object).toNat = f.object := by
    rw [BitVec.toNat_ofNat]
    exact Nat.mod_eq_of_lt (by omega)
  have hrun : exec (.offer (BitVec.ofNat 8 f.object) len) s = execOffer (BitVec.ofNat 8 f.object) len s := rfl
  unfold execOffer at hrun
  simp only [hf] at hrun
  rw [if_neg (by simp [h0, hup, hs, hobj8, Nat.not_lt.2 hle]), if_neg (Nat.pos_iff_ne_zero.1 hpos)] at hrun
  obtain ⟨hframe, hfetch, ⟨l, hl, -, hout⟩, -⟩ := ReadsOut.issue 16 (s, { f with soliciting := false, length := len.toNat, nextOff := 0, reads := [], got := 0, data := [] })
  obtain ⟨hlen, -⟩ := State.issue_fresh s { f with soliciting := false, length := len.toNat, nextOff := 0, reads := [], got := 0, data := [] } rfl rfl 16 (Nat.le_refl _)
  rw [State.issueReads_eq] at hrun
  generalize State.issue 16 (s, { f with soliciting := false, length := len.toNat, nextOff := 0, reads := [], got := 0, data := [] }) = x at hrun hframe hfetch hl hout hlen
  refine ⟨_, hrun, ⟨x.2, rfl, (congrArg Fetch.soliciting hfetch :), (congrArg Fetch.length hfetch :), (congrArg Fetch.got hfetch :), hlen, ?_⟩,
    (congrArg (fun u : State => { u with fw := s.fw }) hframe :)⟩
  rw [hl, List.nil_append]
  exact hout hup

theorem data_reads {f : Fetch} {off : W32} {bs : Bytes} {s : State} (h0 : s.power = 0) (hf : s.fw.fetch = some f) (r : ReadReq) (hup : s.mgmtUp = true)
    (hr : f.reads.find? (fun x => x.offset == off.toNat && x.len == bs.length) = some r) (hmore : f.got + bs.length ≠ f.length) : ∃ t, exec (.data off bs) s = .next t ∧
      (∃ g, t.fw.fetch = some g ∧ g.got = f.got + bs.length ∧ g.data = writeBytes f.data off.toNat bs ∧ ∀ x ∈ g.reads, x ∈ f.reads.erase r ∨ f.nextOff ≤ x.offset) ∧ { t with fw := s.fw } = s := by
  have hmatch := List.find?_some hr
  simp only [Bool.and_eq_true, beq_iff_eq] at hmatch
  obtain ⟨hoffset, hlen⟩ := hmatch
  have hrun : exec (.data off bs) s = execData off bs s := rfl
  unfold execData at hrun
  simp only [hf, hr] at hrun
  rw [if_neg (by simp [h0, hup]), if_neg (by rw [hlen]; exact hmore)] at hrun
  obtain ⟨g, l, hfetch, hg, hreads, hnext, -, hframe⟩ := s.issueReads_spec { f with reads := f.reads.erase r, got := f.got + r.len, data := writeBytes f.data r.offset bs }
  refine ⟨_, hrun, ⟨g, hfetch, (congrArg Fetch.got hg).trans (by rw [hlen]), (congrArg Fetch.data hg).trans (by rw [hoffset]), fun x hx => ?_⟩, hframe⟩
  rw [hreads] at hx
  exact (List.mem_append.1 hx).imp_right (hnext x)

/-! ### The boot's last resort -/

/-- The boot's power step asks for domains and leaves the firmware's state (R468, R489). -/
theorem State.bootPower_spec (s : State) : { s.bootPower with chg := s.chg } =
    { s with fw := { s.fw with bootStep := 5, fetch := none }, pow := { s.pow with vcore := s.fuses.vcore, railsUp := true } } := by
  unfold State.bootPower
  generalize List.range 24 = l
  refine (foldl_keeps (fun u : State => { u with chg := s.chg }) (fun u d => ?_) l _).trans rfl
  generalize BitVec.ofNat 32 (u.domMask (asDie d)) = v
  unfold State.bufferWrite
  dsimp only
  split
  · rfl
  · split <;> rfl

theorem fetchTimeout_boots {f : Fetch} {s : State} (h0 : s.power = 0) (hf : s.fw.fetch = some f) (hc : f.cmd = none) : ∃ t, exec .fetchTimeout s = .next t ∧
      (∀ b : Bundle, s.fw.nv.lastGood = some b → bundleStatus s.fw.nv.minSvn b.raw = 0 → t.fw.active = some b ∧ t.fw.fallback = true ∧
        t.fw.version = b.version ∧ t.fw.bootStep = 5 ∧ t.fw.fetch = none ∧ t.pow.vcore = s.fuses.vcore) ∧
      ((∀ b : Bundle, s.fw.nv.lastGood = some b → bundleStatus s.fw.nv.minSvn b.raw ≠ 0) →
        t = { s with fw := { s.fw with bootStep := max s.fw.bootStep 3, fetch := some (newFetch 0 none) } }) := by
  have hrun : exec .fetchTimeout s = execFetchTimeout s := rfl
  unfold execFetchTimeout at hrun
  simp only [hf] at hrun
  rw [if_neg (by simp [h0, hc])] at hrun
  by_cases hgood : ∃ b : Bundle, s.fw.nv.lastGood = some b ∧ bundleStatus s.fw.nv.minSvn b.raw = 0
  · obtain ⟨b, hb, hst⟩ := hgood
    have hboot : State.bootLastGood { s with fw := { s.fw with bootStep := max s.fw.bootStep 3, fetch := none } } =
        State.bootBundle { s with fw := { s.fw with bootStep := max s.fw.bootStep 3, fetch := none } } b true := by
      unfold State.bootLastGood
      simp only [hb]
      exact if_pos hst
    rw [hboot] at hrun
    have hrun := hrun.trans (congrArg Host.Outcome.next (if_neg Bool.false_ne_true))
    have hpower := State.bootPower_spec (State.bootBundle { s with fw := { s.fw with bootStep := max s.fw.bootStep 3, fetch := none } } b true)
    refine ⟨_, hrun, fun b' hb' _ => ?_, fun hno => absurd hst (hno b hb)⟩
    obtain rfl : b = b' := Option.some.inj (hb.symm.trans hb')
    exact ⟨(congrArg (fun u : State => u.fw.active) hpower :), (congrArg (fun u : State => u.fw.fallback) hpower :), (congrArg (fun u : State => u.fw.version) hpower :),
      (congrArg (fun u : State => u.fw.bootStep) hpower :), (congrArg (fun u : State => u.fw.fetch) hpower :), (congrArg (fun u : State => u.pow.vcore) hpower :)⟩
  · have hboot : State.bootLastGood { s with fw := { s.fw with bootStep := max s.fw.bootStep 3, fetch := none } } =
        { s with fw := { s.fw with bootStep := max s.fw.bootStep 3, fetch := some (newFetch 0 none) } } := by
      unfold State.bootLastGood
      cases hb : s.fw.nv.lastGood with
      | none => rfl
      | some b =>
        exact if_neg fun hst => hgood ⟨b, hb, hst⟩
    rw [hboot] at hrun
    exact ⟨_, hrun.trans (congrArg Host.Outcome.next (if_pos (rfl : (some (newFetch 0 none)).isSome = true))), fun b hb hst => absurd ⟨b, hb, hst⟩ hgood, fun _ => rfl⟩

theorem readRetry_repeats {f : Fetch} {off : W32} {s : State} (h0 : s.power = 0) (hf : s.fw.fetch = some f) (r : ReadReq) (hr : f.reads.find? (fun x => x.offset == off.toNat) = some r) :
    (r.fails < 7 → ∃ t g, exec (.readRetry off) s = .next t ∧ t.fw.fetch = some g ∧ g.got = f.got ∧ g.reads.length = f.reads.length ∧
      (s.mgmtUp = true → t.fw.out = s.fw.out ++ [.read f.object r.offset r.len]) ∧ { t with fw := s.fw } = s) ∧
    (7 ≤ r.fails → exec (.readRetry off) s = .next { s with fw := { s.fw with fetch := some (newFetch f.object f.cmd) } }) := by
  have hrun : exec (.readRetry off) s = execReadRetry off s := rfl
  unfold execReadRetry at hrun
  simp only [hf, hr] at hrun
  rw [if_neg (not_not.2 h0)] at hrun
  refine ⟨fun hlt => ?_, fun hge => hrun.trans (if_pos (by omega))⟩
  rw [if_neg (by omega)] at hrun
  generalize hg : ({ f with reads := f.reads.map fun (x : ReadReq) => if x.offset == r.offset then { x with fails := x.fails + 1 } else x } : Fetch) = g at hrun
  have hframe := (s.setFetch g).sendMgmt_frame (.read f.object r.offset r.len)
  refine ⟨_, g, hrun, (congrArg (fun u : State => u.fw.fetch) hframe :), hg ▸ rfl, ?_, fun hup => State.sendMgmt_out (s := s.setFetch g) hup _, (congrArg (fun u : State => { u with fw := s.fw }) hframe :)⟩
  rw [← hg]
  exact List.length_map _

/-- Settles O54: READs go out turn by turn, and a message changes the firmware's state alone. -/
theorem bundleFetch : Obligations.BundleFetch := by
  intro f len off bs s h0 hf
  refine ⟨fun hup hs => ?_, fun hup hs hobj hpos hle => offer_reads h0 hf hup hs hobj hpos hle, fun r hup hr hmore => data_reads h0 hf r hup hr hmore,
    fun r hr => readRetry_repeats h0 hf r hr, fun hc => fetchTimeout_boots h0 hf hc⟩
  have hrun : exec .solicit s = execSolicit s := rfl
  unfold execSolicit at hrun
  simp only [hf] at hrun
  rw [if_pos (by simp [h0, hs, hup]), State.sendMgmt_up hup] at hrun
  exact hrun

end Sys2Proof.Machine
end

section
/-! Resets, the boot and domain switching (R24, R30, R37, R154, R411, R468, R551, R573 to R575). -/
namespace Sys2Proof.Machine

/-! ### The package reset -/

theorem smGet_foldl_smSet_of_notMem {α : Type} [DecidableEq α] (d : Nat → α) (f : Nat → α) {l : List Nat} {i : Nat} (h : i ∉ l) (m : SMap α) :
    smGet d (l.foldl (fun m i => smSet d m i (f i)) m) i = smGet d m i := by
  induction l generalizing m with
  | nil => rfl
  | cons x l ih =>
    obtain ⟨hx, hl⟩ := not_or.1 (List.mem_cons.not.1 h)
    exact (ih hl _).trans (smGet_smSet_other _ _ _ _ _ hx)

/-- A map built entry by entry. -/
theorem smGet_foldl_smSet {α : Type} [DecidableEq α] (d : Nat → α) (f : Nat → α) {l : List Nat} {i : Nat} (h : i ∈ l) (m : SMap α) :
    smGet d (l.foldl (fun m i => smSet d m i (f i)) m) i = f i := by
  induction l generalizing m with
  | nil => cases h
  | cons x l ih =>
    by_cases hl : i ∈ l
    · exact ih hl _
    · obtain rfl : i = x := (List.mem_cons.1 h).resolve_right hl
      exact (smGet_foldl_smSet_of_notMem d f hl _).trans (smGet_smSet_same _ _ _ _)

/-- DRAM stays through a package reset (R30, R574). -/
theorem State.packageReset_dram (s : State) {n : Nat} (hn : n < 2) : (s.packageReset.sd n).dram = (s.sd n).dram := by
  have hmem : n ∈ [0, 1] := List.mem_range.2 hn
  have h := smGet_foldl_smSet serveDefault (fun i => { serveDefault i with dram := (smGet serveDefault s.serve i).dram }) hmem []
  exact (congrArg ServeDie.dram h :)

/-- The thermal latch stays through a package reset (R505). -/
theorem State.packageReset_latch (s : State) (e : DieId) : (s.packageReset.die e).latch = (s.die e).latch := by
  have h := smGet_foldl_smSet dieDefault (fun i => { dieDefault i with latch := (smGet dieDefault s.dies i).latch }) (List.mem_range.2 e.isLt) []
  exact (congrArg Die.latch h :)

/-- Registers of a package reset hold their reset values. -/
theorem State.packageReset_regs (s : State) : s.packageReset.tick = State.reset.tick ∧ s.packageReset.regs = State.reset.regs ∧ s.packageReset.chg = State.reset.chg ∧
    s.packageReset.alm = none ∧ s.packageReset.power = 0 := ⟨rfl, rfl, rfl, rfl, rfl⟩

/-- What stays through a package reset. -/
theorem State.packageReset_keeps (s : State) : s.packageReset.fuses = s.fuses ∧ s.packageReset.pending = s.pending ∧ s.packageReset.fw.nv = s.fw.nv ∧
    s.packageReset.fab.optFailed = s.fab.optFailed ∧ s.packageReset.fab.eyeOff = [] ∧ s.packageReset.fw.fetch = none ∧ s.packageReset.fw.out = [] := ⟨rfl, rfl, rfl, rfl, rfl, rfl, rfl⟩

theorem powerOnReset_resets (s : State) : ∃ t, exec .powerOnReset s = .next t ∧ t.power = 2 ∧ t.tick = State.reset.tick ∧ t.regs = State.reset.regs ∧ t.chg = State.reset.chg ∧
    t.alm = none ∧ t.dies = [] ∧ t.serve = [] ∧
    t.fuses = s.fuses ∧ t.pending = s.pending ∧ t.fw.nv.minSvn = s.fw.nv.minSvn ∧ t.fw.nv.orderly = (s.fw.nv.orderly && s.power != 0) := by
  obtain ⟨htick, hregs, hchg, halm, -⟩ := s.packageReset_regs
  obtain ⟨hfuses, hpending, -⟩ := s.packageReset_keeps
  exact ⟨_, rfl, rfl, htick, hregs, hchg, halm, rfl, rfl, hfuses, hpending, rfl, rfl⟩


/-- Wear counters written back change the NV region's wear alone (R154). -/
def State.saveAllWear (s : State) : State := s.cores.foldl (fun s e => e.2.arrays.foldl (fun s a => s.saveWear (asCore e.1) a.1) s) s

theorem State.saveAllWear_frame (s : State) : { s.saveAllWear with fw := { s.saveAllWear.fw with nv := { s.saveAllWear.fw.nv with wear := s.fw.nv.wear } } } = s := by
  unfold State.saveAllWear
  refine foldl_keeps (fun u : State => { u with fw := { u.fw with nv := { u.fw.nv with wear := s.fw.nv.wear } } }) (fun u e => ?_) s.cores s
  exact foldl_keeps (f := fun v a => v.saveWear (asCore e.1) a.1) (fun u : State => { u with fw := { u.fw with nv := { u.fw.nv with wear := s.fw.nv.wear } } }) (fun _ _ => rfl) e.2.arrays u

theorem orderlyPowerDown_resets (s : State) (h0 : s.power = 0) : ∃ t, exec .orderlyPowerDown s = .next t ∧ t.power = 2 ∧ t.tick = State.reset.tick ∧ t.regs = State.reset.regs ∧
    t.fw.nv.orderly = true ∧ t.fab.launch = false ∧ t.fuses = s.fuses ∧ t.pending = s.pending ∧ (∀ n, n < 2 → (t.sd n).dram = (s.sd n).dram) ∧ (∀ e, (t.die e).latch = (s.die e).latch) := by
  have hrun : exec .orderlyPowerDown s = .next { s.saveAllWear.packageReset with
      power := 2, fab := { s.saveAllWear.packageReset.fab with launch := false }, fw := { s.saveAllWear.packageReset.fw with nv := { s.saveAllWear.packageReset.fw.nv with orderly := true } } } :=
    if_neg (not_not.2 h0)
  have hwear := s.saveAllWear_frame
  generalize s.saveAllWear = u at hrun hwear
  obtain ⟨htick, hregs, -, -, -⟩ := u.packageReset_regs
  obtain ⟨hfuses, hpending, -⟩ := u.packageReset_keeps
  exact ⟨_, hrun, rfl, htick, hregs, rfl, rfl, hfuses.trans (congrArg State.fuses hwear :), hpending.trans (congrArg State.pending hwear :),
    fun n hn => (u.packageReset_dram hn).trans (congrArg (fun v : State => (v.sd n).dram) hwear :),
    fun e => (u.packageReset_latch e).trans (congrArg (fun v : State => (v.die e).latch) hwear :)⟩

/-! ### The boot -/

theorem State.setPort_frame (s : State) (d : DieId) (p v : Nat) : { s.setPort d p v with dies := s.dies } = s := rfl

theorem State.startTraining_frame (s : State) (d : Nat) (ps : List Nat) : { s.startTraining d ps with dies := s.dies } = s := by
  unfold State.startTraining
  refine foldl_keeps (fun u : State => { u with dies := s.dies }) (fun u p => ?_) ps s
  split
  · rfl
  · rfl

/-- Training at reset changes ports of dies and fabric links alone (R15, R411). -/
theorem State.trainAtReset_frame (s : State) : { s.trainAtReset with dies := s.dies, fab := { s.trainAtReset.fab with link := s.fab.link } } = s := by
  have hdies : { (List.range 8).foldl (fun s d => s.startTraining (24 + d) (List.range 6)) s with dies := s.dies } = s := by
    generalize List.range 8 = l
    exact foldl_keeps (f := fun v d => v.startTraining (24 + d) (List.range 6)) (fun u : State => { u with dies := s.dies }) (fun u d => (congrArg (fun v : State => { v with dies := s.dies }) (u.startTraining_frame _ _) :)) l s
  unfold State.trainAtReset
  dsimp only
  generalize (List.range 8).foldl (fun s d => s.startTraining (24 + d) (List.range 6)) s = u at hdies ⊢
  have h : { u with dies := s.dies, fab := { u.fab with link := s.fab.link } } = s := (congrArg (fun v : State => { v with fab := { v.fab with link := s.fab.link } }) hdies :)
  split
  · exact h
  · exact h

/-- The state in which RST_N rises. -/
def State.strapped (s : State) (straps : Straps) (bad : Bool) : State := { s.packageReset with
  fuses := { s.packageReset.fuses with bad := bad }
  fab := { s.packageReset.fab with pos := straps.pos, rack := straps.rack, launch := true }
  fw := { s.packageReset.fw with bootStep := 1, cfg := s.fw.nv.bootCfg } }

/-- What the boot's first step leaves (R15, R37, R468). -/
structure Booted (straps : Straps) (bad : Bool) (s t : State) : Prop where
  power : t.power = 0
  pos : t.fab.pos = straps.pos
  rack : t.fab.rack = straps.rack
  nv : t.fw.nv = s.fw.nv
  cfg : t.fw.cfg = s.fw.nv.bootCfg
  tick : t.tick = State.reset.tick
  fuses : t.fuses = { s.fuses with bad := bad }
  dram : ∀ n, n < 2 → (t.sd n).dram = (s.sd n).dram
  bootStep : t.fw.bootStep = 1
  fetch : t.fw.fetch = none
  up : 1 ∉ s.fab.optFailed → t.mgmtUp = true

theorem State.strapped_booted (s : State) (straps : Straps) (bad : Bool) : Booted straps bad s (s.strapped straps bad) := by
  refine ⟨rfl, rfl, rfl, rfl, rfl, rfl, rfl, fun n hn => s.packageReset_dram hn, rfl, rfl, fun h => ?_⟩
  have hopt : (s.strapped straps bad).fab.optFailed = s.fab.optFailed := rfl
  have heye : (s.strapped straps bad).fab.eyeOff = [] := rfl
  unfold State.mgmtUp State.portLit
  rw [hopt, heye]
  simpa using h

theorem Booted.trainAtReset {straps : Straps} {bad : Bool} {s u : State} (h : Booted straps bad s u) : Booted straps bad s u.trainAtReset := by
  have hframe := u.trainAtReset_frame
  generalize u.trainAtReset = t at hframe
  exact ⟨(congrArg State.power hframe).trans h.power, (congrArg (fun v : State => v.fab.pos) hframe).trans h.pos, (congrArg (fun v : State => v.fab.rack) hframe).trans h.rack,
    (congrArg (fun v : State => v.fw.nv) hframe).trans h.nv, (congrArg (fun v : State => v.fw.cfg) hframe).trans h.cfg, (congrArg State.tick hframe).trans h.tick,
    (congrArg State.fuses hframe).trans h.fuses, fun n hn => (congrArg (fun v : State => (v.sd n).dram) hframe).trans (h.dram n hn),
    (congrArg (fun v : State => v.fw.bootStep) hframe).trans h.bootStep, (congrArg (fun v : State => v.fw.fetch) hframe).trans h.fetch,
    fun ho => (congrArg State.mgmtUp hframe).trans (h.up ho)⟩

theorem boot_boots (straps : Straps) (s : State) (hoff : s.power ≠ 0 ∨ s.fw.bootStep = 0) (hlatch : ∀ e, (s.die e).latch = false) (bad : Bool) :
    ∃ t, exec (.boot straps bad) s = .next t ∧ t.power = 0 ∧ t.fab.pos = straps.pos ∧ t.fab.rack = straps.rack ∧
      (bad = false → t.fw.bootStep = 2 ∧ t.fw.fetch = some (newFetch 0 none)) ∧
      (bad = true → t.fw.bootStep = 1 ∧ t.fw.fetch = none ∧ (1 ∉ s.fab.optFailed → .fuseFailure ∈ t.fw.out)) ∧
      t.fw.nv = s.fw.nv ∧ t.fw.cfg = s.fw.nv.bootCfg ∧ t.tick = State.reset.tick ∧ t.fuses = { s.fuses with bad := bad } ∧ (∀ n, n < 2 → (t.sd n).dram = (s.sd n).dram) := by
  have hnone : ((List.range 32).any fun d => (s.die (asDie d)).latch) = false := List.any_eq_false.2 fun d _ => by simp [hlatch]
  have hpower : (s.power == 0 && s.fw.bootStep != 0) = false := by rcases hoff with h | h <;> simp [h]
  have hrun : exec (.boot straps bad) s = .next (if bad then (s.strapped straps bad).trainAtReset.sendMgmt .fuseFailure
      else { (s.strapped straps bad).trainAtReset with fw := { (s.strapped straps bad).trainAtReset.fw with bootStep := 2, fetch := some (newFetch 0 none) } }) :=
    if_neg (by rw [hnone, hpower]; decide)
  have h := (s.strapped_booted straps bad).trainAtReset
  generalize (s.strapped straps bad).trainAtReset = u at hrun h
  cases bad with
  | false => exact ⟨_, hrun, h.power, h.pos, h.rack, fun _ => ⟨rfl, rfl⟩, fun hb => absurd hb Bool.false_ne_true, h.nv, h.cfg, h.tick, h.fuses, h.dram⟩
  | true =>
    rw [if_pos rfl] at hrun
    have hframe := u.sendMgmt_frame .fuseFailure
    refine ⟨_, hrun, (congrArg State.power hframe).trans h.power, (congrArg (fun v : State => v.fab.pos) hframe).trans h.pos, (congrArg (fun v : State => v.fab.rack) hframe).trans h.rack,
      fun hb => absurd hb.symm Bool.false_ne_true, fun _ => ⟨(congrArg (fun v : State => v.fw.bootStep) hframe).trans h.bootStep, (congrArg (fun v : State => v.fw.fetch) hframe).trans h.fetch, fun ho => ?_⟩,
      (congrArg (fun v : State => v.fw.nv) hframe).trans h.nv, (congrArg (fun v : State => v.fw.cfg) hframe).trans h.cfg, (congrArg State.tick hframe).trans h.tick,
      (congrArg State.fuses hframe).trans h.fuses, fun n hn => (congrArg (fun v : State => (v.sd n).dram) hframe).trans (h.dram n hn)⟩
    rw [State.sendMgmt_out (h.up ho)]
    exact List.mem_append_right _ (List.mem_singleton.2 rfl)

/-! ### Domains -/

theorem getLsbD_or_bit (x : BitVec 26) {i j : Nat} (hj : j < 26) : (x ||| (1#26 <<< i)).getLsbD j = (x.getLsbD j || decide (j = i)) := by
  rw [BitVec.getLsbD_or, BitVec.getLsbD_shiftLeft, BitVec.getLsbD_one]
  by_cases hij : j = i
  · simp [hij, hij ▸ hj]
  · rcases Nat.lt_or_gt_of_ne hij with h | h
    · simp [h, hij]
    · have hsub : j - i ≠ 0 := by omega
      simp [hij, hsub]

/-- Settles O53: the package reset's fields, then what each command puts over them. -/
theorem resets : Obligations.Resets := by
  intro d b pos rack s
  refine ⟨powerOnReset_resets s, orderlyPowerDown_resets s, fun hoff hlatch bad => boot_boots ⟨pos, rack⟩ s hoff hlatch bad, fun h0 hd hctrl hoff => ?_⟩
  refine ⟨_, if_neg (by simp only [h0, hctrl, hoff, Nat.not_le.2 hd]; decide), fun j hj => ?_, fun j hj => ?_, fun e => ?_, fun e he => State.die_setDie_other _ _ _ _ he, rfl⟩
  · rw [State.die_modDie_same]
    exact getLsbD_or_bit _ hj
  · rw [State.die_modDie_same]
    dsimp only
    by_cases hb : b.val < 16
    · rw [if_pos hb]
      have hno : (decide (j = b.val) && decide (16 ≤ j)) = false := by simp; omega
      rw [hno, Bool.or_false]
    · rw [if_neg hb, getLsbD_or_bit _ hj]
      by_cases hjb : j = b.val
      · simp [hjb, Nat.not_lt.1 hb]
      · simp [hjb]
  · by_cases he : e = d
    · rw [he, State.die_modDie_same]
    · exact congrArg Die.domUse (State.die_setDie_other _ _ _ _ he)

end Sys2Proof.Machine
end

section
/-! Arrays of a core: scans, grades, row writes, wear and the new-year sweep (R74, R131 to R145, R153 to R158). -/
namespace Sys2Proof.Machine

/-! ### Arrays of a core -/

@[simp] theorem Core.arr_modArr_same (k : Core) (p : Nat) (f : ArrayInfo → ArrayInfo) : (k.modArr p f).arr p = f (k.arr p) := smGet_smSet_same _ _ _ _

theorem Core.arr_modArr_other (k : Core) {p n : Nat} (h : n ≠ p) (f : ArrayInfo → ArrayInfo) : (k.modArr p f).arr n = k.arr n := smGet_smSet_other _ _ _ _ _ h

@[simp] theorem State.arr_modArr_same (s : State) (c : CoreId) (p : Nat) (f : ArrayInfo → ArrayInfo) : ((s.modArr c p f).core c).arr p = f ((s.core c).arr p) := by
  unfold State.modArr
  rw [State.core_modCore_same, Core.arr_modArr_same]

theorem State.arr_modArr_other (s : State) (c : CoreId) {p n : Nat} (h : n ≠ p) (f : ArrayInfo → ArrayInfo) : ((s.modArr c p f).core c).arr n = (s.core c).arr n := by
  unfold State.modArr
  rw [State.core_modCore_same, Core.arr_modArr_other _ h]

@[simp] theorem State.holidays_modArr (s : State) (c : CoreId) (p : Nat) (f : ArrayInfo → ArrayInfo) : ((s.modArr c p f).core c).holidays = (s.core c).holidays := by
  unfold State.modArr
  rw [State.core_modCore_same]
  rfl

/-! ### What work on one core's arrays may change -/

/-- Work on a core's arrays: the other cores stay, and so do the domains' power and ready bits. -/
structure CoreWork (c : CoreId) (s t : State) : Prop where
  frame : { t with cores := s.cores, dies := s.dies, free := s.free, grp := s.grp, rings := s.rings, fw := s.fw } = s
  other : ∀ d, d ≠ c → t.core d = s.core d
  domains : ∀ e, (t.die e).domPower = (s.die e).domPower ∧ (t.die e).domReady = (s.die e).domReady

theorem CoreWork.refl (c : CoreId) (s : State) : CoreWork c s s := ⟨rfl, fun _ _ => rfl, fun _ => ⟨rfl, rfl⟩⟩

theorem CoreWork.trans {c : CoreId} {s t u : State} (h : CoreWork c s t) (k : CoreWork c t u) : CoreWork c s u where
  frame := (congrArg (fun v : State => { v with cores := s.cores, dies := s.dies, free := s.free, grp := s.grp, rings := s.rings, fw := s.fw }) k.frame).trans h.frame
  other d hd := (k.other d hd).trans (h.other d hd)
  domains e := ⟨(k.domains e).1.trans (h.domains e).1, (k.domains e).2.trans (h.domains e).2⟩

theorem CoreWork.foldl {α : Type} {c : CoreId} {f : State → α → State} (h : ∀ s x, CoreWork c s (f s x)) (l : List α) (s : State) : CoreWork c s (l.foldl f s) := by
  induction l generalizing s with
  | nil => exact .refl c s
  | cons x l ih => exact (h s x).trans (ih _)

theorem CoreWork.ite {c : CoreId} {s t u : State} {p : Prop} [Decidable p] (ht : CoreWork c s t) (hu : CoreWork c s u) : CoreWork c s (if p then t else u) := by
  split
  · exact ht
  · exact hu

theorem CoreWork.modCore (c : CoreId) (s : State) (f : Core → Core) : CoreWork c s (s.modCore c f) :=
  ⟨rfl, fun _ hd => State.core_modCore_other _ _ _ _ hd, fun _ => ⟨rfl, rfl⟩⟩

theorem CoreWork.modArr (c : CoreId) (s : State) (p : Nat) (f : ArrayInfo → ArrayInfo) : CoreWork c s (s.modArr c p f) := .modCore c s _

theorem CoreWork.modDie (c : CoreId) (s : State) (d : DieId) {f : Die → Die} (hf : ∀ x, (f x).domPower = x.domPower ∧ (f x).domReady = x.domReady) : CoreWork c s (s.modDie d f) := by
  refine ⟨rfl, fun _ _ => rfl, fun e => ?_⟩
  by_cases he : e = d
  · rw [he, State.die_modDie_same]
    exact hf _
  · have h : (s.modDie d f).die e = s.die e := State.die_setDie_other _ _ _ _ he
    rw [h]
    exact ⟨rfl, rfl⟩

theorem CoreWork.spend (c x : CoreId) (s : State) (n : Nat) : CoreWork c s (s.spend x n) :=
  .modDie c s _ fun _ => by dsimp only; split <;> exact ⟨rfl, rfl⟩

theorem CoreWork.spendReads (c x : CoreId) (s : State) (n : Nat) : CoreWork c s (s.spendReads x n) := .spend c x s _

theorem CoreWork.spendWrites (c x : CoreId) (s : State) (n : Nat) : CoreWork c s (s.spendWrites x n) :=
  (CoreWork.spend c x s _).trans ⟨rfl, fun _ _ => rfl, fun _ => ⟨rfl, rfl⟩⟩

theorem CoreWork.packageFault (c : CoreId) (s : State) (cause : Nat) : CoreWork c s (s.packageFault cause) := by
  have h := s.packageFault_rings cause
  generalize s.packageFault cause = t at h
  refine ⟨(congrArg (fun v : State => { v with cores := s.cores, dies := s.dies, free := s.free, grp := s.grp, fw := s.fw }) h :),
    fun d _ => State.core_of_cores (congrArg State.cores h :) d, fun e => ?_⟩
  rw [show t.die e = s.die e from (congrArg (fun v : State => v.die e) h :)]
  exact ⟨rfl, rfl⟩

theorem CoreWork.markLost (c : CoreId) (s : State) (p : Nat) : CoreWork c s (s.markLost c p) := by
  unfold State.markLost
  split
  · exact .modCore c s _
  · exact .refl c s

theorem CoreWork.arrayFault (c : CoreId) (s : State) (p : Nat) : CoreWork c s (s.arrayFault c p) := by
  unfold State.arrayFault
  exact .ite (.refl c s) ((CoreWork.markLost c s p).trans (.packageFault c _ _))

theorem CoreWork.putGrade (c : CoreId) (s : State) (p : Nat) (g : Grade) (crit : Bool) : CoreWork c s (s.putGrade c p g crit) := .modArr c s p _

theorem CoreWork.recordGrade (c : CoreId) (s : State) (p : Nat) (g : Grade) : CoreWork c s (s.recordGrade c p g) := by
  unfold State.recordGrade
  exact .ite ((CoreWork.putGrade c s p _ _).trans (.arrayFault c _ p)) (.ite ((CoreWork.putGrade c s p _ _).trans (.modCore c _ _)) (.putGrade c s p _ _))

theorem CoreWork.scanArray (c : CoreId) (s : State) (p : Nat) (l : List RowEdges) : CoreWork c s (s.scanArray c p l) := by
  unfold State.scanArray
  exact ((CoreWork.spendReads c c s _).trans (.modArr c _ p _)).trans ((CoreWork.modArr c _ p _).trans (.recordGrade c _ p _))

theorem CoreWork.queueFor (c : CoreId) (s : State) (p : Nat) : CoreWork c s (s.queueFor c p) := by
  unfold State.queueFor
  exact .ite (.refl c s) (.ite (.modCore c s _) (.ite (.modCore c s _) (.refl c s)))

/-! ### What stays of the arrays when a grade is recorded -/

/-- The arrays and holidays of core c, but for the grade that array p records. -/
structure Records (c : CoreId) (p : Nat) (s t : State) : Prop where
  other : ∀ n, n ≠ p → (t.core c).arr n = (s.core c).arr n
  own : { (t.core c).arr p with nextGrade := ((s.core c).arr p).nextGrade, crit := ((s.core c).arr p).crit } = (s.core c).arr p
  holidays : (t.core c).holidays = (s.core c).holidays

theorem Records.trans {c : CoreId} {p : Nat} {s t u : State} (h : Records c p s t) (k : Records c p t u) : Records c p s u where
  other n hn := (k.other n hn).trans (h.other n hn)
  own := (congrArg (fun x : ArrayInfo => { x with nextGrade := ((s.core c).arr p).nextGrade, crit := ((s.core c).arr p).crit }) k.own).trans h.own
  holidays := k.holidays.trans h.holidays

theorem Records.of_arrays {c : CoreId} {s t : State} (p : Nat) (ha : (t.core c).arrays = (s.core c).arrays) (hh : (t.core c).holidays = (s.core c).holidays) : Records c p s t := by
  have h (n : Nat) : (t.core c).arr n = (s.core c).arr n := congrArg (smGet arrayDefault · n) ha
  exact ⟨fun n _ => h n, by rw [h], hh⟩

theorem Records.refl (c : CoreId) (p : Nat) (s : State) : Records c p s s := .of_arrays p rfl rfl

theorem Records.putGrade (c : CoreId) (p : Nat) (s : State) (g : Grade) (crit : Bool) : Records c p s (s.putGrade c p g crit) := by
  unfold State.putGrade
  refine ⟨fun n hn => State.arr_modArr_other _ _ hn _, ?_, ?_⟩
  · rw [State.arr_modArr_same]
  · unfold State.modArr
    rw [State.core_modCore_same]
    rfl

/-- A mark, an event or a fault leaves every array. -/
theorem State.arrays_arrayFault (c : CoreId) (s : State) (p : Nat) :
    ((s.arrayFault c p).core c).arrays = (s.core c).arrays ∧ ((s.arrayFault c p).core c).holidays = (s.core c).holidays := by
  have hmark : ((s.markLost c p).core c).arrays = (s.core c).arrays ∧ ((s.markLost c p).core c).holidays = (s.core c).holidays := by
    unfold State.markLost
    split
    · rw [State.core_modCore_same]
      exact ⟨rfl, rfl⟩
    · exact ⟨rfl, rfl⟩
  unfold State.arrayFault
  split
  · exact ⟨rfl, rfl⟩
  · rw [State.core_of_cores (State.packageFault_cores _ _)]
    exact hmark

theorem Records.recordGrade (c : CoreId) (p : Nat) (s : State) (g : Grade) : Records c p s (s.recordGrade c p g) := by
  unfold State.recordGrade
  dsimp only
  split
  · obtain ⟨ha, hh⟩ := State.arrays_arrayFault c (s.putGrade c p .d false) p
    exact (Records.putGrade c p s _ _).trans (.of_arrays p ha hh)
  · split
    · refine (Records.putGrade c p s .c true).trans (.of_arrays p ?_ ?_)
      · rw [State.core_modCore_same]; rfl
      · rw [State.core_modCore_same]; rfl
    · exact .putGrade c p s _ _

/-- A grade other than D, or one of an array out of service, is recorded as it is. -/
theorem State.recordGrade_plain {s : State} {c : CoreId} {p : Nat} {g : Grade} (h : g ≠ .d ∨ s.inService c p = false) : s.recordGrade c p g = s.putGrade c p g false := by
  have hstuck : (g == .d && s.inService c p && (s.freeSpare c (quarterOf p)).isNone) = false := by rcases h with h | h <;> simp [h]
  unfold State.recordGrade
  dsimp only
  rw [hstuck]
  rfl

theorem State.arr_putGrade (s : State) (c : CoreId) (p : Nat) {g : Grade} (h : g ≠ ((s.core c).arr p).grade) (crit : Bool) :
    ((s.putGrade c p g crit).core c).arr p = { (s.core c).arr p with nextGrade := some g, crit := crit } := by
  unfold State.putGrade
  rw [State.arr_modArr_same, if_neg h]

theorem Core.arrays_queueHoliday (k : Core) (p prio reason : Nat) : (k.queueHoliday p prio reason).arrays = k.arrays := by
  unfold Core.queueHoliday
  split
  · rfl
  · split <;> rfl

/-- Holidays that a scan calls for leave the arrays. -/
theorem State.arrays_queueFor (s : State) (c : CoreId) (p : Nat) : ((s.queueFor c p).core c).arrays = (s.core c).arrays := by
  unfold State.queueFor
  dsimp only
  split
  · rfl
  · split
    · rw [State.core_modCore_same, Core.arrays_queueHoliday]
    · split
      · rw [State.core_modCore_same, Core.arrays_queueHoliday]
      · rfl

/-! ### Scans -/

/-- The array p after a scan, before its grade is recorded. -/
def State.scannedArr (s : State) (c : CoreId) (p : Nat) (l : List RowEdges) : ArrayInfo := ((s.core c).arr p).scanned l s.tick.count s.tick.time

theorem State.scanArray_eq (s : State) (c : CoreId) (p : Nat) (l : List RowEdges) : s.scanArray c p l =
    let u := (s.spendReads c scanReads).modArr c p fun x => x.scanned l s.tick.count s.tick.time
    (u.modArr c p fun x => { x with better := ((s.scannedArr c p l).regrade ((s.core c).arr p).whole).2 }).recordGrade c p ((s.scannedArr c p l).regrade ((s.core c).arr p).whole).1 := by
  have h : (((s.spendReads c scanReads).modArr c p fun x => x.scanned l s.tick.count s.tick.time).core c).arr p = s.scannedArr c p l := State.arr_modArr_same _ _ _ _
  unfold State.scanArray
  dsimp only
  rw [h]

/-- A scan records its window, and a grade (R131, R135). -/
theorem State.scanArray_spec (s : State) (c : CoreId) (p : Nat) (l : List RowEdges) :
    (∀ n, n ≠ p → ((s.scanArray c p l).core c).arr n = (s.core c).arr n) ∧ ((s.scanArray c p l).core c).holidays = (s.core c).holidays ∧
    ∃ b g cr, ((s.scanArray c p l).core c).arr p = { s.scannedArr c p l with better := b, nextGrade := g, crit := cr } := by
  rw [State.scanArray_eq]
  dsimp only
  generalize (s.scannedArr c p l).regrade ((s.core c).arr p).whole = r
  generalize hu : (((s.spendReads c scanReads).modArr c p fun x => x.scanned l s.tick.count s.tick.time).modArr c p fun x => { x with better := r.2 }) = u
  have hown : (u.core c).arr p = { s.scannedArr c p l with better := r.2 } := by
    rw [← hu, State.arr_modArr_same, State.arr_modArr_same]
    rfl
  have hother (n : Nat) (hn : n ≠ p) : (u.core c).arr n = (s.core c).arr n := by
    rw [← hu, State.arr_modArr_other _ _ hn, State.arr_modArr_other _ _ hn]
    rfl
  have hhol : (u.core c).holidays = (s.core c).holidays := by
    rw [← hu, State.holidays_modArr, State.holidays_modArr]
    rfl
  have h := Records.recordGrade c p u r.1
  refine ⟨fun n hn => (h.other n hn).trans (hother n hn), h.holidays.trans hhol, r.2, (((u.recordGrade c p r.1).core c).arr p).nextGrade, (((u.recordGrade c p r.1).core c).arr p).crit, ?_⟩
  have hkeep := congrArg (fun x : ArrayInfo => { x with nextGrade := (((u.recordGrade c p r.1).core c).arr p).nextGrade, crit := (((u.recordGrade c p r.1).core c).arr p).crit }) h.own
  exact (hkeep :).trans (by rw [hown])


theorem ArrayInfo.gradeFor_scanned (x : ArrayInfo) (l : List RowEdges) (t : W48) (now m : Nat) : (x.scanned l t now).gradeFor m = x.gradeFor m := rfl

/-- A lower grade than the one in force is recorded at once (R135). -/
theorem ArrayInfo.regrade_lower (x : ArrayInfo) (whole : Bool) (h : (x.gradeFor x.mLast).rank < x.grade.rank) : x.regrade whole = (x.gradeFor x.mLast, none) := by
  unfold ArrayInfo.regrade
  exact if_pos (Nat.le_of_lt h)

theorem State.scanArray_lower {s : State} {c : CoreId} {p : Nat} {l : List RowEdges}
    (h : (((s.core c).arr p).gradeFor (windowM (edgesOf ((s.core c).arr p).scans l))).rank < ((s.core c).arr p).grade.rank)
    (hd : ((s.core c).arr p).gradeFor (windowM (edgesOf ((s.core c).arr p).scans l)) ≠ .d) :
    (((s.scanArray c p l).core c).arr p).nextGrade = some (((s.core c).arr p).gradeFor (windowM (edgesOf ((s.core c).arr p).scans l))) := by
  rw [State.scanArray_eq, ArrayInfo.regrade_lower _ _ h]
  dsimp only
  generalize hu : (((s.spendReads c scanReads).modArr c p fun x => x.scanned l s.tick.count s.tick.time).modArr c p fun x => { x with better := none }) = u
  have hown : (u.core c).arr p = { s.scannedArr c p l with better := none } := by
    rw [← hu, State.arr_modArr_same, State.arr_modArr_same]
    rfl
  have hgrade : (s.scannedArr c p l).gradeFor (s.scannedArr c p l).mLast = ((s.core c).arr p).gradeFor (windowM (edgesOf ((s.core c).arr p).scans l)) := rfl
  rw [hgrade, State.recordGrade_plain (.inl hd), State.arr_putGrade]
  rw [hown]
  exact fun he => absurd h (by rw [he]; exact Nat.lt_irrefl _)

/-- MARGIN_SCAN (R131, R133, R135). -/
theorem marginScan_scans {c : CoreId} {p : Nat} {l : List RowEdges} {s : State} (ha : s.coreActs c = true) (hp : p < 4224) :
    let x := (s.core c).arr p
    let g := x.gradeFor (windowM (edgesOf x.scans l))
    ∃ t, exec (.marginScan c p l) s = .next t ∧ ((t.core c).arr p).mLast = windowM (edgesOf x.scans l) ∧ ((t.core c).arr p).lastScan = s.tick.count ∧
        ((t.core c).arr p).scanTime = s.tick.time ∧ ((t.core c).arr p).scans = x.scans + 1 ∧ ((t.core c).arr p).grade = x.grade ∧ ((t.core c).arr p).rows = x.rows ∧
        (g.rank < x.grade.rank → g ≠ .d → ((t.core c).arr p).nextGrade = some g) ∧ (∀ n, n ≠ p → (t.core c).arr n = (s.core c).arr n) ∧ (∀ d, d ≠ c → t.core d = s.core d) := by
  intro x g
  have harr (n : Nat) : (((s.scanArray c p l).queueFor c p).core c).arr n = ((s.scanArray c p l).core c).arr n :=
    congrArg (smGet arrayDefault · n) (State.arrays_queueFor _ c p)
  obtain ⟨hother, -, b, ng, cr, hown⟩ := s.scanArray_spec c p l
  refine ⟨_, if_neg (by simp [ha, Nat.not_le.2 hp]), ?_, ?_, ?_, ?_, ?_, ?_, fun hlt hd => ?_, fun n hn => (harr n).trans (hother n hn),
    ((CoreWork.scanArray c s p l).trans (.queueFor c _ p)).other⟩
  · rw [harr, hown]; rfl
  · rw [harr, hown]; rfl
  · rw [harr, hown]; rfl
  · rw [harr, hown]; rfl
  · rw [harr, hown]; rfl
  · rw [harr, hown]; rfl
  · rw [harr]
    exact State.scanArray_lower hlt hd

/-- SCAN_LATE (R140). -/
theorem scanLate_asks {c : CoreId} {p : Nat} {s : State} (ha : s.coreActs c = true) (hp : p < 4224) (ho : s.scanOverdue c p = true) (hr : s.fw.sch.runs = true) :
    ∃ t, exec (.scanLate c p) s = .next t ∧ (t.core c).marginEvt.getLsbD 0 = true ∧ 1 ∈ t.tick.leapReqs ∧ (∀ d, d ≠ c → t.core d = s.core d) := by
  have hrun : (s.modCore c fun k => k.marginEvent 0).fw.sch.runs = true := hr
  have hbit : ((s.modCore c fun k => k.marginEvent 0).core c).marginEvt.getLsbD 0 = true := by
    rw [State.core_modCore_same]
    exact (getLsbD_setBit _ _ _).trans (by simp)
  have hother (d : CoreId) (hd : d ≠ c) : (s.modCore c fun k => k.marginEvent 0).core d = s.core d := State.core_modCore_other _ _ _ _ hd
  have hexec : exec (.scanLate c p) s = _ := (if_neg (by simp [ha, ho, Nat.not_le.2 hp])).trans (congrArg Host.Outcome.next (if_pos hrun))
  generalize (s.modCore c fun k => k.marginEvent 0) = u at hexec hbit hother
  exact ⟨_, hexec, hbit, (mem_addNew _ _ _).2 (.inr rfl), hother⟩

theorem failureCountLimit_lowers {c : CoreId} {p : Nat} {s : State} (ha : s.coreActs c = true) (hp : p < 4224) (hf : 8 ≤ ((s.core c).arr p).failCnt) (hs : s.inService c p = false)
    (hscan : 0 < ((s.core c).arr p).scans) (hg : (((s.core c).arr p).gradeFor ((s.core c).arr p).mLast).worse ((s.core c).arr p).grade ≠ ((s.core c).arr p).grade) :
    ∃ t, exec (.failureCountLimit c p) s = .next t ∧ ((t.core c).arr p).nextGrade = some ((((s.core c).arr p).gradeFor ((s.core c).arr p).mLast).worse ((s.core c).arr p).grade) := by
  have hrun : exec (.failureCountLimit c p) s = _ := if_neg (by simp [ha, Nat.not_le.2 hp, Nat.not_lt.2 hf])
  rw [if_neg (Nat.pos_iff_ne_zero.1 hscan), if_neg hg, State.recordGrade_plain (.inr hs)] at hrun
  generalize (((s.core c).arr p).gradeFor ((s.core c).arr p).mLast).worse ((s.core c).arr p).grade = g at hg hrun ⊢
  refine ⟨_, hrun, ?_⟩
  have hown := s.arr_putGrade c p hg false
  generalize s.putGrade c p g false = u at hown
  have hcalled : (((if u.inService c p = true then u.modCore c fun k => k.queueHoliday p 3 3 else u)).core c).arrays = (u.core c).arrays := by
    split
    · rw [State.core_modCore_same, Core.arrays_queueHoliday]
    · rfl
  have harr := congrArg (fun m => (smGet arrayDefault m p).nextGrade) ((State.arrays_queueFor _ c p).trans hcalled)
  exact harr.trans (congrArg ArrayInfo.nextGrade hown)


/-! ### Row writes -/

theorem ArrayInfo.rowNext_putRow (x : ArrayInfo) (r : Nat) (f : Nat → Bool) : (x.putRow r f).rowNext = x.rowNext := by
  rw [ArrayInfo.putRow]

theorem ArrayInfo.rowMap_putRow (x : ArrayInfo) (r : Nat) (f : Nat → Bool) : (x.putRow r f).rowMap = x.rowMap := by
  rw [ArrayInfo.putRow]

/-- A row write that verifies (R142). -/
theorem ArrayInfo.writeRow_verified (x : ArrayInfo) (row : Nat) (bits : List Bool) : x.writeRow row bits [] = x.putRow row fun j => nth false bits j := by
  have h : ({ x with colFails := x.colFails ++ [] } : ArrayInfo) = x := by rw [List.append_nil]
  unfold ArrayInfo.writeRow
  dsimp only
  rw [h]
  rfl

/-- A failing row moves to the next spare row at the next eve, while no column has failed three times (R77, R142). -/
theorem ArrayInfo.writeRow_remapped {x : ArrayInfo} {row : Nat} {bits : List Bool} {fs : List Nat} (hne : fs ≠ []) (hroom : x.staged.rowMap.length < 16)
    (hcols : ∀ j ∈ fs, ((x.colFails ++ fs).filter (· == j)).length < 3) :
    (x.writeRow row bits fs).rowNext = some (mapPut x.staged.rowMap row (1088 + x.staged.rowMap.length)) ∧ (x.writeRow row bits fs).rowMap = x.rowMap := by
  have hremap : (({ x with colFails := x.colFails ++ fs } : ArrayInfo).remapRow row) =
      { x with colFails := x.colFails ++ fs, rowNext := some (mapPut x.staged.rowMap row (1088 + x.staged.rowMap.length)) } := by
    have hspare : nextSpare 1088 ({ x with colFails := x.colFails ++ fs } : ArrayInfo).staged.rowMap = some (1088 + x.staged.rowMap.length) := if_pos hroom
    unfold ArrayInfo.remapRow
    rw [hspare]
    rfl
  have hfold (y : ArrayInfo) (hy : y.colFails = x.colFails ++ fs) (l : List Nat) (hl : ∀ j ∈ l, j ∈ fs) :
      l.foldl (fun (x : ArrayInfo) j => if 3 ≤ (x.colFails.filter (· == j)).length then x.remapCol j else x) y = y := by
    induction l with
    | nil => rfl
    | cons j l ih =>
      have hfew : ¬ 3 ≤ (y.colFails.filter (· == j)).length := by
        rw [hy]
        exact Nat.not_le.2 (hcols j (hl j List.mem_cons_self))
      rw [List.foldl_cons, if_neg hfew]
      exact ih fun j hj => hl j (List.mem_cons_of_mem _ hj)
  unfold ArrayInfo.writeRow
  dsimp only
  rw [if_neg (by simpa using hne), hremap, hfold _ rfl fs fun _ h => h]
  exact ⟨ArrayInfo.rowNext_putRow _ _ _, ArrayInfo.rowMap_putRow _ _ _⟩

theorem rowWrite_writes {c : CoreId} {p row : Nat} {bits : List Bool} {fs : List Nat} {s : State} (ha : s.coreActs c = true) (hp : p < 4224) (hrow : row < 1088) :
    let x := (s.core c).arr p
    (s.writable c p = false → exec (.rowWrite c p row bits fs) s = .next (s.boundHit 4)) ∧
    (s.writable c p = true → s.critical c = true → exec (.rowWrite c p row bits fs) s = .next (s.modCore c fun k => k.marginEvent 4)) ∧
    (s.writable c p = true → s.critical c = false → s.writeSlot c p = false → exec (.rowWrite c p row bits fs) s = .next s) ∧
    (s.writable c p = true → s.critical c = false → s.writeSlot c p = true → ∃ t, exec (.rowWrite c p row bits fs) s = .next t ∧
      (fs = [] → (t.core c).arr p = x.putRow row (fun j => nth false bits j)) ∧
      (fs ≠ [] → x.staged.rowMap.length < 16 → (∀ j ∈ fs, ((x.colFails ++ fs).filter (· == j)).length < 3) →
        ((t.core c).arr p).rowNext = some (mapPut x.staged.rowMap row (1088 + x.staged.rowMap.length)) ∧ ((t.core c).arr p).rowMap = x.rowMap) ∧
      (∀ n, n ≠ p → (t.core c).arr n = (s.core c).arr n) ∧ t.free = s.free + 1) := by
  intro x
  have hin : ¬ (!s.coreActs c || decide (4224 ≤ p ∨ 1088 ≤ row)) = true := by
    rw [ha, decide_eq_false (by omega)]
    decide
  refine ⟨fun hw => (if_neg hin).trans (if_pos (by simp [hw])), fun hw hc => (if_neg hin).trans ((if_neg (by simp [hw])).trans (if_pos hc)),
    fun hw hc hs => (if_neg hin).trans ((if_neg (by simp [hw])).trans ((if_neg (by simp [hc])).trans (if_pos (by simp [hs])))), fun hw hc hs => ?_⟩
  have hown := s.arr_modArr_same c p fun y => y.writeRow row bits fs
  refine ⟨_, (if_neg hin).trans ((if_neg (by simp [hw])).trans ((if_neg (by simp [hc])).trans (if_neg (by simp [hs])))), fun hfs => ?_, fun hne hroom hcols => ?_, fun n hn => ?_, rfl⟩
  · subst hfs
    exact hown.trans (x.writeRow_verified row bits)
  · have h := x.writeRow_remapped (row := row) (bits := bits) hne hroom hcols
    exact ⟨(congrArg ArrayInfo.rowNext hown).trans h.1, (congrArg ArrayInfo.rowMap hown).trans h.2⟩
  · exact s.arr_modArr_other c hn _

/-! ### Failure counts and wear -/

/-- Every failure count of a core at 0 (R132). -/
def Core.clearFails (k : Core) : Core := (k.arrays.map Prod.fst).foldl (fun k p => k.modArr p fun x => { x with failCnt := 0 }) k

theorem Core.arr_foldl_clear (l : List Nat) (k : Core) (n : Nat) :
    (l.foldl (fun k p => k.modArr p fun x => { x with failCnt := 0 }) k).arr n = if n ∈ l then { k.arr n with failCnt := 0 } else k.arr n := by
  induction l generalizing k with
  | nil => rfl
  | cons p l ih =>
    rw [List.foldl_cons, ih]
    by_cases hn : n = p
    · subst hn
      simp
    · rw [Core.arr_modArr_other _ hn]
      simp [hn]

theorem Core.arr_clearFails (k : Core) (n : Nat) : (k.clearFails).arr n = { k.arr n with failCnt := 0 } := by
  unfold Core.clearFails
  rw [Core.arr_foldl_clear]
  split
  case isTrue => rfl
  case isFalse h =>
    have hdefault : k.arr n = arrayDefault n := smGet_of_notMem _ h
    rw [hdefault]
    rfl

/-- What the window's restart may change, seen from the whole package. -/
structure ClearKeeps (s t : State) : Prop where
  frame : { t with cores := s.cores } = s
  arr : ∀ c n, ((t.core c).arr n).rows = ((s.core c).arr n).rows ∧ (((s.core c).arr n).failCnt = 0 → ((t.core c).arr n).failCnt = 0)

theorem ClearKeeps.trans {s t u : State} (h : ClearKeeps s t) (k : ClearKeeps t u) : ClearKeeps s u :=
  ⟨(congrArg (fun v : State => { v with cores := s.cores }) k.frame).trans h.frame,
    fun c n => ⟨(k.arr c n).1.trans (h.arr c n).1, fun h0 => (k.arr c n).2 ((h.arr c n).2 h0)⟩⟩

theorem ClearKeeps.clear (s : State) (c : CoreId) : ClearKeeps s (s.modCore c Core.clearFails) := by
  refine ⟨rfl, fun d n => ?_⟩
  by_cases hd : d = c
  · rw [hd, State.core_modCore_same, Core.arr_clearFails]
    exact ⟨rfl, fun _ => rfl⟩
  · rw [State.core_modCore_other _ _ _ _ hd]
    exact ⟨rfl, id⟩

theorem failureWindowRestart_clears (s : State) (hn : s.tick.count.toNat % 65536 = 0) :
    ∃ t, exec .failureWindowRestart s = .next t ∧ (∀ d n, ((t.core d).arr n).failCnt = 0 ∧ ((t.core d).arr n).rows = ((s.core d).arr n).rows) ∧ { t with cores := s.cores } = s := by
  have hrun : exec .failureWindowRestart s = .next ((List.range 96).foldl (fun s i => s.modCore (asCore i) Core.clearFails) s) := if_neg (not_not.2 hn)
  rw [foldl_range_asCore (fun s c => s.modCore c Core.clearFails)] at hrun
  obtain ⟨hall, hone⟩ := foldl_turn (f := fun s c => s.modCore c Core.clearFails) (K := ClearKeeps) (P := fun c _ t => ∀ n, ((t.core c).arr n).failCnt = 0)
    (fun s => ⟨rfl, fun _ _ => ⟨rfl, id⟩⟩) ClearKeeps.trans ClearKeeps.clear
    (fun s c n => by rw [State.core_modCore_same, Core.arr_clearFails]) (fun _ _ _ _ _ h => h) (fun c _ _ _ h k n => (k.arr c n).2 (h n)) ((List.range 96).map asCore) s
  exact ⟨_, hrun, fun d n => ⟨hone d (mem_allCores d) n, (hall.arr d n).1⟩, hall.frame⟩

/-- A wear counter that is written back never falls (R153). -/
theorem State.nvWear_saveWear (s : State) (c : CoreId) (p : Nat) : ((s.saveWear c p).nvWear c p).toNat = max (s.nvWear c p).toNat ((s.core c).arr p).wear.toNat := by
  have h : (s.saveWear c p).nvWear c p = if (s.nvWear c p).toNat ≤ ((s.core c).arr p).wear.toNat then ((s.core c).arr p).wear else s.nvWear c p := smGet_smSet_same _ _ _ _
  rw [h]
  split
  case isTrue hle => exact (Nat.max_eq_right hle).symm
  case isFalse hle => exact (Nat.max_eq_left (Nat.le_of_lt (Nat.not_le.1 hle))).symm

theorem wearWriteback_saves {c : CoreId} {p : Nat} {s : State} (ha : s.coreActs c = true) (hw : 1024 ≤ ((s.core c).arr p).wearSince) :
    ∃ t, exec (.wearWriteback c p) s = .next t ∧ (t.nvWear c p).toNat = max (s.nvWear c p).toNat ((s.core c).arr p).wear.toNat ∧
      (t.core c).arr p = { (s.core c).arr p with wearSince := ((s.core c).arr p).wearSince - 1024 } :=
  ⟨_, if_neg (by simp [ha, Nat.not_lt.2 hw]), s.nvWear_saveWear c p, (s.saveWear c p).arr_modArr_same c p _⟩

/-! ### The new-year sweep -/

theorem CoreWork.sweepScan (c : CoreId) (s : State) (p : Nat) (e : List RowEdges) (fresh : Bool) : CoreWork c s (s.sweepScan c p e fresh) := by
  unfold State.sweepScan
  exact ((CoreWork.spendReads c c s _).trans (.modArr c _ p _)).trans (.putGrade c _ p _ _)

theorem CoreWork.sweepRead (c : CoreId) (s : State) (p : Nat) (faults : List ReadFault) : CoreWork c s (s.sweepRead c p faults) := by
  unfold State.sweepRead
  exact .ite ((CoreWork.modCore c s _).trans (.markLost c _ p)) (.modCore c s _)

theorem CoreWork.copyInto (c : CoreId) (s : State) (o : ArrayInfo) (sp : Nat) (e : List RowEdges) : CoreWork c s (s.copyInto c o sp e) := by
  unfold State.copyInto
  exact (((CoreWork.spendReads c c s _).trans (.spendWrites c c _ _)).trans (.modArr c _ sp _)).trans ((CoreWork.modArr c _ sp _).trans ((CoreWork.modArr c _ sp _).trans (.putGrade c _ sp _ _)))

theorem CoreWork.sweepRefresh (c : CoreId) (faults : List ReadFault) (r : State × List Nat) (p : Nat) : CoreWork c r.1 (sweepRefresh c faults r p).1 := by
  unfold Machine.sweepRefresh
  dsimp only
  split
  · exact (((CoreWork.sweepRead c r.1 p faults).trans (.spendReads c c _ _)).trans (.spendWrites c c _ _)).trans (.modArr c _ p _)
  · exact .refl c r.1

theorem CoreWork.foldl_sweepScan (c : CoreId) (l : List (Nat × List RowEdges)) (s : State) : CoreWork c s (l.foldl (fun s x => s.sweepScan c x.1 x.2 true) s) := by
  induction l generalizing s with
  | nil => exact .refl c _
  | cons x l ih => exact (CoreWork.sweepScan c s x.1 x.2 true).trans (ih _)

theorem CoreWork.foldl_sweepRefresh (c : CoreId) (faults : List ReadFault) (l : List Nat) (r : State × List Nat) : CoreWork c r.1 (l.foldl (Machine.sweepRefresh c faults) r).1 := by
  induction l generalizing r with
  | nil => exact .refl c _
  | cons p l ih => exact (CoreWork.sweepRefresh c faults r p).trans (ih _)

/-- As for `sweepMove_fuses`, the recursion is laid open by hand. -/
theorem CoreWork.sweepMove {c : CoreId} {p a : Nat} {rescans : List (Nat × List RowEdges)} (fuel : Nat) {r q : State × List Nat} (h : Machine.sweepMove c p a rescans fuel r = some q) :
    CoreWork c r.1 q.1 := by
  delta Machine.sweepMove Machine.sweepMove._f Nat.brecOn Nat.brecOn.go at h
  induction fuel generalizing r with
  | zero =>
    obtain rfl : r = q := Option.some.inj h
    exact .refl c _
  | succ fuel ih =>
    dsimp only at h ih
    split at h
    · obtain rfl := Option.some.inj h
      exact .refl c _
    · split at h
      · cases h
      case h_2 sp _ _ e _ =>
        have hcopy := CoreWork.copyInto c r.1 ((r.1.core c).arr p) sp e.2
        generalize r.1.copyInto c ((r.1.core c).arr p) sp e.2 = u at h hcopy
        split at h
        · exact (hcopy.trans (.modCore c u fun k => (k.modArr sp fun x => { x with dead := true }).marginEvent 2)).trans (ih h)
        · obtain rfl := Option.some.inj h
          exact hcopy.trans (.modCore c u fun k => { k with mapNext := k.mapNext ++ [(a, sp)] })

theorem CoreWork.sweepRepair (c : CoreId) (faults : List ReadFault) (rescans : List (Nat × List RowEdges)) (r q : State × List Nat) (p : Nat)
    (h : Machine.sweepRepair c faults rescans r p = some q) : CoreWork c r.1 q.1 := by
  unfold Machine.sweepRepair at h
  split at h
  · split at h
    · have hread := CoreWork.sweepRead c r.1 p faults
      generalize r.1.sweepRead c p faults = u at h hread
      exact hread.trans (CoreWork.sweepMove _ (r := (u, r.2)) h)
    · obtain rfl := Option.some.inj h
      exact .refl c _
  · obtain rfl := Option.some.inj h
    exact .refl c _

/-- Turns of which each that succeeds does core work. -/
theorem CoreWork.foldlM {σ α : Type} {c : CoreId} (g : σ → State) {f : σ → α → Option σ} (hf : ∀ r x q, f r x = some q → CoreWork c (g r) (g q)) (l : List α) (r q : σ)
    (h : l.foldlM f r = some q) : CoreWork c (g r) (g q) := by
  induction l generalizing r with
  | nil =>
    obtain rfl : r = q := Option.some.inj h
    exact .refl c _
  | cons x l ih =>
    rw [List.foldlM_cons] at h
    cases hx : f r x with
    | none => rw [hx] at h; cases h
    | some y =>
      rw [hx] at h
      exact (hf r x y hx).trans (ih y h)

theorem CoreWork.critEve (c : CoreId) (s : State) : CoreWork c s (s.critEve c) := by
  unfold State.critEve
  refine .foldl (fun u p => ?_) _ s
  unfold State.critArray
  exact .ite (.recordGrade c u p _) (.refl c u)

/-- A finished sweep is work on its core's arrays (R155). -/
theorem CoreWork.sweepOver {c : CoreId} {s : State} {scans rescans : List (Nat × List RowEdges)} {faults : List ReadFault} {r : State × List Nat}
    (h : s.sweepOver c scans rescans faults = some r) : CoreWork c s r.1 := by
  unfold State.sweepOver at h
  dsimp only at h
  have h1 : CoreWork c s (scans.foldl (fun s x => s.sweepScan c x.1 x.2 true) s) := .foldl_sweepScan c scans s
  generalize scans.foldl (fun s x => s.sweepScan c x.1 x.2 true) s = u at h h1
  have h2 := CoreWork.foldl_sweepRefresh c faults (scans.map Prod.fst) (u, [])
  generalize (scans.map Prod.fst).foldl (Machine.sweepRefresh c faults) (u, []) = v at h h2
  cases hm : (scans.map Prod.fst).foldlM (Machine.sweepRepair c faults rescans) v with
  | none => rw [hm] at h; cases h
  | some w =>
    rw [hm] at h
    have h3 : CoreWork c v.1 w.1 := .foldlM Prod.fst (fun a x b hb => .sweepRepair c faults rescans a b x hb) _ v w hm
    dsimp only at h
    cases hs : w.2.foldlM (Machine.sweepRescan c rescans) w.1 with
    | none => rw [hs] at h; cases h
    | some y =>
      rw [hs] at h
      have h4 : CoreWork c w.1 y := .foldlM id (fun a x b hb => by
        unfold Machine.sweepRescan at hb
        split at hb
        · obtain rfl := Option.some.inj hb
          exact .sweepScan c a _ _ false
        · cases hb) _ w.1 y hs
      obtain rfl := Option.some.inj h
      exact (((h1.trans h2).trans h3).trans h4).trans (.critEve c y)


theorem CoreWork.takeBand (c : CoreId) (s : State) : CoreWork c s (s.takeBand c) := by
  unfold State.takeBand
  exact .ite (.refl c s) (.modDie c s _ fun _ => by dsimp only; split <;> exact ⟨rfl, rfl⟩)

theorem CoreWork.saveWear (c : CoreId) (s : State) (p : Nat) : CoreWork c s (s.saveWear c p) := ⟨rfl, fun _ _ => rfl, fun _ => ⟨rfl, rfl⟩⟩

theorem CoreWork.loadWear (c : CoreId) (s : State) (ps : List Nat) : CoreWork c s (s.loadWear c ps) := by
  have h : CoreWork c s (ps.foldl (fun t p => (t.modArr c p fun a => { a with wear := s.bootWear c p }).saveWear c p) s) :=
    .foldl (fun u p => (CoreWork.modArr c u p fun a => { a with wear := s.bootWear c p }).trans (.saveWear c _ p)) ps s
  unfold State.loadWear
  dsimp only
  generalize ps.foldl (fun t p => (t.modArr c p fun a => { a with wear := s.bootWear c p }).saveWear c p) s = u at h ⊢
  exact h.trans ⟨rfl, fun _ _ => rfl, fun _ => ⟨rfl, rfl⟩⟩

/-- The boot's end leaves cores and dies. -/
theorem State.bootEnd_keeps (s : State) : s.bootEnd.cores = s.cores ∧ s.bootEnd.dies = s.dies := by
  unfold State.bootEnd
  split
  · exact ⟨rfl, rfl⟩
  · dsimp only
    rw [State.post_cores, State.post_dies]
    exact ⟨rfl, rfl⟩

/-! ### Ready bits -/

theorem getLsbD_foldl_or_bit (f : Nat → Nat) (p : Nat → Bool) (l : List Nat) (b : BitVec 26) {i : Nat} (hi : i < 26) :
    (l.foldl (fun (b : BitVec 26) q => if p q then b ||| (1#26 <<< f q) else b) b).getLsbD i = true ↔ b.getLsbD i = true ∨ ∃ q ∈ l, p q = true ∧ i = f q := by
  induction l generalizing b with
  | nil => simp
  | cons q l ih =>
    rw [List.foldl_cons, ih]
    cases hq : p q with
    | false => simp [hq]
    | true =>
      rw [if_pos rfl, getLsbD_or_bit _ hi]
      simp [hq, or_assoc]

theorem readyBanks_ready (d : Die) (l : Nat) (only : Option Nat) {i : Nat} (hi : i < 26) : (readyBanks d l only).domReady.getLsbD i = true ↔
    d.domReady.getLsbD i = true ∨ ∃ q, q < 4 ∧ (only = none ∨ only = some q) ∧ d.domPower.getLsbD (4 * l + q) = true ∧ i = 4 * l + q := by
  unfold readyBanks
  refine (getLsbD_foldl_or_bit (fun q => 4 * l + q) (fun q => (only == none || only == some q) && d.domPower.getLsbD (4 * l + q)) _ _ hi).trans ?_
  simp only [List.mem_range, Bool.and_eq_true, Bool.or_eq_true, beq_iff_eq, and_assoc]

/-- A sweep that may write is finished with what it found (R144). -/
theorem State.sweepWrites_over {s : State} {c : CoreId} {r : State × List Nat} (h : s.critical c = false ∨ r.2 = []) (f : State × List Nat → State) : s.sweepWrites c (some r) f = f r :=
  if_neg (by rcases h with h | h <;> simp [h])

theorem newYearSweep_sweeps {c : CoreId} {scans rescans : List (Nat × List RowEdges)} {faults : List ReadFault} {time : Nat} {s : State} (ha : s.coreActs c = true)
    (r : State × List Nat) (hd : (s.core c).sweepDone = false) (hok : s.sweepScansOk c none scans = true)
    (hr : ((s.takeBand c).loadWear c (scans.map Prod.fst)).sweepOver c scans rescans faults = some r) (hc : (s.takeBand c).critical c = false ∨ r.2 = []) :
    ∃ t, exec (.newYearSweep c ⟨scans, faults⟩ rescans time) s = .next t ∧ (t.core c).sweepDone = true ∧
      (t.core c).sweepTime = min 0xFFFF time ∧ ((t.core c).sweepSlow = true ↔ 400 < time) ∧ (t.core c).refreshed = min 0x3FFF r.2.length ∧ (t.core c).arrays = (r.1.core c).arrays ∧
      (∀ j, j < 4 → (s.die (dieOf c)).domPower.getLsbD (4 * (c.val % 4) + j) = true → (t.die (dieOf c)).domReady.getLsbD (4 * (c.val % 4) + j) = true) ∧ (∀ d, d ≠ c → t.core d = s.core d) := by
  have hwork := ((CoreWork.takeBand c s).trans (.loadWear c _ _)).trans (.sweepOver hr)
  have hrun : exec (.newYearSweep c ⟨scans, faults⟩ rescans time) s = .next ((s.takeBand c).sweepWrites c (((s.takeBand c).loadWear c (scans.map Prod.fst)).sweepOver c scans rescans faults) fun r =>
      ((r.1.modCore c fun k => k.swept time r.2.length).modDie (dieOf c) fun d => readyBanks d (c.val % 4) none).bootEnd) := if_neg (by simp [ha, hd, hok])
  rw [hr, State.sweepWrites_over hc] at hrun
  obtain ⟨hcores, hdies⟩ := ((r.1.modCore c fun k => k.swept time r.2.length).modDie (dieOf c) fun d => readyBanks d (c.val % 4) none).bootEnd_keeps
  have hcore (d : CoreId) := State.core_of_cores (hcores.trans (State.modDie_cores _ _ _)) d
  have hown := (hcore c).trans (State.core_modCore_same r.1 c _)
  have hdie := congrArg (smGet dieDefault · (dieOf c).val) hdies
  have hset : ((r.1.modCore c fun k => k.swept time r.2.length).modDie (dieOf c) fun d => readyBanks d (c.val % 4) none).die (dieOf c) = readyBanks (r.1.die (dieOf c)) (c.val % 4) none :=
    State.die_modDie_same _ _ _
  generalize ((r.1.modCore c fun k => k.swept time r.2.length).modDie (dieOf c) fun d => readyBanks d (c.val % 4) none).bootEnd = t at hrun hcore hown hdie
  refine ⟨t, hrun, congrArg Core.sweepDone hown, congrArg Core.sweepTime hown, (by rw [hown]; exact decide_eq_true_iff), congrArg Core.refreshed hown, (congrArg Core.arrays hown).trans rfl, fun j hj hp => ?_,
    fun d hd => (hcore d).trans ((State.core_modCore_other r.1 c d _ hd).trans (hwork.other d hd))⟩
  have hready : (readyBanks (r.1.die (dieOf c)) (c.val % 4) none).domReady.getLsbD (4 * (c.val % 4) + j) = true :=
    (readyBanks_ready _ _ _ (by omega)).2 (.inr ⟨j, hj, .inl rfl, by rw [(hwork.domains _).1]; exact hp, rfl⟩)
  exact (congrArg (fun d : Die => d.domReady.getLsbD (4 * (c.val % 4) + j)) (hdie.trans hset)).trans hready

theorem quarterScan_scans {c : CoreId} {q : Fin 4} {scans rescans : List (Nat × List RowEdges)} {faults : List ReadFault} {s : State} (ha : s.coreActs c = true)
    (r : State × List Nat) (hp : (s.die (dieOf c)).domPower.getLsbD (4 * (c.val % 4) + q.val) = true) (hn : (s.die (dieOf c)).domReady.getLsbD (4 * (c.val % 4) + q.val) = false)
    (hok : s.sweepScansOk c (some q.val) scans = true) (hr : s.sweepOver c scans rescans faults = some r) (hc : s.critical c = false ∨ r.2 = []) :
    ∃ t, exec (.quarterScan c q ⟨scans, faults⟩ rescans) s = .next t ∧
      (t.die (dieOf c)).domReady.getLsbD (4 * (c.val % 4) + q.val) = true ∧ (t.core c).arrays = (r.1.core c).arrays ∧
      ((∀ j, j < 4 → j ≠ q.val → (s.die (dieOf c)).domPower.getLsbD (4 * (c.val % 4) + j) = true → (s.die (dieOf c)).domReady.getLsbD (4 * (c.val % 4) + j) = true) → (t.core c).sweepDone = true) := by
  have hwork := CoreWork.sweepOver hr
  obtain ⟨hpower, hready⟩ := hwork.domains (dieOf c)
  have hset : (r.1.modDie (dieOf c) fun d => readyBanks d (c.val % 4) (some q.val)).die (dieOf c) = readyBanks (r.1.die (dieOf c)) (c.val % 4) (some q.val) := State.die_modDie_same _ _ _
  have hq : (readyBanks (r.1.die (dieOf c)) (c.val % 4) (some q.val)).domReady.getLsbD (4 * (c.val % 4) + q.val) = true :=
    (readyBanks_ready _ _ _ (by omega)).2 (.inr ⟨q.val, q.isLt, .inr rfl, by rw [hpower]; exact hp, rfl⟩)
  have hrun : exec (.quarterScan c q ⟨scans, faults⟩ rescans) s = .next (s.sweepWrites c (s.sweepOver c scans rescans faults) fun r =>
      (r.1.modDie (dieOf c) fun d => readyBanks d (c.val % 4) (some q.val)).modCore c fun k => { k with sweepDone := k.sweepDone ||
        ((List.range 4).all fun j => !((r.1.modDie (dieOf c) fun d => readyBanks d (c.val % 4) (some q.val)).die (dieOf c)).domPower.getLsbD (4 * (c.val % 4) + j) ||
          ((r.1.modDie (dieOf c) fun d => readyBanks d (c.val % 4) (some q.val)).die (dieOf c)).domReady.getLsbD (4 * (c.val % 4) + j)) }) := if_neg (by simp only [ha, hp, hn, hok]; decide)
  rw [hr, State.sweepWrites_over hc, hset] at hrun
  have hown := State.core_modCore_same (r.1.modDie (dieOf c) fun d => readyBanks d (c.val % 4) (some q.val)) c fun k => { k with sweepDone := k.sweepDone ||
    ((List.range 4).all fun j => !(readyBanks (r.1.die (dieOf c)) (c.val % 4) (some q.val)).domPower.getLsbD (4 * (c.val % 4) + j) ||
      (readyBanks (r.1.die (dieOf c)) (c.val % 4) (some q.val)).domReady.getLsbD (4 * (c.val % 4) + j)) }
  refine ⟨_, hrun, (congrArg (fun d : Die => d.domReady.getLsbD (4 * (c.val % 4) + q.val)) hset).trans hq, (congrArg Core.arrays hown).trans rfl, fun hall => (congrArg Core.sweepDone hown).trans ?_⟩
  refine Bool.or_eq_true_iff.2 (.inr (List.all_eq_true.2 fun j hj => ?_))
  have hj := List.mem_range.1 hj
  have hsame : (readyBanks (r.1.die (dieOf c)) (c.val % 4) (some q.val)).domPower = (s.die (dieOf c)).domPower := hpower
  rw [hsame]
  cases hpj : (s.die (dieOf c)).domPower.getLsbD (4 * (c.val % 4) + j) with
  | false => rfl
  | true =>
    by_cases hjq : j = q.val
    · rw [hjq, hq]
      rfl
    · have h : (readyBanks (r.1.die (dieOf c)) (c.val % 4) (some q.val)).domReady.getLsbD (4 * (c.val % 4) + j) = true :=
        (readyBanks_ready _ _ _ (by omega)).2 (.inl (by rw [hready]; exact hall j hj hjq hpj))
      rw [h]
      rfl

/-- Settles O51: scans, row writes, wear and sweeps are work on one core's arrays. -/
theorem marginAndWear : Obligations.MarginAndWear := by
  intro c p row l bits fs q scans rescans faults time s x g bank d0 ha
  refine ⟨fun hp => ⟨marginScan_scans ha hp, scanLate_asks ha hp, failureCountLimit_lowers ha hp, rowWrite_writes ha hp⟩, failureWindowRestart_clears s, fun hcrit hpair => ?_, wearWriteback_saves ha,
    fun r hd hok hr hc => newYearSweep_sweeps ha r hd hok hr hc, fun r hp hn hok hr hc => quarterScan_scans ha r hp hn hok hr hc⟩
  obtain ⟨t, ht, u, hu, hne, hle⟩ := hpair
  refine if_pos (Bool.and_eq_true_iff.2 ⟨hcrit, List.any_eq_true.2 ⟨t, ht, List.any_eq_true.2 ⟨u, hu, ?_⟩⟩⟩)
  exact Bool.and_eq_true_iff.2 ⟨bne_iff_ne.2 hne, decide_eq_true hle⟩

end Sys2Proof.Machine
end

section
/-! Holidays: the start, the copy into the spare, and the service step (R144, R146 to R151, R515 to R517). -/
namespace Sys2Proof.Machine

/-! ### Rows written -/

theorem ArrayInfo.putRow_frame (x : ArrayInfo) (r : Nat) (f : Nat → Bool) : { x.putRow r f with rows := x.rows, wrote := x.wrote } = x := by
  rw [ArrayInfo.putRow]

/-- Writing rows changes cells and the marks of the rows written. -/
theorem ArrayInfo.foldl_rows_frame {α : Type} {f : ArrayInfo → α → ArrayInfo} (hf : ∀ x r, { f x r with rows := x.rows, wrote := x.wrote } = x) (l : List α) (x : ArrayInfo) :
    { l.foldl f x with rows := x.rows, wrote := x.wrote } = x := by
  induction l generalizing x with
  | nil => rfl
  | cons r l ih => exact (congrArg (fun y : ArrayInfo => { y with rows := x.rows, wrote := x.wrote }) (ih (f x r)) :).trans (hf x r)

theorem ArrayInfo.copyFrom_frame (x y : ArrayInfo) : { x.copyFrom y with rows := x.rows, wrote := x.wrote } = x :=
  foldl_rows_frame (fun x r => x.putRow_frame r _) _ x

theorem ArrayInfo.refreshed_keeps (x y : ArrayInfo) (own : Nat → Bool) : (x.refreshed y own).scans = x.scans ∧ (x.refreshed y own).wear = x.wear := by
  have hf (z : ArrayInfo) (r : Nat) : { (if own r then z else z.putRow r fun j => y.cell r j) with rows := z.rows, wrote := z.wrote } = z := by
    split
    · rfl
    · exact z.putRow_frame r _
  unfold ArrayInfo.refreshed
  generalize List.range 1088 = l
  have h := foldl_rows_frame hf l x
  exact ⟨(congrArg ArrayInfo.scans h :), (congrArg ArrayInfo.wear h :)⟩

/-- Wear counts, and leaves cells and scans. -/
theorem ArrayInfo.worn_frame (x : ArrayInfo) (n : Nat) :
    (x.worn n).rows = x.rows ∧ (x.worn n).scans = x.scans ∧ (x.worn n).wear = BitVec.ofNat 24 (min 0xFF_FFFF (x.wear.toNat + n)) := ⟨rfl, rfl, rfl⟩

/-! ### What leaves the arrays and holidays of the core -/

/-- The arrays and holidays of every core, and the tick, stay. -/
structure ArraysKeep (c : CoreId) (s t : State) : Prop where
  arrays : (t.core c).arrays = (s.core c).arrays
  holidays : (t.core c).holidays = (s.core c).holidays
  other : ∀ d, d ≠ c → t.core d = s.core d
  tick : t.tick = s.tick

theorem ArraysKeep.trans {c : CoreId} {s t u : State} (h : ArraysKeep c s t) (k : ArraysKeep c t u) : ArraysKeep c s u :=
  ⟨k.arrays.trans h.arrays, k.holidays.trans h.holidays, fun d hd => (k.other d hd).trans (h.other d hd), k.tick.trans h.tick⟩

theorem ArraysKeep.of_cores (c : CoreId) {s t : State} (h : t.cores = s.cores) (ht : t.tick = s.tick) : ArraysKeep c s t :=
  ⟨congrArg Core.arrays (State.core_of_cores h c), congrArg Core.holidays (State.core_of_cores h c), fun d _ => State.core_of_cores h d, ht⟩

theorem ArraysKeep.refl (c : CoreId) (s : State) : ArraysKeep c s s := .of_cores c rfl rfl

theorem ArraysKeep.ite {c : CoreId} {s t u : State} {p : Prop} [Decidable p] (ht : ArraysKeep c s t) (hu : ArraysKeep c s u) : ArraysKeep c s (if p then t else u) := by
  split
  · exact ht
  · exact hu

theorem ArraysKeep.modCore {c : CoreId} (s : State) {f : Core → Core} (hf : (f (s.core c)).arrays = (s.core c).arrays ∧ (f (s.core c)).holidays = (s.core c).holidays) :
    ArraysKeep c s (s.modCore c f) where
  arrays := by rw [State.core_modCore_same]; exact hf.1
  holidays := by rw [State.core_modCore_same]; exact hf.2
  other _ hd := State.core_modCore_other _ _ _ _ hd
  tick := rfl

theorem ArraysKeep.arrayFault (c : CoreId) (s : State) (p : Nat) : ArraysKeep c s (s.arrayFault c p) :=
  have h := CoreWork.arrayFault c s p
  ⟨(State.arrays_arrayFault c s p).1, (State.arrays_arrayFault c s p).2, h.other, (congrArg State.tick h.frame :)⟩

/-- Reads that are noted set events alone. -/
theorem Core.noteReads_keeps (k : Core) (x : ArrayInfo) (fp4 : Bool) (p : Nat) (rows : List Nat) (faults : List ReadFault) :
    (k.noteReads x fp4 p rows faults).arrays = k.arrays ∧ (k.noteReads x fp4 p rows faults).holidays = k.holidays := by
  unfold Core.noteReads
  dsimp only
  split <;> split <;> exact ⟨rfl, rfl⟩

theorem ArraysKeep.spendReads (c : CoreId) (s : State) (n : Nat) : ArraysKeep c s (s.spendReads c n) := .of_cores c rfl rfl

theorem ArraysKeep.spendWrites (c : CoreId) (s : State) (n : Nat) : ArraysKeep c s (s.spendWrites c n) := .of_cores c rfl rfl

theorem ArraysKeep.arr {c : CoreId} {s t : State} (h : ArraysKeep c s t) (p : Nat) : (t.core c).arr p = (s.core c).arr p := congrArg (smGet arrayDefault · p) h.arrays

/-! ### The start -/

theorem Core.arr_hstate_same (k : Core) (p : Nat) (h : HState) : ((k.hstate p h).arr p).hstate = h := congrArg ArrayInfo.hstate (k.arr_modArr_same p _)

theorem Core.arr_hstate_keeps {k : Core} {q : Nat} {h : HState} (hk : (k.arr q).hstate = h) (p : Nat) : ((k.hstate p h).arr q).hstate = h := by
  by_cases hq : q = p
  · rw [hq]
    exact k.arr_hstate_same p h
  · exact (congrArg ArrayInfo.hstate (k.arr_modArr_other hq _)).trans hk

/-- HOLIDAY_START (R146, R517). -/
theorem holidayStart_starts {c : CoreId} {q : HolidayReq} {s : State} (ha : s.coreActs c = true) (hp : s.tick.phase = .applied) (hl : (s.core c).holidays.length < 16)
    (hq : s.nextHoliday c = some q) :
    (∀ sp, s.spareTest c q = false → s.freeSpare c (quarterOf q.arr) = some sp → ∃ t, exec (.holidayStart c) s = .next t ∧
      (t.core c).holidays = (s.core c).holidays ++ [⟨q.arr, sp, q.prio, q.reason, .reserve⟩] ∧ (t.core c).holidayQueue = (s.core c).holidayQueue.erase q ∧
      ((t.core c).arr sp).hstate = .copy ∧ ((t.core c).arr q.arr).hstate = .copy ∧ (t.core c).arrayMap = (s.core c).arrayMap ∧ (∀ d, d ≠ c → t.core d = s.core d)) ∧
    (s.spareTest c q = true → ∃ t, exec (.holidayStart c) s = .next t ∧
      (t.core c).holidays = (s.core c).holidays ++ [⟨q.arr, q.arr, q.prio, q.reason, .service⟩] ∧ (t.core c).holidayQueue = (s.core c).holidayQueue.erase q ∧
      ((t.core c).arr q.arr).hstate = .service ∧ (∀ d, d ≠ c → t.core d = s.core d)) := by
  have hrun : exec (.holidayStart c) s = execHolidayStart c s := rfl
  unfold execHolidayStart at hrun
  rw [if_neg (by simp [ha, hp, hl]), hq] at hrun
  dsimp only at hrun
  refine ⟨fun sp hn hsp => ?_, fun ht => ?_⟩
  · rw [if_neg (by simp [hn]), hsp] at hrun
    refine ⟨_, hrun, ?_, ?_, ?_, ?_, ?_, fun d hd => State.core_modCore_other _ _ _ _ hd⟩ <;> rw [State.core_modCore_same]
    · rfl
    · rfl
    · exact Core.arr_hstate_same _ _ _
    · exact Core.arr_hstate_keeps (Core.arr_hstate_same _ _ _) _
    · rfl
  · rw [if_pos ht] at hrun
    refine ⟨_, hrun, ?_, ?_, ?_, fun d hd => State.core_modCore_other _ _ _ _ hd⟩ <;> rw [State.core_modCore_same]
    · rfl
    · rfl
    · exact Core.arr_hstate_same _ _ _

/-! ### The copy -/

/-- The spare after the copy holds the rows of the original and has one scan more (R135, R147). -/
theorem State.arr_copyInto (s : State) (c : CoreId) (o : ArrayInfo) (sp : Nat) (e : List RowEdges) :
    (((s.copyInto c o sp e).core c).arr sp).rows = ((((s.core c).arr sp).copyFrom o).worn 1).rows ∧ (((s.copyInto c o sp e).core c).arr sp).scans = ((s.core c).arr sp).scans + 1 := by
  have hscans := congrArg ArrayInfo.scans (((s.core c).arr sp).copyFrom_frame o)
  have hspent : (((s.spendReads c (1088 + scanReads)).spendWrites c 1120).core c).arr sp = (s.core c).arr sp := rfl
  unfold State.copyInto State.putGrade
  dsimp only
  rw [State.arr_modArr_same, State.arr_modArr_same, State.arr_modArr_same, State.arr_modArr_same, hspent]
  generalize ((s.core c).arr sp).copyFrom o = y at hscans ⊢
  exact ⟨rfl, congrArg (· + 1) hscans⟩

/-- HOLIDAY_COPY_DONE (R144, R147 to R149, R152). -/
theorem holidayCopyDone_copies {c : CoreId} {e : List RowEdges} {faults : List ReadFault} {s : State} (ha : s.coreActs c = true) (h : Holiday) (dead : Bool)
    (hf : (s.core c).holidays.find? (fun x => x.orig == h.orig && (x.step == .reserve || x.step == .copy)) = some h) :
    let o := (s.core c).arr h.orig
    let fp4 := s.fp4Of c h.orig
    let noted := s.modCore c fun k => k.noteReads o fp4 h.orig (List.range 1088) faults
    let u := noted.copyInto c o h.spare e
    let y := (u.core c).arr h.spare
    let reads := ∀ r, r < 1088 → o.readable fp4 faults h.orig r = true
    (s.critical c = true → exec (.holidayCopyDone c h.orig ⟨e, faults⟩ dead) s = .next (s.modCore c fun k => k.marginEvent 4)) ∧
    (s.critical c = false → ¬ reads → exec (.holidayCopyDone c h.orig ⟨e, faults⟩ dead) s = .next ((noted.arrayFault c h.orig).abandon c h)) ∧
    (s.critical c = false → reads →
      y.rows = ((((s.core c).arr h.spare).copyFrom o).worn 1).rows ∧ y.scans = ((s.core c).arr h.spare).scans + 1 ∧ (∀ d, d ≠ c → u.core d = s.core d) ∧
      (dead = false ∧ o.grade.rank ≤ y.recorded.rank →
        exec (.holidayCopyDone c h.orig ⟨e, faults⟩ dead) s = .next (u.modCore c fun k => k.holidayStep h.orig fun x => { x with step := .checked })) ∧
      (dead = true ∨ y.recorded.rank < o.grade.rank → exec (.holidayCopyDone c h.orig ⟨e, faults⟩ dead) s = .next (u.failSpare c h))) := by
  intro o fp4 noted u y reads
  have hrun : exec (.holidayCopyDone c h.orig ⟨e, faults⟩ dead) s = execHolidayCopyDone c h.orig ⟨e, faults⟩ dead s := rfl
  unfold execHolidayCopyDone at hrun
  rw [hf] at hrun
  dsimp only at hrun
  rw [if_neg (by simp [ha])] at hrun
  refine ⟨fun hc => hrun.trans (if_pos hc), fun hc hr => ?_, fun hc hr => ?_⟩
  · rw [if_neg (by simp [hc]), if_pos] at hrun
    · exact hrun
    · obtain ⟨r, hr⟩ := not_forall.1 hr
      obtain ⟨hlt, hr⟩ := Classical.not_imp.1 hr
      exact List.any_eq_true.2 ⟨r, List.mem_range.2 hlt, by simpa using hr⟩
  · have hread : ((List.range 1088).any fun i => !o.readable fp4 faults h.orig i) = false :=
      List.any_eq_false.2 fun r hm => by simp [hr r (List.mem_range.1 hm)]
    rw [if_neg (by simp [hc]), if_neg (by exact (Bool.not_eq_true _).mpr hread)] at hrun
    have hnoted : ArraysKeep c s noted := .modCore s (Core.noteReads_keeps _ _ _ _ _ _)
    obtain ⟨hrows, hscans⟩ := noted.arr_copyInto c o h.spare e
    rw [hnoted.arr] at hrows hscans
    have hother : ∀ d, d ≠ c → u.core d = s.core d := fun d hd => ((CoreWork.copyInto c noted o h.spare e).other d hd).trans (hnoted.other d hd)
    refine ⟨hrows, hscans, hother, fun hg => hrun.trans (if_pos ?_), fun hg => hrun.trans (if_neg ?_)⟩
    · exact Bool.and_eq_true_iff.2 ⟨by simp [hg.1], decide_eq_true hg.2⟩
    · intro hb
      obtain ⟨hdead, hrank⟩ := Bool.and_eq_true_iff.1 hb
      rcases hg with hg | hg
      · simp [hg] at hdead
      · exact absurd (of_decide_eq_true hrank) (Nat.not_le.2 hg)

/-! ### The service -/

/-- The original array after its service, with the converters that a full calibration retires (R150, R515, R516). -/
def ArrayInfo.serviced (x sp : ArrayInfo) (reason : Nat) (own : Nat → Bool) (cal : List ConvCal) : ArrayInfo :=
  let y := serveArray reason own x sp
  if decide (reason = 5 ∨ reason = 6) then { y with retired := (cal.filter ConvCal.bad).foldl (fun l x => addNew l x.conv) y.retired } else y

theorem ArrayInfo.scans_serviced (x sp : ArrayInfo) (reason : Nat) (own : Nat → Bool) (cal : List ConvCal) : (x.serviced sp reason own cal).scans = x.scans := by
  have h : (serveArray reason own x sp).scans = x.scans := by
    unfold serveArray
    split
    · rw [(ArrayInfo.worn_frame _ 2).2.1]
    · split
      · rw [(ArrayInfo.worn_frame _ 1).2.1, (x.refreshed_keeps sp own).1]
      · rfl
  unfold ArrayInfo.serviced
  dsimp only
  split
  · exact h
  · exact h

theorem ArrayInfo.serviced_refreshed (x sp : ArrayInfo) {reason : Nat} (h : reason ≤ 4) (own : Nat → Bool) (cal : List ConvCal) :
    x.serviced sp reason own cal = (x.refreshed sp own).worn 1 := by
  have hserve : serveArray reason own x sp = (x.refreshed sp own).worn 1 := by
    unfold serveArray
    rw [if_neg (by omega), if_pos h]
  unfold ArrayInfo.serviced
  rw [hserve]
  exact if_neg (by simp; omega)

theorem ArrayInfo.serviced_calibrated (x sp : ArrayInfo) {reason : Nat} (h : reason = 5 ∨ reason = 6) (own : Nat → Bool) (cal : List ConvCal) :
    x.serviced sp reason own cal = { x with retired := (cal.filter ConvCal.bad).foldl (fun l x => addNew l x.conv) x.retired } := by
  have hserve : serveArray reason own x sp = x := by
    unfold serveArray
    rw [if_neg (by omega), if_neg (by omega)]
  unfold ArrayInfo.serviced
  rw [hserve]
  exact if_pos (decide_eq_true h)

theorem mem_foldl_addNew {α β : Type} [DecidableEq β] (f : α → β) (l : List α) (acc : List β) (y : β) : y ∈ l.foldl (fun a x => addNew a (f x)) acc ↔ y ∈ acc ∨ ∃ x ∈ l, y = f x := by
  induction l generalizing acc with
  | nil => simp
  | cons x l ih =>
    rw [List.foldl_cons, ih, mem_addNew]
    simp [or_assoc]

/-- The state before the original array is served: events, faults, trims and energy. -/
theorem holidayServiceDone_begins {c : CoreId} {e : List RowEdges} {faults : List ReadFault} {s : State} (ha : s.coreActs c = true) (h : Holiday) (cal : List ConvCal)
    (hf : (s.core c).holidays.find? (fun x => x.orig == h.orig && x.step == .service) = some h) (hw : h.reason = 5 ∨ h.reason = 6 ∨ s.critical c = false) :
    ∃ u, ArraysKeep c s u ∧ (h.reason = 5 ∨ h.reason = 6 → u.pow.convNext = s.pow.convNext ++ calTrims c h.orig cal) ∧
      exec (.holidayServiceDone c h.orig ⟨e, faults⟩ cal) s = .next (((u.modArr c h.orig fun x =>
        x.serviced ((s.core c).arr h.spare) h.reason (((s.core c).arr h.orig).readable (s.fp4Of c h.spare) faults h.orig) cal).scanArray c h.orig e).modCore c fun k =>
          k.holidayStep h.orig fun x => { x with step := .regraded }) := by
  have hrun : exec (.holidayServiceDone c h.orig ⟨e, faults⟩ cal) s = execHolidayServiceDone c h.orig ⟨e, faults⟩ cal s := rfl
  unfold execHolidayServiceDone at hrun
  rw [hf] at hrun
  dsimp only at hrun
  rw [if_neg (by simp [ha]), if_neg (by
    intro hb
    obtain ⟨hc, hwr⟩ := Bool.and_eq_true_iff.1 hb
    obtain ⟨h5, h6⟩ := of_decide_eq_true hwr
    rcases hw with hw | hw | hw
    · exact h5 hw
    · exact h6 hw
    · exact absurd (hc.symm.trans hw) (by decide))] at hrun
  generalize (if h.reason ≤ 4 then (List.range 1088).filter fun r => !((s.core c).arr h.orig).readable (s.fp4Of c h.spare) faults h.orig r else []) = fails at hrun
  have h1 : ArraysKeep c s (if h.reason ≤ 4 then s.modCore c fun k => (k.noteReads ((s.core c).arr h.orig) (s.fp4Of c h.spare) h.orig (List.range 1088) faults).noteReads
      ((s.core c).arr h.spare) (s.fp4Of c h.spare) h.spare fails faults else s) := by
    refine .ite (.modCore s ?_) (.refl c s)
    have ha := Core.noteReads_keeps (s.core c) ((s.core c).arr h.orig) (s.fp4Of c h.spare) h.orig (List.range 1088) faults
    have hb := Core.noteReads_keeps ((s.core c).noteReads ((s.core c).arr h.orig) (s.fp4Of c h.spare) h.orig (List.range 1088) faults) ((s.core c).arr h.spare) (s.fp4Of c h.spare) h.spare fails faults
    exact ⟨hb.1.trans ha.1, hb.2.trans ha.2⟩
  have hp1 : (if h.reason ≤ 4 then s.modCore c fun k => (k.noteReads ((s.core c).arr h.orig) (s.fp4Of c h.spare) h.orig (List.range 1088) faults).noteReads
      ((s.core c).arr h.spare) (s.fp4Of c h.spare) h.spare fails faults else s).pow = s.pow := by split <;> rfl
  generalize (if h.reason ≤ 4 then s.modCore c fun k => (k.noteReads ((s.core c).arr h.orig) (s.fp4Of c h.spare) h.orig (List.range 1088) faults).noteReads
    ((s.core c).arr h.spare) (s.fp4Of c h.spare) h.spare fails faults else s) = s1 at hrun h1 hp1
  generalize (fails.any fun r => !((s.core c).arr h.spare).readable (s.fp4Of c h.spare) faults h.spare r) = lost at hrun
  have h2 : ArraysKeep c s1 (if lost then s1.arrayFault c h.spare else s1) := .ite (.arrayFault c s1 _) (.refl c s1)
  have hp2 : (if lost then s1.arrayFault c h.spare else s1).pow = s1.pow := by
    split
    · exact (congrArg State.pow (CoreWork.arrayFault c s1 h.spare).frame :)
    · rfl
  generalize (if lost then s1.arrayFault c h.spare else s1) = s2 at hrun h2 hp2
  have hbegun := h1.trans h2
  have hpow := hp2.trans hp1
  refine ⟨_, ?_, ?_, hrun⟩
  · refine hbegun.trans (.trans (t := if decide (h.reason = 5 ∨ h.reason = 6) then { s2 with pow := { s2.pow with convNext := s2.pow.convNext ++ calTrims c h.orig cal } } else s2) ?_ ?_)
    · exact .ite (.of_cores c rfl rfl) (.refl c s2)
    · exact .ite ((ArraysKeep.spendReads c _ _).trans (.spendWrites c _ _)) (.ite (.spendWrites c _ _) (.refl c _))
  · intro hfull
    rw [if_neg (show ¬ h.reason ≤ 4 by omega), if_neg (show ¬ h.reason = 7 by omega), if_pos (decide_eq_true hfull), hpow]

/-- HOLIDAY_SERVICE_DONE (R144, R147, R150, R151, R515). -/
theorem holidayServiceDone_serves {c : CoreId} {e : List RowEdges} {faults : List ReadFault} {s : State} (ha : s.coreActs c = true) (h : Holiday) (cal : List ConvCal)
    (hf : (s.core c).holidays.find? (fun x => x.orig == h.orig && x.step == .service) = some h) (hw : h.reason = 5 ∨ h.reason = 6 ∨ s.critical c = false) :
    let o := (s.core c).arr h.orig
    let sp := (s.core c).arr h.spare
    ∃ t, exec (.holidayServiceDone c h.orig ⟨e, faults⟩ cal) s = .next t ∧
      ((t.core c).arr h.orig).mLast = windowM (edgesOf o.scans e) ∧ ((t.core c).arr h.orig).scans = o.scans + 1 ∧
      (∀ x ∈ (t.core c).holidays, x.orig = h.orig → x.step = .regraded) ∧
      (h.reason = 5 ∨ h.reason = 6 → ((t.core c).arr h.orig).rows = o.rows ∧ t.pow.convNext = s.pow.convNext ++ calTrims c h.orig cal ∧
        (∀ x ∈ cal, ConvCal.bad x = true → x.conv ∈ ((t.core c).arr h.orig).retired)) ∧
      (h.reason ≤ 4 → ((t.core c).arr h.orig).rows = (o.refreshed sp (o.readable (s.fp4Of c h.spare) faults h.orig)).rows ∧
        ((t.core c).arr h.orig).wear = BitVec.ofNat 24 (min 0xFF_FFFF (o.wear.toNat + 1))) ∧
      (∀ d, d ≠ c → t.core d = s.core d) := by
  intro o sp
  obtain ⟨u, hkeep, htrims, hrun⟩ := holidayServiceDone_begins (e := e) (faults := faults) ha h cal hf hw
  generalize hown : o.readable (s.fp4Of c h.spare) faults h.orig = own at hrun
  have hserved := u.arr_modArr_same c h.orig fun x => x.serviced sp h.reason own cal
  rw [hkeep.arr] at hserved
  have hwork := (CoreWork.modArr c u h.orig fun x => x.serviced sp h.reason own cal).trans (.scanArray c _ h.orig e)
  obtain ⟨-, -, b, ng, cr, hscan⟩ := (u.modArr c h.orig fun x => x.serviced sp h.reason own cal).scanArray_spec c h.orig e
  unfold State.scannedArr at hscan
  rw [hserved] at hscan
  generalize (u.modArr c h.orig fun x => x.serviced sp h.reason own cal).scanArray c h.orig e = v at hrun hscan hwork
  have hlast := v.core_modCore_same c fun k => k.holidayStep h.orig fun x => { x with step := .regraded }
  have harr : (((v.modCore c fun k => k.holidayStep h.orig fun x => { x with step := .regraded }).core c).arr h.orig) = (v.core c).arr h.orig :=
    (congrArg (fun k : Core => k.arr h.orig) hlast).trans rfl
  rw [hscan] at harr
  have hrows := (congrArg ArrayInfo.rows harr).trans (c := (o.serviced sp h.reason own cal).rows) rfl
  have hret := (congrArg ArrayInfo.retired harr).trans (c := (o.serviced sp h.reason own cal).retired) rfl
  have hwear := (congrArg ArrayInfo.wear harr).trans (c := (o.serviced sp h.reason own cal).wear) rfl
  have hscans := o.scans_serviced sp h.reason own cal
  have hmarked : ∀ x ∈ ((v.modCore c fun k => k.holidayStep h.orig fun x => { x with step := .regraded }).core c).holidays, x.orig = h.orig → x.step = .regraded := by
    intro x hx ho
    rw [hlast] at hx
    obtain ⟨y, -, rfl⟩ := List.mem_map.1 hx
    by_cases hy : y.orig == h.orig
    · rw [if_pos hy]
    · rw [if_neg hy] at ho
      exact absurd (beq_iff_eq.2 ho) hy
  have hpow : v.pow = u.pow := (congrArg State.pow hwork.frame :)
  refine ⟨_, hrun, ?_, ?_, hmarked, fun hfull => ⟨?_, (congrArg Power.convNext hpow).trans (htrims hfull), fun x hx hb => ?_⟩, fun hr => ⟨?_, ?_⟩,
    fun d hd => (State.core_modCore_other _ _ _ _ hd).trans ((hwork.other d hd).trans (hkeep.other d hd))⟩
  · refine (congrArg ArrayInfo.mLast harr).trans ?_
    show windowM (edgesOf (o.serviced sp h.reason own cal).scans e) = _
    rw [hscans]
  · exact (congrArg ArrayInfo.scans harr).trans (congrArg (· + 1) hscans)
  · exact hrows.trans (congrArg ArrayInfo.rows (o.serviced_calibrated sp hfull own cal) :)
  · rw [hret, o.serviced_calibrated sp hfull own cal]
    exact (mem_foldl_addNew ConvCal.conv _ _ _).2 (.inr ⟨x, List.mem_filter.2 ⟨hx, hb⟩, rfl⟩)
  · rw [hrows, o.serviced_refreshed sp hr own cal, (ArrayInfo.worn_frame _ 1).1, ← hown]
  · rw [hwear, o.serviced_refreshed sp hr own cal, (ArrayInfo.worn_frame _ 1).2.2, (o.refreshed_keeps sp own).2]

/-- The Critical band suspends the writes of a service (R144, R152). -/
theorem holidayServiceDone_suspended {c : CoreId} {e : List RowEdges} {faults : List ReadFault} {s : State} (ha : s.coreActs c = true) (h : Holiday) (cal : List ConvCal)
    (hf : (s.core c).holidays.find? (fun x => x.orig == h.orig && x.step == .service) = some h) (h5 : h.reason ≠ 5) (h6 : h.reason ≠ 6) (hc : s.critical c = true) :
    exec (.holidayServiceDone c h.orig ⟨e, faults⟩ cal) s = .next (s.modCore c fun k => k.marginEvent 4) := by
  have hrun : exec (.holidayServiceDone c h.orig ⟨e, faults⟩ cal) s = execHolidayServiceDone c h.orig ⟨e, faults⟩ cal s := rfl
  unfold execHolidayServiceDone at hrun
  rw [hf] at hrun
  dsimp only at hrun
  rw [if_neg (by simp [ha]), if_pos (by rw [hc]; exact decide_eq_true ⟨h5, h6⟩)] at hrun
  exact hrun

/-- Settles O52: a holiday starts, copies and serves by the steps of R147. -/
theorem holidays : Obligations.Holidays := by
  intro c e faults s ha k
  exact ⟨fun q hp hl hq => holidayStart_starts ha hp hl hq, fun h dead hf => holidayCopyDone_copies ha h dead hf,
    fun h cal hf => ⟨fun h5 h6 hc => holidayServiceDone_suspended ha h cal hf h5 h6 hc, fun hw => holidayServiceDone_serves ha h cal hf hw⟩⟩

end Sys2Proof.Machine
end

section
/-! Scrubbing, the links inside the package, and the fabric links (R15, R17, R24, R36, R299 to R305, R408 to R412, R451). -/
namespace Sys2Proof.Machine

/-! ### Ports of the in-package links -/

/-- A port leads to another die, which has a port back (R13, R274). -/
theorem portDies_neighbour : ∀ d : Fin 32, ∀ p, p < (portDies d.val).length → p < 6 ∧ nth d.val (portDies d.val) p < 32 ∧ nth d.val (portDies d.val) p ≠ d.val ∧
    portTo (nth d.val (portDies d.val) p) d.val < 6 := by
  have h : ∀ d : Fin 32, (portDies d.val).length ≤ 6 ∧ ∀ p : Fin 6, p.val < (portDies d.val).length → nth d.val (portDies d.val) p.val < 32 ∧
    nth d.val (portDies d.val) p.val ≠ d.val ∧ portTo (nth d.val (portDies d.val) p.val) d.val < 6 := by decide +kernel
  intro d p hp
  have hlt : p < 6 := Nat.lt_of_lt_of_le hp (h d).1
  exact ⟨hlt, (h d).2 ⟨p, hlt⟩ hp⟩

/-- Port p of a die in state v. -/
def Die.putPort (x : Die) (p v : Nat) : Die := { x with portState := ((List.range 6).map fun j => nth 0 x.portState j).set p v }

theorem Die.nth_putPort (x : Die) {p : Nat} (v : Nat) (h : p < 6) : nth 9 (x.putPort p v).portState p = v := nth_set_same _ _ _ _ (by simpa using h)

theorem State.setPort_eq (s : State) (d : DieId) (p v : Nat) : s.setPort d p v =
    (s.modDie d fun x => x.putPort p v).modDie (asDie (nth d.val (portDies d.val) p)) fun x => x.putPort (portTo (asDie (nth d.val (portDies d.val) p)).val d.val) v := rfl

/-- A link's state stands at both ends (R299). -/
theorem State.portState_setPort (s : State) (d : DieId) {p : Nat} (v : Nat) (hp : p < (portDies d.val).length) :
    nth 9 ((s.setPort d p v).die d).portState p = v ∧
    nth 9 ((s.setPort d p v).die (asDie (nth d.val (portDies d.val) p))).portState (portTo (nth d.val (portDies d.val) p) d.val) = v := by
  obtain ⟨h6, hlt, hne, hback⟩ := portDies_neighbour d p hp
  have hval : (asDie (nth d.val (portDies d.val) p)).val = nth d.val (portDies d.val) p := Nat.mod_eq_of_lt hlt
  have hother : d ≠ asDie (nth d.val (portDies d.val) p) := fun h => hne (hval.symm.trans (congrArg Fin.val h).symm)
  rw [State.setPort_eq, State.die_modDie_same]
  constructor
  · have h : ((s.modDie d fun x => x.putPort p v).modDie (asDie (nth d.val (portDies d.val) p)) fun x => x.putPort (portTo (asDie (nth d.val (portDies d.val) p)).val d.val) v).die d =
        (s.modDie d fun x => x.putPort p v).die d := State.die_setDie_other _ _ _ _ hother
    rw [h, State.die_modDie_same]
    exact Die.nth_putPort _ v h6
  · rw [← hval] at hback
    exact (congrArg (nth 9 _) (congrArg (portTo · d.val) hval.symm)).trans (Die.nth_putPort _ v hback)

/-! ### Scrubbing -/

theorem scrub_bad {d : DieId} {c : CoreId} {a : Nat} {s : State} (hd : dieOf c = d) (hm : s.fuses.coreMap.getLsbD c.val = true) (hb : s.fuses.bad = false) :
    ∃ k', exec (.scrub d (.store c a) true) s = .next (s.setCore c k') ∧
      { k' with badStore := (s.core c).badStore } = s.core c ∧ (∀ x, x ∈ k'.badStore ↔ x ∈ (s.core c).badStore ∨ x = a / 16) :=
  ⟨_, if_neg (by simp [hd, State.good, hm, hb]), rfl, fun x => mem_addNew _ _ x⟩

/-- A page that loses a word of DRAM is lost (R333). -/
theorem State.losePage_lost (s : State) (d r l i : Nat) : (((s.losePage d r l i).sd d).page r l i).lost = true ∧ ((s.losePage d r l i).sd d).attnEvt.getLsbD 6 = true ∧
    ((s.losePage d r l i).sd d).dram = (s.sd d).dram ∧ { s.losePage d r l i with serve := s.serve } = s := by
  have h : (s.losePage d r l i).sd d = ((s.sd d).setPage r l i { (s.sd d).page r l i with lost := true }).attnBit 6 := (s.sd_modSd d d _).trans (if_pos rfl)
  rw [h]
  refine ⟨?_, (getLsbD_setBit _ _ _).trans (by simp), rfl, rfl⟩
  exact congrArg PageEnt.lost (smGet_smSet_same pageDefault _ _ _)

theorem dramScrub_loses {sv : ServeId} {a : Nat} {s : State} (h0 : s.power = 0) (g : Nat × Nat × Nat) (hg : s.pageAt sv.val a = some g) :
    ∃ t, exec (.dramScrub sv a true) s = .next t ∧ ((t.sd sv.val).page g.1 g.2.1 g.2.2).lost = true ∧ (t.sd sv.val).attnEvt.getLsbD 6 = true ∧
      (t.sd sv.val).dram = (s.sd sv.val).dram ∧ { t with serve := s.serve } = s := by
  have hrun : exec (.dramScrub sv a true) s = execDramScrub sv a true s := rfl
  unfold execDramScrub at hrun
  rw [if_neg (by simp [h0]), hg] at hrun
  exact ⟨_, hrun, s.losePage_lost _ _ _ _⟩

theorem linkDegrade_degrades {d : DieId} {p : Fin 6} {s : State} (down : Bool) (h0 : s.power = 0) (hp : p.val < (portDies d.val).length)
    (hup : nth 0 (s.die d).portState p.val = 2 ∨ (nth 0 (s.die d).portState p.val = 1 ∧ down = true)) :
    exec (.linkDegrade d p down) s = .next (if s.usesLink (16 * d.val + p.val) then (s.setPort d p.val (if down then 0 else 1)).packageFault 0
      else s.setPort d p.val (if down then 0 else 1)) := by
  have hd : asDie d.val = d := Fin.ext (Nat.mod_eq_of_lt d.isLt)
  refine if_pos ⟨h0, hp, ?_, ?_⟩
  · unfold State.portUp
    rw [hd]
    rcases hup with h | ⟨h, -⟩ <;> simp [h]
  · rcases hup with h | ⟨-, h⟩
    · exact .inr h
    · exact .inl h

/-- Settles O31: scrubs mark their word, trainings both ends of their link. -/
theorem scrubAndLinks : Obligations.ScrubAndLinks := by
  intro d p c a sv w s up
  refine ⟨rfl, fun hd hm hb => scrub_bad hd hm hb, fun g h0 hg => dramScrub_loses h0 g hg, fun r h0 hp hphy => ?_, fun down h0 hp hup => linkDegrade_degrades down h0 hp hup⟩
  obtain ⟨hown, hfar⟩ := s.portState_setPort d (match r with | .x64 => 2 | .x32 => 1 | .down => 0) hp
  exact ⟨_, if_pos ⟨h0, hp, hphy⟩, hown, hfar, rfl⟩

/-! ### Fabric links -/

theorem State.flink_setLink (s : State) (k v j : Nat) : (s.setLink k v).flink j = if j = k then v else s.flink j := smGet_smSet ..

theorem State.flink_of_fab {s t : State} (h : t.fab = s.fab) (j : Nat) : t.flink j = s.flink j := congrArg (fun f : Fabric => smGet (fun _ => 0) f.link j) h

/-- The loss of lanes or of a link touches its state alone of the fabric's block (R408, R451). -/
theorem State.linkLoss_fab (s : State) (k v : Nat) : (s.linkLoss k v).fab = if s.flink k ∈ [1, 2] then (s.setLink k v).fab else s.fab := by
  unfold State.linkLoss
  dsimp only
  split
  · split
    · exact State.packageFault_fab _ _
    · rfl
  · rfl

/-- Links of one optical die taken down in turn. -/
theorem State.flink_foldl_setLink (f : Nat → Nat) (l : List Nat) (s : State) (j : Nat) :
    (l.foldl (fun s i => s.setLink (f i) 0) s).flink j = if ∃ i ∈ l, j = f i then 0 else s.flink j := by
  induction l generalizing s with
  | nil => simp
  | cons i l ih =>
    rw [List.foldl_cons, ih, State.flink_setLink]
    by_cases hj : j = f i
    · simp [hj]
    · simp [hj]

theorem State.foldl_setLink_frame (f : Nat → Nat) (l : List Nat) (s : State) :
    { l.foldl (fun s i => s.setLink (f i) 0) s with fab := s.fab } = s ∧ (l.foldl (fun s i => s.setLink (f i) 0) s).fab.optFailed = s.fab.optFailed :=
  ⟨foldl_keeps (f := fun (s : State) i => s.setLink (f i) 0) (fun u => { u with fab := s.fab }) (fun _ _ => rfl) l s,
    foldl_keeps (f := fun (s : State) i => s.setLink (f i) 0) (fun u => u.fab.optFailed) (fun _ _ => rfl) l s⟩

/-- The package with an optical die that has failed. -/
def State.opticFailed (s : State) (o : Nat) : State := { s with fab := { s.fab with optFailed := s.fab.optFailed ++ [o] } }

/-- FABRIC_LINK_TRAINING (R409 to R412, R455). -/
theorem fabricLinkTraining_trains {k : Fin 32} {p : Peer} {r : LaneResult} {s : State} (h0 : s.power = 0) (hl : s.fab.launch = true) (hpr : s.fab.present = true)
    (hrack : s.fab.rack ≠ 1023) (ho : k.val % 4 ∉ s.fab.optFailed) :
    let fresh := { s with fab := { s.fab with eyeOff := s.fab.eyeOff.filter fun e => e ≠ (k.val % 4, k.val / 4) } }
    let train := exec (.fabricLinkTraining k r (some p)) s
    (r = .down → train = .next (fresh.setLink k.val 0)) ∧
      (r ≠ .down → p.addr ≠ s.addr → s.peerOk k.val p = true → ∃ t, train = .next t ∧ t.flink k.val = (if r = .lanes8 then 2 else 1) ∧
        smGet (fun _ => 0) t.fab.peers k.val = p.addr.toNat ∧ (∀ j, j ≠ k.val → t.flink j = s.flink j) ∧ { t with fab := s.fab } = s) ∧
      (r ≠ .down → p.addr ≠ s.addr → s.peerOk k.val p = false → train = .next ((fresh.setLink k.val 0).grpBit 0)) ∧
      (r ≠ .down → p.addr = s.addr → train = .next ((fresh.setLink k.val 0).grpBit 1)) := by
  intro fresh train
  have hgo : (s.power ≠ 0 || !s.fab.launch || !s.fab.present || s.fab.rack == 1023 || s.fab.optFailed.contains (k.val % 4)) = false := by
    simp only [h0, hl, hpr, beq_eq_false_iff_ne.2 hrack, List.contains_eq_mem, decide_eq_false ho]
    decide
  have hrun : train = execFabricLinkTraining k r (some p) s := rfl
  unfold execFabricLinkTraining at hrun
  rw [if_neg (by rw [hgo]; decide)] at hrun
  have hup (hr : r ≠ .down) : train = if p.addr = s.addr then .next ((fresh.setLink k.val 0).grpBit 1)
      else if !s.peerOk k.val p then .next ((fresh.setLink k.val 0).grpBit 0)
      else .next ({ fresh with fab := { fresh.fab with peers := smSet (fun _ => 0) s.fab.peers k.val p.addr.toNat } }.setLink k.val (if r = LaneResult.lanes8 then 2 else 1)) := by
    cases r with
    | down => exact absurd rfl hr
    | lanes8 => exact hrun
    | lanes4 => exact hrun
  refine ⟨fun hr => ?_, fun hr ha hok => ?_, fun hr ha hok => ?_, fun hr ha => (hup hr).trans (if_pos ha)⟩
  · subst hr
    exact hrun
  · refine ⟨_, (hup hr).trans ((if_neg ha).trans (if_neg (by simp [hok]))), (State.flink_setLink _ _ _ _).trans (if_pos rfl), smGet_smSet_same _ _ _ _, fun j hj => ?_, rfl⟩
    exact (State.flink_setLink _ _ _ _).trans (if_neg hj)
  · exact (hup hr).trans ((if_neg ha).trans (if_pos (by simp [hok])))

theorem opticalDieFail_fails {o : Fin 4} {s : State} (h0 : s.power = 0) (ho : o.val ∉ s.fab.optFailed) (h2 : o ≠ 2) :
    ∃ t, exec (.opticalDieFail o) s = .next t ∧ o.val ∈ t.fab.optFailed ∧ (∀ j, j < 8 → t.flink (4 * j + o.val) = 0) ∧
      (∀ j, j % 4 ≠ o.val → t.flink j = s.flink j) ∧ t.grp.fault = true ∧ t.cores = s.cores ∧ t.tick = s.tick := by
  have hrun : exec (.opticalDieFail o) s = .next (((List.range 8).foldl (fun (s : State) j => s.setLink (4 * j + o.val) 0) (s.opticFailed o.val)).packageFault 0) := (if_neg (by simp [h0, ho])).trans (if_neg h2)
  have hlink := State.flink_foldl_setLink (fun j => 4 * j + o.val) (List.range 8) (s.opticFailed o.val)
  obtain ⟨hframe, hopt⟩ := State.foldl_setLink_frame (fun j => 4 * j + o.val) (List.range 8) (s.opticFailed o.val)
  generalize (List.range 8).foldl (fun (s : State) j => s.setLink (4 * j + o.val) 0) (s.opticFailed o.val) = u at hrun hlink hframe hopt
  have hfab := State.packageFault_fab u 0
  refine ⟨_, hrun, ?_, fun j hj => ?_, fun j hj => ?_, congrArg (·.fault) (State.packageFault_grp u 0), ?_, ?_⟩
  · rw [hfab, hopt]
    exact List.mem_append_right _ (List.mem_singleton.2 rfl)
  · rw [State.flink_of_fab hfab, hlink, if_pos ⟨j, List.mem_range.2 hj, rfl⟩]
  · rw [State.flink_of_fab hfab, hlink, if_neg]
    · rfl
    · rintro ⟨i, -, hi⟩
      omega
  · rw [State.packageFault_cores]
    exact (congrArg State.cores hframe :)
  · rw [State.packageFault_tick]
    exact (congrArg State.tick hframe :)

/-- The failure of the timing die begins a holdover (R36). -/
theorem opticalDieFail_holdover {s : State} (h0 : s.power = 0) (ho : 2 ∉ s.fab.optFailed) :
    ∃ t, exec (.opticalDieFail 2) s = .next t ∧ t.fab.holdover = true ∧ t.fab.lock = (s.fab.lock && s.fab.holdover) := by
  have hrun : exec (.opticalDieFail 2) s = .next ((List.range 8).foldl (fun (s : State) j => s.linkLoss (4 * j + 2) 0) (s.opticFailed 2)).enterHoldover := (if_neg (by simp [h0, ho])).trans (if_pos rfl)
  have hkeep := foldl_keeps (f := fun (s : State) j => s.linkLoss (4 * j + 2) 0) (fun u => (u.fab.holdover, u.fab.lock))
    (fun s j => by rw [State.linkLoss_fab]; split <;> rfl) (List.range 8) (s.opticFailed 2)
  generalize (List.range 8).foldl (fun (s : State) j => s.linkLoss (4 * j + 2) 0) (s.opticFailed 2) = u at hrun hkeep
  obtain ⟨hhold, hlock⟩ := Prod.mk.inj hkeep
  refine ⟨_, hrun, ?_⟩
  unfold State.enterHoldover
  split
  case isTrue h =>
    have hs : s.fab.holdover = true := hhold.symm.trans h
    exact ⟨h, hlock.trans (by rw [hs, Bool.and_true]; rfl)⟩
  case isFalse h =>
    have hs : s.fab.holdover = false := hhold.symm.trans (by simpa using h)
    exact ⟨rfl, by rw [hs, Bool.and_false]⟩

theorem eyeSafetyDisable_disables {o : Fin 4} {port : Nat} {s : State} (h0 : s.power = 0) (hp : port < 8) :
    ∃ t, exec (.eyeSafetyDisable o port) s = .next t ∧ (o.val, port) ∈ t.fab.eyeOff ∧ (s.flink (4 * port + o.val) ≤ 2 → t.flink (4 * port + o.val) = 0) := by
  have hrun : exec (.eyeSafetyDisable o port) s = _ := if_neg (by
    rw [h0, decide_eq_false (show ¬ 9 ≤ port by omega), decide_eq_false (show ¬ port = 8 by omega), Bool.false_and]
    decide)
  rw [if_pos hp] at hrun
  have hmem : (o.val, port) ∈ addNew s.fab.eyeOff (o.val, port) := (mem_addNew _ _ _).2 (.inr rfl)
  refine ⟨_, hrun, ?_, fun hle => ?_⟩
  · rw [State.linkLoss_fab]
    split <;> exact hmem
  · have hloss := State.linkLoss_fab { s with fab := { s.fab with eyeOff := addNew s.fab.eyeOff (o.val, port) } } (4 * port + o.val) 0
    generalize { s with fab := { s.fab with eyeOff := addNew s.fab.eyeOff (o.val, port) } }.linkLoss (4 * port + o.val) 0 = t at hloss ⊢
    have hsame : State.flink { s with fab := { s.fab with eyeOff := addNew s.fab.eyeOff (o.val, port) } } (4 * port + o.val) = s.flink (4 * port + o.val) := rfl
    rw [hsame] at hloss
    by_cases hup : s.flink (4 * port + o.val) ∈ [1, 2]
    · rw [if_pos hup] at hloss
      exact (State.flink_of_fab hloss _).trans ((State.flink_setLink _ _ _ _).trans (if_pos rfl))
    · rw [if_neg hup] at hloss
      refine (State.flink_of_fab hloss _).trans (hsame.trans ?_)
      simp only [List.mem_cons, List.not_mem_nil, or_false] at hup
      omega

/-- Settles O32: trainings and losses set the links' states. -/
theorem fabricLinks : Obligations.FabricLinks := by
  intro k p r four o port s fresh train h0
  refine ⟨fun hl hpr hrack ho => fabricLinkTraining_trains h0 hl hpr hrack ho, fun hk hu => ?_, fun hp ho hnew => ?_, eyeSafetyDisable_disables h0, opticalDieFail_fails h0, opticalDieFail_holdover h0⟩
  · have hrun : exec (.fabricLaneFail k four) s = .next (s.linkLoss k.val (if four then 1 else 0)) := if_neg (by simp [h0])
    unfold State.linkLoss at hrun
    rw [if_pos (by simp [hk]), hu] at hrun
    exact hrun
  · subst hp
    refine (if_neg (by simp [h0, ho])).trans ?_
    rw [if_neg (by decide), show addNew s.fab.eyeOff (o.val, 8) = _ from if_neg hnew]

end Sys2Proof.Machine
end

section
/-! Image loads: the commands of the reader, the sections, and the phases (R390 to R404). -/
namespace Sys2Proof.Machine

/-! ### What the load's messages and answers leave -/

/-- Taking a command in hand touches the rings alone. -/
theorem State.begins_frame (s : State) (h : HostCmd) (op : Nat) : { s.begins h op with rings := s.rings } = s := by
  unfold State.begins
  dsimp only
  split <;> rfl

theorem State.load_begins (s : State) (h : HostCmd) (op : Nat) : (s.begins h op).load = s.load := (congrArg State.load (s.begins_frame h op) :)

/-- Messages sent touch the fabric's block alone. -/
theorem State.sendFrames_fab (s : State) (l : List OutFrame) : { s.sendFrames l with fab := s.fab } = s := by
  unfold State.sendFrames
  split <;> rfl

/-- Two states that differ in the rings, the fabric and the load alone. -/
structure LoadOnly (s t : State) : Prop where
  frame : { t with rings := s.rings, fab := s.fab, load := s.load } = s

theorem LoadOnly.refl (s : State) : LoadOnly s s := ⟨rfl⟩

theorem LoadOnly.trans {s t u : State} (h : LoadOnly s t) (k : LoadOnly t u) : LoadOnly s u :=
  ⟨(congrArg (fun v : State => { v with rings := s.rings, fab := s.fab, load := s.load }) k.frame).trans h.frame⟩

theorem LoadOnly.of_rings {s t : State} (h : { t with rings := s.rings } = s) : LoadOnly s t := ⟨(congrArg (fun v : State => { v with fab := s.fab, load := s.load }) h :)⟩

theorem LoadOnly.completeCmd (s : State) (h : HostCmd) (op st : Nat) (res : Bytes) : LoadOnly s (s.completeCmd h op st res) := .of_rings (s.completeCmd_rings h op st res)

theorem LoadOnly.sendFrames (s : State) (l : List OutFrame) : LoadOnly s (s.sendFrames l) :=
  ⟨(congrArg (fun v : State => { v with rings := s.rings, load := s.load }) (s.sendFrames_fab l) :)⟩

theorem LoadOnly.post (s : State) (code cls die : Nat) (data : Bytes) : LoadOnly s (s.post code cls die data) :=
  .of_rings (s.post_rings code cls die data)

/-- Answers given: the rings alone change. -/
structure Answered (s t : State) : Prop where
  only : LoadOnly s t
  load : t.load = s.load

theorem Answered.refl (s : State) : Answered s s := ⟨.refl s, rfl⟩

theorem Answered.trans {s t u : State} (h : Answered s t) (k : Answered t u) : Answered s u := ⟨h.only.trans k.only, k.load.trans h.load⟩

theorem Answered.completeCmd (s : State) (h : HostCmd) (op st : Nat) (res : Bytes) : Answered s (s.completeCmd h op st res) :=
  ⟨.completeCmd s h op st res, State.completeCmd_load s h op st res⟩

theorem Answered.foldl (st : Nat) (l : List Feed) (s : State) : Answered s (l.foldl (fun s f => s.completeCmd f.cmd 0x21 st []) s) := by
  induction l generalizing s with
  | nil => exact .refl s
  | cons f l ih => exact (Answered.completeCmd s _ _ _ _).trans (ih _)

/-- A command that waits, if there is one, completes. -/
def State.answerOne (s : State) (op st : Nat) : Option HostCmd → State
  | some h => s.completeCmd h op st []
  | none => s

theorem Answered.answerOne (s : State) (op st : Nat) (o : Option HostCmd) : Answered s (s.answerOne op st o) := by
  cases o with
  | none => exact .refl s
  | some h => exact .completeCmd s h op st []

theorem State.answerAll_eq (s : State) (st : Nat) : s.answerAll st =
    let u := s.load.feeds.foldl (fun s f => s.completeCmd f.cmd 0x21 st []) ((s.answerOne 0x20 st s.load.begin).answerOne 0x22 st s.load.endCmd)
    { u with load := { u.load with begin := none, endCmd := none, feeds := [] } } := by
  unfold State.answerAll
  cases hb : s.load.begin <;> cases he : s.load.endCmd <;> simp only [State.completeCmd_load, he, State.answerOne]

/-- Commands that wait complete; the load's list of them is empty. -/
theorem State.answerAll_spec (s : State) (st : Nat) : LoadOnly s (s.answerAll st) ∧ (s.answerAll st).load = { s.load with begin := none, endCmd := none, feeds := [] } := by
  have h := ((Answered.answerOne s 0x20 st s.load.begin).trans (.answerOne _ 0x22 st s.load.endCmd)).trans (.foldl st s.load.feeds _)
  rw [State.answerAll_eq]
  generalize s.load.feeds.foldl (fun s f => s.completeCmd f.cmd 0x21 st []) ((s.answerOne 0x20 st s.load.begin).answerOne 0x22 st s.load.endCmd) = u at h ⊢
  obtain ⟨honly, hload⟩ := h
  exact ⟨honly.trans ⟨rfl⟩, congrArg (fun l : Load => { l with begin := none, endCmd := none, feeds := [] }) hload⟩

/-- The end of a load changes the rings, the frames and the load (R390, R397). -/
theorem State.endLoad_only (s : State) (st : Nat) : LoadOnly s (s.endLoad st) := by
  unfold State.endLoad
  split
  · exact .refl s
  · dsimp only
    obtain ⟨h1, -⟩ := s.answerAll_spec st
    generalize s.answerAll st = u at h1 ⊢
    have h2 : LoadOnly u (if u.load.reader then u.tellPeers (.ended st) else u) := by
      split
      · exact .sendFrames u _
      · exact .refl u
    generalize (if u.load.reader then u.tellPeers (.ended st) else u) = v at h2 ⊢
    exact ((h1.trans h2).trans (t := v) (u := { v with load := { v.load with ended := some st, lastStatus := st, staged := false } }) ⟨rfl⟩).trans
      ((show LoadOnly _ (State.loadBit _ 1) from ⟨rfl⟩).trans (.post _ _ _ _ _))

/-- What the load's block says once the load has ended. -/
theorem State.endLoad_load {s : State} (st : Nat) (he : s.load.ended = none) (hp : s.loadPhase = 1 ∨ s.loadPhase = 2) : (s.endLoad st).load =
    { s.load with begin := none, endCmd := none, feeds := [], ended := some st, lastStatus := st, staged := false, evt := setBit s.load.evt 1 } := by
  unfold State.endLoad
  rw [if_neg (by rw [he]; simp; omega)]
  dsimp only
  obtain ⟨-, hl⟩ := s.answerAll_spec st
  generalize s.answerAll st = u at hl ⊢
  have h2 : (if u.load.reader then u.tellPeers (.ended st) else u).load = u.load := by
    split
    · exact (congrArg State.load (State.sendFrames_fab u _) :)
    · rfl
  generalize (if u.load.reader then u.tellPeers (.ended st) else u) = v at h2 ⊢
  rw [State.post_load]
  show ({ v.load with ended := some st, lastStatus := st, staged := false, evt := setBit v.load.evt 1 } : Load) = _
  rw [h2, hl]

/-! ### The reader's commands -/

/-- IMG_BEGIN (R393). -/
theorem imgBegin_begins {h : HostCmd} {a : W64} {len drain : W32} {pos : BitVec 16} {s : State} (hh : s.handles h 0x20 = true) (hin : a.toNat + len.toNat ≤ s.rings.carveSize) :
    (s.loadPhase = 0 → s.loadHeld = false → ∃ u : State,
      exec (.imgBegin h a len drain pos) s = .next (u.tellPeers (.metadata (readBytes (s.carve (s.ring h.set.val).owner) a.toNat len.toNat))) ∧
      u.loadPhase = 1 ∧ u.load.reader = true ∧ u.load.begin = some h ∧ u.load.metadata = readBytes (s.carve (s.ring h.set.val).owner) a.toNat len.toNat ∧ u.load.drainTicks = drain.toNat ∧
      u.load.answers = [] ∧ u.load.feeds = [] ∧ u.load.own = [] ∧ u.load.escrow = [] ∧ u.rings = (s.begins h 0x20).rings ∧
      { u with loadPhase := 0, load := s.load, rings := s.rings } = s) ∧
    (s.loadPhase ≠ 0 → exec (.imgBegin h a len drain pos) s = .next (s.completeCmd h 0x20 7 [])) := by
  have hhand : ¬ (!s.handles h 0x20) = true := by simp [hh]
  have hcarve : ¬ (!s.inCarve a.toNat len.toNat) = true := by simp [State.inCarve, hin]
  refine ⟨fun hp hheld => ?_, fun hp => (if_neg hhand).trans ((if_neg hcarve).trans (if_pos hp))⟩
  refine ⟨_, (if_neg hhand).trans ((if_neg hcarve).trans ((if_neg (not_not.2 hp)).trans (if_neg (by simp [hheld])))), rfl, rfl, rfl, rfl, rfl, rfl, rfl, rfl, rfl, rfl, ?_⟩
  have hframe := s.begins_frame h 0x20
  generalize s.begins h 0x20 = t at hframe ⊢
  rw [← hp]
  exact (congrArg (fun v : State => { v with loadPhase := s.loadPhase, load := s.load }) hframe :)

/-- IMG_FEED (R395). -/
theorem imgFeed_feeds {h : HostCmd} {a : W64} {idx : W32} {s : State} {e : SecEnt} (hh : s.handles h 0x21 = true) (hs : s.staging = true) (hr : s.load.reader = true)
    (he : s.section? idx.toNat = some e) (hin : a.toNat + e.len ≤ s.rings.carveSize) (hf : idx.toNat ∉ s.load.fed) (hl : s.load.feeds.length < 64) (hnew : ∀ f ∈ s.load.feeds, f.index ≠ idx.toNat) :
    exec (.imgFeed h idx a) s = .next (({ s.begins h 0x21 with load := { s.load with
      feeds := s.load.feeds ++ [⟨h, idx.toNat, a.toNat, [], 0⟩],
      almanacs := keepAlmanac s.load.almanacs e (readBytes (s.carve (s.ring h.set.val).owner) a.toNat e.len) } } : State).sendSection ⟨h, idx.toNat, a.toNat, [], 0⟩) := by
  have hrun : exec (.imgFeed h idx a) s = execImgFeed h idx a s := rfl
  unfold execImgFeed at hrun
  rw [if_neg (by simp [hh]), if_neg (by simp [hs, hr]), he] at hrun
  dsimp only at hrun
  have hany : (s.load.feeds.any fun f => f.index == idx.toNat) = false := List.any_eq_false.2 fun f hm => by simp [hnew f hm]
  rw [if_neg (by simp [State.inCarve, hin]), if_neg (by simp [hf]), if_neg (by simp [Nat.not_le.2 hl, hany]), s.load_begins h 0x21] at hrun
  exact hrun

/-- The checks of the almanacs together read what the reader has been fed. -/
theorem State.groupOk_of_load {s t : State} (hm : t.load.metadata = s.load.metadata) (ha : t.load.almanacs = s.load.almanacs) :
    t.groupFormOk = s.groupFormOk ∧ t.groupAlmOk = s.groupAlmOk := by
  unfold State.groupFormOk State.groupAlmOk
  rw [hm, ha]
  exact ⟨rfl, rfl⟩

theorem State.takeEnd_ends {s : State} {h : HostCmd} (he : s.load.endCmd = some h) (hall : ∀ i, i < (sectionsOf s.load.metadata).length → i ∈ s.load.fed)
    (hform : s.groupFormOk = true) (halm : s.groupAlmOk = true) :
    s.takeEnd = ({ s with load := { s.load with endCmd := none, staged := true } } : State).completeCmd h 0x22 0 [] := by
  have hfed : ((List.range (sectionsOf s.load.metadata).length).all fun i => s.load.fed.contains i) = true :=
    List.all_eq_true.2 fun i hi => by simpa using hall i (List.mem_range.1 hi)
  unfold State.takeEnd
  rw [he]
  exact (if_pos hfed).trans ((if_neg (by simp [hform])).trans (if_neg (by simp [halm])))

/-- IMG_END in hand. -/
def State.imgEnding (s : State) (h : HostCmd) : State := { s.begins h 0x22 with load := { s.load with endCmd := some h } }

/-- IMG_END with every section fed (R396). -/
theorem imgEnd_ends {h : HostCmd} {s : State} (hh : s.handles h 0x22 = true) (hs : s.staging = true) (hr : s.load.reader = true) (he : s.load.endCmd = none) (hf : s.load.feeds = [])
    (hall : ∀ i, i < (sectionsOf s.load.metadata).length → i ∈ s.load.fed) (hform : s.groupFormOk = true) (halm : s.groupAlmOk = true) :
    exec (.imgEnd h) s = .next (({ s.begins h 0x22 with load := { s.load with endCmd := none, staged := true } } : State).completeCmd h 0x22 0 []) := by
  have hrun : exec (.imgEnd h) s = _ := (if_neg (by simp [hh])).trans (if_neg (by simp [hs, hr, he]))
  have hnone (u : State) (hu : u.load.feeds = []) : (u.load.feeds.foldl (fun s f => s.sectionFails f) u).takeEnd = u.takeEnd := by rw [hu]; rfl
  obtain ⟨hform', halm'⟩ := State.groupOk_of_load (s := s) (t := s.imgEnding h) rfl rfl
  have hlast := State.takeEnd_ends (s := s.imgEnding h) rfl hall (hform'.trans hform) (halm'.trans halm)
  exact hrun.trans (congrArg Host.Outcome.next ((hnone (s.imgEnding h) hf).trans hlast))

/-- IMG_ABORT (R397). -/
theorem imgAbort_aborts {h : HostCmd} {s : State} (hh : s.handles h 0x23 = true) (hr : s.load.reader = true) (hp : s.loadPhase = 1 ∨ s.loadPhase = 2) (he : s.load.ended = none) :
    exec (.imgAbort h) s = .next ((s.endLoad 9).completeCmd h 0x23 0 []) ∧
      (s.endLoad 9).load.ended = some 9 ∧ (s.endLoad 9).load.staged = false ∧ (s.endLoad 9).load.evt.getLsbD 1 = true ∧ (s.endLoad 9).genActive = s.genActive := by
  have hl := State.endLoad_load 9 he hp
  refine ⟨(if_neg (by simp [hh])).trans (if_neg (by rw [hr, he]; simp; omega)), ?_, ?_, ?_, (congrArg State.genActive (s.endLoad_only 9).frame :)⟩
  · rw [hl]
  · rw [hl]
  · rw [hl]
    exact (getLsbD_setBit _ _ _).trans (by simp)

/-- ESC_FEED (R404, R442). -/
theorem escFeed_restores {h : HostCmd} {a : W64} {idx : W32} {s : State} {e : SecEnt} (hh : s.handles h 0x24 = true) (he : (sectionsOf s.load.oldMeta)[idx.toNat]? = some e)
    (hin : a.toNat + e.len ≤ s.rings.carveSize) (hlost : idx.toNat ∈ s.load.lost) (hd : digest (readBytes (s.carve (s.ring h.set.val).owner) a.toNat e.len) = e.digest) :
    let own := s.carve (s.ring h.set.val).owner
    let u : State := { s with load := { s.load with
      oldEscrow := smSet (fun _ => []) s.load.oldEscrow idx.toNat (readBytes own a.toNat e.len)
      lost := s.load.lost.filter (· != idx.toNat) } }
    exec (.escFeed h idx a) s = .next ((if s.grp.inFailover && s.grp.fencedOut.contains e.member then
      u.sendFrames [.escrow (s.memberAddr e.member) idx.toNat (readBytes own a.toNat e.len)] else u).completeCmd h 0x24 0 []) := by
  intro own u
  have hrun : exec (.escFeed h idx a) s = execEscFeed h idx a s := rfl
  unfold execEscFeed at hrun
  rw [if_neg (by simp [hh]), he] at hrun
  dsimp only at hrun
  rw [if_neg (by simp [State.inCarve, hin]), if_neg (by simp [hlost]), if_neg (not_not.2 hd)] at hrun
  exact hrun

/-- Settles O40: the commands of the load's reader. -/
theorem loadCommands : Obligations.LoadCommands := by
  intro h a len drain idx pos s own
  exact ⟨fun hh hin hp hheld => (imgBegin_begins hh hin).1 hp hheld, fun hh hin hp => (imgBegin_begins hh hin).2 hp, fun e hh hs hr he hin hf hl hnew => imgFeed_feeds hh hs hr he hin hf hl hnew,
    fun hh hs hr he hf hall hform halm => imgEnd_ends hh hs hr he hf hall hform halm, fun hh hr hp he => imgAbort_aborts hh hr hp he, fun e hh he hin hlost hd => escFeed_restores hh he hin hlost hd⟩

end Sys2Proof.Machine
end

section
/-! Metadata checks, sections, banks and the end of a load (R390, R393 to R397, R401). -/
namespace Sys2Proof.Machine

/-! ### Metadata checks -/

/-- The reader's answers with one of them still missing (R393). -/
theorem State.takeAnswers_waits {s : State} {j : Nat} (hj : j < s.groupSize) (hno : ∀ x ∈ s.load.answers, x.1 ≠ j) : s.takeAnswers = s := by
  unfold State.takeAnswers
  split
  · rfl
  · refine if_neg fun hall => ?_
    obtain ⟨x, hx, he⟩ := List.any_eq_true.1 (List.all_eq_true.1 hall j (List.mem_range.2 hj))
    exact hno x hx (beq_iff_eq.1 he)

/-- Every member's answer is OK: IMG_BEGIN completes (R393). -/
theorem State.takeAnswers_ok {s : State} {h : HostCmd} (hb : s.load.begin = some h) (hall : ∀ j, j < s.groupSize → ∃ x ∈ s.load.answers, x.1 = j) (hok : ∀ x ∈ s.load.answers, x.2 = 0) :
    s.takeAnswers = ({ s with load := { s.load with begin := none } } : State).completeCmd h 0x20 0 [] := by
  have hbad : (List.range s.groupSize).filterMap (fun m => s.load.answers.find? fun a => a.1 == m && a.2 != 0) = [] := by
    refine List.filterMap_eq_nil_iff.2 fun m _ => List.find?_eq_none.2 fun x hx => ?_
    simp [hok x hx]
  unfold State.takeAnswers
  rw [hb]
  dsimp only
  rw [if_pos (List.all_eq_true.2 fun j hj => ?_), hbad]
  obtain ⟨x, hx, he⟩ := hall j (List.mem_range.1 hj)
  exact List.any_eq_true.2 ⟨x, hx, beq_iff_eq.2 he⟩

/-- METADATA_CHECK on the reader (R390, R393). -/
theorem metadataCheck_reader {w st : Nat} {image : Bytes} {drain : W32} {s : State} (h0 : s.power = 0) (hf : s.fw.sec.runs = true) (hr : s.load.reader = true) (hb : s.load.begin.isSome = true)
    (hw : w < s.groupSize) (hnew : ∀ x ∈ s.load.answers, x.1 ≠ w) :
    let st' := if w = s.member then s.metaStatus s.load.metadata else st
    let u : State := { s with load := { s.load with answers := s.load.answers ++ [(w, st')] } }
    ((∃ j, j < s.groupSize ∧ j ≠ w ∧ ∀ x ∈ s.load.answers, x.1 ≠ j) → exec (.metadataCheck w st image drain) s = .next u) ∧
    (∀ h, s.load.begin = some h → (∀ j, j < s.groupSize → j ≠ w → (j, 0) ∈ s.load.answers) → (∀ x ∈ s.load.answers, x.2 = 0) → st' = 0 →
      exec (.metadataCheck w st image drain) s = .next (({ u with load := { u.load with begin := none } } : State).completeCmd h 0x20 0 [])) := by
  intro st' u
  have hany : (s.load.answers.any fun a => a.1 == w) = false := List.any_eq_false.2 fun x hx => by simp [hnew x hx]
  have hnone : s.load.begin.isNone = false := by rw [← Option.not_isSome, hb]; rfl
  have hrun : exec (.metadataCheck w st image drain) s = .next u.takeAnswers :=
    (if_neg (by simp [h0, hf])).trans ((if_pos hr).trans ((if_neg (by simp [hnone])).trans (if_neg (by rw [hnone, hany, decide_eq_false (Nat.not_le.2 hw)]; decide))))
  refine ⟨fun ⟨j, hj, hne, hno⟩ => hrun.trans (congrArg Host.Outcome.next (State.takeAnswers_waits (s := u) hj fun x hx => ?_)), fun h hh hall hok hst =>
    hrun.trans (congrArg Host.Outcome.next (State.takeAnswers_ok (s := u) hh (fun j hj => ?_) fun x hx => ?_))⟩
  · rcases List.mem_append.1 hx with hx | hx
    · exact hno x hx
    · rw [List.mem_singleton.1 hx]
      exact Ne.symm hne
  · by_cases hjw : j = w
    · exact ⟨(w, st'), List.mem_append_right _ (List.mem_singleton.2 rfl), hjw.symm⟩
    · exact ⟨(j, 0), List.mem_append_left _ (hall j hj hjw), rfl⟩
  · rcases List.mem_append.1 hx with hx | hx
    · exact hok x hx
    · rw [List.mem_singleton.1 hx]
      exact hst

/-- METADATA_CHECK on any other package (R390, R393, R403). -/
theorem metadataCheck_member {w st : Nat} {image : Bytes} {drain : W32} {s : State} (h0 : s.power = 0) (hf : s.fw.sec.runs = true) (hr : s.load.reader = false) (hp : s.loadPhase = 0)
    (hw : w < s.groupSize) (hm : 2 ≤ s.groupSize → w ≠ s.member) :
    let s1 : State := { s with load := { s.load with escrowOnly := decide (s.groupSize = 1), readerMember := w } }
    (s1.metaStatus image = 0 → ∃ u : State, exec (.metadataCheck w st image drain) s = .next (u.tellReader (.status 0)) ∧ u.loadPhase = 1 ∧ u.load.metadata = image ∧
      u.load.reader = false ∧ u.load.readerMember = w ∧ u.load.own = [] ∧ u.load.escrow = [] ∧ { u with loadPhase := 0, load := s.load } = s) ∧
    (s1.metaStatus image ≠ 0 → exec (.metadataCheck w st image drain) s =
      .next (({ s with load := { s.load with readerMember := w } } : State).tellReader (.status (s1.metaStatus image)))) := by
  intro s1
  have htake : ¬ (decide (s.loadPhase ≠ 0 ∨ s.groupSize ≤ w) || (decide (2 ≤ s.groupSize) && w == s.member)) = true := by
    rw [decide_eq_false (by omega), Bool.false_or]
    intro hb
    obtain ⟨h2, he⟩ := Bool.and_eq_true_iff.1 hb
    exact hm (of_decide_eq_true h2) (beq_iff_eq.1 he)
  have hrun : exec (.metadataCheck w st image drain) s = .next (s.takeMetadata w image drain.toNat) :=
    (if_neg (by simp [h0, hf])).trans ((if_neg (by simp [hr])).trans (if_neg htake))
  refine ⟨fun hst => ?_, fun hst => ?_⟩
  · have htaken : s.takeMetadata w image drain.toNat = (s1.startLoad false w image drain.toNat 0xFFFF).tellReader (.status (s1.metaStatus image)) :=
      congrArg (fun v : State => v.tellReader (.status (s1.metaStatus image))) (if_pos hst)
    rw [htaken, hst] at hrun
    exact ⟨_, hrun, rfl, rfl, rfl, rfl, rfl, rfl, by rw [← hp]; rfl⟩
  · have htaken : s.takeMetadata w image drain.toNat = ({ s with load := { s.load with readerMember := w } } : State).tellReader (.status (s1.metaStatus image)) :=
      congrArg (fun v : State => v.tellReader (.status (s1.metaStatus image))) (if_neg hst)
    rw [htaken] at hrun
    exact hrun

/-! ### Sections -/

theorem State.staging_iff (s : State) : s.staging = true ↔ s.power = 0 ∧ s.loadPhase = 1 ∧ s.load.begin = none ∧ s.load.ended = none := by
  simp [State.staging, and_assoc]

/-- SECTION_ARRIVAL on the reader, which holds the section itself (R390, R394, R395). -/
theorem sectionArrival_own {i : Nat} {bs : Bytes} {s : State} {e : SecEnt} {f : Feed} (ack : Bool) (hs : s.staging = true) (hr : s.load.reader = true) (he : s.section? i = some e)
    (hf : s.load.feeds.find? (fun x => x.index == i) = some f) (ho : s.ownPart e = true) (hm : s.member ∈ s.holders e) (hl : bs.length = e.len) (hd : digest bs = e.digest)
    (hc : State.contentBad { s with load := { s.load with own := smSet (fun _ => []) s.load.own i bs } } e bs = false) :
    exec (.sectionArrival i s.member bs ack) s = .next (State.sectionAcked { s with load := { s.load with own := smSet (fun _ => []) s.load.own i bs } } f e s.member) := by
  have hstage : s.stageSection i e bs = some { s with load := { s.load with own := smSet (fun _ => []) s.load.own i bs } } := by
    unfold State.stageSection
    rw [if_neg (by simp [hl, hd]), if_pos ho]
  have hrun : exec (.sectionArrival i s.member bs ack) s = execSectionArrival i s.member bs ack s := rfl
  unfold execSectionArrival at hrun
  rw [he] at hrun
  dsimp only at hrun
  rw [if_neg (by simp [hs]), if_neg (by simp [hr]), if_neg (by simp [hm]), if_pos rfl, hstage, hf] at hrun
  dsimp only at hrun
  rw [if_neg (by rw [hc]; decide)] at hrun
  exact hrun

/-- SECTION_ARRIVAL with another holder's answer (R395, R396). -/
theorem sectionArrival_other {i w : Nat} {bs : Bytes} {s : State} {e : SecEnt} {f : Feed} (ack : Bool) (hs : s.staging = true) (hr : s.load.reader = true) (he : s.section? i = some e)
    (hf : s.load.feeds.find? (fun x => x.index == i) = some f) (hw : w ∈ s.holders e) (hm : w ≠ s.member) :
    exec (.sectionArrival i w bs ack) s = .next (if ack then s.sectionAcked f e w else s.sectionFails f) := by
  have hrun : exec (.sectionArrival i w bs ack) s = execSectionArrival i w bs ack s := rfl
  unfold execSectionArrival at hrun
  rw [he] at hrun
  dsimp only at hrun
  rw [if_neg (by simp [hs]), if_neg (by simp [hr]), if_neg (by simp [hw]), if_neg hm, hf] at hrun
  exact hrun

theorem sectionTimeout_fails {i w : Nat} {s : State} {e : SecEnt} {f : Feed} (hs : s.staging = true) (hr : s.load.reader = true) (he : s.section? i = some e)
    (hf : s.load.feeds.find? (fun x => x.index == i) = some f) (hw : w ∈ s.holders e) (ha : w ∉ f.acks) : exec (.sectionTimeout i w) s = .next (s.sectionFails f) := by
  have hrun : exec (.sectionTimeout i w) s = execSectionTimeout i w s := rfl
  unfold execSectionTimeout at hrun
  rw [he, hf] at hrun
  dsimp only at hrun
  rw [if_neg (by simp [hs, hr, ha, hw])] at hrun
  exact hrun

/-- With the last holder's ACK the feed completes (R395). -/
theorem State.sectionAcked_last {s : State} {f : Feed} {e : SecEnt} {v : Nat} (he : s.load.endCmd = none) (hall : ∀ x ∈ s.holders e, x = v ∨ x ∈ f.acks) :
    f.index ∈ (s.sectionAcked f e v).load.fed ∧ ∀ x ∈ (s.sectionAcked f e v).load.feeds, x.index ≠ f.index := by
  have hacks : ((s.holders e).all fun x => (addNew f.acks v).contains x) = true :=
    List.all_eq_true.2 fun x hx => by simpa [mem_addNew] using (hall x hx).symm
  unfold State.sectionAcked
  dsimp only
  rw [if_pos hacks]
  have hload := State.completeCmd_load s f.cmd 0x21 0 []
  generalize s.completeCmd f.cmd 0x21 0 [] = u at hload ⊢
  have hfed : f.index ∈ addNew u.load.fed f.index := (mem_addNew _ _ _).2 (.inr rfl)
  have hfeeds : ∀ x ∈ u.load.feeds.filter (fun x => x.index != f.index), x.index ≠ f.index := fun x hx => by simpa using (List.mem_filter.1 hx).2
  have htake (t : State) (ht : t.load.endCmd = none) (h1 : f.index ∈ t.load.fed) (h2 : ∀ x ∈ t.load.feeds, x.index ≠ f.index) :
      f.index ∈ t.takeEnd.load.fed ∧ ∀ x ∈ t.takeEnd.load.feeds, x.index ≠ f.index := by
    unfold State.takeEnd
    rw [ht]
    exact ⟨h1, h2⟩
  exact htake _ (hload ▸ he) hfed hfeeds

/-- The failures counted, before the section is sent again or the load ends (R396). -/
def State.countFailure (s : State) (f : Feed) : State :=
  { s with load := { s.load with
    failures := s.load.failures + 1
    feeds := s.load.feeds.map fun (x : Feed) => if x.index == f.index then { x with fails := x.fails + 1 } else x } }

theorem State.sectionFails_again (s : State) {f : Feed} (h : f.fails < 2) : s.sectionFails f = ((s.countFailure f).loadBit 0).sendSection f := if_neg (by omega)

theorem State.sectionFails_third (s : State) {f : Feed} (h : 2 ≤ f.fails) : s.sectionFails f = (s.countFailure f).endLoad 5 := if_pos (by omega)

/-- Sending a section touches the fabric's block alone. -/
theorem State.sendSection_fab (s : State) (f : Feed) : { s.sendSection f with fab := s.fab } = s := by
  unfold State.sendSection
  split
  · rfl
  · exact s.sendFrames_fab _

/-- A section that fails for the first or second time (R396). -/
theorem State.sectionFails_spec {s : State} {f : Feed} {i : Nat} (hf : s.load.feeds.find? (fun x => x.index == i) = some f) :
    (f.fails < 2 → (s.sectionFails f).load.failures = s.load.failures + 1 ∧ (s.sectionFails f).load.evt.getLsbD 0 = true ∧
      (∃ g ∈ (s.sectionFails f).load.feeds, g.index = i ∧ g.fails = f.fails + 1) ∧ { s.sectionFails f with load := s.load, fab := s.fab } = s) ∧
    (2 ≤ f.fails → s.load.ended = none → s.loadPhase = 1 → (s.sectionFails f).load.ended = some 5 ∧ (s.sectionFails f).load.feeds = [] ∧ (s.sectionFails f).genActive = s.genActive) := by
  have hi : f.index = i := by simpa using List.find?_some hf
  refine ⟨fun h => ?_, fun h he hp => ?_⟩
  · rw [s.sectionFails_again h]
    have hframe := State.sendSection_fab ((s.countFailure f).loadBit 0) f
    generalize ((s.countFailure f).loadBit 0).sendSection f = t at hframe ⊢
    have hload : t.load = ((s.countFailure f).loadBit 0).load := (congrArg State.load hframe :)
    refine ⟨by rw [hload]; rfl, ?_, ?_, (congrArg (fun v : State => { v with load := s.load, fab := s.fab }) hframe :)⟩
    · rw [hload]
      exact (getLsbD_setBit _ _ _).trans (by simp)
    · rw [hload]
      exact ⟨{ f with fails := f.fails + 1 }, List.mem_map.2 ⟨f, List.mem_of_find?_eq_some hf, if_pos (beq_iff_eq.2 rfl)⟩, hi, rfl⟩
  · rw [s.sectionFails_third h]
    have hl := State.endLoad_load (s := s.countFailure f) 5 he (.inl hp)
    refine ⟨by rw [hl], by rw [hl], (congrArg State.genActive ((s.countFailure f).endLoad_only 5).frame :)⟩

/-! ### Banks -/

/-- Comparing rows sets events of the core alone. -/
structure CompareKeeps (c : CoreId) (s t : State) : Prop where
  keep : ArraysKeep c s t
  map : (t.core c).arrayMap = (s.core c).arrayMap
  fp4 : (t.core c).fp4 = (s.core c).fp4
  frame : { t with cores := s.cores } = s

theorem CompareKeeps.refl (c : CoreId) (s : State) : CompareKeeps c s s := ⟨.refl c s, rfl, rfl, rfl⟩

theorem CompareKeeps.trans {c : CoreId} {s t u : State} (h : CompareKeeps c s t) (k : CompareKeeps c t u) : CompareKeeps c s u :=
  ⟨h.keep.trans k.keep, k.map.trans h.map, k.fp4.trans h.fp4, (congrArg (fun v : State => { v with cores := s.cores }) k.frame).trans h.frame⟩

theorem CompareKeeps.phys {c : CoreId} {s t : State} (h : CompareKeeps c s t) (a : Nat) : t.phys c a = s.phys c a := by
  have hfused : t.fusedMap c = s.fusedMap c := (congrArg (fun v : State => v.fusedMap c) h.frame :)
  unfold State.phys
  rw [h.map, hfused]

theorem Core.noteReads_maps (k : Core) (x : ArrayInfo) (fp4 : Bool) (p : Nat) (rows : List Nat) (faults : List ReadFault) :
    (k.noteReads x fp4 p rows faults).arrayMap = k.arrayMap ∧ (k.noteReads x fp4 p rows faults).fp4 = k.fp4 := by
  unfold Core.noteReads
  dsimp only
  split <;> split <;> exact ⟨rfl, rfl⟩

theorem CompareKeeps.compareArray (c : CoreId) (s : State) (faults : List ReadFault) (a : Nat) : CompareKeeps c s (s.compareArray c faults a).1 := by
  unfold State.compareArray
  dsimp only
  generalize List.range 1088 = rows
  refine ⟨.modCore s (f := fun k => k.noteReads _ _ _ rows faults) (Core.noteReads_keeps _ _ _ _ _ _), ?_, ?_, rfl⟩
  · rw [State.core_modCore_same]
    exact (Core.noteReads_maps _ _ _ _ _ _).1
  · rw [State.core_modCore_same]
    exact (Core.noteReads_maps _ _ _ _ _ _).2

/-- Array a of a core reads well everywhere. -/
def State.readsWell (s : State) (c : CoreId) (faults : List ReadFault) (a : Nat) : Prop :=
  ∀ r, r < 1088 → ((s.core c).arr (s.phys c a)).readable (smGet (fun _ => false) (s.core c).fp4 a) faults (s.phys c a) r = true

theorem State.compareArray_iff (s : State) (c : CoreId) (faults : List ReadFault) (a : Nat) : (s.compareArray c faults a).2 = true ↔ s.readsWell c faults a := by
  unfold State.compareArray State.readsWell
  simp only [List.all_eq_true, List.mem_range]

theorem State.readsWell_of_cores {s t : State} (hc : t.cores = s.cores) (hf : t.fuses = s.fuses) (c : CoreId) (faults : List ReadFault) (a : Nat) : t.readsWell c faults a ↔ s.readsWell c faults a := by
  unfold State.readsWell State.phys State.fusedMap
  rw [State.core_of_cores hc, hf]

theorem CompareKeeps.readsWell {c : CoreId} {s t : State} (h : CompareKeeps c s t) (faults : List ReadFault) (a : Nat) : t.readsWell c faults a ↔ s.readsWell c faults a := by
  unfold State.readsWell
  rw [h.phys, h.keep.arr, h.fp4]

/-- One array of the comparison, with the verdict so far. -/
def compareTurn (c : CoreId) (faults : List ReadFault) (f : Nat → Nat) (r : State × Bool) (i : Nat) : State × Bool :=
  let t := r.1.compareArray c faults (f i)
  (t.1, t.2 && r.2)

theorem compareTurn_fst (c : CoreId) (faults : List ReadFault) (f : Nat → Nat) (r : State × Bool) (i : Nat) : (compareTurn c faults f r i).1 = (r.1.compareArray c faults (f i)).1 := by
  unfold compareTurn
  exact Eq.refl _

theorem compareTurn_snd (c : CoreId) (faults : List ReadFault) (f : Nat → Nat) (r : State × Bool) (i : Nat) :
    (compareTurn c faults f r i).2 = true ↔ r.1.readsWell c faults (f i) ∧ r.2 = true := by
  rw [← State.compareArray_iff, ← Bool.and_eq_true_iff]
  unfold compareTurn
  generalize r.1.compareArray c faults (f i) = t
  exact Iff.refl _

theorem foldl_compareTurn (c : CoreId) (faults : List ReadFault) (f : Nat → Nat) (l : List Nat) (r : State × Bool) :
    CompareKeeps c r.1 (l.foldl (compareTurn c faults f) r).1 ∧ ((l.foldl (compareTurn c faults f) r).2 = true ↔ r.2 = true ∧ ∀ i ∈ l, r.1.readsWell c faults (f i)) := by
  induction l generalizing r with
  | nil => exact ⟨.refl c r.1, by simp⟩
  | cons i l ih =>
    have hone := CompareKeeps.compareArray c r.1 faults (f i)
    obtain ⟨hkeep, hiff⟩ := ih (compareTurn c faults f r i)
    rw [List.foldl_cons]
    rw [compareTurn_fst, compareTurn_snd] at hiff
    rw [compareTurn_fst] at hkeep
    generalize (r.1.compareArray c faults (f i)).1 = t at hone hiff hkeep
    refine ⟨hone.trans hkeep, hiff.trans ?_⟩
    have hread (j : Nat) := hone.readsWell faults (f j)
    simp only [hread, List.forall_mem_cons]
    exact ⟨fun ⟨⟨hi, hr⟩, hl⟩ => ⟨hr, hi, hl⟩, fun ⟨hr, hi, hl⟩ => ⟨⟨hi, hr⟩, hl⟩⟩

/-- The verdict on a bank enters the list of resident banks. -/
def State.markBank (s : State) (l : List Nat) (key : Nat) (b : Bool) : State := { s with load := { s.load with resident := if b then l.filter (· != key) ++ [key] else l.filter (· != key) } }

theorem State.core_markBank (s : State) (l : List Nat) (key : Nat) (b : Bool) (c : CoreId) : (s.markBank l key b).core c = s.core c := rfl

theorem State.mem_markBank (s : State) (l : List Nat) (key : Nat) (b : Bool) :
    (key ∈ (s.markBank l key b).load.resident ↔ b = true) ∧ ∀ x, x ≠ key → (x ∈ (s.markBank l key b).load.resident ↔ x ∈ l) := by
  unfold State.markBank
  cases b
  · exact ⟨by simp, fun x hx => by simp [hx]⟩
  · exact ⟨by simp, fun x hx => by simp [hx]⟩

/-- BANK_COMPARE (R71, R84, R401). -/
theorem bankCompare_compares {c : CoreId} {b : Fin 64} {faults : List ReadFault} {s : State} {e : SecEnt} (ha : s.coreActs c = true) (hp : s.loadPhase = 1 ∨ s.loadPhase = 2)
    (he : (shardsOf s.load.metadata).find? (fun x => s.ownPart x && x.unit == c.val && x.kind == b.val) = some e) : ∃ t, exec (.bankCompare c ⟨b, faults⟩) s = .next t ∧
      (64 * c.val + b.val ∈ t.load.resident ↔ digest (s.bankBytes c b.val) = e.digest ∧ ∀ j, j < 64 → s.readsWell c faults (64 * b.val + j)) ∧
      (∀ x, x ≠ 64 * c.val + b.val → (x ∈ t.load.resident ↔ x ∈ s.load.resident)) ∧ (∀ d, d ≠ c → t.core d = s.core d) ∧ (t.core c).arrays = (s.core c).arrays := by
  have hrun : exec (.bankCompare c ⟨b, faults⟩) s = execBankCompare c ⟨b, faults⟩ s := rfl
  unfold execBankCompare at hrun
  dsimp only at hrun
  rw [if_neg (by rw [ha, decide_eq_false (by omega)]; decide), he] at hrun
  dsimp only at hrun
  obtain ⟨hkeep, hiff⟩ := foldl_compareTurn c faults (fun i => 64 * b.val + i) (List.range 64) (s.spendReads c (64 * 1088), decide (digest (s.bankBytes c b.val) = e.digest))
  have hread (j : Nat) := State.readsWell_of_cores (s := s) (t := s.spendReads c (64 * 1088)) rfl rfl c faults (64 * b.val + j)
  simp only [hread, decide_eq_true_eq, List.mem_range] at hiff
  generalize List.range 64 = l at hrun hkeep hiff
  have hsame : exec (.bankCompare c ⟨b, faults⟩) s = .next
      (let r := l.foldl (compareTurn c faults fun i => 64 * b.val + i) (s.spendReads c (64 * 1088), decide (digest (s.bankBytes c b.val) = e.digest))
      r.1.markBank s.load.resident (64 * c.val + b.val) r.2) := hrun
  generalize l.foldl (compareTurn c faults fun i => 64 * b.val + i) (s.spendReads c (64 * 1088), decide (digest (s.bankBytes c b.val) = e.digest)) = r at hsame hkeep hiff
  have hall := (ArraysKeep.spendReads c s (64 * 1088)).trans hkeep.keep
  obtain ⟨hown, hother⟩ := r.1.mem_markBank s.load.resident (64 * c.val + b.val) r.2
  exact ⟨_, hsame, hown.trans hiff, hother, fun d hd => (r.1.core_markBank _ _ _ d).trans (hall.other d hd), (congrArg Core.arrays (r.1.core_markBank _ _ _ c)).trans hall.arrays⟩

/-! ### The end -/

/-- Two states that agree on what a generation's requests do not touch. -/
structure EndKeeps (s t : State) : Prop where
  genActive : t.genActive = s.genActive
  alm : t.alm = s.alm
  cores : t.cores = s.cores

theorem EndKeeps.trans {s t u : State} (h : EndKeeps s t) (k : EndKeeps t u) : EndKeeps s u := ⟨k.genActive.trans h.genActive, k.alm.trans h.alm, k.cores.trans h.cores⟩

theorem EndKeeps.refl (s : State) : EndKeeps s s := ⟨rfl, rfl, rfl⟩

theorem EndKeeps.of_only {s t : State} (h : LoadOnly s t) : EndKeeps s t :=
  ⟨(congrArg State.genActive h.frame :), (congrArg State.alm h.frame :), (congrArg State.cores h.frame :)⟩

theorem EndKeeps.modSd (s : State) (d : Nat) (f : ServeDie → ServeDie) : EndKeeps s (s.modSd d f) := ⟨rfl, rfl, rfl⟩

theorem EndKeeps.foldl {α : Type} {f : State → α → State} (h : ∀ s x, EndKeeps s (f s x)) (l : List α) (s : State) : EndKeeps s (l.foldl f s) := by
  induction l generalizing s with
  | nil => exact .refl s
  | cons x l ih => exact (h s x).trans (ih _)

/-- The serving dies without a request (R371). -/
def State.clearReq (s : State) (i : Nat) (r : Req) : State := [0, 1].foldl (fun s d => s.modSd d fun x => x.freeReq r i (homeOf i == d)) s

/-- A HIDE that waits for a request that is freed completes. -/
def State.hideEnds (s : State) : Option (Nat × Nat × Nat × W32) → State
  | some h => s.completeCmd ⟨⟨h.2.2.1 % 16, by omega⟩, h.2.2.2⟩ 0x13 0x104 []
  | none => s

/-- An ending completion enters its set's list (R588). -/
def State.listEnding (s : State) (set : Nat) (e : Ending) : State :=
  if (s.ring set).enabled then s.setRing set { s.ring set with endings := (s.ring set).endings ++ [e] } else s

/-- The entry of a freed request is as at reset. -/
def State.forgetReq (s : State) (i : Nat) : State :=
  { s with srv := { s.srv with kept := s.srv.kept.filter fun d => d.tag.req != i, freed := addNew s.srv.freed i } }.setReq i (reqDefault i)

theorem State.freeReq_eq (s : State) (i st : Nat) : s.freeReq i st = ((((s.clearReq i (s.req i)).hideEnds (s.req i).hide).listEnding (s.req i).set
    ⟨(s.req i).tag, st, leBytes 2 i ++ leBytes 4 (s.req i).ticket.toNat ++ leBytes 4 (s.req i).prod.toNat, ((s.clearReq i (s.req i)).hideEnds (s.req i).hide).tick.count⟩).forgetReq i) := by
  unfold State.freeReq
  dsimp only
  cases (s.req i).hide with
  | none => exact Eq.refl _
  | some h => exact Eq.refl _

theorem EndKeeps.clearReq (s : State) (i : Nat) (r : Req) : EndKeeps s (s.clearReq i r) := .foldl (fun s d => .modSd s d _) [0, 1] s

theorem EndKeeps.hideEnds (s : State) (o : Option (Nat × Nat × Nat × W32)) : EndKeeps s (s.hideEnds o) := by
  cases o with
  | none => exact .refl s
  | some h => exact .of_only (.completeCmd s _ _ _ _)

theorem EndKeeps.listEnding (s : State) (i : Nat) (e : Ending) : EndKeeps s (s.listEnding i e) := by
  unfold State.listEnding
  split
  · exact ⟨rfl, rfl, rfl⟩
  · exact .refl s

theorem EndKeeps.forgetReq (s : State) (i : Nat) : EndKeeps s (s.forgetReq i) := ⟨rfl, rfl, rfl⟩

/-- A request that is freed leaves cores and generations (R371). -/
theorem EndKeeps.freeReq (s : State) (i st : Nat) : EndKeeps s (s.freeReq i st) := by
  rw [State.freeReq_eq]
  exact (((EndKeeps.clearReq s i _).trans (.hideEnds _ _)).trans (.listEnding _ _ _)).trans (.forgetReq _ i)

theorem EndKeeps.endQueued (s : State) (g : W32) : EndKeeps s (s.endQueued g) := by
  unfold State.endQueued
  refine .foldl (fun s i => ?_) s.reqIds s
  dsimp only
  split
  · exact .freeReq s i 5
  · exact .refl s

theorem EndKeeps.peerEnded (s : State) : EndKeeps s s.peerEnded := by
  unfold State.peerEnded
  split
  · exact .of_only (s.endLoad_only _)
  · exact .refl s

/-- LOAD_ABANDON (R397). -/
theorem loadAbandon_abandons {s : State} (h0 : s.power = 0) (hp : s.tick.phase = .applied) (he : s.load.ended.isSome = true ∨ (s.load.reader = false ∧ (s.loadPhase = 1 ∨ s.loadPhase = 2))) :
    ∃ t, exec .loadAbandon s = .next t ∧ t.loadPhase = 0 ∧ t.genStaged = 0 ∧ t.load.own = [] ∧ t.load.escrow = [] ∧
      t.load.metadata = [] ∧ t.load.ended = none ∧ t.genActive = s.genActive ∧ t.alm = s.alm ∧ t.cores = s.cores := by
  have hended : s.peerEnded.load.ended.isNone = false := by
    unfold State.peerEnded
    cases hs : s.load.ended with
    | some n => rw [if_neg (by simp), hs]; rfl
    | none =>
      rw [hs] at he
      obtain ⟨hr, hl⟩ := he.resolve_left (by decide)
      rw [if_pos (by simp [hr]), State.endLoad_load _ hs hl]
      rfl
  have hkeep := (EndKeeps.peerEnded s).trans (.endQueued s.peerEnded (imgGen s.peerEnded.load.metadata))
  have hrun : exec .loadAbandon s = execLoadAbandon s := rfl
  unfold execLoadAbandon at hrun
  rw [if_neg (by simp [h0, hp, hended])] at hrun
  exact ⟨_, hrun, rfl, rfl, rfl, rfl, rfl, rfl, hkeep.genActive, hkeep.alm, hkeep.cores⟩

/-- Settles O41: checks, sections, banks, and the end of a load. -/
theorem loadSections : Obligations.LoadSections := by
  intro i w st bs image drain faults c b s h0
  refine ⟨fun hf hr hb hw hnew => metadataCheck_reader h0 hf hr hb hw hnew, fun hf hr hp hw hm => metadataCheck_member h0 hf hr hp hw hm, fun e f hs hr he hf => ?_, fun hr hw hwait => ?_,
    fun e ha hp he => bankCompare_compares ha hp he, fun hp he => loadAbandon_abandons h0 hp he⟩
  · obtain ⟨-, hphase, -, hended⟩ := s.staging_iff.1 hs
    have hi : f.index = i := by simpa using List.find?_some hf
    obtain ⟨hagain, hthird⟩ := State.sectionFails_spec hf
    refine ⟨fun ho hm hl hd hc ack => sectionArrival_own ack hs hr he hf ho hm hl hd hc, fun hw hm => ⟨sectionArrival_other true hs hr he hf hw hm, sectionArrival_other false hs hr he hf hw hm⟩,
      fun v hend hall => ?_, fun hw ha => sectionTimeout_fails hs hr he hf hw ha, hagain, fun h => hthird h hended hphase⟩
    rw [← hi]
    exact State.sectionAcked_last hend hall
  · refine if_neg ?_
    rw [h0, hr, decide_eq_false (Nat.not_le.2 hw)]
    rcases hwait with h | ⟨hb, hno⟩
    · simp [h]
    · have hany : (s.load.answers.any fun a => a.1 == w) = false := List.any_eq_false.2 fun x hx => by simp [hno x hx]
      simp [hb, hany]

end Sys2Proof.Machine
end

section
/-! The phases of a load (R399, R401 to R403). -/
namespace Sys2Proof.Machine

theorem State.loadVotes_of {s : State} {v : Nat} (h : ∀ m, m < s.groupSize → ∃ p ∈ s.grp.stamps, p.tick = s.tick.count - 1 ∧ p.member = m ∧ p.loadVote = v) : s.loadVotes v = true := by
  refine List.all_eq_true.2 fun m hm => ?_
  obtain ⟨p, hp, ht, hpm, hv⟩ := h m (List.mem_range.1 hm)
  exact List.any_eq_true.2 ⟨p, hp, by rw [ht, hpm, hv]; simp⟩

/-! ### What the write phase leaves -/

/-- Work on cores, dies, requests and rings: the tick, the almanac, the phase, and what the load holds stay. -/
structure WriteKeeps (s t : State) : Prop where
  tick : t.tick = s.tick
  alm : t.alm = s.alm
  aux : t.aux = s.aux
  loadPhase : t.loadPhase = s.loadPhase
  genActive : t.genActive = s.genActive
  member : t.member = s.member
  metadata : t.load.metadata = s.load.metadata
  own : t.load.own = s.load.own
  vote : t.load.writtenVote = s.load.writtenVote

theorem WriteKeeps.refl (s : State) : WriteKeeps s s := ⟨rfl, rfl, rfl, rfl, rfl, rfl, rfl, rfl, rfl⟩

theorem WriteKeeps.trans {s t u : State} (h : WriteKeeps s t) (k : WriteKeeps t u) : WriteKeeps s u :=
  ⟨k.tick.trans h.tick, k.alm.trans h.alm, k.aux.trans h.aux, k.loadPhase.trans h.loadPhase, k.genActive.trans h.genActive, k.member.trans h.member, k.metadata.trans h.metadata,
    k.own.trans h.own, k.vote.trans h.vote⟩

theorem WriteKeeps.foldl {α : Type} {f : State → α → State} (h : ∀ s x, WriteKeeps s (f s x)) (l : List α) (s : State) : WriteKeeps s (l.foldl f s) := by
  induction l generalizing s with
  | nil => exact .refl s
  | cons x l ih => exact (h s x).trans (ih _)

theorem WriteKeeps.of_rings {s t : State} (h : { t with rings := s.rings } = s) : WriteKeeps s t :=
  ⟨(congrArg State.tick h :), (congrArg State.alm h :), (congrArg State.aux h :), (congrArg State.loadPhase h :), (congrArg State.genActive h :), (congrArg State.member h :),
    (congrArg (fun v : State => v.load.metadata) h :), (congrArg (fun v : State => v.load.own) h :), (congrArg (fun v : State => v.load.writtenVote) h :)⟩

theorem WriteKeeps.modCore (s : State) (c : CoreId) (f : Core → Core) : WriteKeeps s (s.modCore c f) := ⟨rfl, rfl, rfl, rfl, rfl, rfl, rfl, rfl, rfl⟩

theorem WriteKeeps.modSd (s : State) (d : Nat) (f : ServeDie → ServeDie) : WriteKeeps s (s.modSd d f) := ⟨rfl, rfl, rfl, rfl, rfl, rfl, rfl, rfl, rfl⟩

theorem WriteKeeps.spendWrites (s : State) (c : CoreId) (n : Nat) : WriteKeeps s (s.spendWrites c n) := ⟨rfl, rfl, rfl, rfl, rfl, rfl, rfl, rfl, rfl⟩

theorem WriteKeeps.clearReq (s : State) (i : Nat) (r : Req) : WriteKeeps s (s.clearReq i r) := .foldl (fun s d => .modSd s d _) [0, 1] s

theorem WriteKeeps.hideEnds (s : State) (o : Option (Nat × Nat × Nat × W32)) : WriteKeeps s (s.hideEnds o) := by
  cases o with
  | none => exact .refl s
  | some h => exact .of_rings (s.completeCmd_rings _ _ _ _)

theorem WriteKeeps.listEnding (s : State) (i : Nat) (e : Ending) : WriteKeeps s (s.listEnding i e) := by
  unfold State.listEnding
  split
  · exact .of_rings rfl
  · exact .refl s

theorem WriteKeeps.forgetReq (s : State) (i : Nat) : WriteKeeps s (s.forgetReq i) := ⟨rfl, rfl, rfl, rfl, rfl, rfl, rfl, rfl, rfl⟩

theorem WriteKeeps.freeReq (s : State) (i st : Nat) : WriteKeeps s (s.freeReq i st) := by
  rw [State.freeReq_eq]
  exact (((WriteKeeps.clearReq s i _).trans (.hideEnds _ _)).trans (.listEnding _ _ _)).trans (.forgetReq _ i)

theorem WriteKeeps.endQueued (s : State) (g : W32) : WriteKeeps s (s.endQueued g) := by
  unfold State.endQueued
  refine .foldl (fun s i => ?_) s.reqIds s
  dsimp only
  split
  · exact .freeReq s i 5
  · exact .refl s

theorem WriteKeeps.abandon (s : State) (c : CoreId) (h : Holiday) : WriteKeeps s (s.abandon c h) := by
  unfold State.abandon
  dsimp only
  split
  · exact (WriteKeeps.modCore s c _).trans (.modCore _ c _)
  · exact .modCore s c _

theorem WriteKeeps.abandonAgain (s : State) (c : CoreId) (h : Holiday) : WriteKeeps s (s.abandonAgain c h) := by
  unfold State.abandonAgain
  dsimp only
  split
  · exact (WriteKeeps.abandon s c h).trans (.modCore _ c _)
  · exact .abandon s c h

theorem WriteKeeps.abandonCopies (s : State) (c : CoreId) : WriteKeeps s (s.abandonCopies c) := by
  unfold State.abandonCopies
  refine .foldl (fun s h => ?_) _ s
  split
  · exact .abandonAgain s c h
  · exact .abandonAgain s c h
  · exact .abandonAgain s c h
  · exact .abandonAgain s c h
  · exact .refl s

theorem WriteKeeps.writeBank (s : State) (c : CoreId) (b : Nat) (e : SecEnt) (content : Bytes) : WriteKeeps s (s.writeBank c b e content) := by
  unfold State.writeBank
  dsimp only
  generalize List.range 64 = l
  have h : WriteKeeps s (l.foldl (fun u i => u.writeArray c (u.phys c (64 * b + i)) (64 * b + i) e content) s) := .foldl (fun u i => .modCore u c _) l s
  generalize l.foldl (fun u i => u.writeArray c (u.phys c (64 * b + i)) (64 * b + i) e content) s = u at h ⊢
  exact (h.trans (.spendWrites u c _)).trans ⟨rfl, rfl, rfl, rfl, rfl, rfl, rfl, rfl, rfl⟩

theorem WriteKeeps.writeBanks (s : State) : WriteKeeps s s.writeBanks := by
  unfold State.writeBanks
  refine .foldl (fun s x => ?_) _ s
  dsimp only
  split
  · exact .modCore s _ _
  · exact .writeBank s _ _ _ _

/-- WRITING (R399). -/
theorem writing_writes {s : State} (h0 : s.power = 0) (hp : s.tick.phase = .applied) (hl : s.loadPhase = 2) (he : s.load.ended = none) (hh : s.loadHeld = false)
    (hold : ∀ i ∈ s.reqIds, s.oldRequest i = false) (hlanes : s.srv.lanes = []) :
    ∃ t, exec .writing s = .next t ∧ t.loadPhase = 3 ∧ t.alm = none ∧ t.aux = s.ownAux ∧ t.tick.patch = none ∧ t.load.writtenVote = false ∧ t.genActive = s.genActive := by
  have hany : s.reqIds.any s.oldRequest = false := List.any_eq_false.2 fun i hi => by simp [hold i hi]
  have hrun : exec .writing s = execWriting s := rfl
  unfold execWriting at hrun
  rw [if_neg (by simp [h0, hp, hl, he, hh, hany, hlanes])] at hrun
  dsimp only at hrun
  obtain ⟨hnone, hkept⟩ : s.refusePatch.tick.patch = none ∧ s.refusePatch.genActive = s.genActive ∧ s.refusePatch.member = s.member ∧
      s.refusePatch.load.metadata = s.load.metadata ∧ s.refusePatch.load.own = s.load.own := by
    unfold State.refusePatch
    split
    case isTrue h => exact ⟨Option.isNone_iff_eq_none.1 h, rfl, rfl, rfl, rfl⟩
    case isFalse h =>
      unfold State.patchEnd
      refine ⟨?_, ?_, ?_, ?_, ?_⟩ <;> simp
  obtain ⟨hgen, hmem, hmeta, hown⟩ := hkept
  generalize s.refusePatch = s1 at hrun hnone hgen hmem hmeta hown
  have h2 := (WriteKeeps.endQueued s1 s1.genActive).trans (.foldl (f := fun (s : State) i => s.abandonCopies (asCore i)) (fun s i => .abandonCopies s _) (List.range 96) _)
  generalize (List.range 96).foldl (fun (s : State) i => s.abandonCopies (asCore i)) (s1.endQueued s1.genActive) = s2 at hrun h2
  have h3 := WriteKeeps.writeBanks { s2 with alm := none, aux := s2.ownAux, loadPhase := 3, load := { s2.load with bankDone := [], written := 0, writtenVote := false } }
  generalize State.writeBanks { s2 with alm := none, aux := s2.ownAux, loadPhase := 3, load := { s2.load with bankDone := [], written := 0, writtenVote := false } } = t at hrun h3
  refine ⟨t, hrun, h3.loadPhase, h3.alm, h3.aux.trans ?_, ?_, h3.vote, h3.genActive.trans (h2.genActive.trans hgen)⟩
  · show s2.ownAux = s.ownAux
    unfold State.ownAux
    rw [h2.metadata, h2.member, h2.own, hmeta, hmem, hown]
  · rw [h3.tick]
    exact (congrArg Tick.patch h2.tick).trans hnone

/-! ### MEMBER_WRITTEN -/

/-- MEMBER_WRITTEN (R401, R402, R518). -/
theorem memberWritten_spec {s : State} (h0 : s.power = 0) (hl : s.loadPhase = 3) (hv : s.load.writtenVote = false) :
    (s.banksLeft ≠ [] → exec .memberWritten s = .next s.writeBanks) ∧
      (s.banksLeft = [] → s.badWritten ≠ [] → exec .memberWritten s = .next s.replaceBad) ∧
      (s.banksLeft = [] → s.badWritten = [] → s.allScanned = true → (∀ x, auxOf s.aux 0 0 = some x → s.coreTested (almOf x.content) = false) →
        exec .memberWritten s = .next { s with load := { s.load with writtenVote := true } }) := by
  have hgo : ¬ (s.power ≠ 0 || decide (s.loadPhase ≠ 3) || s.load.writtenVote) = true := by simp [h0, hl, hv]
  refine ⟨fun hb => (if_neg hgo).trans (if_pos (by simpa using hb)), fun hb hw => (if_neg hgo).trans ((if_neg (by simp [hb])).trans (if_pos (by simpa using hw))), fun hb hw hs ht => ?_⟩
  refine (if_neg hgo).trans ((if_neg (by simp [hb])).trans ((if_neg (by simp [hw])).trans (if_neg ?_)))
  rw [hs]
  cases hx : auxOf s.aux 0 0 with
  | none => simp
  | some x => simp [ht x hx]

/-! ### COMMITTED -/

/-- The maps of a core are taken and its layers are lost no more (R158, R401). -/
def State.takeWritten (s : State) (c : CoreId) : State := (s.takeMaps c).modCore c fun k => { k with lostArrays := [] }

theorem State.takeMaps_frame (s : State) (c : CoreId) : { s.takeMaps c with cores := s.cores } = s ∧ ∀ d, d ≠ c → (s.takeMaps c).core d = s.core d := by
  unfold State.takeMaps
  dsimp only
  split
  · exact ⟨rfl, fun _ _ => rfl⟩
  · exact ⟨rfl, fun d hd => State.core_setCore_other _ _ _ _ hd⟩

theorem State.takeWritten_frame (s : State) (c : CoreId) : { s.takeWritten c with cores := s.cores } = s :=
  (congrArg (fun v : State => { v with cores := s.cores }) (s.takeMaps_frame c).1 :)

theorem State.lost_takeWritten (s : State) (c d : CoreId) : ((s.takeWritten c).core d).lostArrays = if d = c then [] else (s.core d).lostArrays := by
  unfold State.takeWritten
  split
  case isTrue h => rw [h, State.core_modCore_same]
  case isFalse h => rw [State.core_modCore_other _ _ _ _ h, (s.takeMaps_frame c).2 d h]

/-- After the turns no core has a lost layer. -/
theorem State.foldl_takeWritten (s : State) : { (List.range 96).foldl (fun (s : State) i => s.takeWritten (asCore i)) s with cores := s.cores } = s ∧
    ∀ d, (((List.range 96).foldl (fun (s : State) i => s.takeWritten (asCore i)) s).core d).lostArrays = [] := by
  have hlost (l : List CoreId) (s : State) (d : CoreId) : d ∈ l ∨ (s.core d).lostArrays = [] → ((l.foldl State.takeWritten s).core d).lostArrays = [] := by
    induction l generalizing s with
    | nil => exact fun h => h.resolve_left (List.not_mem_nil)
    | cons c l ih =>
      refine fun h => ih (s.takeWritten c) ?_
      rw [State.lost_takeWritten]
      by_cases hd : d = c
      · exact .inr (if_pos hd)
      · rw [if_neg hd]
        exact h.imp (fun hm => (List.mem_cons.1 hm).resolve_left hd) id
  refine ⟨foldl_keeps (f := fun (s : State) i => s.takeWritten (asCore i)) (fun u => { u with cores := s.cores }) (fun u i =>
    (congrArg (fun v : State => { v with cores := s.cores }) (u.takeWritten_frame (asCore i)) :)) (List.range 96) s, fun d => ?_⟩
  rw [foldl_range_asCore State.takeWritten]
  exact hlost _ s d (.inl (mem_allCores d))

/-- An almanac in force leaves the lost layers of every core (R158). -/
theorem State.lost_installAlmanac (s : State) (a : Almanac) (aux : List AuxSec) (d : CoreId) : ((s.installAlmanac a aux).core d).lostArrays = (s.core d).lostArrays := by
  have hstore (k : Core) (n : Nat) (bs : Bytes) : (k.storeAt n bs).lostArrays = k.lostArrays := rfl
  have hplace (u : State) (e : CoreEnt) : ((u.placeCore a aux e).core d).lostArrays = (u.core d).lostArrays := by
    unfold State.placeCore
    by_cases hd : d = asCore e.core
    · rw [hd, State.core_modCore_same]
      dsimp only
      split <;> split <;> split <;> rfl
    · rw [State.core_modCore_other _ _ _ _ hd]
  exact foldl_keeps (f := fun (s : State) e => s.placeCore a aux e) (fun u => (u.core d).lostArrays) hplace a.cores s

/-- What an almanac in force leaves of the state. -/
theorem State.installAlmanac_frame (s : State) (a : Almanac) (aux : List AuxSec) :
    { s.installAlmanac a aux with cores := s.cores, serve := s.serve, alm := s.alm, tick := s.tick } = s :=
  foldl_keeps (f := fun (s : State) e => s.placeCore a aux e) (fun u => { u with cores := s.cores, serve := s.serve, alm := s.alm, tick := s.tick }) (fun _ _ => rfl) a.cores s

/-- COMMITTED (R399, R401). -/
theorem committed_commits {s : State} {x : AuxSec} (h0 : s.power = 0) (hp : s.tick.phase = .applied) (hl : s.loadPhase = 3) (hh : s.loadHeld = false) (hx : auxOf s.aux 0 0 = some x)
    (hv : s.loadVotes 2 = true) :
    ∃ t, exec .committed s = .next t ∧ t.loadPhase = 0 ∧ t.alm = some (almOf x.content) ∧ t.genActive = imgGen s.load.metadata ∧ t.genStaged = 0 ∧
        t.tick.seq = 0 ∧ t.tick.leapNext = true ∧ t.load.oldMeta = s.load.metadata ∧ t.load.oldEscrow = s.load.escrow ∧ t.load.metadata = [] ∧
        t.grp.record.generation = imgGen s.load.metadata ∧ t.grp.record.staged = 0 ∧ t.fuses = s.fuses ∧ ∀ c, (t.core c).lostArrays = [] := by
  have hrun : exec .committed s = execCommitted s := rfl
  unfold execCommitted at hrun
  rw [if_neg (by simp [h0, hp]), if_neg (by rw [decide_eq_false (by omega), Bool.and_false]; decide), if_neg (by simp [hl, hh, hv]), hx] at hrun
  dsimp only at hrun
  have h1 : LoadOnly s (if s.load.reader && s.groupSize == 1 then s.tellPeers (.ended 0) else s) ∧ (if s.load.reader && s.groupSize == 1 then s.tellPeers (.ended 0) else s).load = s.load := by
    split
    · exact ⟨.sendFrames s _, (congrArg State.load (s.sendFrames_fab _) :)⟩
    · exact ⟨.refl s, rfl⟩
  generalize (if s.load.reader && s.groupSize == 1 then s.tellPeers (.ended 0) else s) = s1 at hrun h1
  obtain ⟨hframe2, hlost2⟩ := s1.foldl_takeWritten
  have hfold : (List.range 96).foldl (fun (s : State) i => (s.takeMaps (asCore i)).modCore (asCore i) fun k => { k with lostArrays := [] }) s1 =
    (List.range 96).foldl (fun (s : State) i => s.takeWritten (asCore i)) s1 := rfl
  rw [hfold] at hrun
  generalize (List.range 96).foldl (fun (s : State) i => s.takeWritten (asCore i)) s1 = s2 at hrun hframe2 hlost2
  have hframe3 := s2.installAlmanac_frame (almOf x.content) s2.aux
  have hlost3 := s2.lost_installAlmanac (almOf x.content) s2.aux
  have halm3 := (s2.installAlmanac_alm (almOf x.content) s2.aux).1
  generalize s2.installAlmanac (almOf x.content) s2.aux = s3 at hrun hframe3 hlost3 halm3
  have hfuses : s3.fuses = s.fuses := (congrArg State.fuses hframe3 :).trans ((congrArg State.fuses hframe2 :).trans (congrArg State.fuses h1.1.frame :))
  have hload : s3.load = s.load := (congrArg State.load hframe3 :).trans ((congrArg State.load hframe2 :).trans h1.2)
  refine ⟨_, hrun, State.post_loadPhase .., (State.post_alm ..).trans halm3, State.post_genActive .., State.post_genStaged .., congrArg Tick.seq (State.post_tick ..), congrArg Tick.leapNext (State.post_tick ..),
    congrArg Load.oldMeta (State.post_load ..), (congrArg Load.oldEscrow (State.post_load ..)).trans (congrArg Load.escrow hload :), congrArg Load.metadata (State.post_load ..),
    congrArg (fun g : Group => g.record.generation) (State.post_grp ..), congrArg (fun g : Group => g.record.staged) (State.post_grp ..), (State.post_fuses ..).trans hfuses, fun c => ?_⟩
  exact (congrArg Core.lostArrays (State.core_of_cores (State.post_cores ..) c)).trans ((hlost3 c).trans (hlost2 c))

/-- Settles O42: the phases of a load. -/
theorem loadPhases : Obligations.LoadPhases := by
  intro s h0
  refine ⟨fun hp hl hesc hend hh hv => ?_, fun hp hl he hh hold hlanes => writing_writes h0 hp hl he hh hold hlanes, fun hl hv => memberWritten_spec h0 hl hv,
    fun x hp hl hh hx hv => committed_commits h0 hp hl hh hx (State.loadVotes_of hv), fun hp hl hesc hst => ?_⟩
  · exact if_neg (by rw [State.loadVotes_of hv]; simp [h0, hp, hl, hesc, hend, hh])
  · exact ⟨_, (if_neg (by simp [h0, hp])).trans (if_pos (by simp [hl, hesc, hst])), rfl, rfl, rfl, rfl, by rw [← hl]; rfl⟩

end Sys2Proof.Machine
end

section
/-! A request's life on the device, and the commands of the host about it (R316, R340 to R343, R355, R363 to R371, R400, R461, R524, R588). -/
namespace Sys2Proof.Machine

/-! ### The request table -/

theorem State.req_setReq (s : State) (i : Nat) (r : Req) (j : Nat) : (s.setReq i r).req j = if j = i then r else s.req j := smGet_smSet ..

theorem State.req_modReq (s : State) (i : Nat) (f : Req → Req) (j : Nat) : (s.modReq i f).req j = if j = i then f (s.req i) else s.req j := smGet_smSet ..

@[simp] theorem State.req_modReq_same (s : State) (i : Nat) (f : Req → Req) : (s.modReq i f).req i = f (s.req i) := (s.req_modReq i f i).trans (if_pos rfl)

theorem State.req_modReq_other (s : State) (i : Nat) (f : Req → Req) {j : Nat} (h : j ≠ i) : (s.modReq i f).req j = s.req j := (s.req_modReq i f j).trans (if_neg h)

@[simp] theorem State.sd_modReq (s : State) (i : Nat) (f : Req → Req) (d : Nat) : (s.modReq i f).sd d = s.sd d := rfl

theorem State.req_of_srv {s t : State} (h : t.srv.reqs = s.srv.reqs) (j : Nat) : t.req j = s.req j := congrArg (smGet reqDefault · j) h

theorem State.sd_of_serve {s t : State} (h : t.serve = s.serve) (d : Nat) : t.sd d = s.sd d := congrArg (smGet serveDefault · d) h

theorem State.srv_writeCarve (s : State) (o a : Nat) (bs : Bytes) : (s.writeCarve o a bs).srv = s.srv := by
  unfold State.writeCarve
  split <;> rfl

/-- Both dies changed in turn. -/
theorem State.sd_both (s : State) (f : Nat → ServeDie → ServeDie) {x : Nat} (hx : x < 2) : ([0, 1].foldl (fun s d => s.modSd d (f d)) s).sd x = f x (s.sd x) := by
  rcases (show x = 0 ∨ x = 1 by omega) with rfl | rfl
  · exact (State.sd_modSd (s.modSd 0 (f 0)) 1 0 _).trans ((if_neg (by decide)).trans ((State.sd_modSd s 0 0 _).trans (if_pos rfl)))
  · exact (State.sd_modSd (s.modSd 0 (f 0)) 1 1 _).trans ((if_pos rfl).trans (congrArg (f 1) ((State.sd_modSd s 0 1 _).trans (if_neg (by decide)))))

theorem State.both_frame (s : State) (f : Nat → ServeDie → ServeDie) : { [0, 1].foldl (fun s d => s.modSd d (f d)) s with serve := s.serve } = s := rfl

/-! ### A request that is freed -/

theorem State.srv_hideEnds (s : State) (o : Option (Nat × Nat × Nat × W32)) : (s.hideEnds o).srv = s.srv ∧ (s.hideEnds o).serve = s.serve := by
  cases o with
  | none => exact ⟨rfl, rfl⟩
  | some h => exact ⟨State.completeCmd_srv _ _ _ _ _, State.completeCmd_serve _ _ _ _ _⟩

theorem State.srv_listEnding (s : State) (i : Nat) (e : Ending) : (s.listEnding i e).srv = s.srv ∧ (s.listEnding i e).serve = s.serve := by
  unfold State.listEnding
  split <;> exact ⟨rfl, rfl⟩

/-- The request table and the serving dies after a request is freed (R364, R371). -/
theorem State.freeReq_spec (s : State) (i st : Nat) : (∀ j, (s.freeReq i st).req j = if j = i then reqDefault i else s.req j) ∧ i ∈ (s.freeReq i st).srv.freed ∧
    ∀ x, x < 2 → (s.freeReq i st).sd x = (s.sd x).freeReq (s.req i) i (homeOf i == x) := by
  rw [State.freeReq_eq]
  have hsd : ∀ x, x < 2 → (s.clearReq i (s.req i)).sd x = (s.sd x).freeReq (s.req i) i (homeOf i == x) := fun x hx => s.sd_both (fun d x => x.freeReq (s.req i) i (homeOf i == d)) hx
  have hsrv : (s.clearReq i (s.req i)).srv = s.srv := rfl
  generalize s.clearReq i (s.req i) = u at hsd hsrv ⊢
  obtain ⟨h1, k1⟩ := u.srv_hideEnds (s.req i).hide
  generalize u.hideEnds (s.req i).hide = v at h1 k1 ⊢
  obtain ⟨h2, k2⟩ := v.srv_listEnding (s.req i).set ⟨(s.req i).tag, st, leBytes 2 i ++ leBytes 4 (s.req i).ticket.toNat ++ leBytes 4 (s.req i).prod.toNat, v.tick.count⟩
  generalize v.listEnding (s.req i).set ⟨(s.req i).tag, st, leBytes 2 i ++ leBytes 4 (s.req i).ticket.toNat ++ leBytes 4 (s.req i).prod.toNat, v.tick.count⟩ = w at h2 k2 ⊢
  have hreqs : w.srv.reqs = s.srv.reqs := congrArg (·.reqs) (h2.trans (h1.trans hsrv))
  refine ⟨fun j => ?_, (mem_addNew _ _ _).2 (.inr rfl), fun x hx => ((State.sd_of_serve (s := w) rfl x).trans (State.sd_of_serve (k2.trans k1) x)).trans (hsd x hx)⟩
  refine (State.req_setReq _ i _ j).trans ?_
  split
  · rfl
  · exact State.req_of_srv hreqs j

theorem ServeDie.freeReq_clear (x : ServeDie) (r : Req) (i : Nat) (home : Bool) :
    (x.freeReq r i home).pagesOf i = [] ∧ (x.freeReq r i home).dir i = ⟨0, 0, 0, 0⟩ ∧ (x.freeReq r i home).own i = [] := by
  have hdir : (x.freeReq r i home).dir i = dirDefault i := smGet_smSet_same dirDefault x.dirs i (dirDefault i)
  have hown : (x.freeReq r i home).own i = [] := smGet_smDel_same (fun _ => []) x.resv i
  refine ⟨?_, hdir, hown⟩
  refine List.map_eq_nil_iff.2 (List.filter_eq_nil_iff.2 fun e he => ?_)
  have hne := (List.mem_filter.1 he).2
  simpa using hne

/-- REQUEST_END (R364, R365). -/
theorem requestEnd_ends {i : Nat} {s : State} (hp : s.tick.phase = .applied) (hf : s.inFlight i = false) (hs : (s.req i).state ≠ .free)
    (he : (s.req i).final.isSome = true ∨ (s.req i).finish.isSome = true) : ∃ t, exec (.requestEnd i) s = .next t ∧
      (t.req i).state = .free ∧ i ∈ t.srv.freed ∧ (∀ j, j ≠ i → t.req j = s.req j) ∧ (∀ x, x < 2 → (t.sd x).pagesOf i = [] ∧ (t.sd x).dir i = ⟨0, 0, 0, 0⟩ ∧ (t.sd x).own i = []) := by
  have hrun : exec (.requestEnd i) s = execRequestEnd i s := rfl
  unfold execRequestEnd at hrun
  rw [if_neg (by simp [hp, hf, hs])] at hrun
  have hfreed (u : State) (st : Nat) (hu : ∀ j, j ≠ i → u.req j = s.req j) : ((u.freeReq i st).req i).state = .free ∧ i ∈ (u.freeReq i st).srv.freed ∧ (∀ j, j ≠ i → (u.freeReq i st).req j = s.req j) ∧
      (∀ x, x < 2 → ((u.freeReq i st).sd x).pagesOf i = [] ∧ ((u.freeReq i st).sd x).dir i = ⟨0, 0, 0, 0⟩ ∧ ((u.freeReq i st).sd x).own i = []) := by
    obtain ⟨hreq, hmem, hsd⟩ := u.freeReq_spec i st
    refine ⟨by rw [hreq, if_pos rfl]; rfl, hmem, fun j hj => (hreq j).trans ((if_neg hj).trans (hu j hj)), fun x hx => ?_⟩
    rw [hsd x hx]
    exact ServeDie.freeReq_clear _ _ _ _
  have hput (e : TokEnt) : ∀ j, j ≠ i → (s.ringPut i e).req j = s.req j := fun j hj => by
    unfold State.ringPut
    dsimp only
    rw [State.req_modReq_other _ _ _ hj]
    exact State.req_of_srv (congrArg (·.reqs) ((State.srv_writeCarve _ _ _ _).trans (State.srv_writeCarve _ _ _ _))) j
  cases hfinal : (s.req i).final with
  | some st =>
    rw [hfinal] at hrun
    exact ⟨_, hrun, hfreed s st fun _ _ => rfl⟩
  | none =>
    cases hfin : (s.req i).finish with
    | none => simp [hfinal, hfin] at he
    | some c =>
      rw [hfinal, hfin] at hrun
      refine ⟨_, hrun, hfreed _ _ fun j hj => ?_⟩
      refine (State.req_of_srv (s := if (s.req i).gen == 0 then s else s.noTokenEnd i c) rfl j).trans ?_
      split
      · rfl
      · exact hput _ j hj

/-! ### The queue's head leaves -/

theorem State.atStep_of {s : State} {n : Nat} (hp : s.tick.phase = .applied) (hs : s.srv.stage ≤ n) : s.atStep n = true := by simp [State.atStep, hp, hs]

/-- QUEUE_DEPARTURE (R343, R400). -/
theorem queueDeparture_departs {i : Nat} {s : State} (hp : s.tick.phase = .applied) (x0 x1 : ServeDie × Nat) (hs : s.srv.stage ≤ 6) (hq : s.queueHead = some i) (hg : s.genStaged = 0) (ha : s.genActive ≠ 0)
    (hr : (s.req i).genReq = 0 ∨ (s.req i).genReq = s.genActive) (h0 : s.reserve 0 i (s.req i) = some x0) (h1 : s.reserve 1 i (s.req i) = some x1) :
    ∃ t, exec .queueDeparture s = .next t ∧ t.req i = { s.req i with
        state := .prefill, gen := s.genActive, emit := (s.req i).promptLen, next := 0, since := s.tick.count
        histAddr := BitVec.ofNat 64 (4096 * (if homeOf i = 0 then x0.2 else x1.2)) } ∧ t.sd 0 = x0.1 ∧ t.sd 1 = x1.1 ∧ t.srv.stage = 6 ∧ (∀ j, j ≠ i → t.req j = s.req j) := by
  have hrun : exec .queueDeparture s = execQueueDeparture s := rfl
  unfold execQueueDeparture at hrun
  rw [hq] at hrun
  dsimp only at hrun
  have hgen : ((s.req i).genReq == 0 || (s.req i).genReq == s.genActive) = true := by rcases hr with h | h <;> simp [h]
  rw [if_neg (by rw [State.atStep_of hp hs, hg, hgen, beq_eq_false_iff_ne.2 ha]; decide), h0, h1] at hrun
  dsimp only at hrun
  have hreq : (((s.setSd 0 x0.1).setSd 1 x1.1).begun 6).srv.reqs = s.srv.reqs := rfl
  have hstage : (((s.setSd 0 x0.1).setSd 1 x1.1).begun 6).srv.stage = 6 := rfl
  have hgen : (((s.setSd 0 x0.1).setSd 1 x1.1).begun 6).genActive = s.genActive := rfl
  have hcount : (((s.setSd 0 x0.1).setSd 1 x1.1).begun 6).tick.count = s.tick.count := rfl
  have hsd0 : (((s.setSd 0 x0.1).setSd 1 x1.1).begun 6).sd 0 = x0.1 := (State.sd_of_serve (s := (s.setSd 0 x0.1).setSd 1 x1.1) rfl 0).trans (by
    rw [State.sd_setSd, if_neg (by decide), State.sd_setSd, if_pos rfl])
  have hsd1 : (((s.setSd 0 x0.1).setSd 1 x1.1).begun 6).sd 1 = x1.1 := (State.sd_of_serve (s := (s.setSd 0 x0.1).setSd 1 x1.1) rfl 1).trans (by
    rw [State.sd_setSd, if_pos rfl])
  generalize ((s.setSd 0 x0.1).setSd 1 x1.1).begun 6 = u at hrun hreq hstage hgen hcount hsd0 hsd1
  refine ⟨_, hrun, (State.req_modReq_same u i _).trans ?_, hsd0, hsd1, hstage, fun j hj => (State.req_modReq_other u i _ hj).trans (State.req_of_srv hreq j)⟩
  rw [State.req_of_srv hreq, hgen, hcount]

/-! ### Rebuild and hidden span -/

/-- A request whose rebuild from position p begins (R371). -/
def Req.rebuilt (r : Req) (p : Nat) : Req :=
  { r with state := if r.emit ≤ p + 1 then .decode else .rebuild, next := min p (r.emit - 1), rebuildAt := none, causes := [], step := none }

/-- REBUILD_START (R371). -/
theorem rebuildStart_starts {i p : Nat} {s : State} (hp : s.tick.phase = .applied) (hs : s.srv.stage ≤ 5) (hf : s.inFlight i = false)
    (hst : (s.req i).state = .prefill ∨ (s.req i).state = .decode ∨ (s.req i).state = .rebuild ∨ (s.req i).state = .held) (hr : (s.req i).rebuildAt = none) (hl : s.lostStart i = some p) :
    (∀ x0 x1, s.reframe i 0 = some x0 → s.reframe i 1 = some x1 → ∃ t, exec (.rebuildStart i) s = .next t ∧
        t.req i = { s.req i with
          state := if (s.req i).emit ≤ p + 1 then .decode else .rebuild, next := min p ((s.req i).emit - 1), rebuildAt := none, causes := [], step := none } ∧
        ((t.sd 0).dir i).len = p ∧ ((t.sd 1).dir i).len = p ∧ (t.sd 0).pages = x0.pages ∧ (t.sd 1).pages = x1.pages ∧ (t.sd (homeOf i)).serveEvt.getLsbD 2 = true ∧
        (∀ j, j ≠ i → t.req j = s.req j)) ∧
      ((s.reframe i 0 = none ∨ s.reframe i 1 = none) → ∃ t, exec (.rebuildStart i) s = .next t ∧ (t.req i).state = .held ∧ 6 ∈ (t.req i).causes ∧
        (t.req i).next = (s.req i).next ∧ t.serve = s.serve ∧ (∀ j, j ≠ i → t.req j = s.req j)) := by
  have hgo : ¬ (!s.atStep 5 || s.inFlight i || (s.req i).state == .free || (s.req i).state == .queued || (s.req i).state == .ending) = true := by
    rw [State.atStep_of hp hs, hf]
    rcases hst with h | h | h | h <;> rw [h] <;> decide
  have hrun : exec (.rebuildStart i) s = execRebuildStart i s := rfl
  unfold execRebuildStart at hrun
  rw [if_neg hgo, hr, hl] at hrun
  refine ⟨fun x0 x1 h0 h1 => ?_, fun hno => ?_⟩
  · rw [h0, h1] at hrun
    dsimp only at hrun
    rw [if_neg (by simp)] at hrun
    have hsd {x : Nat} (hx : x < 2) := (((s.setSd 0 x0).setSd 1 x1).begun 5).sd_both (fun _ x => x.modDir i fun h => { h with len := p }) hx
    have h20 : (((s.setSd 0 x0).setSd 1 x1).begun 5).sd 0 = x0 := by
      refine (State.sd_of_serve (s := (s.setSd 0 x0).setSd 1 x1) rfl 0).trans ?_
      rw [State.sd_setSd, if_neg (by decide), State.sd_setSd, if_pos rfl]
    have h21 : (((s.setSd 0 x0).setSd 1 x1).begun 5).sd 1 = x1 := (State.sd_of_serve (s := (s.setSd 0 x0).setSd 1 x1) rfl 1).trans ((State.sd_setSd _ _ _ _).trans (if_pos rfl))
    have hreq : ([0, 1].foldl (fun s d => s.modSd d fun x => x.modDir i fun h => { h with len := p }) (((s.setSd 0 x0).setSd 1 x1).begun 5)).srv.reqs = s.srv.reqs := rfl
    generalize [0, 1].foldl (fun s d => s.modSd d fun x => x.modDir i fun h => { h with len := p }) (((s.setSd 0 x0).setSd 1 x1).begun 5) = u at hrun hsd hreq
    have hu0 := (hsd (x := 0) (by decide)).trans (congrArg (fun x : ServeDie => x.modDir i fun h => { h with len := p }) h20)
    have hu1 := (hsd (x := 1) (by decide)).trans (congrArg (fun x : ServeDie => x.modDir i fun h => { h with len := p }) h21)
    have hself : u.req i = s.req i := State.req_of_srv hreq i
    have hbit (v : State) (d : Nat) : ((v.modSd (homeOf i) fun x => x.serveBit 2).sd d).dir i = (v.sd d).dir i ∧ ((v.modSd (homeOf i) fun x => x.serveBit 2).sd d).pages = (v.sd d).pages := by
      rw [State.sd_modSd]
      split
      case isTrue h => rw [h]; exact ⟨rfl, rfl⟩
      case isFalse h => exact ⟨rfl, rfl⟩
    have hdir (x : ServeDie) : ((x.modDir i fun h => { h with len := p }).dir i).len = p := congrArg Dir.len (smGet_smSet_same dirDefault _ _ _)
    refine ⟨_, hrun, ?_, ?_, ?_, ?_, ?_, ?_, fun j hj => ?_⟩
    · refine (State.req_of_srv (s := u.modReq i fun r => r.rebuilt p) rfl i).trans ((State.req_modReq_same u i _).trans ?_)
      rw [hself]
      rfl
    · rw [(hbit _ 0).1]
      exact (congrArg (fun x : ServeDie => (x.dir i).len) hu0).trans (hdir x0)
    · rw [(hbit _ 1).1]
      exact (congrArg (fun x : ServeDie => (x.dir i).len) hu1).trans (hdir x1)
    · rw [(hbit _ 0).2, State.sd_modReq, hu0]
      rfl
    · rw [(hbit _ 1).2, State.sd_modReq, hu1]
      rfl
    · rw [State.sd_modSd, if_pos rfl]
      exact (getLsbD_setBit _ _ _).trans (by simp)
    · exact (State.req_of_srv (s := u.modReq i fun r => r.rebuilt p) rfl j).trans ((State.req_modReq_other u i _ hj).trans (State.req_of_srv hreq j))
  · have hwait : exec (.rebuildStart i) s = .next ((s.begun 5).modReq i Req.awaitFrames) := by
      cases h0 : s.reframe i 0 <;> cases h1 : s.reframe i 1 <;> rw [h0, h1] at hrun
      · exact hrun
      · exact hrun
      · exact hrun
      · simp [h0, h1] at hno
    have hawait (r : Req) : r.awaitFrames.state = .held ∧ 6 ∈ r.awaitFrames.causes ∧ r.awaitFrames.next = r.next := by
      unfold Req.awaitFrames
      split
      case isTrue h => exact ⟨h, (mem_addNew _ _ _).2 (.inr rfl), rfl⟩
      case isFalse h => exact ⟨rfl, (mem_addNew _ _ _).2 (.inr rfl), rfl⟩
    refine ⟨_, hwait, ?_⟩
    rw [State.req_modReq_same]
    exact ⟨(hawait _).1, (hawait _).2.1, (hawait _).2.2, rfl, fun j hj => State.req_modReq_other _ _ _ hj⟩

/-- HIDE_APPLY (R316). -/
theorem hideApply_applies {i : Nat} {s : State} (hp : s.tick.phase = .applied) (h : Nat × Nat × Nat × W32) (hh : (s.req i).hide = some h) (hs : s.srv.stage ≤ 4) (hf : s.inFlight i = false) :
    ∃ t, exec (.hideApply i) s = .next t ∧ t.req i = { s.req i with hide := none } ∧
      (∀ x, x < 2 → (t.sd x).dir i = { (s.sd x).dir i with hideLo := h.1, hideHi := h.2.1 }) ∧ (∀ j, j ≠ i → t.req j = s.req j) := by
  have hrun : exec (.hideApply i) s = execHideApply i s := rfl
  unfold execHideApply at hrun
  rw [hh] at hrun
  dsimp only at hrun
  rw [if_neg (by rw [State.atStep_of hp hs, hf]; decide)] at hrun
  have hsd {x : Nat} (hx : x < 2) := (s.begun 4).sd_both (fun _ x => x.modDir i fun y => { y with hideLo := h.1, hideHi := h.2.1 }) hx
  have hreq : ([0, 1].foldl (fun s d => s.modSd d fun x => x.modDir i fun y => { y with hideLo := h.1, hideHi := h.2.1 }) (s.begun 4)).srv.reqs = s.srv.reqs := rfl
  generalize [0, 1].foldl (fun s d => s.modSd d fun x => x.modDir i fun y => { y with hideLo := h.1, hideHi := h.2.1 }) (s.begun 4) = u at hrun hsd hreq
  refine ⟨_, hrun, ?_, fun x hx => ?_, fun j hj => ?_⟩
  · rw [State.req_of_srv (congrArg (·.reqs) (State.completeCmd_srv _ _ _ _ _)), State.req_modReq_same, State.req_of_srv hreq]
  · rw [State.sd_of_serve (State.completeCmd_serve _ _ _ _ _), State.sd_modReq, hsd hx]
    exact smGet_smSet_same dirDefault _ _ _
  · rw [State.req_of_srv (congrArg (·.reqs) (State.completeCmd_srv _ _ _ _ _)), State.req_modReq_other _ _ _ hj, State.req_of_srv hreq]

/-! ### Migration -/

/-- One request of the old generation migrates (R400). -/
def State.migrateOne (s : State) (i : Nat) : State :=
  if !s.oldRequest i || (s.req i).migrate then s
  else
    let s := s.modReq i fun r => { r with migrate := true }
    if s.stepInFlight i then s.modReq i fun r => { r.cutStep with state := .ending } else s.finish i .migrated

theorem State.finish_other (s : State) (i : Nat) (c : EndCause) {j : Nat} (h : j ≠ i) : (s.finish i c).req j = s.req j := State.req_modReq_other _ _ _ h

theorem State.req_migrateOne_other (s : State) {i j : Nat} (h : j ≠ i) : (s.migrateOne i).req j = s.req j := by
  unfold State.migrateOne
  dsimp only
  split
  · rfl
  · split
    · rw [State.req_modReq_other _ _ _ h, State.req_modReq_other _ _ _ h]
    · rw [State.finish_other _ _ _ h, State.req_modReq_other _ _ _ h]

/-- The request table alone changes. -/
structure ReqsOnly (s t : State) : Prop where
  frame : { t with srv := { t.srv with reqs := s.srv.reqs } } = s

theorem ReqsOnly.refl (s : State) : ReqsOnly s s := ⟨rfl⟩

theorem ReqsOnly.trans {s t u : State} (h : ReqsOnly s t) (k : ReqsOnly t u) : ReqsOnly s u :=
  ⟨(congrArg (fun v : State => { v with srv := { v.srv with reqs := s.srv.reqs } }) k.frame :).trans h.frame⟩

theorem ReqsOnly.modReq (s : State) (i : Nat) (f : Req → Req) : ReqsOnly s (s.modReq i f) := ⟨rfl⟩

theorem ReqsOnly.migrateOne (s : State) (i : Nat) : ReqsOnly s (s.migrateOne i) := by
  unfold State.migrateOne
  dsimp only
  split
  · exact .refl s
  · split
    · exact (ReqsOnly.modReq s i _).trans (.modReq _ i _)
    · exact (ReqsOnly.modReq s i _).trans (.modReq _ i _)

theorem ReqsOnly.foldl_migrateOne (l : List Nat) (s : State) : ReqsOnly s (l.foldl State.migrateOne s) := by
  induction l generalizing s with
  | nil => exact .refl s
  | cons i l ih => exact (ReqsOnly.migrateOne s i).trans (ih _)

theorem Req.cutStep_keeps (r : Req) : r.cutStep.migrate = r.migrate ∧ r.cutStep.finish = r.finish := by
  unfold Req.cutStep
  split <;> exact ⟨rfl, rfl⟩

theorem State.req_migrateOne_same {s : State} {i : Nat} (ho : s.oldRequest i = true) (hm : (s.req i).migrate = false) (hn : (s.req i).finish = none) (hl : (s.req i).final = none) :
    ((s.migrateOne i).req i).migrate = true ∧ ((s.migrateOne i).req i).state = .ending ∧ ((s.migrateOne i).req i).finish = if s.stepInFlight i then none else some .migrated := by
  have hsame : (s.modReq i fun r => { r with migrate := true }).stepInFlight i = s.stepInFlight i := rfl
  unfold State.migrateOne
  rw [if_neg (by simp [ho, hm])]
  dsimp only
  rw [hsame]
  cases s.stepInFlight i with
  | true =>
    rw [if_pos rfl, State.req_modReq_same, State.req_modReq_same]
    obtain ⟨hmig, hfin⟩ := Req.cutStep_keeps { s.req i with migrate := true }
    exact ⟨hmig, rfl, hfin.trans hn⟩
  | false =>
    rw [if_neg (by decide)]
    unfold State.finish
    rw [State.req_modReq_same, State.req_modReq_same, if_neg (by simp [hn, hl])]
    exact ⟨rfl, rfl, rfl⟩

/-- What a request reads to migrate, and its entry, stay while the others migrate. -/
theorem State.foldl_migrateOne (i : Nat) (l : List Nat) (s : State) (hi : i ∉ l) :
    (l.foldl State.migrateOne s).req i = s.req i := by
  induction l generalizing s with
  | nil => rfl
  | cons j l ih =>
    obtain ⟨hj, hl⟩ := List.ne_and_not_mem_of_not_mem_cons hi
    exact (ih _ hl).trans (s.req_migrateOne_other hj)

/-- MIGRATE (R400). -/
theorem migrate_migrates {i : Nat} {s : State} (hp : s.tick.phase = .applied) (h0 : s.power = 0) (hl : s.loadPhase = 2) (hd : s.load.drainTicks ≠ 0) (he : s.load.ended = none)
    (ht : s.load.drainTicks ≤ (s.tick.count - s.load.drainSince).toNat) (ho : s.oldRequest i = true) (hn : s.reqIds.Nodup) (hi : i ∈ s.reqIds) (hm : (s.req i).migrate = false)
    (hf : (s.req i).finish = none) (hfin : (s.req i).final = none) :
    ∃ t, exec .migrate s = .next t ∧ t.load.evt.getLsbD 2 = true ∧ (t.req i).migrate = true ∧ (t.req i).state = .ending ∧
      (t.req i).finish = (if s.stepInFlight i then none else some .migrated) := by
  have hany : s.reqIds.any s.oldRequest = true := List.any_eq_true.2 ⟨i, hi, ho⟩
  have hrun : exec .migrate s = .next ((s.reqIds.foldl State.migrateOne s).loadBit 2) := if_neg (by
    rw [h0, hp, hl, he, hany, beq_eq_false_iff_ne.2 hd, decide_eq_false (Nat.not_lt.2 ht)]
    decide)
  obtain ⟨a, b, hab⟩ := List.append_of_mem hi
  rw [hab] at hn
  obtain ⟨-, hb, hdis⟩ := List.nodup_append.1 hn
  have hia : i ∉ a := fun h => hdis i h i List.mem_cons_self rfl
  have hib : i ∉ b := (List.nodup_cons.1 hb).1
  have hframe := (ReqsOnly.foldl_migrateOne a s).frame
  have hreq := State.foldl_migrateOne i a s hia
  have hlast := State.foldl_migrateOne i b ((a.foldl State.migrateOne s).migrateOne i) hib
  have hall : s.reqIds.foldl State.migrateOne s = b.foldl State.migrateOne ((a.foldl State.migrateOne s).migrateOne i) := by rw [hab, List.foldl_append, List.foldl_cons]
  generalize a.foldl State.migrateOne s = u at hframe hreq hlast hall
  have hgen : u.genActive = s.genActive := (congrArg State.genActive hframe :)
  have hstep : u.stepInFlight i = s.stepInFlight i := (congrArg (fun v : State => v.stepInFlight i) hframe :)
  have hold : u.oldRequest i = true := by
    unfold State.oldRequest at ho ⊢
    rw [hreq, hgen]
    exact ho
  obtain ⟨h1, h2, h3⟩ := State.req_migrateOne_same hold (by rw [hreq]; exact hm) (by rw [hreq]; exact hf) (by rw [hreq]; exact hfin)
  have hend : ((s.reqIds.foldl State.migrateOne s).loadBit 2).req i = (u.migrateOne i).req i := (State.req_of_srv (s := s.reqIds.foldl State.migrateOne s) rfl i).trans (by rw [hall]; exact hlast)
  refine ⟨_, hrun, (getLsbD_setBit _ _ _).trans (by simp), ?_⟩
  rw [hend, ← hstep]
  exact ⟨h1, h2, h3⟩

/-! ### Ending completions -/

/-- ENDING_COMPLETION (R588). -/
theorem endingCompletion_writes {i : Nat} {e : Ending} {rest : List Ending} {s : State}
    (hi : (List.range 16).find? (fun j => !(s.ring j).endings.isEmpty && decide (0 < (s.ring j).cplFree)) = some i) (he : (s.ring i).endings = e :: rest) :
    ∃ t, exec .endingCompletion s = .next t ∧ (t.ring i).endings = rest ∧ (t.ring i).cplProd = (s.ring i).cplProd + 1 ∧
      t = (s.setRing i { s.ring i with endings := rest }).putCompletion i e.tag 0x10 e.status e.result true e.tick ∧
      (∀ j, j ≠ i → t.ring j = s.ring j) ∧ { t with rings := s.rings } = s := by
  have hrun : exec .endingCompletion s = execEndingCompletion s := rfl
  unfold execEndingCompletion at hrun
  rw [hi] at hrun
  dsimp only at hrun
  rw [he] at hrun
  refine ⟨_, hrun, ?_, ?_, rfl, fun j hj => ?_, ?_⟩
  · simp
  · simp
  · rw [State.ring_putCompletion_other _ hj, State.ring_setRing_other _ _ _ _ hj]
  · have h := State.putCompletion_rings (s.setRing i { s.ring i with endings := rest }) i e.tag 0x10 e.status e.result true e.tick
    generalize (s.setRing i { s.ring i with endings := rest }).putCompletion i e.tag 0x10 e.status e.result true e.tick = t at h ⊢
    exact (congrArg (fun v : State => { v with rings := s.rings }) h :)

/-- Settles O38: each step of a request's life at its apply point. -/
theorem requestLife : Obligations.RequestLife := by
  refine ⟨fun i s hp => ⟨fun x0 x1 hs hq hg ha hr h0 h1 => queueDeparture_departs hp x0 x1 hs hq hg ha hr h0 h1, fun hst hf hc hr hw => if_neg ?_, fun hw hf hst hl => (if_neg ?_).trans ?_,
    fun p hs hf hst hr hl => rebuildStart_starts hp hs hf hst hr hl, fun h hh hs hf => hideApply_applies hp h hh hs hf, fun hf hs he => requestEnd_ends hp hf hs he,
    fun h0 hl hd he ht ho hn hi hm hf hfin => migrate_migrates hp h0 hl hd he ht ho hn hi hm hf hfin⟩, fun i e rest s hi he => endingCompletion_writes hi he⟩
  · rw [hp, hst, hf, hc, hr, decide_eq_false (Nat.not_le.2 hw)]
    decide
  · rw [hp, hf, decide_eq_false (Nat.not_lt.2 hw)]
    simpa using hst
  · unfold State.finish State.modReq
    exact congrArg (fun r : Req => Host.Outcome.next (s.setReq i r)) (if_neg (by simp [hf, hl]))

end Sys2Proof.Machine
end

section
/-! The host's commands about requests: ADMIT, CANCEL, HIDE and DRAFT (R316, R340 to R342, R355, R365, R366, R462). -/
namespace Sys2Proof.Machine

/-! ### ADMIT -/

/-- The prompt that an ADMIT record names (R340). -/
def State.promptOf (s : State) (h : HostCmd) (bs : Bytes) : List (List Nat) :=
  if 65535 < leAt bs 16 4 then [] else (List.range (leAt bs 16 4)).map fun i => idsOf (readBytes (s.carve (s.ring h.set.val).owner) (leAt bs 24 8 + 32 * i) 32) s.heads

/-- An ADMIT turned away with a status. -/
def State.turnedAway (s : State) (h : HostCmd) (st : Nat) : State := (s.modSd 0 fun x => x.serveBit 0).completeCmd h 0x10 st []

/-- A request enters its entry, with its place in the queue (R342). -/
def State.enterReq (s : State) (i : Nat) (r : Req) : State := { s.setReq i r with srv := { (s.setReq i r).srv with nextOrder := s.srv.nextOrder + 1 } }

theorem State.enterReq_spec (s : State) (i : Nat) (r : Req) : (s.enterReq i r).req i = r ∧ (∀ j, j ≠ i → (s.enterReq i r).req j = s.req j) ∧ (s.enterReq i r).serve = s.serve ∧
    (s.enterReq i r).srv.nextOrder = s.srv.nextOrder + 1 ∧ { s.enterReq i r with srv := s.srv } = s := by
  have h (j : Nat) : (s.enterReq i r).req j = (s.setReq i r).req j := rfl
  refine ⟨?_, fun j hj => ?_, rfl, rfl, rfl⟩
  · rw [h, State.req_setReq, if_pos rfl]
  · rw [h, State.req_setReq, if_neg hj]

/-- A random number drawn for a seed that the host has not given (R342). -/
def State.drawSeed (s : State) (seeded : Bool) : State := if seeded then s else { s with free := s.free + 1 }

theorem State.drawSeed_frame (s : State) (seeded : Bool) : { s.drawSeed seeded with free := s.free } = s ∧ (s.drawSeed seeded).free = if seeded then s.free else s.free + 1 := by
  cases seeded <;> exact ⟨rfl, rfl⟩

/-- The state in which a request is admitted, before its command completes (R340, R342). -/
def State.admitting (s : State) (h : HostCmd) (bs : Bytes) (seed : W64) (prompt : List (List Nat)) (i : Nat) : State :=
  (s.modSd (homeOf i) fun x => { x with ticket := x.ticket + 1 }).enterReq i (admitted h bs seed (s.sd (homeOf i)).ticket i s.srv.nextOrder prompt)

theorem State.admitting_spec (s : State) (h : HostCmd) (bs : Bytes) (seed : W64) (prompt : List (List Nat)) (i : Nat) :
    (s.admitting h bs seed prompt i).req i = admitted h bs seed (s.sd (homeOf i)).ticket i s.srv.nextOrder prompt ∧ (∀ j, j ≠ i → (s.admitting h bs seed prompt i).req j = s.req j) ∧
      ((s.admitting h bs seed prompt i).sd (homeOf i)).ticket = (s.sd (homeOf i)).ticket + 1 ∧ (s.admitting h bs seed prompt i).srv.nextOrder = s.srv.nextOrder + 1 ∧
      { s.admitting h bs seed prompt i with srv := s.srv, serve := s.serve } = s := by
  have hsd : ((s.modSd (homeOf i) fun x => { x with ticket := x.ticket + 1 }).sd (homeOf i)).ticket = (s.sd (homeOf i)).ticket + 1 :=
    congrArg ServeDie.ticket ((s.sd_modSd (homeOf i) (homeOf i) _).trans (if_pos rfl))
  have hreq (j : Nat) : (s.modSd (homeOf i) fun x => { x with ticket := x.ticket + 1 }).req j = s.req j := rfl
  have horder : (s.modSd (homeOf i) fun x => { x with ticket := x.ticket + 1 }).srv = s.srv := rfl
  have hframe : { s.modSd (homeOf i) fun x => { x with ticket := x.ticket + 1 } with serve := s.serve } = s := rfl
  unfold State.admitting
  generalize (s.modSd (homeOf i) fun x => { x with ticket := x.ticket + 1 }) = u at hsd hreq horder hframe ⊢
  obtain ⟨hown, hother, hserve, hnext, hrest⟩ := u.enterReq_spec i (admitted h bs seed (s.sd (homeOf i)).ticket i s.srv.nextOrder prompt)
  refine ⟨hown, fun j hj => (hother j hj).trans (hreq j), ?_, hnext.trans (by rw [horder]), ?_⟩
  · rw [State.sd_of_serve hserve, hsd]
  · exact (congrArg (fun v : State => { v with srv := s.srv, serve := s.serve }) hrest :).trans (congrArg (fun v : State => { v with srv := s.srv }) hframe :)

/-- ADMIT (R340 to R342). -/
theorem admitReq_admits {h : HostCmd} {a : W64} {s : State} (hh : s.handles h 0x10 = true) :
    let bs := readBytes (s.carve (s.ring h.set.val).owner) a.toNat 128
    let seeded := leAt bs 0 1 / 64 % 2 == 1
    let seed := if seeded then BitVec.ofNat 64 (leAt bs 8 8) else (Config.random s.free).setWidth 64
    let fits := leAt bs 24 8 + 32 * leAt bs 16 4 ≤ s.rings.carveSize ∧ leAt bs 32 8 + 64 + 32 * 2 ^ (leAt bs 1 1 % 16) ≤ s.rings.carveSize
    (s.rings.carveSize < a.toNat + 128 → exec (.admitReq h a) s = .next (s.turnedAway h 0x102)) ∧
    (a.toNat + 128 ≤ s.rings.carveSize →
      (s.admitStatus bs (s.promptOf h bs) ≠ 0 → exec (.admitReq h a) s = .next (s.turnedAway h (s.admitStatus bs (s.promptOf h bs)))) ∧
      (s.admitStatus bs (s.promptOf h bs) = 0 → ¬ fits → exec (.admitReq h a) s = .next (s.turnedAway h 0x102)) ∧
      (s.admitStatus bs (s.promptOf h bs) = 0 → fits → exec (.admitReq h a) s = .next (((s.drawSeed seeded).admitting h bs seed (s.promptOf h bs) s.freeEntry).completeCmd h 0x10 0
        (leBytes 2 s.freeEntry ++ leBytes 4 ((s.drawSeed seeded).sd (homeOf s.freeEntry)).ticket.toNat ++ leBytes 8 seed.toNat)))) := by
  intro bs seeded seed fits
  have hhand : ¬ (!s.handles h 0x10) = true := by simp [hh]
  have hfit : (!s.inCarve (leAt bs 24 8) (32 * leAt bs 16 4) || !s.inCarve (leAt bs 32 8) (64 + 32 * 2 ^ (leAt bs 1 1 % 16))) = true ↔ ¬ fits := by
    have hassoc : leAt bs 32 8 + (64 + 32 * 2 ^ (leAt bs 1 1 % 16)) = leAt bs 32 8 + 64 + 32 * 2 ^ (leAt bs 1 1 % 16) := (Nat.add_assoc _ _ _).symm
    unfold State.inCarve
    rw [hassoc]
    simp only [Bool.or_eq_true, Bool.not_eq_true', decide_eq_false_iff_not, fits, not_and_or]
  refine ⟨fun hlt => (if_neg hhand).trans (if_pos (by simpa [State.inCarve] using hlt)), fun hin => ?_⟩
  have hcarve : ¬ (!s.inCarve a.toNat 128) = true := by simpa [State.inCarve] using hin
  refine ⟨fun hst => (if_neg hhand).trans ((if_neg hcarve).trans (if_pos hst)), fun hst hno => (if_neg hhand).trans ((if_neg hcarve).trans ((if_neg (not_not.2 hst)).trans (if_pos (hfit.2 hno)))),
    fun hst hyes => ?_⟩
  exact (if_neg hhand).trans ((if_neg hcarve).trans ((if_neg (not_not.2 hst)).trans (if_neg fun hb => hfit.1 hb hyes)))

/-! ### CANCEL, HIDE and DRAFT -/

theorem State.ticketed_some {s : State} {q : BitVec 16} {tk : W32} {r : Req} (h : s.ticketed q tk = some r) : r = s.req q.toNat := by
  unfold State.ticketed at h
  dsimp only at h
  split at h
  · cases h
  · exact (Option.some.inj h).symm

/-- CANCEL (R365). -/
theorem cancel_cancels {h : HostCmd} {q : BitVec 16} {tk : W32} {s : State} (hh : s.handles h 0x11 = true) (hheld : s.held = false) (hp : s.tick.phase = .applied) (hs : s.srv.stage ≤ 3) :
    (s.ticketed q tk = none → exec (.cancel h q tk) s = .next (s.completeCmd h 0x11 0x104 [])) ∧
      (∀ r, s.ticketed q tk = some r →
        let b := s.begun 3
        (r.final.isSome = true → exec (.cancel h q tk) s = .next (b.completeCmd h 0x11 0x104 [])) ∧
        (r.final = none → r.state = .queued → exec (.cancel h q tk) s = .next ((b.finish q.toNat .cancelled).completeCmd h 0x11 0 [])) ∧
        (r.final = none → r.state ≠ .queued → s.stepInFlight q.toNat = true →
          exec (.cancel h q tk) s = .next ((b.setReq q.toNat { r.cutStep with cancel := true, state := .ending }).completeCmd h 0x11 0 [])) ∧
        (r.final = none → r.state ≠ .queued → s.stepInFlight q.toNat = false →
          exec (.cancel h q tk) s = .next (((b.setReq q.toNat { r with cancel := true }).finish q.toNat .cancelled).completeCmd h 0x11 0 []))) := by
  have hgo : ¬ (!s.handles h 0x11 || s.held || !s.atStep 3) = true := by simp [hh, hheld, State.atStep_of hp hs]
  have hrun : exec (.cancel h q tk) s = execCancel h q tk s := rfl
  unfold execCancel at hrun
  rw [if_neg hgo] at hrun
  refine ⟨fun hn => by rw [hn] at hrun; exact hrun, fun r hr => ?_⟩
  rw [hr] at hrun
  obtain rfl := State.ticketed_some hr
  dsimp only at hrun
  have hstep : (s.begun 3).stepInFlight q.toNat = s.stepInFlight q.toNat := rfl
  rw [hstep] at hrun
  refine ⟨fun hf => hrun.trans (if_pos hf), fun hf hq => ?_, fun hf hq hst => ?_, fun hf hq hst => ?_⟩
  · rw [if_neg (by simp [hf]), if_pos hq] at hrun
    exact hrun
  · rw [if_neg (by simp [hf]), if_neg hq, if_pos hst] at hrun
    exact hrun
  · rw [if_neg (by simp [hf]), if_neg hq, if_neg (by simp [hst])] at hrun
    exact hrun

/-- HIDE (R316). -/
theorem hide_hides {h : HostCmd} {q : BitVec 16} {tk lo hi : W32} {s : State} (hh : s.handles h 0x13 = true) (hheld : s.held = false) (hp : s.tick.phase = .applied) :
    (s.ticketed q tk = none → exec (.hide h q tk lo hi) s = .next (s.completeCmd h 0x13 0x104 [])) ∧
      (∀ r, s.ticketed q tk = some r → (r.hide.isSome = true → exec (.hide h q tk lo hi) s = .next s) ∧
        (r.hide = none → exec (.hide h q tk lo hi) s = .next ((s.begins h 0x13).setReq q.toNat { r with
          hide := some (lo.toNat % 2 ^ 17, hi.toNat % 2 ^ 17, h.set.val, h.tag) }))) := by
  have hrun : exec (.hide h q tk lo hi) s = execHide h q tk lo hi s := rfl
  unfold execHide at hrun
  rw [if_neg (by simp [hh, hheld, hp])] at hrun
  refine ⟨fun hn => by rw [hn] at hrun; exact hrun, fun r hr => ?_⟩
  rw [hr] at hrun
  obtain rfl := State.ticketed_some hr
  dsimp only at hrun
  refine ⟨fun hs => hrun.trans (if_pos hs), fun hs => ?_⟩
  rw [if_neg (by simp [hs])] at hrun
  have hreq : (s.begins h 0x13).req q.toNat = s.req q.toNat := (congrArg (fun v : State => v.req q.toNat) (s.begins_frame h 0x13) :)
  unfold State.modReq at hrun
  rw [hreq] at hrun
  exact hrun

/-- An element of a list stands beside its place in `enum`. -/
theorem mem_enum {α : Type} (l : List α) (x : Nat) (v : α) : (x, v) ∈ enum l ↔ l[x]? = some v := by
  unfold enum
  rw [List.mem_iff_getElem?]
  constructor
  · rintro ⟨n, hn⟩
    obtain ⟨hx, hv⟩ := List.getElem?_zip_eq_some.1 hn
    obtain ⟨hlt, he⟩ := List.getElem?_eq_some_iff.1 hx
    rw [List.getElem_range] at he
    subst he
    exact hv
  · intro hv
    refine ⟨x, List.getElem?_zip_eq_some.2 ⟨List.getElem?_range ?_, hv⟩⟩
    exact (List.getElem?_eq_some_iff.1 hv).1

/-- DRAFT (R355, R366). -/
theorem draft_drafts {h : HostCmd} {q : BitVec 16} {tk base : W32} {a : W64} {s : State} (hh : s.handles h 0x12 = true) (hheld : s.held = false) :
    let ids := draftIds (readBytes (s.carve (s.ring h.set.val).owner) a.toNat 224) s.heads
    let good := ∀ d ∈ ids, ∀ x v, d[x]? = some v → v < s.vocab x
    (s.rings.carveSize < a.toNat + 224 → exec (.draft h q tk base a) s = .next (s.completeCmd h 0x12 0x102 [])) ∧
      (a.toNat + 224 ≤ s.rings.carveSize → s.ticketed q tk = none → exec (.draft h q tk base a) s = .next (s.completeCmd h 0x12 0x104 [])) ∧
      (a.toNat + 224 ≤ s.rings.carveSize → ∀ r, s.ticketed q tk = some r →
        (¬ good → exec (.draft h q tk base a) s = .next (s.completeCmd h 0x12 0x103 [])) ∧
        (good → exec (.draft h q tk base a) s = .next ((s.setReq q.toNat { r with draftBuf := some (base.toNat, ids) }).completeCmd h 0x12 0 []))) := by
  intro ids good
  have hbad : (ids.any fun d => (enum d).any fun x => decide (s.vocab x.1 ≤ x.2)) = true ↔ ¬ good := by
    simp only [List.any_eq_true, decide_eq_true_eq, Prod.exists, mem_enum, good, not_forall, Nat.not_lt, exists_prop]
  have hrun : exec (.draft h q tk base a) s = execDraft h q tk base a s := rfl
  unfold execDraft at hrun
  rw [if_neg (by simp [hh, hheld])] at hrun
  refine ⟨fun hlt => hrun.trans (if_pos (by simpa [State.inCarve] using hlt)), fun hin hn => ?_, fun hin r hr => ?_⟩
  · rw [if_neg (by simpa [State.inCarve] using hin), hn] at hrun
    exact hrun
  · rw [if_neg (by simpa [State.inCarve] using hin), hr] at hrun
    obtain rfl := State.ticketed_some hr
    exact ⟨fun hg => hrun.trans (if_pos (hbad.2 hg)), fun hg => hrun.trans (if_neg fun hb => hbad.1 hb hg)⟩

/-- Settles O39: ADMIT, CANCEL, HIDE and DRAFT. -/
theorem requestCommands : Obligations.RequestCommands := by
  intro h a q tk base lo hi s m bs n prompt fits turnedAway i seeded seed
  have hseeded : seeded = (leAt bs 0 1 / 64 % 2 == 1) := by
    show (leAt bs 0 1).testBit 6 = _
    rw [Nat.testBit_eq_decide_div_mod_eq]
    rfl
  refine ⟨fun hh => (admitReq_admits hh).1, fun hh hin => ?_, fun hh hheld hp hs => cancel_cancels hh hheld hp hs, fun hh hheld hp => hide_hides hh hheld hp, fun hh hheld => draft_drafts hh hheld⟩
  obtain ⟨hbad, hnofit, hok⟩ := (admitReq_admits hh).2 hin
  refine ⟨hbad, hnofit, fun hst hfit => ?_⟩
  have hrun := hok hst hfit
  rw [← hseeded] at hrun
  obtain ⟨hframe, hfree⟩ := s.drawSeed_frame seeded
  generalize s.drawSeed seeded = u at hrun hframe hfree
  have hsd : u.sd (homeOf i) = s.sd (homeOf i) := (congrArg (fun v : State => v.sd (homeOf i)) hframe :)
  have hreq (j : Nat) : u.req j = s.req j := (congrArg (fun v : State => v.req j) hframe :)
  have hsrv : u.srv = s.srv := (congrArg State.srv hframe :)
  obtain ⟨hown, hother, hticket, horder, hrest⟩ := u.admitting_spec h bs seed prompt i
  rw [hsd] at hrun
  have hadm : u.admitting h bs seed prompt i = u.admitting h bs seed (s.promptOf h bs) s.freeEntry := rfl
  rw [← hadm] at hrun
  generalize u.admitting h bs seed prompt i = v at hrun hown hother hticket horder hrest
  refine ⟨v, hrun, ?_, fun j hj => (hother j hj).trans (hreq j), ?_, ?_, ?_, ?_⟩
  · rw [hown, hsd, hsrv]
  · rw [hticket, hsd]
  · rw [horder, hsrv]
  · exact (congrArg State.free hrest :).trans hfree
  · exact (congrArg (fun v : State => { v with srv := s.srv, serve := s.serve, free := s.free }) hrest :).trans (congrArg (fun v : State => { v with srv := s.srv, serve := s.serve }) hframe :)

end Sys2Proof.Machine
end

section
/-! The network: messages in pieces, flits injected, and the reducers (R265, R287 to R294). -/
namespace Sys2Proof.Machine

/-! ### Messages -/

theorem flatten_piecesOf {n : Nat} (hn : 0 < n) (f : Nat) (bs : Bytes) (h : bs.length ≤ f) : (piecesOf n f bs).flatten = bs := by
  induction f generalizing bs with
  | zero =>
    rw [List.length_eq_zero_iff.1 (Nat.le_zero.1 h)]
    rfl
  | succ f ih =>
    unfold piecesOf
    cases hb : bs.isEmpty with
    | true => exact (List.isEmpty_iff.1 hb).symm
    | false =>
      have hpos : 0 < bs.length := List.length_pos_iff.2 (by simpa using hb)
      rw [if_neg (by decide), List.flatten_cons, ih _ (by rw [List.length_drop]; omega), List.take_append_drop]

theorem length_of_mem_piecesOf {n : Nat} (f : Nat) (bs : Bytes) (h : n ∣ bs.length) : ∀ p ∈ piecesOf n f bs, p.length = n := by
  induction f generalizing bs with
  | zero => exact fun p hp => nomatch hp
  | succ f ih =>
    unfold piecesOf
    cases hb : bs.isEmpty with
    | true => exact fun p hp => nomatch hp
    | false =>
      have hpos : 0 < bs.length := List.length_pos_iff.2 (by simpa using hb)
      have hle : n ≤ bs.length := Nat.le_of_dvd hpos h
      rw [if_neg (by decide)]
      refine List.forall_mem_cons.2 ⟨by rw [List.length_take]; omega, ih _ ?_⟩
      rw [List.length_drop]
      exact Nat.dvd_sub h (dvd_refl n)

theorem alignUp_dvd (n m : Nat) : m ∣ alignUp n m := by
  unfold alignUp
  exact Dvd.intro_left _ rfl

theorem le_alignUp (n : Nat) : n ≤ alignUp n 64 := by
  unfold alignUp ceilDiv
  omega

theorem length_pad64 (bs : Bytes) : (pad64 bs).length = alignUp bs.length 64 := by
  have h := le_alignUp bs.length
  unfold pad64
  rw [List.length_append, List.length_replicate]
  omega

theorem pad64_of_length {bs : Bytes} (h : bs.length = 64) : pad64 bs = bs := by
  unfold pad64
  rw [h]
  exact List.append_nil bs

theorem enum_map_snd {α : Type} (l : List α) : (enum l).map Prod.snd = l := List.map_snd_zip (by simp)

theorem length_messageOf (h : Header) (step : Nat) (ps : List Bytes) : (messageOf h step ps).length = ps.length := by simp [messageOf, enum]

/-- The lines of a message of full pieces carry its bytes (R265). -/
theorem messageOf_data {h : Header} {step : Nat} {ps : List Bytes} (hp : ∀ p ∈ ps, p.length = 64) : (messageOf h step ps).flatMap (fun b => b.data) = ps.flatten := by
  unfold messageOf
  rw [List.flatMap_map]
  have hsnd : (enum ps).flatMap (fun p => pad64 p.2) = ((enum ps).map Prod.snd).flatMap pad64 := (List.flatMap_map ..).symm
  refine hsnd.trans ?_
  rw [enum_map_snd, ← List.flatMap_id, List.flatMap_congr fun p hm => pad64_of_length (hp p hm)]
  rfl

/-- Every line of a message carries the message's header but for its own place. -/
theorem hdr_of_mem_messageOf {h : Header} {step : Nat} {ps : List Bytes} {b : FlitBody} (hb : b ∈ messageOf h step ps) :
    b.hdr.route = h.route ∧ b.hdr.seq = h.seq ∧ b.hdr.destMember = h.destMember ∧ b.hdr.die = h.die ∧ b.hdr.destUnit = h.destUnit := by
  obtain ⟨p, -, rfl⟩ := List.mem_map.1 hb
  exact ⟨rfl, rfl, rfl, rfl, rfl⟩

/-! ### Flits injected -/

/-- What stands in the network after an injection: the flits of before, then one for each line (R264). -/
theorem State.inject_flits (s : State) (src : Nat) (d : DieId) (r : Nat) (inj req : Option Nat) (fs : List FlitBody) :
    (s.inject src d r inj req fs).flits.take s.flits.length = s.flits ∧
    (s.inject src d r inj req fs).flits.drop s.flits.length = (enum fs).map fun p => ⟨s.nextFlit + p.1, src, p.2, d, r, false, false, inj.map (· + p.1), req, none⟩ :=
  ⟨List.take_left, List.drop_left⟩

theorem State.inject_bodies (s : State) (src : Nat) (d : DieId) (r : Nat) (inj req : Option Nat) (fs : List FlitBody) :
    ((s.inject src d r inj req fs).flits.drop s.flits.length).map Flit.body = fs := by
  rw [(s.inject_flits src d r inj req fs).2, List.map_map]
  exact enum_map_snd fs

/-- Every flit injected starts at its sender's router, on its way. -/
theorem State.mem_inject {s : State} {src : Nat} {d : DieId} {r : Nat} {inj req : Option Nat} {fs : List FlitBody} {f : Flit}
    (hf : f ∈ (s.inject src d r inj req fs).flits.drop s.flits.length) : f.body ∈ fs ∧ f.die = d ∧ f.router = r ∧ f.arrived = false ∧ f.req = req := by
  have hbody : f.body ∈ fs := by
    rw [← s.inject_bodies src d r inj req fs]
    exact List.mem_map_of_mem hf
  rw [(s.inject_flits src d r inj req fs).2] at hf
  obtain ⟨p, -, rfl⟩ := List.mem_map.1 hf
  exact ⟨hbody, rfl, rfl, rfl, rfl⟩

/-! ### Reducers -/

theorem State.modDie_frame (s : State) (d : DieId) (f : Die → Die) : { s.modDie d f with dies := s.dies } = s := rfl

theorem State.reducer_setReducer (s : State) (d u : Nat) (r : Reducer) : (s.setReducer d u r).reducer d u = r := smGet_smSet_same _ _ _ _

/-- Elements combined in turn, each at its own place (R291). -/
theorem smGet_foldl_combine (g : Nat → RedElem → RedElem) (off n : Nat) (m : SMap RedElem) (i : Nat) :
    smGet elemDefault ((List.range n).foldl (fun m j => smSet elemDefault m (off + j) (g j (smGet elemDefault m (off + j)))) m) i =
      if off ≤ i ∧ i < off + n then g (i - off) (smGet elemDefault m i) else smGet elemDefault m i := by
  induction n with
  | zero => rw [if_neg (by omega)]; rfl
  | succ n ih =>
    rw [List.range_succ, List.foldl_append, List.foldl_cons, List.foldl_nil, smGet_smSet]
    by_cases hi : i = off + n
    · subst hi
      rw [if_pos rfl, ih, if_neg (by omega), if_pos (by omega), Nat.add_sub_cancel_left]
    · rw [if_neg hi, ih]
      by_cases hin : off ≤ i ∧ i < off + n
      · rw [if_pos hin, if_pos (by omega)]
      · rw [if_neg hin, if_neg (by omega)]

/-- A flit of a partial combined, element by element (R291). -/
theorem Reducer.take_spec (r : Reducer) (h : Header) (data : Bytes) (used : Nat) :
    (r.take h data used).count = r.count + (if h.last then 1 else 0) ∧ (r.take h data used).armed = r.armed ∧ (r.take h data used).route = r.route ∧ (r.take h data used).seq = r.seq ∧
    ∀ i, smGet elemDefault (r.take h data used).elems i = if h.offset ≤ i ∧ i < h.offset + used / formBytes h.form then
      (smGet elemDefault r.elems i).combine h.form h.opMax h.int (leAt data (formBytes h.form * (i - h.offset)) (formBytes h.form)) else smGet elemDefault r.elems i :=
  ⟨rfl, rfl, rfl, rfl, fun i => smGet_foldl_combine (fun j x => x.combine h.form h.opMax h.int (leAt data (formBytes h.form * j) (formBytes h.form))) h.offset _ r.elems i⟩

/-- REDUCER_COMBINE (R290 to R292). -/
theorem reducerCombine_combines {f : Flit} {s : State} (hf : s.flits.find? (fun g => g.id == f.id) = some f) (hp : s.tick.phase = .work ∨ s.tick.phase = .drain)
    (hh : f.arrived = true ∨ (f.seam = false ∧ s.hop f = .here)) (h1 : s.firstOf f = true) (hn : s.netOn f.die.val (f.body.hdr.destUnit % 16 / 4) = true) (hk : f.body.hdr.kind = 1)
    (hd : f.die.val < 24) (ha : (s.reducer f.die.val (f.body.hdr.destUnit % 16)).armed = true) :
    let h := f.body.hdr
    let r := s.reducer f.die.val (h.destUnit % 16)
    (h.seq = r.seq → h.route = r.route → ∃ t, exec (.reducerCombine f.id) s = .next t ∧
      let r' := t.reducer f.die.val (h.destUnit % 16)
      r'.count = r.count + (if h.last then 1 else 0) ∧ r'.armed = true ∧ r'.route = r.route ∧ r'.seq = r.seq ∧
      (∀ i, smGet elemDefault r'.elems i =
        if h.offset ≤ i ∧ i < h.offset + f.body.used / formBytes h.form then
          (smGet elemDefault r.elems i).combine h.form h.opMax h.int (leAt f.body.data (formBytes h.form * (i - h.offset)) (formBytes h.form))
        else smGet elemDefault r.elems i) ∧
      t.flits = s.flits.filter (fun g => g.id != f.id) ∧ t.cores = s.cores ∧ t.tick = s.tick) ∧
    (h.seq ≠ r.seq → h.seq ≠ r.seq + 1 → ∃ t, exec (.reducerCombine f.id) s = .next t ∧ (t.die f.die).redEvt.getLsbD 3 = true ∧
      t.flits = s.flits.filter (fun g => g.id != f.id) ∧ t.reducers = s.reducers ∧ t.cores = s.cores ∧ t.tick = s.tick) ∧
    (h.seq = r.seq + 1 → exec (.reducerCombine f.id) s = .next s) := by
  intro h r
  have hhere : (f.arrived || (!f.seam && s.hop f == .here)) = true := by
    rcases hh with hh | ⟨hs, hh⟩
    · rw [hh, Bool.true_or]
    · rw [hs, hh]
      exact Bool.or_true _
  have hrun : exec (.reducerCombine f.id) s = execReducerCombine f.id s := rfl
  unfold execReducerCombine at hrun
  rw [hf] at hrun
  dsimp only at hrun
  rw [if_neg (by rw [State.running_of hp, hhere, h1, hn, decide_eq_false (not_not.2 hk), decide_eq_false (Nat.not_le.2 hd)]; decide), if_pos ha] at hrun
  refine ⟨fun hseq hroute => ?_, fun hne hnext => ?_, fun hnext => hrun.trans (if_pos hnext)⟩
  · have hlast : h.seq ≠ r.seq + 1 := by
      rw [hseq]
      intro hb
      have := congrArg (· - r.seq) hb
      simp [BitVec.add_comm] at this
    rw [if_neg hlast, if_neg (not_not.2 hseq), if_neg (by rw [ha, decide_eq_false (not_not.2 hroute)]; decide)] at hrun
    refine ⟨_, hrun, ?_⟩
    have hred := s.reducer_setReducer f.die.val (h.destUnit % 16) (r.take h f.body.data f.body.used)
    obtain ⟨hc, harm, hrt, hsq, hel⟩ := r.take_spec h f.body.data f.body.used
    generalize r.take h f.body.data f.body.used = r1 at hred hc harm hrt hsq hel ⊢
    have hlate : ((((s.setReducer f.die.val (h.destUnit % 16) r1).modDie f.die fun d => if r1.failed then d.redFail r1 else d).dropFlit f.id).reducer f.die.val (h.destUnit % 16)) = r1 := hred
    dsimp only
    rw [hlate]
    exact ⟨hc, harm.trans ha, hrt, hsq, hel, rfl, rfl, rfl⟩
  · rw [if_neg hnext, if_pos hne] at hrun
    refine ⟨_, hrun, ?_, rfl, rfl, rfl, rfl⟩
    have hdie := State.die_modDie_same s f.die fun d => d.red 3
    exact (congrArg (fun d : Die => d.redEvt.getLsbD 3) hdie).trans ((getLsbD_setBit _ _ _).trans (by simp))

/-- The header of a reduction's result on its onward route (R294). -/
def State.resultHeader (s : State) (d : DieId) (r : Reducer) (onw : RouteEnt) : Header :=
  { kind := onw.kind, form := onw.form, destMember := onw.destMember, die := onw.destDie, destUnit := onw.destUnit,
    route := r.route + 1, seq := r.seq, cls := onw.shareClass, vc := 1, first := false, last := false, offset := 0,
    opMax := onw.kind == 1 && (nth (false, false) r.ops 0).1, srcCore := Config.reducerSrc d.val, srcMember := s.member,
    int := onw.kind == 1 && onw.form == 1 && (nth (false, false) r.ops 0).2 }

/-- The bytes of a reduction's result (R293). -/
def Reducer.result (r : Reducer) (rt onw : RouteEnt) : Bytes :=
  (List.range r.len).flatMap fun i => ((smGet elemDefault r.elems i).deliver rt.form onw.form (nth (false, false) r.ops 0).1 (nth (false, false) r.ops 0).2).1

/-- The lines of a reduction's result (R265, R294). -/
def State.resultFlits (s : State) (d : DieId) (r : Reducer) (rt onw : RouteEnt) : List FlitBody :=
  if onw.kind = 0 then messageOf (s.resultHeader d r onw) 64 (piecesOf 64 ((r.result rt onw).length + 64) (pad64 (r.result rt onw)))
  else messageOf (s.resultHeader d r onw) (64 / formBytes onw.form) (piecesOf 64 (r.result rt onw).length (r.result rt onw))

theorem State.hdr_of_mem_resultFlits {s : State} {d : DieId} {r : Reducer} {rt onw : RouteEnt} {b : FlitBody} (hb : b ∈ s.resultFlits d r rt onw) :
    b.hdr.route = r.route + 1 ∧ b.hdr.seq = r.seq ∧ b.hdr.destMember = onw.destMember ∧ b.hdr.die = onw.destDie ∧ b.hdr.destUnit = onw.destUnit := by
  unfold State.resultFlits at hb
  split at hb
  · exact hdr_of_mem_messageOf hb
  · exact hdr_of_mem_messageOf hb

/-- A result for a core is carried whole, in full lines (R265, R293). -/
theorem State.resultFlits_data {s : State} {d : DieId} {r : Reducer} {rt onw : RouteEnt} (hk : onw.kind = 0) :
    (s.resultFlits d r rt onw).flatMap (fun b => b.data) = pad64 (r.result rt onw) := by
  have hlen := length_pad64 (r.result rt onw)
  have hdvd : 64 ∣ (pad64 (r.result rt onw)).length := hlen ▸ alignUp_dvd _ _
  have hfuel : (pad64 (r.result rt onw)).length ≤ (r.result rt onw).length + 64 := by
    rw [hlen]
    unfold alignUp ceilDiv
    omega
  unfold State.resultFlits
  rw [if_pos hk, messageOf_data (length_of_mem_piecesOf _ _ hdvd), flatten_piecesOf (by decide) _ _ hfuel]

/-- REDUCER_DELIVERY (R293, R294). -/
theorem reducerDelivery_delivers {d : DieId} {u : Fin 16} {rt onw : RouteEnt} {s : State} (hr : s.route (s.reducer d.val u.val).route = some rt)
    (ho : s.route ((s.reducer d.val u.val).route + 1) = some onw) (hn : s.netOn d.val (u.val / 4) = true) (hp : s.tick.phase = .work ∨ s.tick.phase = .drain)
    (ha : (s.reducer d.val u.val).armed = true) (hf : (s.reducer d.val u.val).failed = false) (hd : (s.reducer d.val u.val).delivered = false) (hb : (s.reducer d.val u.val).bad = false)
    (hc : (s.reducer d.val u.val).count = rt.partials) :
    let r := s.reducer d.val u.val
    ∃ t, exec (.reducerDelivery d u) s = .next t ∧ t.reducer d.val u.val = { r with delivered := true } ∧ t.cores = s.cores ∧ t.tick = s.tick ∧
      t.flits.take s.flits.length = s.flits ∧
      (∀ f ∈ t.flits.drop s.flits.length, f.die = d ∧ f.router = u.val / 4 ∧ f.body.hdr.route = r.route + 1 ∧ f.body.hdr.seq = r.seq ∧
        f.body.hdr.destMember = onw.destMember ∧ f.body.hdr.die = onw.destDie ∧ f.body.hdr.destUnit = onw.destUnit) ∧
      (onw.kind = 0 → (t.flits.drop s.flits.length).flatMap (fun f => f.body.data) =
        pad64 ((List.range r.len).flatMap fun i => ((smGet elemDefault r.elems i).deliver rt.form onw.form (nth (false, false) r.ops 0).1 (nth (false, false) r.ops 0).2).1)) := by
  intro r
  have hrun : exec (.reducerDelivery d u) s = execReducerDelivery d u s := rfl
  unfold execReducerDelivery at hrun
  dsimp only at hrun
  rw [hr, ho] at hrun
  dsimp only at hrun
  rw [if_neg (by rw [State.running_of hp, hn, ha, hf, hd, hb, decide_eq_false (not_not.2 hc)]; decide)] at hrun
  have hbytes : ((List.range r.len).map fun i => (smGet elemDefault r.elems i).deliver rt.form onw.form (nth (false, false) r.ops 0).1 (nth (false, false) r.ops 0).2).flatMap Prod.fst = r.result rt onw :=
    List.flatMap_map ..
  rw [hbytes] at hrun
  obtain ⟨s1, hframe, hsent⟩ : ∃ s1 : State, { s1 with dies := s.dies } = s ∧ exec (.reducerDelivery d u) s =
      .next ((s1.setReducer d.val u.val { r with delivered := true }).inject (1000 * s.member + 500 + redKey d.val u.val) d (u.val / 4) none none (s.resultFlits d r rt onw)) :=
    ⟨_, s.modDie_frame d _, hrun⟩
  have hflits : (s1.setReducer d.val u.val { r with delivered := true }).flits = s.flits := (congrArg State.flits hframe :)
  have hcores : (s1.setReducer d.val u.val { r with delivered := true }).cores = s.cores := (congrArg State.cores hframe :)
  have htick : (s1.setReducer d.val u.val { r with delivered := true }).tick = s.tick := (congrArg State.tick hframe :)
  have hred := s1.reducer_setReducer d.val u.val { r with delivered := true }
  generalize s1.setReducer d.val u.val { r with delivered := true } = s2 at hsent hflits hcores htick hred
  have htake := (s2.inject_flits (1000 * s.member + 500 + redKey d.val u.val) d (u.val / 4) none none (s.resultFlits d r rt onw)).1
  have hbodies := s2.inject_bodies (1000 * s.member + 500 + redKey d.val u.val) d (u.val / 4) none none (s.resultFlits d r rt onw)
  rw [← hflits]
  refine ⟨_, hsent, hred, hcores, htick, htake, fun f hm => ?_, fun hk => ?_⟩
  · obtain ⟨hbody, hdie, hrouter, -, -⟩ := State.mem_inject hm
    exact ⟨hdie, hrouter, State.hdr_of_mem_resultFlits hbody⟩
  · have hdata := State.resultFlits_data (s := s) (d := d) (r := r) (rt := rt) hk
    rw [← hbodies] at hdata
    exact (List.flatMap_map ..).symm.trans hdata

/-- Settles O30: a reducer combines what is armed for it, and delivers once. -/
theorem reductions : Obligations.Reductions :=
  ⟨fun _ _ hf hp hh h1 hn hk hd ha => reducerCombine_combines hf hp hh h1 hn hk hd ha, fun _ _ _ _ _ hr ho hn hp ha hf hd hb hc => reducerDelivery_delivers hr ho hn hp ha hf hd hb hc⟩

end Sys2Proof.Machine
end

section
/-! Answers of the serving dies, and attention (R268, R276, R308 to R319, R333). -/
namespace Sys2Proof.Machine

/-! ### Answers -/

/-- A write into a core's store that leaves its instructions in flight and its cycle. -/
structure Quiet (act : Core → Core) : Prop where
  inflight : ∀ k, (act k).inflight = k.inflight
  cyc : ∀ k, (act k).cyc = k.cyc

theorem Quiet.id : Quiet id := ⟨fun _ => rfl, fun _ => rfl⟩

theorem Quiet.foldl {α : Type} {f : Core → α → Core} (h : ∀ x, Quiet fun k => f k x) (l : List α) : Quiet fun k => l.foldl f k :=
  ⟨fun k => foldl_keeps (f := f) Core.inflight (fun k x => (h x).inflight k) l k, fun k => foldl_keeps (f := f) Core.cyc (fun k x => (h x).cyc k) l k⟩

theorem Quiet.writeAnswer (q : ServeReq) (rows : List (List Nat)) : Quiet (writeAnswer q rows) :=
  .foldl (f := fun (k : Core) (p : Nat × List Nat) => k.unitWrite (q.dstBase + p.1 * q.dstStride) (p.2.flatMap (leBytes (elemBytes q.fmtB)))) (fun _ => ⟨fun _ => rfl, fun _ => rfl⟩) (enum rows)

theorem Quiet.setP (p : PReg) (b : Bool) : Quiet fun k => k.setP p b := ⟨fun k => k.setP_inflight p b, fun k => k.setP_cyc p b⟩

/-- The flags of an answer, pending in the instruction that waits for it. -/
def Core.pendAll (k : Core) (id : Nat) (flags : List Nat) : Core := flags.foldl (fun k f => k.pend id f) k

theorem Core.pendAll_frame (k : Core) (id : Nat) (flags : List Nat) : { k.pendAll id flags with inflight := k.inflight } = k :=
  foldl_keeps (f := fun (k : Core) f => k.pend id f) (fun u => { u with inflight := k.inflight }) (fun _ _ => rfl) flags k

theorem Core.pendAll_store (k : Core) (id : Nat) (flags : List Nat) : (k.pendAll id flags).store = k.store := (congrArg Core.store (k.pendAll_frame id flags) :)

theorem Core.pendAll_preds (k : Core) (id : Nat) (flags : List Nat) : (k.pendAll id flags).preds = k.preds := (congrArg Core.preds (k.pendAll_frame id flags) :)

theorem Core.pendAll_flags (k : Core) (id : Nat) (flags : List Nat) {f : Nat} (hf : f ∈ flags) (h32 : f < 32) : ∀ u ∈ (k.pendAll id flags).inflight, u.id = id → u.flags.getLsbD f = true := by
  have hkeep (l : List Nat) (k : Core) (h : ∀ u ∈ k.inflight, u.id = id → u.flags.getLsbD f = true) : ∀ u ∈ (k.pendAll id l).inflight, u.id = id → u.flags.getLsbD f = true := by
    induction l generalizing k with
    | nil => exact h
    | cons g l ih =>
      refine ih (k.pend id g) fun u hu hid => ?_
      obtain ⟨v, hv, rfl⟩ := List.mem_map.1 hu
      by_cases hvid : v.id = id
      · rw [if_pos hvid]
        exact (getLsbD_setBit _ _ _).trans (by rw [h v hv hvid, Bool.true_or])
      · rw [if_neg hvid] at hid
        exact absurd hid hvid
  induction flags generalizing k with
  | nil => exact absurd hf List.not_mem_nil
  | cons g l ih =>
    rcases List.mem_cons.1 hf with rfl | hf
    · refine hkeep l (k.pend id f) fun u hu hid => ?_
      obtain ⟨v, hv, rfl⟩ := List.mem_map.1 hu
      by_cases hvid : v.id = id
      · rw [if_pos hvid]
        exact (getLsbD_setBit _ _ _).trans (by simp [h32])
      · rw [if_neg hvid] at hid
        exact absurd hid hvid
    · exact ih (k.pend id g) hf

/-- A core with the answer of a serving die: the flags and the effect, then the completion (R268, R276). -/
def Core.answered (q : ServeReq) (flags : List Nat) (act : Core → Core) (k : Core) : Core :=
  { act (k.pendAll q.inst flags) with
    inflight := (act (k.pendAll q.inst flags)).inflight.map fun u => if u.id == q.inst && u.unit == .serve then { u with done := some (max (act (k.pendAll q.inst flags)).cyc q.sent) } else u }

theorem State.answer_eq (s : State) (q : ServeReq) (flags : List Nat) (act : Core → Core) : s.answer q flags act = s.modCore q.core (Core.answered q flags act) := (rfl)

/-- An answer: the waiting instruction gets its flags and its completion, and `act` its effect; all else stays (R268, R276). -/
theorem State.answer_spec (s : State) (q : ServeReq) (flags : List Nat) {act : Core → Core} (h : Quiet act) :
    ((s.answer q flags act).core q.core).store = (act ((s.core q.core).pendAll q.inst flags)).store ∧ ((s.answer q flags act).core q.core).preds = (act ((s.core q.core).pendAll q.inst flags)).preds ∧
    (∀ f ∈ flags, f < 32 → ∀ u ∈ ((s.answer q flags act).core q.core).inflight, u.id = q.inst → u.flags.getLsbD f = true) ∧
    (∀ u ∈ ((s.answer q flags act).core q.core).inflight, u.id = q.inst → u.unit = .serve → u.done = some (max (s.core q.core).cyc q.sent)) ∧
    (∀ d, d ≠ q.core → (s.answer q flags act).core d = s.core d) ∧ { s.answer q flags act with cores := s.cores } = s := by
  rw [State.answer_eq]
  have hcore := s.core_modCore_same q.core (Core.answered q flags act)
  have hcyc : (act ((s.core q.core).pendAll q.inst flags)).cyc = (s.core q.core).cyc := (h.cyc _).trans (congrArg Core.cyc (Core.pendAll_frame _ _ _) :)
  have hin := congrArg Core.inflight hcore
  unfold Core.answered at hin
  dsimp only at hin
  rw [h.inflight, hcyc] at hin
  refine ⟨(congrArg Core.store hcore).trans rfl, (congrArg Core.preds hcore).trans rfl, fun f hf h32 u hu hid => ?_, fun u hu hid hunit => ?_, fun d hd => State.core_modCore_other _ _ _ _ hd, rfl⟩
  · replace hu := hin ▸ hu
    obtain ⟨v, hv, rfl⟩ := List.mem_map.1 hu
    have hflags := (s.core q.core).pendAll_flags q.inst flags hf h32 v hv
    split at hid
    case isTrue hc =>
      rw [if_pos hc]
      exact hflags hid
    case isFalse hc =>
      rw [if_neg hc]
      exact hflags hid
  · replace hu := hin ▸ hu
    obtain ⟨v, hv, rfl⟩ := List.mem_map.1 hu
    by_cases hc : (v.id == q.inst && v.unit == .serve) = true
    · rw [if_pos hc]
    · rw [if_neg hc] at hid hunit
      simp [hid, hunit] at hc

/-- The bytes that an answer leaves depend on the store alone. -/
theorem writeAnswer_store (q : ServeReq) (rows : List (List Nat)) {k k' : Core} (h : k.store = k'.store) : (writeAnswer q rows k).store = (writeAnswer q rows k').store := by
  unfold writeAnswer
  generalize enum rows = l
  induction l generalizing k k' with
  | nil => exact h
  | cons p l ih => exact ih (congrArg (fun m => writeBytes m _ _) h)

/-- A refusal: the answer, and a report on the die (R319, R368). -/
theorem State.refuse_spec (s : State) (d : Nat) (q : ServeReq) (cause : Nat) (flags : List Nat) :
    (∀ u ∈ ((s.refuse d q cause flags).core q.core).inflight, u.id = q.inst → u.flags.getLsbD 19 = true) ∧ (∀ x, x ≠ q.core → (s.refuse d q cause flags).core x = s.core x) ∧
    (s.refuse d q cause flags).sd d = { s.sd d with reports := (s.sd d).reports ++ [⟨tagReq q.tag, tagPos q.tag, tagClass q.tag, cause, s.tick.count⟩] } ∧
    { s.refuse d q cause flags with cores := s.cores, serve := s.serve } = s := by
  have hquiet : Quiet (if q.kind = .attn then writeAnswer q (zerosFor q) else id) := by
    split
    · exact .writeAnswer q _
    · exact .id
  unfold State.refuse
  obtain ⟨-, -, hflags, -, hother, hframe⟩ := s.answer_spec q (stServeRefused :: flags) hquiet
  generalize s.answer q (stServeRefused :: flags) (if q.kind = .attn then writeAnswer q (zerosFor q) else id) = t at hflags hother hframe ⊢
  have hsd : t.sd d = s.sd d := (congrArg (fun v : State => v.sd d) hframe :)
  have hcount : t.tick.count = s.tick.count := (congrArg (fun v : State => v.tick.count) hframe :)
  refine ⟨hflags 19 List.mem_cons_self (by decide), hother, ?_, (congrArg (fun v : State => { v with serve := s.serve }) hframe :)⟩
  rw [State.sd_modSd, if_pos rfl, hsd, hcount]

/-! ### Attention -/

theorem ServeDie.causeEvt_keeps (x : ServeDie) (c : Nat) : { x.causeEvt c with attnEvt := x.attnEvt } = x := by
  unfold ServeDie.causeEvt
  split
  · rfl
  · split <;> rfl

theorem State.refuse_cause (s : State) (d : Nat) (q : ServeReq) (c : Nat) (flags : List Nat) {t : State} (ht : (s.refuse d q c flags).modSd d (fun x => x.causeEvt c) = t) :
    (∀ u ∈ (t.core q.core).inflight, u.id = q.inst → u.flags.getLsbD 19 = true) ∧ t.inbox = s.inbox ∧ (t.sd d).jobs = (s.sd d).jobs ∧
    (t.sd d).reports = (s.sd d).reports ++ [⟨tagReq q.tag, tagPos q.tag, tagClass q.tag, c, s.tick.count⟩] := by
  obtain ⟨hflags, -, hdie, hframe⟩ := s.refuse_spec d q c flags
  generalize s.refuse d q c flags = u at ht hflags hdie hframe
  have hsd := u.sd_modSd d d fun y => y.causeEvt c
  rw [if_pos rfl, hdie] at hsd
  have hcause := ServeDie.causeEvt_keeps { s.sd d with reports := (s.sd d).reports ++ [⟨tagReq q.tag, tagPos q.tag, tagClass q.tag, c, s.tick.count⟩] } c
  rw [ht] at hsd
  subst ht
  exact ⟨hflags, (congrArg State.inbox hframe :), (congrArg ServeDie.jobs hsd).trans (congrArg ServeDie.jobs hcause :), (congrArg ServeDie.reports hsd).trans (congrArg ServeDie.reports hcause :)⟩

/-- ATTENTION_REQUEST (R308, R309, R317, R319). -/
theorem attentionRequest_divides {sv : ServeId} {q : ServeReq} {l : LayerRec} {s : State} (hp : s.tick.phase = .work ∨ s.tick.phase = .drain) (hq : s.nextServe sv.val .attn = some q) :
    (s.attnRefusal sv.val q = none → s.layerRec sv.val q.layer = some l →
      ∃ t, exec (.attentionRequest sv) s = .next t ∧ t.inbox = s.inbox.filter (fun x => x.id != q.id) ∧
        (t.sd sv.val).jobs = (s.sd sv.val).jobs ++ [⟨q, attendedPages l ((s.sd sv.val).dir (tagReq q.tag)) (tagPos q.tag), []⟩] ∧
        { t with inbox := s.inbox, serve := s.serve } = s) ∧
    (∀ x, s.attnRefusal sv.val q = some x → ∃ t, exec (.attentionRequest sv) s = .next t ∧
      t.inbox = s.inbox.filter (fun y => y.id != q.id) ∧ (t.sd sv.val).jobs = (s.sd sv.val).jobs ∧ (∀ u ∈ (t.core q.core).inflight, u.id = q.inst → u.flags.getLsbD 19 = true) ∧
      (t.sd sv.val).reports = (s.sd sv.val).reports ++ [⟨tagReq q.tag, tagPos q.tag, tagClass q.tag, x, s.tick.count⟩]) := by
  have hrun : exec (.attentionRequest sv) s = execAttentionRequest sv s := rfl
  unfold execAttentionRequest at hrun
  dsimp only at hrun
  rw [hq] at hrun
  dsimp only at hrun
  have href : (s.takeServe q.id).attnRefusal sv.val q = s.attnRefusal sv.val q := rfl
  have hrec : (s.takeServe q.id).layerRec sv.val q.layer = s.layerRec sv.val q.layer := rfl
  rw [if_neg (by rw [State.running_of hp]; decide), href, hrec] at hrun
  refine ⟨fun hn hl => ?_, fun x hx => ?_⟩
  · rw [hn, hl] at hrun
    have hsd := (s.takeServe q.id).sd_modSd sv.val sv.val fun x => { x with jobs := x.jobs ++ [⟨q, attendedPages l ((s.sd sv.val).dir (tagReq q.tag)) (tagPos q.tag), []⟩] }
    rw [if_pos rfl] at hsd
    exact ⟨_, hrun, rfl, congrArg ServeDie.jobs hsd, rfl⟩
  · rw [hx] at hrun
    obtain ⟨hflags, hinbox, hjobs, hreports⟩ := (s.takeServe q.id).refuse_cause sv.val q x _ rfl
    exact ⟨_, hrun, hinbox, hjobs, hflags, hreports⟩

theorem ServeDie.attnBit_keeps (x : ServeDie) (b : Bool) (n : Nat) : { (if b then x.attnBit n else x) with attnEvt := x.attnEvt } = x := by
  cases b <;> rfl

/-- A page task whose words read well (R309 to R314). -/
theorem pageTask_forms {sv : ServeId} {en : Fin 24} {l : LayerRec} {s : State} {j : AttnJob} {i : Nat} {rest : List Nat} (hp : s.tick.phase = .work ∨ s.tick.phase = .drain)
    (hj : (s.sd sv.val).jobs.find? (fun x => !x.todo.isEmpty) = some j) (htodo : j.todo = i :: rest) (hl : s.layerRec sv.val j.q.layer = some l)
    (hlost : ((s.sd sv.val).page (tagReq j.q.tag) j.q.layer i).lost = false) :
    ∃ t, exec (.pageTask sv en false) s = .next t ∧ { j with todo := rest, states := j.states ++ [(i, (s.pageHeads sv.val l j.q i).1)] } ∈ (t.sd sv.val).jobs ∧
      (t.sd sv.val).jobs.length = (s.sd sv.val).jobs.length ∧ (t.sd sv.val).dram = (s.sd sv.val).dram ∧ { t with serve := s.serve } = s := by
  have hrun : exec (.pageTask sv en false) s = execPageTask sv en false s := rfl
  unfold execPageTask at hrun
  dsimp only at hrun
  rw [hj] at hrun
  dsimp only at hrun
  rw [htodo, hl] at hrun
  dsimp only at hrun
  rw [if_neg (by rw [State.running_of hp]; decide), if_neg (by rw [hlost]; decide)] at hrun
  generalize s.pageHeads sv.val l j.q i = hs at hrun ⊢
  refine ⟨_, hrun, ?_⟩
  have hsd := fun f => (s.sd_modSd sv.val sv.val f).trans (if_pos rfl)
  have hkeep (x : ServeDie) := x.attnBit_keeps hs.2 5
  refine ⟨?_, ?_, ?_, rfl⟩
  · rw [hsd, (congrArg ServeDie.jobs (hkeep _) :)]
    refine List.mem_map.2 ⟨j, List.mem_of_find?_eq_some hj, ?_⟩
    rw [if_pos (beq_self_eq_true _)]
  · rw [hsd, (congrArg ServeDie.jobs (hkeep _) :)]
    exact List.length_map _
  · rw [hsd, (congrArg ServeDie.dram (hkeep _) :)]

/-- A page task whose page is lost (R333). -/
theorem pageTask_loses {sv : ServeId} {en : Fin 24} {l : LayerRec} {s : State} {j : AttnJob} {i : Nat} {rest : List Nat} {fails : Bool} (hp : s.tick.phase = .work ∨ s.tick.phase = .drain)
    (hj : (s.sd sv.val).jobs.find? (fun x => !x.todo.isEmpty) = some j) (htodo : j.todo = i :: rest) (hl : s.layerRec sv.val j.q.layer = some l)
    (hlost : fails = true ∨ ((s.sd sv.val).page (tagReq j.q.tag) j.q.layer i).lost = true) :
    ∃ t, exec (.pageTask sv en fails) s = .next t ∧ ((t.sd sv.val).page (tagReq j.q.tag) j.q.layer i).lost = true ∧ (∀ x ∈ (t.sd sv.val).jobs, x.q.id ≠ j.q.id) ∧
      (∀ u ∈ (t.core j.q.core).inflight, u.id = j.q.inst → u.flags.getLsbD 19 = true) := by
  have hrun : exec (.pageTask sv en fails) s = execPageTask sv en fails s := rfl
  unfold execPageTask at hrun
  dsimp only at hrun
  rw [hj] at hrun
  dsimp only at hrun
  rw [htodo, hl] at hrun
  dsimp only at hrun
  rw [if_neg (by rw [State.running_of hp]; decide), if_pos (by rcases hlost with h | h <;> simp [h])] at hrun
  have hjobs : ((s.modSd sv.val fun x => { x with jobs := x.jobs.filter fun y => y.q.id != j.q.id }).sd sv.val).jobs = (s.sd sv.val).jobs.filter fun y => y.q.id != j.q.id :=
    congrArg ServeDie.jobs ((s.sd_modSd _ _ _).trans (if_pos rfl))
  generalize (s.modSd sv.val fun x => { x with jobs := x.jobs.filter fun y => y.q.id != j.q.id }) = t at hrun hjobs
  obtain ⟨hlost', -, -, -⟩ := t.losePage_lost sv.val (tagReq j.q.tag) j.q.layer i
  have hjobs' : ((t.losePage sv.val (tagReq j.q.tag) j.q.layer i).sd sv.val).jobs = (s.sd sv.val).jobs.filter fun y => y.q.id != j.q.id :=
    (congrArg ServeDie.jobs ((t.sd_modSd _ _ _).trans (if_pos rfl))).trans hjobs
  generalize t.losePage sv.val (tagReq j.q.tag) j.q.layer i = u at hrun hlost' hjobs'
  obtain ⟨hflags, -, hdie, -⟩ := u.refuse_spec sv.val j.q 6 []
  generalize u.refuse sv.val j.q 6 [] = v at hrun hflags hdie
  refine ⟨v, hrun, ?_, fun x hx => ?_, hflags⟩
  · rw [hdie]
    exact hlost'
  · rw [hdie] at hx
    replace hx : x ∈ (u.sd sv.val).jobs := hx
    rw [hjobs'] at hx
    simpa using (List.mem_filter.1 hx).2

/-- ATTENTION_ANSWER (R313, R314, R317, R318). -/
theorem attentionAnswer_writes {sv : ServeId} {s : State} {j : AttnJob} (hp : s.tick.phase = .work ∨ s.tick.phase = .drain)
    (hj : (s.sd sv.val).jobs.find? (fun x => x.q.id == j.q.id) = some j) (htodo : j.todo = []) :
    ∃ t, exec (.attentionAnswer sv j.q.id) s = .next t ∧
      let heads := (List.range j.q.rowsA.length).map fun h => mergeAll (j.states.map fun st => nth ⟨true, 0, 0, []⟩ st.2 h)
      (∀ x ∈ (t.sd sv.val).jobs, x.q.id ≠ j.q.id) ∧ (t.sd sv.val).attnCnt = (s.sd sv.val).attnCnt + 1 ∧
      (j.states = [] → (t.core j.q.core).store = (writeAnswer j.q (zerosFor j.q) (s.core j.q.core)).store ∧ ∀ u ∈ (t.core j.q.core).inflight, u.id = j.q.inst → u.flags.getLsbD 16 = true) ∧
      (j.states ≠ [] → (t.core j.q.core).store = (writeAnswer j.q (heads.map fun h => headOut j.q.fmtB h (nth [] j.q.rowsA 0).length) (s.core j.q.core)).store) ∧
      (∀ u ∈ (t.core j.q.core).inflight, u.id = j.q.inst → u.unit = .serve → u.done = some (max (s.core j.q.core).cyc j.q.sent)) ∧
      (∀ d, d ≠ j.q.core → t.core d = s.core d) := by
  have hrun : exec (.attentionAnswer sv j.q.id) s = execAttentionAnswer sv j.q.id s := rfl
  unfold execAttentionAnswer at hrun
  dsimp only at hrun
  rw [hj] at hrun
  dsimp only at hrun
  rw [if_neg (by rw [State.running_of hp, htodo]; decide)] at hrun
  generalize (List.range j.q.rowsA.length).map (fun h => mergeAll (j.states.map fun st => nth ⟨true, 0, 0, []⟩ st.2 h)) = heads at hrun ⊢
  refine ⟨_, hrun, ?_⟩
  dsimp only
  set u := s.modSd sv.val _ with hu
  have hcore (d : CoreId) : u.core d = s.core d := rfl
  have hsd := (congrArg (fun v : State => v.sd sv.val) hu).trans ((s.sd_modSd sv.val sv.val _).trans (if_pos rfl))
  have hkeep (x : ServeDie) := (x.attnBit_keeps (!j.states.isEmpty && heads.any HeadState.bad) 1)
  have hkeep' (x : ServeDie) := (x.attnBit_keeps j.states.isEmpty 0)
  have hjobs : (u.sd sv.val).jobs = (s.sd sv.val).jobs.filter fun y => y.q.id != j.q.id :=
    ((congrArg ServeDie.jobs hsd).trans (congrArg ServeDie.jobs (hkeep _) :)).trans (congrArg ServeDie.jobs (hkeep' _) :)
  have hcnt : (u.sd sv.val).attnCnt = (s.sd sv.val).attnCnt + 1 :=
    ((congrArg ServeDie.attnCnt hsd).trans (congrArg ServeDie.attnCnt (hkeep _) :)).trans (congrArg ServeDie.attnCnt (hkeep' _) :)
  clear hsd hkeep hkeep' hrun
  clear_value u
  obtain ⟨hstore, -, hflags, hdone, hother, hframe⟩ := u.answer_spec j.q (if j.states.isEmpty = true then [stEmptyAttn] else []) (.writeAnswer j.q (if j.states.isEmpty = true then zerosFor j.q else heads.map fun h => headOut j.q.fmtB h (nth [] j.q.rowsA 0).length))
  replace hstore := hstore.trans (writeAnswer_store (k' := s.core j.q.core) _ _ ((Core.pendAll_store _ _ _).trans (congrArg Core.store (hcore _))))
  rw [hcore] at hdone
  refine ⟨fun x hx => ?_, (congrArg (fun v : State => (v.sd sv.val).attnCnt) hframe :).trans hcnt, fun he => ⟨?_, fun w hw hid => ?_⟩, fun he => ?_, hdone, fun d hd => (hother d hd).trans (hcore d)⟩
  · replace hx := hjobs ▸ (congrArg (fun v : State => (v.sd sv.val).jobs) hframe :) ▸ hx
    simpa using (List.mem_filter.1 hx).2
  · rw [hstore, if_pos (by rw [he]; rfl)]
  · exact hflags 16 (by rw [he]; exact List.mem_cons_self) (by decide) w hw hid
  · rw [hstore, if_neg (by simpa using he)]

/-- Settles O36. -/
theorem attentionRequests : Obligations.AttentionRequests := by
  unfold Obligations.AttentionRequests
  intro sv q l s hp
  exact ⟨fun hq hn hl => (attentionRequest_divides (l := l) hp hq).1 hn hl, fun x hq hx => (attentionRequest_divides (l := l) hp hq).2 x hx,
    fun en j i rest hj htodo hl _ => ⟨pageTask_forms hp hj htodo hl, fun _ hlost => pageTask_loses hp hj htodo hl hlost⟩,
    fun j hj htodo => attentionAnswer_writes hp hj htodo⟩

end Sys2Proof.Machine
end

section
/-! The KV store, page ageing, sampling and generation fences (R321 to R325, R349, R353, R368, R372). -/
namespace Sys2Proof.Machine

theorem ServeDie.setOwn_pages (x : ServeDie) (r : Nat) (l : List (Nat × Nat)) : { x.setOwn r l with resv := x.resv } = x := rfl

theorem ServeDie.take_frame {x y : ServeDie} {r n u a : Nat} {own : Bool} (h : x.take r n u = some (a, y, own)) : { y with resv := x.resv, alloc := x.alloc } = x := by
  unfold ServeDie.take at h
  split at h
  · cases h
    rfl
  · obtain ⟨b, -, hb⟩ := Option.map_eq_some_iff.1 h
    cases hb
    rfl

theorem ServeDie.framed_dram {x y : ServeDie} {l : LayerRec} {r i : Nat} (h : x.framed l r i = some y) : y.dram = x.dram ∧ y.reports = x.reports := by
  unfold ServeDie.framed at h
  split at h
  · cases h
    exact ⟨rfl, rfl⟩
  · split at h
    case h_1 a z own hz =>
      cases h
      have hf := ServeDie.take_frame hz
      exact ⟨(congrArg ServeDie.dram hf :), (congrArg ServeDie.reports hf :)⟩
    case h_2 => exact absurd h (by simp)

theorem ServeDie.release_frame (x : ServeDie) (r a : Nat) (back : Bool) : { x.release r a back with resv := x.resv } = { x with alloc := x.alloc.filter fun e => e.1 != a } := by
  unfold ServeDie.release
  cases back <;> rfl

/-- The state with the staged write of a request, and its serving die (R323). -/
def State.kvStaged (s : State) (d : Nat) (q : ServeReq) (x : ServeDie) (w : KvStage) : State :=
  { (s.takeServe q.id).setSd d x with srv := { s.srv with kv := s.srv.kv ++ [w] } }

theorem State.kvStaged_spec (s : State) (d : Nat) (q : ServeReq) (x : ServeDie) (w : KvStage) :
    (s.kvStaged d q x w).sd d = x ∧ (s.kvStaged d q x w).srv.kv = s.srv.kv ++ [w] ∧ (s.kvStaged d q x w).inbox = s.inbox.filter (fun y => y.id != q.id) ∧
    { s.kvStaged d q x w with serve := s.serve, srv := { (s.kvStaged d q x w).srv with kv := s.srv.kv }, inbox := s.inbox } = s :=
  ⟨(State.sd_setSd ..).trans (if_pos rfl), rfl, rfl, rfl⟩

/-- The state with the draw of a request staged (R353). -/
def State.drawn (s : State) (q : ServeReq) (dr : Draw) : State :=
  { s.takeServe q.id with srv := { s.srv with draws := s.srv.draws ++ [dr] } }

/-- KV_WRITE of a write that is accepted (R320, R323). -/
theorem kvWrite_stages {sv : ServeId} {q : ServeReq} {l : LayerRec} {x : ServeDie} {s : State} (hp : s.tick.phase = .work ∨ s.tick.phase = .drain) (hq : s.nextServe sv.val .kvw = some q)
    (href : s.kvRefusal sv.val q = none) (hl : s.layerRec sv.val q.layer = some l) (hclash : s.kvClash sv.val q = false) (hfree : (s.req (tagReq q.tag)).state ≠ .free)
    (hqueued : (s.req (tagReq q.tag)).state ≠ .queued) (hx : (s.sd sv.val).framed l (tagReq q.tag) (tagPos q.tag / 128) = some x) :
    ∃ t, exec (.kvWrite sv) s = .next t ∧
      t.srv.kv = s.srv.kv ++ [(stageKv sv l q s.tick.count).1] ∧ t.inbox = s.inbox.filter (fun y => y.id != q.id) ∧
      (t.sd sv.val).alloc = x.alloc ∧ (t.sd sv.val).pages = x.pages ∧ (t.sd sv.val).dram = (s.sd sv.val).dram ∧
      (t.core q.core).store = (s.core q.core).store ∧ (∀ d, d ≠ q.core → t.core d = s.core d) ∧ t.srv.reqs = s.srv.reqs := by
  have hrun : exec (.kvWrite sv) s = execKvWrite sv s := rfl
  unfold execKvWrite at hrun
  dsimp only at hrun
  rw [hq] at hrun
  dsimp only at hrun
  rw [if_neg (by rw [State.running_of hp]; decide), (show (s.takeServe q.id).kvRefusal sv.val q = s.kvRefusal sv.val q from rfl), href,
    (show (s.takeServe q.id).layerRec sv.val q.layer = s.layerRec sv.val q.layer from rfl), hl] at hrun
  dsimp only at hrun
  rw [if_neg (by rw [(show (s.takeServe q.id).kvClash sv.val q = s.kvClash sv.val q from rfl), hclash]; decide),
    if_neg (show ¬ (((s.takeServe q.id).req (tagReq q.tag)).state = .free ∨ ((s.takeServe q.id).req (tagReq q.tag)).state = .queued) from not_or.2 ⟨hfree, hqueued⟩), (show (s.takeServe q.id).sd sv.val = s.sd sv.val from rfl), hx] at hrun
  dsimp only at hrun
  rw [(show (s.takeServe q.id).tick.count = s.tick.count from rfl)] at hrun
  generalize stageKv sv l q s.tick.count = w at hrun ⊢
  have hkeep : { (if tagPos q.tag = 65534 then (if w.2 = true then x.attnBit 5 else x).attnBit 7 else if w.2 = true then x.attnBit 5 else x) with attnEvt := x.attnEvt } = x := by
    split
    · exact x.attnBit_keeps w.2 5
    · exact x.attnBit_keeps w.2 5
  replace hrun : exec (.kvWrite sv) s = .next ((s.kvStaged sv.val q _ w.1).answer q _ id) := hrun
  generalize (if tagPos q.tag = 65534 then (if w.2 = true then x.attnBit 5 else x).attnBit 7 else if w.2 = true then x.attnBit 5 else x) = y at hrun hkeep
  obtain ⟨hsd, hkv, hin, hframe⟩ := s.kvStaged_spec sv.val q y w.1
  generalize s.kvStaged sv.val q y w.1 = u at hrun hsd hkv hin hframe
  obtain ⟨hstore, -, -, -, hother, hans⟩ := u.answer_spec q (if tagPos q.tag = 65534 then [stCtxLimit] else []) .id
  have hcore (d : CoreId) : u.core d = s.core d := (congrArg (fun v : State => v.core d) hframe :)
  have hsd' := (congrArg (fun v : State => v.sd sv.val) hans).trans hsd
  refine ⟨_, hrun, (congrArg (fun v : State => v.srv.kv) hans :).trans hkv, (congrArg State.inbox hans :).trans hin, ?_, ?_, ?_, ?_, fun d hd => (hother d hd).trans (hcore d), ?_⟩
  · exact (congrArg ServeDie.alloc hsd').trans (congrArg ServeDie.alloc hkeep :)
  · exact (congrArg ServeDie.pages hsd').trans (congrArg ServeDie.pages hkeep :)
  · exact ((congrArg ServeDie.dram hsd').trans (congrArg ServeDie.dram hkeep :)).trans (ServeDie.framed_dram hx).1
  · exact hstore.trans ((Core.pendAll_store _ _ _).trans (congrArg Core.store (hcore _)))
  · exact (congrArg (fun v : State => v.srv.reqs) hans :).trans (congrArg (fun v : State => v.srv.reqs) hframe :)

/-- PAGE_AGEING (R321). -/
theorem pageAgeing_moves {sv : ServeId} {l : LayerRec} {y : ServeDie} {s : State} {r layer i a : Nat} {own : Bool} (hp : s.tick.phase = .applied) (hl : s.layerRec sv.val layer = some l)
    (hage : mayAge l ((s.sd sv.val).dir r) ((s.sd sv.val).page r layer i) i = true) (htake : (s.sd sv.val).take r (frameUnits l l.agedFmt) (frameUnits l l.newFmt) = some (a, y, own)) :
    ∃ t, exec (.pageAgeing sv r layer i false) s = .next t ∧
      (t.sd sv.val).page r layer i = { (s.sd sv.val).page r layer i with frame := a, fmt := l.agedFmt } ∧
      (t.sd sv.val).dram = (reencode (s.sd sv.val).dram l ((s.sd sv.val).page r layer i).frame a).1 ∧
      (∀ e ∈ (t.sd sv.val).alloc, e.1 ≠ ((s.sd sv.val).page r layer i).frame) ∧ { t with serve := s.serve } = s := by
  have hrun : exec (.pageAgeing sv r layer i false) s = execPageAgeing sv r layer i false s := rfl
  unfold execPageAgeing at hrun
  dsimp only at hrun
  rw [hl] at hrun
  dsimp only at hrun
  rw [if_neg (by rw [hage, hp]; decide), if_neg (by decide), htake] at hrun
  dsimp only at hrun
  have hdram : y.dram = (s.sd sv.val).dram := (congrArg ServeDie.dram (ServeDie.take_frame htake) :)
  rw [hdram] at hrun
  generalize (s.sd sv.val).page r layer i = pg at hrun ⊢
  generalize reencode (s.sd sv.val).dram l pg.frame a = m at hrun ⊢
  refine ⟨_, hrun, ?_⟩
  rw [State.sd_setSd, if_pos rfl]
  have hrel := ({ y with dram := m.1 }.setPage r layer i { pg with frame := a, fmt := l.agedFmt }).release_frame r pg.frame own
  generalize ({ y with dram := m.1 }.setPage r layer i { pg with frame := a, fmt := l.agedFmt }).release r pg.frame own = z at hrel ⊢
  have hkeep := z.attnBit_keeps m.2 5
  refine ⟨?_, ?_, fun e he => ?_, rfl⟩
  · unfold ServeDie.page
    rw [(congrArg ServeDie.pages hkeep :), (congrArg ServeDie.pages hrel :)]
    exact smGet_smSet_same pageDefault _ _ _
  · rw [(congrArg ServeDie.dram hkeep :), (congrArg ServeDie.dram hrel :)]
    rfl
  · rw [(congrArg ServeDie.alloc hkeep :), (congrArg ServeDie.alloc hrel :)] at he
    simpa using (List.mem_filter.1 he).2

/-- SAMPLING of a lane whose logits are those of every head (R349, R353). -/
theorem sampling_draws {sv : ServeId} {q : ServeReq} {s : State} (hp : s.tick.phase = .work ∨ s.tick.phase = .drain) (hq : s.inbox.find? (fun y => y.kind == .samp && tagReq y.tag % 2 == sv.val) = some q)
    (hst : (s.req (tagReq q.tag)).state = .decode) (hheads : q.rowsA.length = s.heads) (hvocab : ∀ h r, q.rowsA[h]? = some r → r.length = s.vocab h) (hcls : tagClass q.tag = 1) :
    ∃ t, exec (.sampling sv) s = .next t ∧ t.inbox = s.inbox.filter (fun y => y.id != q.id) ∧ t.srv.reqs = s.srv.reqs ∧
      t.srv.draws = s.srv.draws ++ [drawLane (s.req (tagReq q.tag)) (laneTagOf q.tag) [] s.tick.count (q.rowsA.map fun r => r.map (fpDecode (fmtOf q.fmtA)))] := by
  have hrun : exec (.sampling sv) s = execSampling sv s := rfl
  unfold execSampling at hrun
  dsimp only at hrun
  rw [hq] at hrun
  dsimp only at hrun
  have hreq : (s.takeServe q.id).req (laneTagOf q.tag).req = s.req (tagReq q.tag) := rfl
  have hlane : (laneTagOf q.tag).cls = 1 := hcls
  have hany : ((enum q.rowsA).any fun x => x.2.length != (s.takeServe q.id).vocab x.1) = false := by
    refine List.any_eq_false.2 fun x hx => ?_
    have := hvocab x.1 x.2 ((mem_enum _ _ _).1 hx)
    simpa using (show x.2.length = (s.takeServe q.id).vocab x.1 from this)
  have hlen : (s.takeServe q.id).heads = q.rowsA.length := hheads.symm
  have hcount : (s.takeServe q.id).tick.count = s.tick.count := rfl
  rw [if_neg (by rw [State.running_of hp]; decide), hreq, hcount, hst, if_neg (by decide), if_neg (by rw [hany, hlen]; simp), hlane, if_neg (by decide)] at hrun
  have hform : ∃ f flags, exec (.sampling sv) s =
      .next (((s.drawn q (drawLane (s.req (tagReq q.tag)) (laneTagOf q.tag) [] s.tick.count (q.rowsA.map fun r => r.map (fpDecode (fmtOf q.fmtA))))).modSd sv.val f).answer q flags id) := by
    generalize (s.req (tagReq q.tag)).step = step at hrun
    cases step with
    | none => exact ⟨_, _, hrun⟩
    | some st => exact ⟨_, _, hrun⟩
  generalize drawLane (s.req (tagReq q.tag)) (laneTagOf q.tag) [] s.tick.count (q.rowsA.map fun r => r.map (fpDecode (fmtOf q.fmtA))) = dr at hform ⊢
  obtain ⟨f, flags, hrun⟩ := hform
  obtain ⟨-, -, -, -, -, hans⟩ := ((s.drawn q dr).modSd sv.val f).answer_spec q flags .id
  exact ⟨_, hrun, (congrArg State.inbox hans :), (congrArg (fun v : State => v.srv.reqs) hans :), (congrArg (fun v : State => v.srv.draws) hans :)⟩

theorem Core.preg_of_preds {k k' : Core} (h : k.preds = k'.preds) (p : PReg) : k.preg p = k'.preg p := by
  unfold Core.preg
  rw [h]

/-- GENERATION_FENCE_QUERY (R372). -/
theorem generationFenceQuery_answers {sv : ServeId} {q : ServeReq} {s : State} {p : PReg} (hp : s.tick.phase = .work ∨ s.tick.phase = .drain) (hq : s.nextServe sv.val .gfence = some q)
    (hpd : q.pd = some p) (h0 : p.val ≠ 0) : let r := s.req (tagReq q.tag)
    let fenced := r.state ≠ .free ∧ r.state ≠ .queued ∧ r.gen ≠ s.genActive
    ∃ t, exec (.generationFenceQuery sv) s = .next t ∧ t.inbox = s.inbox.filter (fun y => y.id != q.id) ∧
      ((t.core q.core).preg p = true ↔ fenced) ∧ (fenced → ∀ u ∈ (t.core q.core).inflight, u.id = q.inst → u.flags.getLsbD 18 = true) ∧
      (¬ fenced → (t.sd sv.val).reports = (s.sd sv.val).reports) ∧ (∀ d, d ≠ q.core → t.core d = s.core d) := by
  have hrun : exec (.generationFenceQuery sv) s = execGenerationFenceQuery sv s := rfl
  unfold execGenerationFenceQuery at hrun
  dsimp only at hrun
  rw [hq] at hrun
  dsimp only at hrun
  rw [if_neg (by rw [State.running_of hp]; decide), hpd] at hrun
  dsimp only at hrun
  have hreq : (s.takeServe q.id).req (laneTagOf q.tag).req = s.req (tagReq q.tag) := rfl
  have hgen : (s.takeServe q.id).genActive = s.genActive := rfl
  rw [hreq, hgen] at hrun
  generalize s.req (tagReq q.tag) = r at hrun ⊢
  dsimp only
  have hpreg (flags : List Nat) (b : Bool) : (((s.takeServe q.id).answer q flags fun k => k.setP p b).core q.core).preg p = b := by
    obtain ⟨-, hpreds, -⟩ := (s.takeServe q.id).answer_spec q flags (.setP p b)
    exact (Core.preg_of_preds hpreds p).trans ((Core.preg_setP_same _ _ _).trans (if_neg h0))
  by_cases hf : r.state ≠ .free ∧ r.state ≠ .queued ∧ r.gen ≠ s.genActive
  · obtain ⟨h1, h2, h3⟩ := hf
    rw [if_pos (by simp [h1, h2, h3])] at hrun
    obtain ⟨-, -, hflags, -, hother, hframe⟩ := (s.takeServe q.id).answer_spec q [stGenFence] (.setP p true)
    refine ⟨_, hrun, (congrArg State.inbox hframe :), iff_of_true (hpreg _ _) ⟨h1, h2, h3⟩, fun _ => hflags 18 List.mem_cons_self (by decide), fun h => absurd ⟨h1, h2, h3⟩ h, hother⟩
  · rw [if_neg (by simpa [not_and_or] using hf)] at hrun
    obtain ⟨-, -, -, -, hother, hframe⟩ := (s.takeServe q.id).answer_spec q [] (.setP p false)
    refine ⟨_, hrun, (congrArg State.inbox hframe :), iff_of_false (by rw [hpreg]; decide) hf, fun h => absurd h hf, fun _ => (congrArg (fun v : State => (v.sd sv.val).reports) hframe :), hother⟩

/-- REFUSAL_REPORT (R368). -/
theorem refusalReport_reaches {sv : ServeId} {s : State} {r : Report} {rest : List Report} (h : (s.sd sv.val).reports = r :: rest) :
    ∃ t, exec (.refusalReport sv) s = .next t ∧ t.srv.refusals = s.srv.refusals ++ [r] ∧ (t.sd sv.val).reports = rest ∧ { t with srv := s.srv, serve := s.serve } = s := by
  have hrun : exec (.refusalReport sv) s = execRefusalReport sv s := rfl
  unfold execRefusalReport at hrun
  rw [h] at hrun
  have hsd := (s.sd_modSd sv.val sv.val fun x => { x with reports := rest }).trans (if_pos rfl)
  exact ⟨_, hrun, rfl, (congrArg ServeDie.reports hsd :), rfl⟩

/-- Settles O37. -/
theorem kvAndSampling : Obligations.KvAndSampling := by
  unfold Obligations.KvAndSampling
  intro sv q l x s
  exact ⟨kvWrite_stages, fun _ _ _ _ _ _ => pageAgeing_moves, sampling_draws, fun _ => generationFenceQuery_answers, fun _ _ => refusalReport_reaches⟩

end Sys2Proof.Machine
end

section
/-! The network port: messages of a core (R264 to R266). -/
namespace Sys2Proof.Machine

/-- The core of an instruction that only occupies its unit. -/
def Core.occupied (k : Core) (u : UnitKind) (done : Option Nat) (re we : List Extent) : Core := k.dispatch u done re we none none [] none 0

theorem Core.collect_id (k : Core) : k.collect id = (k, 0) := (rfl)

theorem enum_getElem {α : Type} {l : List α} {i : Nat} {p : Nat × α} (h : (enum l)[i]? = some p) : p.1 = i := by
  unfold enum at h
  obtain ⟨h1, -⟩ := List.getElem?_zip_eq_some.1 h
  obtain ⟨hi, he⟩ := List.getElem?_eq_some_iff.1 h1
  rw [← he, List.getElem_range]

/-- An instruction of the network port whose message goes: what stands in the network, and the core's wait (R264, R265). -/
theorem netPort_goes {c : CoreId} {i : Instr} {g : Guard} {da : Desc} {fmts : List Nat} {ut : Nat} {h : Header} {step : Nat} {bs : Bytes} {s : State} {body : Nat → State → Fire}
    (he : exec i s = .next (fire c i g body s))
    (hb : body (s.fireAt c i g) s = thenInject c (s.fireAt c i g) (messageOf h step (piecesOf 64 bs.length bs)) (unitOp c .net [(da, fmts)] [] none (s.fireAt c i g) ut none id s)) :
    Ready c i g s → OperandsGood c .net [(da, fmts)] [] s → ∃ t, exec i s = .next t ∧
      (t.flits.drop s.flits.length).map Flit.body = messageOf h step (piecesOf 64 bs.length bs) ∧
      t.flits.take s.flits.length = s.flits ∧ (∀ f ∈ t.flits.drop s.flits.length, f.die = dieOf c ∧ f.router = c.val % 4 ∧ f.arrived = false) ∧
      (t.core c).store = (s.core c).store ∧ (t.core c).acc = (s.core c).acc ∧ (t.core c).sregs = (s.core c).sregs ∧ (t.core c).pc = (s.core c).pc + 8 ∧
      (t.core c).inflight = (s.core c).inflight ++ [⟨(s.core c).nextId, .net, some (s.fireAt c i g + ut - 1), [da.extent s.tick.seq], [], none, none, [], (s.core c).pc, none, 0⟩] ∧
      (s.core c).sameButUnit (t.core c) ∧ (∀ j f, (t.flits.drop s.flits.length)[j]? = some f → f.inj = some (s.fireAt c i g + 2 + j)) ∧
      ∀ d, d ≠ c → t.core d = s.core d := by
  intro hr ho
  generalize messageOf h step (piecesOf 64 bs.length bs) = fs at hb ⊢
  rw [fire_ready hr, hb, unitOp_good ho, Core.collect_id] at he
  generalize s.fireAt c i g = t0 at he ⊢
  set k := (s.core c).occupied .net (some (t0 + ut - 1)) (extentsOf s.tick.seq [da]) [] with hk
  replace he : exec i s = .next (((s.setCore c k).inject (1000 * s.member + c.val) (dieOf c) (c.val % 4) (some (t0 + 2)) none fs).modCore c fun k' => k'.advance ((s.core c).pc + 8) (t0 + 1)) := he
  obtain ⟨htake, hdrop⟩ := (s.setCore c k).inject_flits (1000 * s.member + c.val) (dieOf c) (c.val % 4) (some (t0 + 2)) none fs
  have hbodies := (s.setCore c k).inject_bodies (1000 * s.member + c.val) (dieOf c) (c.val % 4) (some (t0 + 2)) none fs
  have hmem (f : Flit) := State.mem_inject (s := s.setCore c k) (src := 1000 * s.member + c.val) (d := dieOf c) (r := c.val % 4) (inj := some (t0 + 2)) (req := none) (fs := fs) (f := f)
  have hcore : ((s.setCore c k).inject (1000 * s.member + c.val) (dieOf c) (c.val % 4) (some (t0 + 2)) none fs).core = (s.setCore c k).core := rfl
  have hflits : (s.setCore c k).flits = s.flits := rfl
  generalize (s.setCore c k).inject (1000 * s.member + c.val) (dieOf c) (c.val % 4) (some (t0 + 2)) none fs = u at he htake hdrop hbodies hmem hcore
  rw [hflits] at htake hdrop hbodies hmem
  have hown : (u.modCore c fun k' => k'.advance ((s.core c).pc + 8) (t0 + 1)).core c = k.advance ((s.core c).pc + 8) (t0 + 1) := by
    rw [State.core_modCore_same, hcore, State.core_setCore_same]
  refine ⟨_, he, hbodies, htake, fun f hf => ?_, ?_, ?_, ?_, ?_, ?_, ?_, fun j f hf => ?_, fun d hd => ?_⟩
  · obtain ⟨-, hdie, hrouter, harr, -⟩ := hmem f hf
    exact ⟨hdie, hrouter, harr⟩
  · rw [hown]; rfl
  · rw [hown]; rfl
  · rw [hown]; rfl
  · rw [hown]; rfl
  · rw [hown]; rfl
  · rw [hown]; rfl
  · replace hf : (u.flits.drop s.flits.length)[j]? = some f := hf
    rw [hdrop, List.getElem?_map, Option.map_eq_some_iff] at hf
    obtain ⟨p, hp, rfl⟩ := hf
    exact congrArg (fun x => some (t0 + 2 + x)) (enum_getElem hp)
  · rw [State.core_modCore_other _ _ _ _ hd, hcore, State.core_setCore_other _ _ _ _ hd]

theorem State.routeFor_of {s : State} {c : CoreId} {i : Nat} {r : RouteEnt} {kind : Nat} (hin : s.routeInSlot c i = true) (hr : s.route i = some r) (hk : r.kind = kind) :
    s.routeFor c i kind = .ok r := by
  unfold State.routeFor
  rw [hin, hr]
  dsimp only
  rw [if_neg (by decide), if_pos hk]

/-- Settles O18. -/
theorem networkPort : Obligations.NetworkPort := by
  unfold Obligations.NetworkPort
  intro c g ta route sa opMax r s k n da off bytes part goes hin hr
  refine ⟨fun hk hal hfit => ?_, fun hk hfmt hfit => ?_⟩
  · refine netPort_goes rfl ?_
    dsimp only
    rw [State.routeFor_of hin hr hk]
    dsimp only
    rw [if_neg (not_not.2 hal), if_neg (Nat.not_lt.2 hfit)]
    rfl
  · refine netPort_goes rfl ?_
    dsimp only
    rw [State.routeFor_of hin hr hk]
    dsimp only
    rw [if_neg (by rw [hfmt]; decide), if_neg (show ¬ redCap r.form < off + da.count from Nat.not_lt.2 hfit)]
    by_cases hf : r.form = 2
    · unfold formBytes
      rw [if_pos hf, if_pos hf]
      rfl
    · unfold formBytes
      rw [if_neg hf, if_neg hf]
      rfl

end Sys2Proof.Machine
end

section
/-! Rows of operands in the core store: what writing them leaves, and what they read back as (R217, R225, R226). -/
namespace Sys2Proof.Machine

/-! ### The checks of an operand -/

/-- Rows of an operand that passed its checks stand apart (R226). -/
theorem Core.checkDesc_none {k : Core} {n : W48} {d : Desc} {fmts : List Nat} {rd wr : Bool} (h : k.checkDesc n d fmts rd wr = none) :
    d.fmt ∈ fmts ∧ (1 < d.len1 → d.rowBytes ≤ d.stride) ∧ d.base % (if d.fmt = 9 then 32 else 64) = 0 ∧ d.stride % (if d.fmt = 9 then 32 else 64) = 0 ∧
    (d.fmt = 9 → d.banking = 0) := by
  unfold Core.checkDesc at h
  dsimp only at h
  generalize (if d.fmt = 9 then 32 else 64) = al at h ⊢
  split at h
  · exact absurd h (by simp)
  split at h
  · exact absurd h (by simp)
  rename_i hal hbad
  simp only [not_or, not_and, not_not, Nat.not_lt] at hal hbad
  obtain ⟨hbase, hstride, -⟩ := hal
  obtain ⟨-, -, -, hbank, hrows, -, hfmt, -⟩ := hbad
  exact ⟨hfmt, hrows, hbase, hstride, hbank⟩

theorem descOf_len1_pos (v : BitVec 128) : 0 < (descOf v).len1 := Nat.succ_pos _

theorem descOf_len0_pos (v : BitVec 128) : 0 < (descOf v).len0 := Nat.succ_pos _

/-! ### Bytes written in rows -/

/-- Rows of bytes written at the rows of an extent. -/
def writeRows (n : W48) (d : Desc) (m : List Host.Cell) (rs : List Bytes) : List Host.Cell :=
  (enum rs).foldl (fun m p => writeBytes m (d.rowAt n p.1) p.2) m

theorem enum_concat {α : Type} (l : List α) (a : α) : enum (l ++ [a]) = enum l ++ [(l.length, a)] := by
  unfold enum
  rw [List.length_append, List.length_singleton, List.range_succ, List.zip_append (List.length_range ..)]
  rfl

theorem writeRows_concat (n : W48) (d : Desc) (m : List Host.Cell) (rs : List Bytes) (b : Bytes) :
    writeRows n d m (rs ++ [b]) = writeBytes (writeRows n d m rs) (d.rowAt n rs.length) b := by
  unfold writeRows
  rw [enum_concat, List.foldl_append]
  rfl

theorem readBytes_congr {m m' : List Host.Cell} {a len : Nat} (h : ∀ x, a ≤ x → x < a + len → memGet m x = memGet m' x) : readBytes m a len = readBytes m' a len := by
  unfold readBytes
  refine List.map_congr_left fun i hi => h _ (Nat.le_add_right ..) ?_
  have := List.mem_range.1 hi
  omega

theorem readBytes_writeBytes_out (m : List Host.Cell) (a b len : Nat) (bs : Bytes) (h : a + len ≤ b ∨ b + bs.length ≤ a) : readBytes (writeBytes m b bs) a len = readBytes m a len :=
  readBytes_congr fun x h1 h2 => memGet_writeBytes_out bs m b x (by omega)

theorem Desc.rowAt_lt {d : Desc} (n : W48) {i j : Nat} (hrows : 1 < d.len1 → d.rowBytes ≤ d.stride) (hij : i < j) (hj : j < d.len1) : d.rowAt n i + d.rowBytes ≤ d.rowAt n j := by
  have h1 := hrows (by omega)
  have h2 : (i + 1) * d.stride ≤ j * d.stride := Nat.mul_le_mul_right _ hij
  unfold Desc.rowAt
  rw [Nat.succ_mul] at h2
  omega

theorem Desc.rowAt_le_hi {d : Desc} (n : W48) {j : Nat} (hj : j < d.len1) : d.rowAt n j + d.rowBytes ≤ (d.extent n).hi := by
  have h2 : j * d.stride ≤ (d.len1 - 1) * d.stride := Nat.mul_le_mul_right _ (by omega)
  unfold Desc.rowAt Desc.extent
  dsimp only
  omega

theorem Desc.lo_le_rowAt (d : Desc) (n : W48) (j : Nat) : (d.extent n).lo ≤ d.rowAt n j := Nat.le_add_right ..

/-- Rows written stay within the extent. -/
theorem memGet_writeRows_out {n : W48} {d : Desc} {m : List Host.Cell} {rs : List Bytes} (hlen : ∀ b ∈ rs, b.length = d.rowBytes) (hcnt : rs.length ≤ d.len1) {a : Nat}
    (ha : a < (d.extent n).lo ∨ (d.extent n).hi ≤ a) : memGet (writeRows n d m rs) a = memGet m a := by
  induction rs using List.reverseRecOn with
  | nil => rfl
  | append_singleton rs b ih =>
    rw [List.length_append, List.length_singleton] at hcnt
    have hb := hlen b (by simp)
    have h1 := d.rowAt_le_hi n (show rs.length < d.len1 by omega)
    have h2 := d.lo_le_rowAt n rs.length
    rw [writeRows_concat, memGet_writeBytes_out _ _ _ _ (by omega)]
    exact ih (fun x hx => hlen x (by simp [hx])) (by omega)

/-- A row written reads back. -/
theorem readBytes_writeRows {n : W48} {d : Desc} {m : List Host.Cell} {rs : List Bytes} (hlen : ∀ b ∈ rs, b.length = d.rowBytes) (hcnt : rs.length ≤ d.len1)
    (hrows : 1 < d.len1 → d.rowBytes ≤ d.stride) {j : Nat} {b : Bytes} (hj : rs[j]? = some b) : readBytes (writeRows n d m rs) (d.rowAt n j) d.rowBytes = b := by
  induction rs using List.reverseRecOn with
  | nil => exact absurd hj (by simp)
  | append_singleton rs c ih =>
    rw [List.length_append, List.length_singleton] at hcnt
    rw [writeRows_concat]
    have hc := hlen c (by simp)
    by_cases hlt : j < rs.length
    · rw [List.getElem?_append_left hlt] at hj
      have h1 := d.rowAt_lt n hrows hlt (by omega)
      rw [readBytes_writeBytes_out _ _ _ _ _ (.inl h1)]
      exact ih (fun x hx => hlen x (by simp [hx])) (by omega) hj
    · obtain ⟨hlt2, hcb⟩ := List.getElem?_eq_some_iff.1 hj
      rw [List.length_append, List.length_singleton] at hlt2
      obtain rfl : j = rs.length := by omega
      rw [List.getElem_append_right (Nat.le_refl _)] at hcb
      simp only [Nat.sub_self, List.getElem_singleton] at hcb
      subst hcb
      rw [← hc]
      exact readBytes_writeBytes _ _ _

/-! ### Rows written into a core -/

/-- Apart from the core store, its failing words and arrival bits the two cores are the same. -/
def Core.sameButBytes (k k' : Core) : Prop := { k' with store := k.store, badStore := k.badStore, arrival := k.arrival } = k

theorem Core.sameButBytes_foldl {α : Type} {f : Core → α → Core} (h : ∀ (k : Core) x, k.sameButBytes (f k x)) (l : List α) (k : Core) : k.sameButBytes (l.foldl f k) := by
  unfold Core.sameButBytes
  exact foldl_keeps (f := f) (fun u : Core => { u with store := k.store, badStore := k.badStore, arrival := k.arrival })
    (fun u x => (congrArg (fun u : Core => { u with store := k.store, badStore := k.badStore, arrival := k.arrival }) (h u x) :)) l k

theorem Core.putRows_same (k : Core) (n : W48) (d : Desc) (rs : List (List Nat)) : k.sameButBytes (k.putRows n d rs) :=
  Core.sameButBytes_foldl (f := fun (k : Core) (p : List Nat × Nat) => k.putRow n d p.2 p.1) (fun _ _ => rfl) _ k

theorem Core.putRaws_same (k : Core) (n : W48) (d : Desc) (rs : List Bytes) : k.sameButBytes (k.putRaws n d rs) :=
  Core.sameButBytes_foldl (f := fun (k : Core) (p : Nat × Bytes) => k.putRaw n d p.1 p.2) (fun _ _ => rfl) _ k

theorem Core.store_foldl {α : Type} {f : Core → α → Core} {g : List Host.Cell → α → List Host.Cell} (h : ∀ (k : Core) x, (f k x).store = g k.store x) (l : List α) (k : Core) :
    (l.foldl f k).store = l.foldl g k.store := by
  induction l generalizing k with
  | nil => rfl
  | cons x l ih => rw [List.foldl_cons, List.foldl_cons, ih, h]

theorem Core.putRaws_store (k : Core) (n : W48) (d : Desc) (rs : List Bytes) : (k.putRaws n d rs).store = writeRows n d k.store rs :=
  Core.store_foldl (fun _ _ => rfl) _ _

/-- The bytes of a row of element codes. -/
def codeBytes (d : Desc) (r : List Nat) : Bytes := r.flatMap (leBytes (elemBytes d.fmt))

theorem length_codeBytes (d : Desc) (r : List Nat) : (codeBytes d r).length = r.length * elemBytes d.fmt := by
  unfold codeBytes
  rw [List.length_flatMap]
  simp

theorem zip_range_eq_enum {α : Type} (l : List α) : l.zip (List.range l.length) = (enum l).map fun p => (p.2, p.1) := by
  unfold enum
  exact (List.zip_swap ..).symm.trans (congrArg _ rfl)

theorem Core.putRows_store (k : Core) (n : W48) (d : Desc) (rs : List (List Nat)) : (k.putRows n d rs).store = writeRows n d k.store (rs.map (codeBytes d)) := by
  induction rs using List.reverseRecOn generalizing k with
  | nil => rfl
  | append_singleton rs r ih =>
    have hcat : k.putRows n d (rs ++ [r]) = (k.putRows n d rs).putRow n d rs.length r := by
      unfold Core.putRows
      rw [List.length_append, List.length_singleton, List.range_succ, List.zip_append (List.length_range ..).symm, List.foldl_append]
      rfl
    rw [hcat, List.map_append, List.map_singleton, writeRows_concat, List.length_map, ← ih]
    rfl

/-- The store that rows leave does not depend on the rest of the core. -/
theorem Core.putRows_store_congr {k k' : Core} (h : k.store = k'.store) (n : W48) (d : Desc) (rs : List (List Nat)) : (k.putRows n d rs).store = (k'.putRows n d rs).store := by
  rw [Core.putRows_store, Core.putRows_store, h]

theorem Core.putRows_outside {k : Core} {n : W48} {d : Desc} {rs : List (List Nat)} (hb : d.rowBytes = d.len0 * elemBytes d.fmt) (hlen : ∀ r ∈ rs, r.length = d.len0) (hcnt : rs.length ≤ d.len1) :
    k.storeOutside (k.putRows n d rs) n d := by
  intro a ha
  rw [Core.putRows_store]
  refine memGet_writeRows_out (fun b hm => ?_) (by rwa [List.length_map]) ha
  obtain ⟨r, hr, rfl⟩ := List.mem_map.1 hm
  rw [length_codeBytes, hlen r hr, hb]

theorem Core.putRaws_outside {k : Core} {n : W48} {d : Desc} {rs : List Bytes} (hlen : ∀ r ∈ rs, r.length = d.rowBytes) (hcnt : rs.length ≤ d.len1) : k.storeOutside (k.putRaws n d rs) n d := by
  intro a ha
  rw [Core.putRaws_store]
  exact memGet_writeRows_out hlen hcnt ha

/-- Bytes of a row of a plain format (R225, R226). -/
theorem Desc.rowBytes_of {d : Desc} {fmts : List Nat} (h : d.fmt ∈ fmts) (hm : ∀ f ∈ fmts, f ≠ 3 ∧ f ≠ 4 ∧ f ≠ 5) : d.rowBytes = d.len0 * elemBytes d.fmt := by
  obtain ⟨h3, h4, h5⟩ := hm _ h
  unfold Desc.rowBytes
  rw [if_neg (by simp [h3, h4, h5])]

end Sys2Proof.Machine
end

section
/-! The move engine (R263). -/
namespace Sys2Proof.Machine

/-- A nested range as one range (row by row). -/
theorem flatMap_range_map {α : Type} (m l : Nat) (f : Nat → Nat → α) :
    ((List.range m).flatMap fun j => (List.range l).map (f j)) = (List.range (m * l)).map fun i => f (i / l) (i % l) := by
  induction m with
  | zero => rw [Nat.zero_mul]; rfl
  | succ m ih =>
    rw [List.range_succ, List.flatMap_append, ih, Nat.succ_mul, List.range_add, List.map_append, List.map_map, List.flatMap_singleton]
    refine congrArg _ (List.map_congr_left fun i hi => ?_)
    have hlt := List.mem_range.1 hi
    rw [Function.comp, Nat.mul_comm, Nat.mul_add_div (by omega), Nat.div_eq_of_lt hlt, Nat.add_zero, Nat.mul_add_mod, Nat.mod_eq_of_lt hlt]

/-- A unit instruction that writes bytes alone: no STATUS bit, and the store of the action (R214). -/
theorem Core.collect_bytes {k : Core} {act : Core → Core} (h : ∀ k : Core, k.sameButBytes (act k)) :
    (k.collect act).2 = 0 ∧ (k.collect act).1.store = (act { k with status := 0 }).store ∧ k.sameButBytes (k.collect act).1 := by
  have h0 := h { k with status := 0 }
  unfold Core.sameButBytes at h0
  refine ⟨(congrArg Core.status h0 :), rfl, ?_⟩
  exact (congrArg (fun u : Core => { u with status := k.status, numStat := k.numStat }) h0 :)

theorem Core.sameButUnit_of_bytes {k k' : Core} (h : k.sameButBytes k') (fl : List UnitInst) (id : Nat) (pc : W64) (cyc : Nat) :
    k.sameButUnit { k' with inflight := fl, nextId := id, pc := pc, cyc := cyc } :=
  (congrArg (fun u : Core => { u with eventStat := k.eventStat, inflight := k.inflight, nextId := k.nextId, pc := k.pc, cyc := k.cyc }) h :)

/-- What a move leaves (R263). -/
def Moved (n : W48) (d : Desc) (want : Nat → Bytes) (k k' : Core) (fl : W32) : Prop :=
  fl = 0 ∧ (∀ j, j < d.len1 → readBytes k'.store (d.rowAt n j) d.rowBytes = want j) ∧ k.storeOutside k' n d ∧ k.sameButUnit k'

/-- An instruction of the move engine whose action writes rows of bytes. -/
theorem unitRuns_move {i : Instr} {c : CoreId} {g : Guard} {rd : List (Desc × List Nat)} {d : Desc} {fmts : List Nat} {ut : Nat} {s : State} {body : Nat → State → Fire}
    {act : Core → Core} {want : Nat → Bytes} (he : exec i s = .next (fire c i g body s))
    (hb : OperandsGood c .move rd [(d, fmts)] s → body (s.fireAt c i g) s = unitOp c .move rd [(d, fmts)] none (s.fireAt c i g) ut none act s)
    (hact : ∀ k : Core, k.sameButBytes (act k))
    (hstore : d.fmt ∈ fmts → (act { s.core c with status := 0 }).store = writeRows s.tick.seq d (s.core c).store ((List.range d.len1).map want))
    (hlen : d.fmt ∈ fmts → ∀ j, j < d.len1 → (want j).length = d.rowBytes) :
    unitRuns i c g .move rd [(d, fmts)] ut none s (Moved s.tick.seq d want) := by
  intro hr ho
  obtain ⟨hfmt, hrows, -, -, -⟩ := Core.checkDesc_none (ho.writes (d, fmts) List.mem_cons_self)
  refine unitRuns_of act he (hb ho) (fun k => ?_) (fun fl id pc cyc => ?_) hr ho
  · have h := hact k
    exact ⟨(congrArg Core.inflight h :), (congrArg Core.nextId h :), (congrArg Core.pc h :)⟩
  · obtain ⟨hfl, hst, hsame⟩ := Core.collect_bytes (k := s.core c) hact
    replace hst := hst.trans (hstore hfmt)
    have hall : ∀ b ∈ (List.range d.len1).map want, b.length = d.rowBytes := by
      intro b hb
      obtain ⟨j, hj, rfl⟩ := List.mem_map.1 hb
      exact hlen hfmt j (List.mem_range.1 hj)
    have hcnt : ((List.range d.len1).map want).length ≤ d.len1 := by simp
    refine ⟨hfl, fun j hj => ?_, fun a ha => ?_, Core.sameButUnit_of_bytes hsame fl id pc cyc⟩
    · refine (congrArg (fun m => readBytes m _ _) hst).trans (readBytes_writeRows hall hcnt hrows ?_)
      rw [List.getElem?_map, List.getElem?_range hj]
      rfl
    · exact (congrArg (fun m => memGet m a) hst).trans (memGet_writeRows_out hall hcnt ha)

/-- Element i of an operand of indices, signed 32 bits (R263). -/
def Core.rowIndex (k : Core) (n : W48) (d : Desc) (i : Nat) : Int := (BitVec.ofNat 32 (readNat k.store (d.rowAt n (i / d.len0) + 4 * (i % d.len0)) 4)).toInt

theorem sext_eq_toInt (x : Nat) : sext 32 x = (BitVec.ofNat 32 x).toInt := by
  rw [BitVec.toInt_eq_toNat_cond, BitVec.toNat_ofNat]
  unfold sext
  dsimp only
  generalize x % 2 ^ 32 = y
  split <;> split <;> omega

theorem Core.gathIdx_eq {k : Core} {n : W48} {db : Desc} (h8 : db.fmt = 8) :
    k.gathIdx n db = (List.range (db.len1 * db.len0)).map (k.rowIndex n db) := by
  unfold Core.gathIdx Core.rows
  rw [← List.flatMap_def]
  unfold Core.rowElems
  dsimp only
  rw [h8, flatMap_range_map, List.map_map]
  exact List.map_congr_left fun i _ => sext_eq_toInt _

/-- Settles O11. -/
theorem moves : Obligations.Moves := by
  unfold Obligations.Moves
  intro c g td ta tb sa s k n dd da db src leaves
  refine ⟨fun hf h0 h1 => ?_, ?_, fun hf h0 hcnt hidx => ?_⟩
  · have hbytes : dd.rowBytes = da.rowBytes := by unfold Desc.rowBytes; rw [hf, h0]
    refine unitRuns_move (act := fun k => k.putRaws n dd ((List.range da.len1).map (k.rowRaw n da))) (want := src) rfl (fun _ => ?_) (fun k => k.putRaws_same _ _ _) (fun _ => ?_) (fun _ j _ => ?_)
    · dsimp only
      rw [if_pos ⟨hf, h0, h1⟩]
      rfl
    · rw [Core.putRaws_store, h1]
      rfl
    · rw [hbytes]
      exact readBytes_length ..
  · refine unitRuns_move (act := fun k => k.putRows n dd (List.replicate dd.len1 (List.replicate dd.len0 (s.core c |>.sreg sa).toNat))) rfl (fun _ => rfl) (fun k => k.putRows_same _ _ _) (fun _ => ?_) (fun hfmt j _ => ?_)
    · rw [Core.putRows_store]
      refine congrArg _ ?_
      rw [List.map_replicate, List.map_const', List.length_range]
      exact congrArg _ ((List.flatMap_def ..).trans (congrArg List.flatten List.map_replicate))
    · rw [Desc.rowBytes_of hfmt (by decide)]
      simp
  · have h8 (ho : OperandsGood c .move [(da, [1, 2, 6, 7, 8, 10, 11]), (db, [8])] [(dd, [1, 2, 6, 7, 8, 10, 11])] s) : db.fmt = 8 :=
      List.mem_singleton.1 (Core.checkDesc_none (ho.reads (db, [8]) (by simp))).1
    have hbytes : dd.rowBytes = da.rowBytes := by unfold Desc.rowBytes; rw [hf, h0]
    intro hr ho
    have hgath := k.gathIdx_eq (n := n) (h8 ho)
    rw [Nat.mul_comm, hcnt] at hgath
    refine unitRuns_move (act := fun u => u.putRaws n dd ((k.gathIdx n db).map fun i => u.rowRaw n da i.toNat)) (want := fun i => src (k.rowIndex n db i).toNat) rfl (fun ho => ?_)
      (fun u => u.putRaws_same _ _ _) (fun _ => ?_) (fun _ j _ => ?_) hr ho
    · have hready : k.ready2 n db = true := ho.arrived (db, [8]) (by simp)
      have hall : (k.gathIdx n db).any (fun i => decide (i < 0 ∨ (da.len1 : Int) ≤ i)) = false := by
        rw [hgath]
        refine List.any_eq_false.2 fun x hx => ?_
        obtain ⟨i, hi, rfl⟩ := List.mem_map.1 hx
        have : 0 ≤ k.rowIndex n db i ∧ k.rowIndex n db i < da.len1 := hidx i (List.mem_range.1 hi)
        simpa [Int.not_lt, Int.not_le] using this
      dsimp only
      rw [if_neg (not_not.2 ⟨hf, h0, hcnt⟩), if_neg (by rw [hready]; decide), if_neg (by rw [hall]; decide)]
      rfl
    · rw [Core.putRaws_store, hgath, List.map_map]
      rfl
    · rw [hbytes]
      exact readBytes_length ..

end Sys2Proof.Machine
end

section
/-! Requests of a core to the serving dies (R267 to R270, R276). -/
namespace Sys2Proof.Machine

/-- A serving-port instruction whose operands are good (R268, R270). -/
theorem serveOp_good {c : CoreId} {rd wr : List (Desc × List Nat)} {s : State} (h : OperandsGood c .serve rd wr s) (t : Nat) (idle : Bool) (pd : Option PReg) (act : Core → Core) (after : State → State) :
    serveOp c rd wr none t idle pd act after s = .go (after (s.setCore c ((act (s.core c)).dispatch .serve (if idle then some (sentBy t (rd.map Prod.fst)) else none)
      (extentsOf s.tick.seq (rd.map Prod.fst)) (extentsOf s.tick.seq (wr.map Prod.fst)) none pd [] none 0))) 1 none := by
  unfold serveOp
  dsimp only
  rw [firstExc_none h]
  have h2 : (rd.all fun p => (s.core c).ready2 s.tick.seq p.1) = true := by simpa using fun a b => h.arrived (a, b)
  dsimp only
  rw [h.free, h2]
  rfl

/-- What a serving-port action may change of its core (R268, R270). -/
structure ServeAct (act : Core → Core) : Prop where
  inflight : ∀ k, (act k).inflight = k.inflight
  pc : ∀ k, (act k).pc = k.pc

theorem ServeAct.id : ServeAct id := ⟨fun _ => rfl, fun _ => rfl⟩

/-- The core of a serving-port instruction after it has fired. -/
def Core.served (k : Core) (act : Core → Core) (done : Option Nat) (re we : List Extent) (pd : Option PReg) (t : Nat) : Core :=
  ((act k).dispatch .serve done re we none pd [] none 0).advance (k.pc + 8) (t + 1)

theorem Core.served_spec (k : Core) {act : Core → Core} (h : ServeAct act) (done : Option Nat) (re we : List Extent) (pd : Option PReg) (t : Nat) :
    (k.served act done re we pd t).pc = k.pc + 8 ∧ (k.served act done re we pd t).store = (act k).store ∧
    ∃ u : UnitInst, (k.served act done re we pd t).inflight = k.inflight ++ [u] ∧ u.unit = .serve ∧ u.flags = 0 ∧ u.done = done :=
  ⟨rfl, rfl, _, congrArg (· ++ [_]) (h.inflight k), rfl, rfl, rfl⟩

/-- The state of a serving-port instruction whose act leaves all but its core. -/
theorem fire_served {c : CoreId} {i : Instr} {g : Guard} {rd wr : List (Desc × List Nat)} {idle : Bool} {pd : Option PReg} {act : Core → Core} {after : State → State} {s : State} {body : Nat → State → Fire}
    (he : exec i s = .next (fire c i g body s)) (hb : body (s.fireAt c i g) s = serveOp c rd wr none (s.fireAt c i g) idle pd act after s)
    (hafter : ∀ (u : State) d, (after u).core d = u.core d)
    (hr : Ready c i g s) (ho : OperandsGood c .serve rd wr s) :
    ∃ t u : State, exec i s = .next t ∧ { u with cores := s.cores } = s ∧
      t.flits = (after u).flits ∧ t.wire = (after u).wire ∧ t.inbox = (after u).inbox ∧ t.outbound = (after u).outbound ∧ t.nextReq = (after u).nextReq ∧
      t.core c = (s.core c).served act (if idle then some (sentBy (s.fireAt c i g) (rd.map Prod.fst)) else none) (extentsOf s.tick.seq (rd.map Prod.fst)) (extentsOf s.tick.seq (wr.map Prod.fst)) pd (s.fireAt c i g) ∧
      ∀ d, d ≠ c → t.core d = s.core d := by
  rw [fire_ready hr, hb, serveOp_good ho] at he
  refine ⟨_, _, he, ?_, rfl, rfl, rfl, rfl, rfl, ?_, fun d hd => ?_⟩
  · rfl
  · exact (State.core_modCore_same _ _ _).trans (congrArg (fun k : Core => k.advance _ _) ((hafter _ _).trans (State.core_setCore_same _ _ _)))
  · exact (State.core_modCore_other _ _ _ _ hd).trans ((hafter _ _).trans (State.core_setCore_other _ _ _ _ hd))

/-- A request of a core on a route as the flits of one message (R268, R276). -/
theorem State.requestBy_spec (u : State) (c : CoreId) (t : Nat) (e : RouteEnt) (q : ServeReq) (bs : Bytes) :
    let w := u.requestBy c t e q bs
    let fs := w.flits.drop u.flits.length
    w.inbox = u.inbox ∧ w.nextReq = u.nextReq + 1 ∧ w.flits.take u.flits.length = u.flits ∧
    fs.map Flit.body = messageOf (headerFor u c q.route e 0 false false) 0 (piecesOf 64 bs.length bs) ∧
    (∀ f ∈ fs, f.req = some q.id ∧ f.die = dieOf c ∧ f.router = c.val % 4 ∧ f.arrived = false) ∧
    (e.destMember = u.member → w.wire = u.wire ++ [{ q with left := fs.length }] ∧ w.outbound = u.outbound) ∧
    (e.destMember ≠ u.member → w.outbound = u.outbound ++ [q] ∧ w.wire = u.wire) := by
  dsimp only
  set v : State := { u with nextReq := u.nextReq + 1 } with hv
  have hvf : v.flits = u.flits := rfl
  set fs := messageOf (headerFor u c q.route e 0 false false) 0 (piecesOf 64 bs.length bs) with hfs
  have hsent := v.inject_flits (1000 * u.member + c.val) (dieOf c) (c.val % 4) (some (t + 2)) (some q.id) fs
  have hbodies := v.inject_bodies (1000 * u.member + c.val) (dieOf c) (c.val % 4) (some (t + 2)) (some q.id) fs
  have hmem (f : Flit) := State.mem_inject (s := v) (src := 1000 * u.member + c.val) (d := dieOf c) (r := c.val % 4) (inj := some (t + 2)) (req := some q.id) (fs := fs) (f := f)
  set x := v.inject (1000 * u.member + c.val) (dieOf c) (c.val % 4) (some (t + 2)) (some q.id) fs with hx
  have hform : u.requestBy c t e q bs = if e.destMember = u.member then { x with wire := x.wire ++ [{ q with left := fs.length }] } else { x with outbound := x.outbound ++ [q] } := rfl
  have hframe : { x with flits := u.flits, nextFlit := u.nextFlit } = v := rfl
  have hflits : (u.requestBy c t e q bs).flits = x.flits := by
    rw [hform]
    split <;> rfl
  rw [hflits]
  rw [hvf] at hsent hbodies hmem
  have hlen : (x.flits.drop u.flits.length).length = fs.length := by rw [← hbodies, List.length_map]
  refine ⟨?_, ?_, hsent.1, hbodies, fun f hf => ?_, fun hm => ?_, fun hm => ?_⟩
  · rw [hform]
    split <;> exact (congrArg State.inbox hframe :)
  · rw [hform]
    split <;> exact (congrArg State.nextReq hframe :)
  · obtain ⟨-, hd, hrt, ha, hreq⟩ := hmem f hf
    exact ⟨hreq, hd, hrt, ha⟩
  · rw [hform, if_pos hm, hlen]
    exact ⟨rfl, rfl⟩
  · rw [hform, if_neg hm]
    exact ⟨rfl, rfl⟩

theorem State.requestBy_core (u : State) (c : CoreId) (t : Nat) (e : RouteEnt) (q : ServeReq) (bs : Bytes) (d : CoreId) : (u.requestBy c t e q bs).core d = u.core d := by
  unfold State.requestBy
  dsimp only
  split <;> rfl

theorem State.request_core (u : State) (m : Nat) (q : ServeReq) (d : CoreId) : (u.request m q).core d = u.core d := by
  unfold State.request
  dsimp only
  split <;> rfl

theorem sendRequest_core (c : CoreId) (t : Nat) (r : RouteEnt) (idle : Bool) (q : RouteEnt → ServeReq) (bs : Bytes) (u : State) (d : CoreId) :
    (sendRequest c t (.ok r) idle q bs u).core d = u.core d := by
  unfold sendRequest
  dsimp only
  split
  · rfl
  · exact u.requestBy_core ..

/-- The completion cycle of an idle lane (R270). -/
theorem sentBy_eq (t : Nat) (rd : List (Desc × List Nat)) :
    sentBy t (rd.map Prod.fst) = t + 1 + ceilDiv (rd.foldl (fun a x => a + x.1.len1 * x.1.rowBytes) 0) 64 := by
  unfold sentBy ntime
  rw [List.foldl_map]
  omega

/-- A request on a route: nothing on an idle lane, one message of the route on any other (R268, R270, R276). -/
theorem asks_route {c : CoreId} {i : Instr} {g : Guard} {rd wr : List (Desc × List Nat)} {kind : ReqKind} {tag : W64} {route : BitVec 16} {r : RouteEnt} {bs : Bytes} {act : Core → Core}
    {rest fill : Core → Core → Prop} {s : State} {body : Nat → State → Fire} (q : RouteEnt → ServeReq)
    (he : exec i s = .next (fire c i g body s))
    (hb : body (s.fireAt c i g) s = serveOp c rd wr none (s.fireAt c i g) (tagClass tag == 0) none act (sendRequest c (s.fireAt c i g) (.ok r) (tagClass tag == 0) q bs) s)
    (hq : (q r).id = s.nextReq ∧ (q r).kind = kind ∧ (q r).tag = tag ∧ (q r).core = c ∧ (q r).seq = s.tick.seq ∧ (q r).route = route.toNat)
    (hact : ServeAct act) (hstore : tagClass tag ≠ 0 → (act (s.core c)).store = (s.core c).store)
    (hrest : OperandsGood c .serve rd wr s → ∀ done re we t, rest (s.core c) ((s.core c).served act done re we none t))
    (hfill : tagClass tag = 0 → ∀ done re we t, fill (s.core c) ((s.core c).served act done re we none t)) :
    Ready c i g s → OperandsGood c .serve rd wr s → ∃ t, exec i s = .next t ∧ (t.core c).pc = (s.core c).pc + 8 ∧ rest (s.core c) (t.core c) ∧
      (tagClass tag = 0 → t.flits = s.flits ∧ t.wire = s.wire ∧ t.inbox = s.inbox ∧ t.outbound = s.outbound ∧ fill (s.core c) (t.core c)) ∧
      (¬ tagClass tag = 0 → (t.core c).store = (s.core c).store ∧ ∃ q : ServeReq, q.id = s.nextReq ∧ q.kind = kind ∧ q.tag = tag ∧ q.core = c ∧ q.seq = s.tick.seq ∧ t.nextReq = s.nextReq + 1 ∧
        t.inbox = s.inbox ∧ t.flits.take s.flits.length = s.flits ∧
        (t.flits.drop s.flits.length).map Flit.body = messageOf (headerFor s c route.toNat r 0 false false) 0 (piecesOf 64 bs.length bs) ∧
        (∀ f ∈ t.flits.drop s.flits.length, f.req = some q.id ∧ f.die = dieOf c ∧ f.router = c.val % 4 ∧ f.arrived = false) ∧
        (if r.destMember = s.member then t.wire = s.wire ++ [q] ∧ q.left = (t.flits.drop s.flits.length).length ∧ t.outbound = s.outbound
         else t.outbound = s.outbound ++ [q] ∧ t.wire = s.wire)) ∧
      (∃ u, (t.core c).inflight = (s.core c).inflight ++ [u] ∧ u.unit = .serve ∧ u.flags = 0 ∧ (¬ tagClass tag = 0 → u.done = none) ∧
        (tagClass tag = 0 → u.done = some (s.fireAt c i g + 1 + ceilDiv (rd.foldl (fun a x => a + x.1.len1 * x.1.rowBytes) 0) 64))) ∧
      ∀ d, d ≠ c → t.core d = s.core d := by
  intro hr ho
  obtain ⟨t, u, hrun, hu, hflits, hwire, hinbox, hout, hnext, hcore, hother⟩ := fire_served he hb (fun u d => sendRequest_core c _ r _ q bs u d) hr ho
  rw [← sentBy_eq]
  obtain ⟨hpc, hst, v, hinfl, hunit, hflags, hdone⟩ := (s.core c).served_spec hact (if (tagClass tag == 0) = true then some (sentBy (s.fireAt c i g) (rd.map Prod.fst)) else none)
    (extentsOf s.tick.seq (rd.map Prod.fst)) (extentsOf s.tick.seq (wr.map Prod.fst)) none (s.fireAt c i g)
  have hrest' := hrest ho (if (tagClass tag == 0) = true then some (sentBy (s.fireAt c i g) (rd.map Prod.fst)) else none)
    (extentsOf s.tick.seq (rd.map Prod.fst)) (extentsOf s.tick.seq (wr.map Prod.fst)) (s.fireAt c i g)
  have hfill' (h : tagClass tag = 0) := hfill h (if (tagClass tag == 0) = true then some (sentBy (s.fireAt c i g) (rd.map Prod.fst)) else none)
    (extentsOf s.tick.seq (rd.map Prod.fst)) (extentsOf s.tick.seq (wr.map Prod.fst)) (s.fireAt c i g)
  rw [← hcore] at hpc hst hinfl hrest' hfill'
  have huf : u.flits = s.flits := (congrArg State.flits hu :)
  have huw : u.wire = s.wire := (congrArg State.wire hu :)
  have hui : u.inbox = s.inbox := (congrArg State.inbox hu :)
  have huo : u.outbound = s.outbound := (congrArg State.outbound hu :)
  have hun : u.nextReq = s.nextReq := (congrArg State.nextReq hu :)
  have hum : u.member = s.member := (congrArg State.member hu :)
  refine ⟨t, hrun, hpc, hrest', fun hid => ?_, fun hid => ⟨hst.trans (hstore hid), ?_⟩, ⟨v, hinfl, hunit, hflags, fun hid => ?_, fun hid => ?_⟩, hother⟩
  · have hsame : sendRequest c (s.fireAt c i g) (.ok r) (tagClass tag == 0) q bs u = u := if_pos (by rw [hid]; rfl)
    rw [hsame] at hflits hwire hinbox hout
    exact ⟨hflits.trans huf, hwire.trans huw, hinbox.trans hui, hout.trans huo, hfill' hid⟩
  · have hsent : sendRequest c (s.fireAt c i g) (.ok r) (tagClass tag == 0) q bs u = u.requestBy c (s.fireAt c i g) r (q r) bs := if_neg (by simpa using hid)
    rw [hsent] at hflits hwire hinbox hout hnext
    obtain ⟨hin, hnr, htake, hbodies, hmem, hhere, haway⟩ := u.requestBy_spec c (s.fireAt c i g) r (q r) bs
    generalize u.requestBy c (s.fireAt c i g) r (q r) bs = w at hflits hwire hinbox hout hnext hin hnr htake hbodies hmem hhere haway
    obtain ⟨hqid, hqk, hqt, hqc, hqs, hqr⟩ := hq
    have hhead : headerFor u c (q r).route r 0 false false = headerFor s c route.toNat r 0 false false := by
      rw [hqr]
      exact (congrArg (fun x : State => headerFor x c route.toNat r 0 false false) hu :)
    rw [← hflits, huf] at htake hbodies hmem hhere
    rw [hhead] at hbodies
    by_cases hm : r.destMember = s.member
    · obtain ⟨hw, hob⟩ := hhere (hm.trans hum.symm)
      refine ⟨{ q r with left := (t.flits.drop s.flits.length).length }, hqid, hqk, hqt, hqc, hqs, hnext.trans (hnr.trans (congrArg (· + 1) hun)), hinbox.trans (hin.trans hui), htake, hbodies, hmem, ?_⟩
      rw [if_pos hm]
      exact ⟨hwire.trans (hw.trans (congrArg (· ++ _) huw)), rfl, hout.trans (hob.trans huo)⟩
    · obtain ⟨hob, hw⟩ := haway (fun h => hm (h.trans hum))
      refine ⟨q r, hqid, hqk, hqt, hqc, hqs, hnext.trans (hnr.trans (congrArg (· + 1) hun)), hinbox.trans (hin.trans hui), htake, hbodies, hmem, ?_⟩
      rw [if_neg hm]
      exact ⟨hout.trans (hob.trans (congrArg (· ++ _) huo)), hwire.trans (hw.trans huw)⟩
  · exact hdone.trans (if_neg (by simpa using hid))
  · exact hdone.trans (if_pos (by rw [hid]; rfl))

/-- An idle lane's fence is clear at once (R270). -/
def fenceAct (pd : PReg) (idle : Bool) (k : Core) : Core := if idle then k.setP pd false else k

theorem fenceAct_same (pd : PReg) (idle : Bool) (k : Core) : { fenceAct pd idle k with preds := k.preds } = k := by
  cases idle
  · rfl
  · exact (congrArg (fun u : Core => { u with preds := k.preds }) (k.setP_eq pd false)).trans rfl

theorem ServeAct.fenceAct (pd : PReg) (idle : Bool) : ServeAct (fenceAct pd idle) :=
  ⟨fun k => (congrArg Core.inflight (fenceAct_same pd idle k) :), fun k => (congrArg Core.pc (fenceAct_same pd idle k) :)⟩

theorem Core.served_sameButPreds {k : Core} {act : Core → Core} (h : { act k with preds := k.preds } = k) (done : Option Nat) (re we : List Extent) (pd : Option PReg) (t : Nat) :
    k.sameButUnit { k.served act done re we pd t with preds := k.preds } := by
  unfold Core.sameButUnit Core.served
  generalize act k = u at h
  exact (congrArg (fun x : Core => { x with store := k.store, badStore := k.badStore, arrival := k.arrival, eventStat := k.eventStat, inflight := k.inflight, nextId := k.nextId, pc := k.pc, cyc := k.cyc }) h :)

/-- A request without a route, a generation fence (R268, R270). -/
theorem asks_fence {c : CoreId} {g : Guard} {sa : SReg} {pd : PReg} {s : State} :
    Ready c (.gfence c g sa pd) g s → OperandsGood c .serve [] [] s → ∃ t, exec (.gfence c g sa pd) s = .next t ∧ (t.core c).pc = (s.core c).pc + 8 ∧
      (s.core c).sameButUnit { t.core c with preds := (s.core c).preds } ∧
      (tagClass ((s.core c).sreg sa) = 0 → t.flits = s.flits ∧ t.wire = s.wire ∧ t.inbox = s.inbox ∧ t.outbound = s.outbound ∧
        (t.core c).store = (s.core c).store ∧ (t.core c).preg pd = (if pd.val = 0 then true else false)) ∧
      (¬ tagClass ((s.core c).sreg sa) = 0 → (t.core c).store = (s.core c).store ∧
        ∃ q : ServeReq, q.id = s.nextReq ∧ q.kind = .gfence ∧ q.tag = (s.core c).sreg sa ∧ q.core = c ∧ q.seq = s.tick.seq ∧ t.nextReq = s.nextReq + 1 ∧ t.flits = s.flits ∧ t.wire = s.wire ∧
          (if s.servingMember = s.member then t.inbox = s.inbox ++ [q] ∧ t.outbound = s.outbound else t.outbound = s.outbound ++ [q] ∧ t.inbox = s.inbox)) ∧
      (∃ u, (t.core c).inflight = (s.core c).inflight ++ [u] ∧ u.unit = .serve ∧ u.flags = 0 ∧ (¬ tagClass ((s.core c).sreg sa) = 0 → u.done = none) ∧
        (tagClass ((s.core c).sreg sa) = 0 → u.done = some (s.fireAt c (.gfence c g sa pd) g + 1 + ceilDiv (([] : List (Desc × List Nat)).foldl (fun a x => a + x.1.len1 * x.1.rowBytes) 0) 64))) ∧
      ∀ d, d ≠ c → t.core d = s.core d := by
  intro hr ho
  set tag := (s.core c).sreg sa with htag
  set q : ServeReq := { requestOf s c .gfence tag 0 (24 + tagReq tag % 2) 0 (sentBy (s.fireAt c (.gfence c g sa pd) g) []) with pd := some pd } with hq
  have hact : ServeAct (fenceAct pd (tagClass tag == 0)) := .fenceAct ..
  have hafter (u : State) (d : CoreId) : (if (tagClass tag == 0) = true then u else u.request s.servingMember q).core d = u.core d := by
    split
    · rfl
    · exact u.request_core ..
  obtain ⟨t, u, hrun, hu, hflits, hwire, hinbox, hout, hnext, hcore, hother⟩ := fire_served (c := c) (i := .gfence c g sa pd) (g := g) (rd := []) (wr := []) (idle := tagClass tag == 0) (pd := some pd)
    (act := fenceAct pd (tagClass tag == 0)) (after := fun s' => if (tagClass tag == 0) = true then s' else s'.request s.servingMember q) rfl rfl hafter hr ho
  rw [show ceilDiv (([] : List (Desc × List Nat)).foldl (fun a x => a + x.1.len1 * x.1.rowBytes) 0) 64 = 0 from rfl]
  obtain ⟨hpc, hst, v, hinfl, hunit, hflags, hdone⟩ := (s.core c).served_spec hact (if (tagClass tag == 0) = true then some (sentBy (s.fireAt c (.gfence c g sa pd) g) (([] : List (Desc × List Nat)).map Prod.fst)) else none)
    (extentsOf s.tick.seq (([] : List (Desc × List Nat)).map Prod.fst)) (extentsOf s.tick.seq (([] : List (Desc × List Nat)).map Prod.fst)) (some pd) (s.fireAt c (.gfence c g sa pd) g)
  rw [← hcore] at hpc hst hinfl
  have huf : u.flits = s.flits := (congrArg State.flits hu :)
  have huw : u.wire = s.wire := (congrArg State.wire hu :)
  have hui : u.inbox = s.inbox := (congrArg State.inbox hu :)
  have huo : u.outbound = s.outbound := (congrArg State.outbound hu :)
  refine ⟨t, hrun, hpc, ?_, fun hid => ?_, fun hid => ⟨hst.trans (congrArg Core.store (fenceAct_same ..) :), q, rfl, rfl, rfl, rfl, rfl, ?_⟩, ⟨v, hinfl, hunit, hflags, fun hid => ?_, fun hid => ?_⟩, hother⟩
  · rw [hcore]
    exact Core.served_sameButPreds (fenceAct_same pd (tagClass tag == 0) (s.core c)) _ _ _ _ _
  · rw [if_pos (by rw [hid]; rfl)] at hflits hwire hinbox hout
    have hpd : (t.core c).preds = ((s.core c).setP pd false).preds := by
      rw [hcore, hid]
      rfl
    exact ⟨hflits.trans huf, hwire.trans huw, hinbox.trans hui, hout.trans huo, hst.trans (congrArg Core.store (fenceAct_same ..) :), (Core.preg_of_preds hpd pd).trans (Core.preg_setP_same _ _ _)⟩
  · rw [if_neg (by simpa using hid)] at hflits hwire hinbox hout hnext
    have hnr : s.nextReq = u.nextReq := (congrArg State.nextReq hu :).symm
    rw [hnr]
    unfold State.request at hflits hwire hinbox hout hnext
    dsimp only at hflits hwire hinbox hout hnext
    have hum : u.member = s.member := (congrArg State.member hu :)
    rw [hum] at hflits hwire hinbox hout hnext
    by_cases hm : s.servingMember = s.member
    · rw [if_pos hm] at hflits hwire hinbox hout hnext
      rw [if_pos hm]
      exact ⟨hnext, hflits.trans huf, hwire.trans huw, hinbox.trans (congrArg (· ++ _) hui), hout.trans huo⟩
    · rw [if_neg hm] at hflits hwire hinbox hout hnext
      rw [if_neg hm]
      exact ⟨hnext, hflits.trans huf, hwire.trans huw, hout.trans (congrArg (· ++ _) huo), hinbox.trans hui⟩
  · exact hdone.trans (if_neg (by simpa using hid))
  · exact hdone.trans (if_pos (by rw [hid]; rfl))

/-- The lines of the answer's place lose their arrival bits, and an idle lane's answer is zero (R270). -/
def attnFill (n : W48) (db : Desc) (idle : Bool) (k : Core) : Core :=
  let k := k.markLines (db.extent n).lo (db.extent n).hi false
  if idle then k.putRows n db (List.replicate db.len1 (List.replicate db.len0 0)) else k

theorem attnFill_same (n : W48) (db : Desc) (idle : Bool) (k : Core) : k.sameButBytes (attnFill n db idle k) := by
  cases idle
  · rfl
  · have h := (k.markLines (db.extent n).lo (db.extent n).hi false).putRows_same n db (List.replicate db.len1 (List.replicate db.len0 0))
    unfold Core.sameButBytes at h ⊢
    exact (congrArg (fun u : Core => { u with arrival := k.arrival }) h :)

theorem ServeAct.attnFill (n : W48) (db : Desc) (idle : Bool) : ServeAct (attnFill n db idle) :=
  ⟨fun k => (congrArg Core.inflight (attnFill_same n db idle k) :), fun k => (congrArg Core.pc (attnFill_same n db idle k) :)⟩

theorem attnFill_store (n : W48) (db : Desc) (k : Core) : (Machine.attnFill n db true k).store = (k.putRows n db (List.replicate db.len1 (List.replicate db.len0 0))).store :=
  Core.putRows_store_congr (k := k.markLines (db.extent n).lo (db.extent n).hi false) (k' := k) rfl n db _

theorem attnFill_outside {n : W48} {db : Desc} (idle : Bool) (k : Core) (hfmt : db.fmt ∈ [1, 2]) : k.storeOutside (Machine.attnFill n db idle k) n db := by
  cases idle
  · exact fun _ _ => rfl
  · intro a ha
    rw [attnFill_store]
    refine Core.putRows_outside (Desc.rowBytes_of hfmt (by decide)) (fun r hr => ?_) (by rw [List.length_replicate]) a ha
    rw [List.eq_of_mem_replicate hr, List.length_replicate]

/-- Settles O19. -/
theorem servingPort : Obligations.ServingPort := by
  unfold Obligations.ServingPort
  intro c g ta tb route sa pd layer r s k n da db tag idle rowsOf asks
  refine ⟨fun hin hr => ⟨fun hk h0 h1 => ?_, fun hk => ?_, fun hk hrow hlogit => ?_⟩, asks_fence⟩
  · refine asks_route (c := c) (i := .attn c g ta tb route sa layer) (g := g) (act := attnFill n db (tagClass tag == 0)) (rest := fun k k' => k.sameButUnit k' ∧ k.storeOutside k' n db)
      (fill := fun k k' => k'.store = (k.putRows n db (List.replicate db.len1 (List.replicate db.len0 0))).store)
      (fun e => { requestOf s c .attn tag layer.toNat e.destDie route.toNat (sentBy (s.fireAt c (.attn c g ta tb route sa layer) g) [da]) with
        fmtA := da.fmt, rowsA := k.rows n da, fmtB := db.fmt, dstBase := db.lo n, dstStride := db.stride }) rfl ?_ ⟨rfl, rfl, rfl, rfl, rfl, rfl⟩ (.attnFill ..)
      (fun hid => ?_) (fun ho _ _ _ _ => ⟨?_, ?_⟩) (fun hid _ _ _ _ => ?_)
    · dsimp only
      rw [State.routeFor_of hin hr hk]
      unfold routeBad
      dsimp only
      rw [if_pos ⟨h0, h1⟩]
      rfl
    · rw [show (tagClass tag == 0) = false by simpa using hid]
      rfl
    · exact Core.sameButUnit_of_bytes (attnFill_same n db (tagClass tag == 0) (s.core c)) _ _ _ _
    · exact attnFill_outside (tagClass tag == 0) (s.core c) (Core.checkDesc_none (ho.writes _ List.mem_cons_self)).1
    · rw [show (tagClass tag == 0) = true by simpa using hid]
      exact attnFill_store n db (s.core c)
  · refine asks_route (c := c) (i := .kvw c g ta tb route sa layer) (g := g) (act := id) (rest := Core.sameButUnit) (fill := fun k k' => k'.store = k.store)
      (fun e => { requestOf s c .kvw tag layer.toNat e.destDie route.toNat (sentBy (s.fireAt c (.kvw c g ta tb route sa layer) g) [da, db]) with
        fmtA := da.fmt, rowsA := k.rows n da, rowsB := k.rows n db }) rfl ?_ ⟨rfl, rfl, rfl, rfl, rfl, rfl⟩ .id (fun _ => rfl) (fun _ _ _ _ _ => rfl) (fun _ _ _ _ _ => rfl)
    dsimp only
    rw [State.routeFor_of hin hr hk]
    rfl
  · refine asks_route (c := c) (i := .samp c g ta route sa) (g := g) (act := id) (rest := Core.sameButUnit) (fill := fun k k' => k'.store = k.store)
      (fun e => { requestOf s c .samp tag 0 e.destDie route.toNat (sentBy (s.fireAt c (.samp c g ta route sa) g) [da]) with fmtA := da.fmt, rowsA := k.rows n da }) rfl ?_ ⟨rfl, rfl, rfl, rfl, rfl, rfl⟩ .id
      (fun _ => rfl) (fun _ _ _ _ _ => rfl) (fun _ _ _ _ _ => rfl)
    dsimp only
    rw [State.routeFor_of hin hr hk]
    unfold routeBad
    dsimp only
    rw [if_neg (show ¬ (8 < da.len1 ∨ 262144 < da.len0) by omega)]
    rfl

end Sys2Proof.Machine
end

section
/-! Vector arithmetic, special functions, row reductions and row operations (R259 to R262). -/
namespace Sys2Proof.Machine

/-! ### Results and their flags -/

/-- A grid of results, row by row. -/
def grid {α : Type} (m l : Nat) (f : Nat → Nat → α) : List (List α) := (List.range m).map fun j => (List.range l).map (f j)

theorem grid_map {α β : Type} (m l : Nat) (f : Nat → Nat → α) (h : α → β) : ((grid m l f).map fun r => r.map h) = grid m l fun j i => h (f j i) := by
  unfold grid
  rw [List.map_map]
  exact List.map_congr_left fun j _ => List.map_map

theorem grid_any {α : Type} (m l : Nat) (f : Nat → Nat → α) (p : α → Bool) : ((grid m l f).any fun r => r.any p) = true ↔ ∃ j i, j < m ∧ i < l ∧ p (f j i) = true := by
  simp only [grid, List.any_map, List.any_eq_true, List.mem_range, Function.comp]
  exact ⟨fun ⟨j, hj, i, hi, h⟩ => ⟨j, i, hj, hi, h⟩, fun ⟨j, i, hj, hi, h⟩ => ⟨j, hj, i, hi, h⟩⟩

theorem grid_congr {α : Type} {m l : Nat} {f g : Nat → Nat → α} (h : ∀ j i, j < m → i < l → f j i = g j i) : grid m l f = grid m l g :=
  List.map_congr_left fun j hj => List.map_congr_left fun i hi => h j i (List.mem_range.1 hj) (List.mem_range.1 hi)

theorem length_of_mem_grid {α : Type} {m l : Nat} {f : Nat → Nat → α} {r : List α} (h : r ∈ grid m l f) : r.length = l := by
  obtain ⟨j, -, rfl⟩ := List.mem_map.1 h
  simp

theorem enum_map_range {α : Type} (m : Nat) (f : Nat → α) : enum ((List.range m).map f) = (List.range m).map fun i => (i, f i) := by
  unfold enum
  rw [List.length_map, List.length_range, List.zip_eq_zipWith, List.zipWith_map_right, List.zipWith_self]

/-- Elements decoded, row by row. -/
theorem Core.frows_eq (k : Core) (n : W48) (d : Desc) : k.frows n d = grid d.len1 d.len0 (k.elem n d) := grid_map d.len1 d.len0 _ _

theorem Core.frows_congr {k k' : Core} (h : k.store = k'.store) {n : W48} {d : Desc} : k.frows n d = k'.frows n d := by
  unfold Core.frows Core.rows Core.rowElems
  rw [h]

/-- The core with the VINVALID and VOVF bits of its results (R214). -/
def Core.vflags (k : Core) (a b : Bool) : Core := (k.flagIf a stVinvalid).flagIf b stVovf

theorem Core.vflags_same (k : Core) (a b : Bool) : { k.vflags a b with status := k.status } = k := by
  cases a <;> cases b <;> rfl

theorem Core.vflags_store (k : Core) (a b : Bool) : (k.vflags a b).store = k.store := (congrArg Core.store (k.vflags_same a b) :)

theorem Core.vflags_bits {k : Core} (h : k.status = 0) (a b : Bool) (i : Nat) : (k.vflags a b).status.getLsbD i = ((a && decide (i = 14)) || (b && decide (i = 15))) := by
  have hbits : (k.vflags a b).status = if b then setBit (if a then setBit k.status 14 else k.status) 15 else if a then setBit k.status 14 else k.status := by
    cases a <;> cases b <;> rfl
  rw [hbits, h]
  cases a <;> cases b <;> simp [getLsbD_setBit]

theorem Core.putResults_eq (k : Core) (n : W48) (d : Desc) (rs : List (List (Nat × Bool × Bool))) :
    k.putResults n d rs = (k.vflags (rs.any fun r => r.any fun x => x.2.1) (rs.any fun r => r.any fun x => x.2.2)).putRows n d (rs.map fun r => r.map Prod.fst) := (rfl)

/-- What a grid of results leaves (R214, R259). -/
theorem Core.putResults_grid {k : Core} (h0 : k.status = 0) (n : W48) (d : Desc) (f : Nat → Nat → Nat × Bool × Bool) :
    (k.putResults n d (grid d.len1 d.len0 f)).store = (k.putRows n d (grid d.len1 d.len0 fun j i => (f j i).1)).store ∧
    ((k.putResults n d (grid d.len1 d.len0 f)).status.getLsbD 14 = true ↔ ∃ j i, j < d.len1 ∧ i < d.len0 ∧ (f j i).2.1 = true) ∧
    ((k.putResults n d (grid d.len1 d.len0 f)).status.getLsbD 15 = true ↔ ∃ j i, j < d.len1 ∧ i < d.len0 ∧ (f j i).2.2 = true) ∧
    (∀ b, b ≠ 14 → b ≠ 15 → (k.putResults n d (grid d.len1 d.len0 f)).status.getLsbD b = false) := by
  rw [← grid_any d.len1 d.len0 f fun x => x.2.1, ← grid_any d.len1 d.len0 f fun x => x.2.2, Core.putResults_eq, grid_map]
  generalize ((grid d.len1 d.len0 f).any fun r => r.any fun x => x.2.1) = a
  generalize ((grid d.len1 d.len0 f).any fun r => r.any fun x => x.2.2) = b
  have hstatus : ((k.vflags a b).putRows n d (grid d.len1 d.len0 fun j i => (f j i).1)).status = (k.vflags a b).status := (congrArg Core.status (Core.putRows_same _ n d _) :)
  rw [hstatus]
  have hbits := Core.vflags_bits h0 a b
  refine ⟨Core.putRows_store_congr (k.vflags_store a b) _ _ _, ?_, ?_, fun e h14 h15 => ?_⟩
  · rw [hbits]
    simp
  · rw [hbits]
    simp
  · rw [hbits]
    simp [h14, h15]

/-- Apart from its bytes and its STATUS a core that puts results is as before. -/
theorem Core.putResults_same (k : Core) (n : W48) (d : Desc) (rs : List (List (Nat × Bool × Bool))) :
    { k.putResults n d rs with store := k.store, badStore := k.badStore, arrival := k.arrival, status := k.status } = k := by
  rw [Core.putResults_eq]
  generalize (rs.any fun r => r.any fun x => x.2.1) = a
  generalize (rs.any fun r => r.any fun x => x.2.2) = b
  have h1 := (k.vflags a b).putRows_same n d (rs.map fun r => r.map Prod.fst)
  have h2 := k.vflags_same a b
  unfold Core.sameButBytes at h1
  exact (congrArg (fun u : Core => { u with store := k.store, badStore := k.badStore, arrival := k.arrival, status := k.status }) h1 :).trans
    (congrArg (fun u : Core => { u with store := k.store, badStore := k.badStore, arrival := k.arrival }) h2 :)

/-- An action that puts results keeps what `collect` and the unit do not change. -/
theorem Core.sameButUnit_of_results {k p : Core} (h : { p with store := k.store, badStore := k.badStore, arrival := k.arrival, status := 0 } = { k with status := 0 }) (fl : List UnitInst) (id : Nat) (pc : W64)
    (cyc : Nat) : k.sameButUnit { p with status := k.status, numStat := k.numStat, inflight := fl, nextId := id, pc := pc, cyc := cyc } :=
  (congrArg (fun u : Core => { u with status := k.status, numStat := k.numStat, eventStat := k.eventStat, inflight := k.inflight, nextId := k.nextId, pc := k.pc, cyc := k.cyc }) h :)

/-- An instruction of the vector unit whose action puts a grid of results (R214, R259). -/
theorem unitRuns_vector {i : Instr} {c : CoreId} {g : Guard} {rd : List (Desc × List Nat)} {d : Desc} {ut : Nat} {s : State} {body : Nat → State → Fire}
    {rs : Core → List (List (Nat × Bool × Bool))} {ops : Nat → Nat → List Fp} {v : Nat → Nat → Nat} (he : exec i s = .next (fire c i g body s))
    (hb : body (s.fireAt c i g) s = unitOp c .vector rd [(d, vfmts)] none (s.fireAt c i g) ut none (fun k => k.putResults s.tick.seq d (rs k)) s)
    (hst : ∀ {k k' : Core}, k.store = k'.store → rs k = rs k') (hrs : rs (s.core c) = grid d.len1 d.len0 fun j i => vresult (fmtOf d.fmt) (ops j i) (v j i)) :
    unitRuns i c g .vector rd [(d, [1, 2, 6, 7])] ut none s (vectorWrites s.tick.seq d ops v) := by
  refine fun hr ho => unitRuns_of _ he hb (fun k => ?_) (fun fl id pc cyc => ?_) hr ho
  · have h := k.putResults_same s.tick.seq d (rs k)
    exact ⟨(congrArg Core.inflight h :), (congrArg Core.nextId h :), (congrArg Core.pc h :)⟩
  · have hfmt : d.fmt ∈ [1, 2, 6, 7] := (Core.checkDesc_none (ho.writes (d, vfmts) List.mem_cons_self)).1
    rw [Core.collect_eq]
    dsimp only
    rw [(hst (k := { s.core c with status := 0 }) (k' := s.core c) rfl).trans hrs]
    obtain ⟨hstore, hinv, hovf, hbits⟩ := Core.putResults_grid (k := { s.core c with status := 0 }) rfl s.tick.seq d fun j i => vresult (fmtOf d.fmt) (ops j i) (v j i)
    have hsame := Core.putResults_same { s.core c with status := 0 } s.tick.seq d (grid d.len1 d.len0 fun j i => vresult (fmtOf d.fmt) (ops j i) (v j i))
    generalize Core.putResults { s.core c with status := 0 } s.tick.seq d (grid d.len1 d.len0 fun j i => vresult (fmtOf d.fmt) (ops j i) (v j i)) = p at hstore hinv hovf hbits hsame ⊢
    replace hstore := hstore.trans (Core.putRows_store_congr (k := { s.core c with status := 0 }) (k' := s.core c) rfl _ _ _)
    refine ⟨hstore, ?_, ?_, hbits, fun x hx => ?_, Core.sameButUnit_of_results (k := s.core c) hsame fl id pc cyc⟩
    · rw [hinv]
      simp [vresult]
    · rw [hovf]
      simp [vresult]
    · refine (congrArg (fun m => memGet m x) hstore).trans (Core.putRows_outside (Desc.rowBytes_of hfmt (by decide)) (fun r hr => length_of_mem_grid hr) ?_ x hx)
      simp [grid]

/-! ### Element-wise instructions -/

theorem grid_getElem {α : Type} {m l : Nat} (f : Nat → Nat → α) {j : Nat} (h : j < m) : (grid m l f)[j]? = some ((List.range l).map (f j)) := by
  unfold grid
  rw [List.getElem?_map, List.getElem?_range h]
  rfl

theorem nth_map_range {α : Type} (d : α) {m : Nat} (f : Nat → α) {i : Nat} (h : i < m) : nth d ((List.range m).map f) i = f i := by
  unfold nth
  rw [List.getElem?_map, List.getElem?_range h]
  rfl

theorem nth_grid {α : Type} (d : α) {m l : Nat} (f : Nat → Nat → α) {j i : Nat} (hj : j < m) (hi : i < l) : nth d (nth [] (grid m l f) j) i = f j i := by
  rw [show nth [] (grid m l f) j = (List.range l).map (f j) from nth_map_range _ _ hj, nth_map_range _ _ hi]

theorem enum_grid {α β : Type} (m l : Nat) (f : Nat → Nat → α) (h : Nat → Nat → α → β) : ((enum (grid m l f)).map fun p => (enum p.2).map fun q => h p.1 q.1 q.2) = grid m l fun j i => h j i (f j i) := by
  unfold grid
  rw [enum_map_range, List.map_map]
  refine List.map_congr_left fun j _ => ?_
  dsimp only [Function.comp]
  rw [enum_map_range, List.map_map]
  rfl

/-- A row is broadcast over the rows (R259). -/
theorem bcast_row {r : List Fp} (h : r.length ≠ 1) (j i : Nat) : bcast [r] j i = nth .nan r i := by
  match r with
  | [] => rfl
  | [_] => exact absurd rfl h
  | _ :: _ :: _ => rfl

theorem bcast_rows {b : List (List Fp)} (h : b.length ≠ 1) (j i : Nat) : bcast b j i = nth .nan (nth [] b j) i := by
  match b with
  | [] => rfl
  | [_] => exact absurd rfl h
  | [] :: _ :: _ => rfl
  | [_] :: _ :: _ => rfl
  | (_ :: _ :: _) :: _ :: _ => rfl

/-- The element that R259 pairs with element i of row j, by the shape of the second operand. -/
theorem bcast_frows {k : Core} {n : W48} {da db : Desc} (h0 : 0 < db.len0) (hsh : (db.len0 = da.len0 ∧ (db.len1 = da.len1 ∨ db.len1 = 1)) ∨ (db.len0 = 1 ∧ db.len1 = 1)) {j i : Nat}
    (hj : j < da.len1) (hi : i < da.len0) : bcast (k.frows n db) j i = k.elemB n db j i := by
  rw [Core.frows_eq]
  unfold Core.elemB
  generalize k.elem n db = f
  by_cases h1 : db.len1 = 1
  · rw [if_pos h1, h1]
    by_cases h2 : db.len0 = 1
    · rw [h2]
      rfl
    · have hlen : db.len0 = da.len0 := by omega
      rw [if_neg (by omega), show grid 1 db.len0 f = [(List.range db.len0).map (f 0)] from rfl, bcast_row (by simpa using h2), hlen, nth_map_range _ _ hi]
  · have hlen : db.len0 = da.len0 ∧ db.len1 = da.len1 := by omega
    rw [if_neg h1, if_neg (by omega), hlen.1, hlen.2]
    rw [bcast_rows (by simpa [grid] using fun h => h1 (hlen.2.trans h)), nth_grid _ _ hj hi]

/-- Shapes that R259 allows. -/
theorem shapeOk3_of {dd da db : Desc} (h0 : dd.len0 = da.len0) (h1 : dd.len1 = da.len1) (hsh : (db.len0 = da.len0 ∧ (db.len1 = da.len1 ∨ db.len1 = 1)) ∨ (db.len0 = 1 ∧ db.len1 = 1)) : shapeOk3 dd da db = true := by
  unfold shapeOk3
  rcases hsh with ⟨h, h' | h'⟩ | ⟨h, h'⟩ <;> simp [h0, h1, h, h']

/-- A two-operand element-wise instruction (R259). -/
theorem vbin_runs {i : Instr} {c : CoreId} {g : Guard} {td ta tb : TReg} {f : Fp → Fp → Fp} {s : State} (he : exec i s = .next (fire c i g (vbin c td ta tb f) s)) :
    let k := s.core c
    let n := s.tick.seq
    let dd := descOf (k.treg td)
    let da := descOf (k.treg ta)
    let db := descOf (k.treg tb)
    dd.len0 = da.len0 → dd.len1 = da.len1 → ((db.len0 = da.len0 ∧ (db.len1 = da.len1 ∨ db.len1 = 1)) ∨ (db.len0 = 1 ∧ db.len1 = 1)) →
    unitRuns i c g .vector [(da, [1, 2, 6, 7]), (db, [1, 2, 6, 7])] [(dd, [1, 2, 6, 7])] (6 + ceilDiv (da.len0 * da.len1) 512) none s
      (vectorWrites n dd (fun j i => [k.elem n da j i, k.elemB n db j i]) fun j i => (fpEncode fp32 (f (k.elem n da j i) (k.elemB n db j i))).1) := by
  intro k n dd da db h0 h1 hsh
  refine unitRuns_vector (rs := fun k => (enum (k.frows n da)).map fun p => (enum p.2).map fun q => vround (fmtOf dd.fmt) [q.2, bcast (k.frows n db) p.1 q.1] (f q.2 (bcast (k.frows n db) p.1 q.1))) he ?_ (fun h => by simp only [Core.frows_congr h]) ?_
  · unfold vbin
    dsimp only
    rw [if_pos (shapeOk3_of h0 h1 hsh)]
    rfl
  · rw [Core.frows_eq _ _ da, enum_grid (h := fun j i x => vround (fmtOf dd.fmt) [x, bcast ((s.core c).frows n db) j i] (f x (bcast ((s.core c).frows n db) j i))), h0, h1]
    refine grid_congr fun j i hj hi => ?_
    rw [bcast_frows (descOf_len0_pos _) hsh hj hi]
    rfl

/-- A one-operand element-wise instruction (R259, R261). -/
theorem vun_runs {i : Instr} {c : CoreId} {g : Guard} {td ta : TReg} {ut : Desc → Nat} {f : Fp → Nat} {more : List Fp} {s : State} {body : Nat → State → Fire} (he : exec i s = .next (fire c i g body s))
    (hb : body (s.fireAt c i g) s = vun c td ta ut f more (s.fireAt c i g) s) :
    let k := s.core c
    let n := s.tick.seq
    let dd := descOf (k.treg td)
    let da := descOf (k.treg ta)
    dd.len0 = da.len0 → dd.len1 = da.len1 →
    unitRuns i c g .vector [(da, [1, 2, 6, 7])] [(dd, [1, 2, 6, 7])] (ut da) none s
      (vectorWrites n dd (fun j i => k.elem n da j i :: more) fun j i => f (k.elem n da j i)) := by
  intro k n dd da h0 h1
  refine unitRuns_vector (rs := fun k => (k.frows n da).map fun r => r.map fun x => vresult (fmtOf dd.fmt) (x :: more) (f x)) he ?_ (fun h => by simp only [Core.frows_congr h]) ?_
  · rw [hb]
    unfold vun
    dsimp only
    rw [if_pos ⟨h0, h1⟩]
    rfl
  · rw [Core.frows_eq, grid_map, h0, h1]

/-- Settles O9. -/
theorem vectorArithmetic : Obligations.VectorArithmetic := by
  unfold Obligations.VectorArithmetic
  refine ⟨fun c g td ta tb s => ?_, fun c g td ta sa s => ?_⟩
  · intro k n dd da db x y runs h0 h1 hsh
    refine ⟨?_, ?_, ?_, ?_, ?_, ?_⟩
    · exact vbin_runs (i := .vadd c g td ta tb) (f := fpAdd) rfl h0 h1 hsh
    · exact vbin_runs (i := .vsub c g td ta tb) (f := fun a b => fpAdd a b.negate) rfl h0 h1 hsh
    · exact vbin_runs (i := .vmul c g td ta tb) (f := fpMul) rfl h0 h1 hsh
    · exact vbin_runs (i := .vmax c g td ta tb) (f := fpMaxMin false) rfl h0 h1 hsh
    · exact vbin_runs (i := .vmin c g td ta tb) (f := fpMaxMin true) rfl h0 h1 hsh
    refine unitRuns_vector (rs := fun k => (enum (k.frows n da)).map fun p => (enum p.2).map fun q =>
      let y := bcast (k.frows n db) p.1 q.1
      let z := nth .nan (nth [] (k.frows n dd) p.1) q.1
      vround (fmtOf dd.fmt) [q.2, y, z] (fpAdd (fpMul q.2 y) z)) rfl ?_ (fun h => by simp only [Core.frows_congr h]) ?_
    · dsimp only
      rw [if_pos (shapeOk3_of h0 h1 hsh)]
      rfl
    · dsimp only
      rw [Core.frows_eq _ _ da, enum_grid (h := fun j i x => vround (fmtOf dd.fmt) [x, bcast ((s.core c).frows n db) j i, nth .nan (nth [] ((s.core c).frows n dd) j) i]
        (fpAdd (fpMul x (bcast ((s.core c).frows n db) j i)) (nth .nan (nth [] ((s.core c).frows n dd) j) i))), Core.frows_eq _ _ dd, h0, h1]
      refine grid_congr fun j i hj hi => ?_
      rw [bcast_frows (descOf_len0_pos _) hsh hj hi, nth_grid _ _ hj hi]
      rfl
  · intro k n dd da x z runs six ten h0 h1
    refine ⟨?_, ?_, ?_, ?_, ?_, ?_, ?_, ?_, ?_⟩
    · exact vun_runs (i := .vscl c g td ta sa) (ut := vtime) (f := fun a => (fpEncode fp32 (fpMul a z)).1) (more := [z]) rfl rfl h0 h1
    · exact vun_runs (i := .vcvt c g td ta) (ut := vtime) (f := fun a => (fpEncode fp32 a).1) (more := []) rfl rfl h0 h1
    · exact vun_runs (i := .vexp c g td ta) (ut := stime) (f := fun a => (fpExp a).1) (more := []) rfl rfl h0 h1
    · exact vun_runs (i := .vrcp c g td ta) (ut := stime) (f := fun a => (fpRcp a).1) (more := []) rfl rfl h0 h1
    · exact vun_runs (i := .vrsqrt c g td ta) (ut := stime) (f := fun a => (fpRsqrt a).1) (more := []) rfl rfl h0 h1
    · exact vun_runs (i := .vsilu c g td ta) (ut := stime) (f := fun a => (fpSilu a).1) (more := []) rfl rfl h0 h1
    · exact vun_runs (i := .vgelu c g td ta) (ut := stime) (f := fun a => (fpGelu a).1) (more := []) rfl rfl h0 h1
    · exact vun_runs (i := .vtanh c g td ta) (ut := stime) (f := fun a => (fpTanh a).1) (more := []) rfl rfl h0 h1
    · exact vun_runs (i := .vsigm c g td ta) (ut := stime) (f := fun a => (fpSigmoid a).1) (more := []) rfl rfl h0 h1

end Sys2Proof.Machine
end

section
/-! Row reductions, normalisation and rotary embedding (R259, R260, R262). -/
namespace Sys2Proof.Machine

/-- A row of an operand as numbers. -/
def Core.frow (k : Core) (n : W48) (d : Desc) (j : Nat) : List Fp := (List.range d.len0).map (k.elem n d j)

theorem Core.frows_rows (k : Core) (n : W48) (d : Desc) : k.frows n d = (List.range d.len1).map (k.frow n d) := k.frows_eq n d

/-- Results formed row by row. -/
theorem frows_map_grid {k : Core} {n : W48} {d : Desc} {l : Nat} {h : List Fp → List (Nat × Bool × Bool)} {f : Nat → Nat → Nat × Bool × Bool}
    (hrow : ∀ j, j < d.len1 → h (k.frow n d j) = (List.range l).map (f j)) : (k.frows n d).map h = grid d.len1 l f := by
  rw [Core.frows_rows, List.map_map]
  exact List.map_congr_left fun j hj => hrow j (List.mem_range.1 hj)

/-- A row reduction (R259, R260). -/
theorem vred_runs {i : Instr} {c : CoreId} {g : Guard} {td ta : TReg} {f : List Fp → Fp} {s : State} (he : exec i s = .next (fire c i g (vred c td ta f) s)) :
    let k := s.core c
    let n := s.tick.seq
    let dd := descOf (k.treg td)
    let da := descOf (k.treg ta)
    dd.len0 = 1 → dd.len1 = da.len1 →
    unitRuns i c g .vector [(da, [1, 2, 6, 7])] [(dd, [1, 2, 6, 7])] (12 + 2 * ceilDiv (da.len0 * da.len1) 512) none s
      (vectorWrites n dd (fun j _ => k.frow n da j) fun j _ => (fpEncode fp32 (f (k.frow n da j))).1) := by
  intro k n dd da h0 h1
  refine unitRuns_vector (rs := fun k => (k.frows n da).map fun r => [vround (fmtOf dd.fmt) r (f r)]) he ?_ (fun h => by simp only [Core.frows_congr h]) ?_
  · unfold vred
    dsimp only
    rw [if_pos ⟨h0, h1⟩]
    rfl
  · rw [h0, h1]
    exact frows_map_grid fun j _ => rfl

theorem nth_frows {k : Core} {n : W48} {d : Desc} (h1 : 0 < d.len1) {i : Nat} (hi : i < d.len0) : nth .nan (nth [] (k.frows n d) 0) i = k.elem n d 0 i := by
  rw [Core.frows_eq, nth_grid _ _ h1 hi]

/-- Two halves of a row (R262). -/
theorem map_range_halves {α : Type} (h : Nat) (a b : Nat → α) :
    (List.range h).map a ++ (List.range h).map b = (List.range (2 * h)).map fun i => if i < h then a (i % h) else b (i % h) := by
  rw [Nat.two_mul, List.range_add, List.map_append, List.map_map]
  refine congrArg₂ _ (List.map_congr_left fun i hi => ?_) (List.map_congr_left fun i hi => ?_)
  · have hlt := List.mem_range.1 hi
    rw [if_pos hlt, Nat.mod_eq_of_lt hlt]
  · have hlt := List.mem_range.1 hi
    rw [Function.comp, if_neg (by omega), Nat.add_mod_left, Nat.mod_eq_of_lt hlt]

/-- Settles O10. -/
theorem vectorRows : Obligations.VectorRows := by
  unfold Obligations.VectorRows
  intro c g td ta tb sa e s k n dd da db row gain fmts red
  refine ⟨fun h0 h1 => ⟨?_, ?_⟩, fun h0 h1 hb0 hb1 => ?_, fun h0 h1 hb0 hb1 => ?_⟩
  · exact vred_runs (i := .vsum c g td ta) (f := tree fun a b => r32 (fpAdd a b)) rfl h0 h1
  · exact vred_runs (i := .vmaxr c g td ta) (f := tree (fpMaxMin false)) rfl h0 h1
  · refine unitRuns_vector (rs := fun k => (k.frows n da).map fun row =>
      (enum row).map fun q => vround (fmtOf dd.fmt) (nth .nan (nth [] (k.frows n db) 0) q.1 :: row)
        (fpMul (fpMul q.2 (fpDecode fp32 (fpRsqrt (meanEps (tree (fun a b => r32 (fpAdd a b)) (row.map fun x => r32 (fpMul x x))) row.length e.toNat)).1)) (nth .nan (nth [] (k.frows n db) 0) q.1)))
      rfl ?_ (fun h => by simp only [Core.frows_congr h]) ?_
    · dsimp only
      rw [if_pos ⟨h0, h1, hb0, hb1⟩]
      rfl
    · rw [h0, h1]
      refine frows_map_grid fun j _ => ?_
      have hlen : (k.frow n da j).length = da.len0 := by
        unfold Core.frow
        rw [List.length_map, List.length_range]
      rw [hlen]
      unfold Core.frow
      rw [enum_map_range, List.map_map]
      refine List.map_congr_left fun i hi => ?_
      dsimp only [Function.comp]
      rw [nth_frows (by omega) (by rw [hb0]; exact List.mem_range.1 hi)]
      rfl
  · have hhalf : da.len0 / 2 = db.len0 := by omega
    refine unitRuns_vector (rs := fun k => (k.frows n da).map fun row =>
        let ps := (List.range (da.len0 / 2)).map fun i => ropePair (fmtOf dd.fmt) ((s.core c |>.sreg sa).toNat % 2 ^ 32) (nth .nan row i) (nth .nan row (i + da.len0 / 2)) (nth .nan (nth [] (k.frows n db) 0) i)
        ps.map Prod.fst ++ ps.map Prod.snd) rfl ?_ (fun h => by simp only [Core.frows_congr h]) ?_
    · dsimp only
      rw [if_pos (show dd.len0 = da.len0 ∧ dd.len1 = da.len1 ∧ da.len0 % 2 = 0 ∧ db.len0 = da.len0 / 2 ∧ db.len1 = 1 from ⟨h0, h1, by omega, by omega, hb1⟩)]
      rfl
    · rw [h0, h1]
      refine frows_map_grid fun j _ => ?_
      dsimp only
      rw [hhalf, List.map_map, List.map_map, map_range_halves, hb0]
      refine List.map_congr_left fun i hi => ?_
      have hpos : 0 < db.len0 := descOf_len0_pos _
      have hmod := Nat.mod_lt i hpos
      dsimp only [Function.comp]
      rw [nth_frows (by omega) hmod, show nth .nan (k.frow n da j) (i % db.len0) = k.elem n da j (i % db.len0) from nth_map_range _ _ (by omega),
        show nth .nan (k.frow n da j) (i % db.len0 + db.len0) = k.elem n da j (i % db.len0 + db.len0) from nth_map_range _ _ (by omega)]
      unfold ropePair
      dsimp only
      by_cases hlt : i < db.len0
      · rw [if_pos hlt, if_pos hlt]
        rfl
      · rw [if_neg hlt, if_neg hlt]
        rfl

end Sys2Proof.Machine
end

section
/-! Accumulator entries: where an operand's entries stand, and what writing them leaves (R218, R226, R228). -/
namespace Sys2Proof.Machine

/-! ### Numbers as bytes -/

theorem leNat_leBytes (n v : Nat) : leNat (leBytes n v) = v % 2 ^ (8 * n) := by
  induction n generalizing v with
  | zero => simp [leBytes, leNat, Nat.mod_one]
  | succ n ih =>
    have hcons : leBytes (n + 1) v = BitVec.ofNat 8 v :: leBytes n (v >>> 8) := by
      unfold leBytes
      rw [List.range_succ_eq_map, List.map_cons, List.map_map]
      refine congrArg₂ _ (by rfl) (List.map_congr_left fun i _ => ?_)
      dsimp only [Function.comp]
      rw [← Nat.shiftRight_add]
      congr 2
      omega
    rw [hcons]
    show (BitVec.ofNat 8 v).toNat + 256 * leNat (leBytes n (v >>> 8)) = _
    rw [ih, BitVec.toNat_ofNat, Nat.shiftRight_eq_div_pow, show 8 * (n + 1) = 8 + 8 * n by ring, Nat.pow_add, Nat.mod_mul]

theorem leNat_leBytes_of_word (v : BitVec 256) : BitVec.ofNat 256 (leNat (leBytes 32 v.toNat)) = v := by
  rw [leNat_leBytes, Nat.mod_eq_of_lt v.isLt, BitVec.ofNat_toNat, BitVec.setWidth_eq]

/-! ### Where entries stand -/

/-- First byte of entry i of an operand of format 9 or 10 (R226, R228). -/
def Desc.entryAt (d : Desc) (n : W48) (i : Nat) : Nat := d.rowAt n (i / d.len0) + 32 * (i % d.len0)

/-- The entry at byte a of an operand of format 9 or 10. -/
def Core.entryGet (k : Core) (d : Desc) (a : Nat) : BitVec 256 := if d.fmt = 9 then k.accGet (a / 32) else BitVec.ofNat 256 (readNat k.store a 32)

theorem Core.entries_eq (k : Core) (n : W48) (d : Desc) : k.entries n d = (List.range (d.len1 * d.len0)).map fun i => k.entryGet d (d.entryAt n i) := by
  unfold Core.entries
  exact flatMap_range_map d.len1 d.len0 fun j i => k.entryGet d (d.rowAt n j + 32 * i)

theorem Core.length_entries (k : Core) (n : W48) (d : Desc) : (k.entries n d).length = d.len0 * d.len1 := by
  rw [Core.entries_eq, List.length_map, List.length_range, Nat.mul_comm]

/-- An operand of entries whose rows stand apart. -/
structure EntryRows (d : Desc) : Prop where
  pos : 0 < d.len0
  fmt : d.fmt ∈ [9, 10]
  apart : 1 < d.len1 → d.rowBytes ≤ d.stride
  aligned : d.fmt = 9 → d.base % 32 = 0 ∧ d.stride % 32 = 0 ∧ d.banking = 0

theorem EntryRows.rowBytes {d : Desc} (h : EntryRows d) : d.rowBytes = 32 * d.len0 := by
  rw [Desc.rowBytes_of h.fmt (by decide), Nat.mul_comm]
  rcases List.mem_cons.1 h.fmt with h9 | h10
  · rw [h9]
    rfl
  · rw [List.mem_singleton.1 h10]
    rfl

theorem entryRows_of {k : Core} {n : W48} {v : BitVec 128} {fmts : List Nat} {rd wr : Bool} (h : k.checkDesc n (descOf v) fmts rd wr = none) (hf : ∀ f ∈ fmts, f ∈ [9, 10]) : EntryRows (descOf v) := by
  obtain ⟨hfmt, hrows, hbase, hstride, hbank⟩ := Core.checkDesc_none h
  refine ⟨descOf_len0_pos v, hf _ hfmt, hrows, fun h9 => ?_⟩
  rw [if_pos h9] at hbase hstride
  exact ⟨hbase, hstride, hbank h9⟩

/-- Entries do not meet. -/
theorem EntryRows.entryAt_lt {d : Desc} (h : EntryRows d) (n : W48) {i j : Nat} (hij : i < j) (hj : j < d.len1 * d.len0) : d.entryAt n i + 32 ≤ d.entryAt n j := by
  have hjr : j / d.len0 < d.len1 := Nat.div_lt_of_lt_mul (by rwa [Nat.mul_comm])
  have hi := Nat.mod_lt i h.pos
  have hbytes := h.rowBytes
  unfold Desc.entryAt
  rcases Nat.lt_or_ge (i / d.len0) (j / d.len0) with hlt | hge
  · have hrow := d.rowAt_lt n h.apart hlt hjr
    omega
  · have heq : i / d.len0 = j / d.len0 := Nat.le_antisymm (Nat.div_le_div_right hij.le) hge
    have h1 := Nat.div_add_mod i d.len0
    have h2 := Nat.div_add_mod j d.len0
    rw [heq] at h1 ⊢
    omega

theorem Desc.lo_of_acc {d : Desc} (n : W48) (h : d.banking = 0) : d.lo n = d.base := by
  unfold Desc.lo bankOf
  rw [h]
  simp

/-- An accumulator entry's number (R218). -/
theorem EntryRows.entryAt_div {d : Desc} (h : EntryRows d) (n : W48) (h9 : d.fmt = 9) (i : Nat) : d.entryAt n i / 32 = entryIndex d.shape i := by
  obtain ⟨-, -, hbank⟩ := h.aligned h9
  unfold Desc.entryAt Desc.rowAt entryIndex Desc.shape
  rw [Desc.lo_of_acc n hbank]
  dsimp only
  omega

theorem EntryRows.entryAt_mod {d : Desc} (h : EntryRows d) (n : W48) (h9 : d.fmt = 9) (i : Nat) : d.entryAt n i % 32 = 0 := by
  obtain ⟨hbase, hstride, hbank⟩ := h.aligned h9
  unfold Desc.entryAt Desc.rowAt
  rw [Desc.lo_of_acc n hbank]
  have := Nat.mul_mod (i / d.len0) d.stride 32
  rw [hstride, Nat.mul_zero, Nat.zero_mod] at this
  omega

/-- Entries of an operand have numbers of their own. -/
theorem EntryRows.entryIndex_inj {d : Desc} (h : EntryRows d) (h9 : d.fmt = 9) {i j : Nat} (hi : i < d.len1 * d.len0) (hj : j < d.len1 * d.len0) (he : entryIndex d.shape i = entryIndex d.shape j) : i = j := by
  rw [← h.entryAt_div 0 h9, ← h.entryAt_div 0 h9] at he
  rcases Nat.lt_trichotomy i j with hlt | heq | hlt
  · have := h.entryAt_lt 0 hlt hj
    omega
  · exact heq
  · have := h.entryAt_lt 0 hlt hi
    omega

/-! ### Entries written -/

theorem Core.accGet_accSet_same (k : Core) (e : Nat) (v : BitVec 256) : (k.accSet e v).accGet e = v := smGet_smSet_same _ _ _ _

theorem Core.accGet_accSet_other (k : Core) {e x : Nat} (v : BitVec 256) (h : x ≠ e) : (k.accSet e v).accGet x = k.accGet x := smGet_smSet_other _ _ _ _ _ h

/-- The core with one entry written at byte a. -/
def Core.entrySet (k : Core) (d : Desc) (a : Nat) (v : BitVec 256) : Core := if d.fmt = 9 then k.accSet (a / 32) v else k.unitWrite a (leBytes 32 v.toNat)

theorem Core.putEntry_eq (k : Core) (n : W48) (d : Desc) (i : Nat) (v : BitVec 256) : k.putEntry n d i v = k.entrySet d (d.entryAt n i) v := (rfl)

theorem Core.entryGet_entrySet_same (k : Core) (d : Desc) (a : Nat) (v : BitVec 256) : (k.entrySet d a v).entryGet d a = v := by
  unfold Core.entryGet Core.entrySet
  by_cases h9 : d.fmt = 9
  · rw [if_pos h9, if_pos h9]
    exact k.accGet_accSet_same _ _
  · rw [if_neg h9, if_neg h9]
    have hread : readBytes (writeBytes k.store a (leBytes 32 v.toNat)) a 32 = leBytes 32 v.toNat := by
      have h := readBytes_writeBytes k.store a (leBytes 32 v.toNat)
      rwa [leBytes_length] at h
    exact (congrArg (fun bs => BitVec.ofNat 256 (leNat bs)) hread).trans (leNat_leBytes_of_word v)

theorem Core.entryGet_entrySet_other (k : Core) {d : Desc} {a b : Nat} (v : BitVec 256) (h : b + 32 ≤ a ∨ a + 32 ≤ b) : (k.entrySet d a v).entryGet d b = k.entryGet d b := by
  unfold Core.entryGet Core.entrySet
  by_cases h9 : d.fmt = 9
  · rw [if_pos h9, if_pos h9, if_pos h9]
    exact k.accGet_accSet_other _ (by omega)
  · rw [if_neg h9, if_neg h9, if_neg h9]
    exact congrArg (fun bs => BitVec.ofNat 256 (leNat bs)) (readBytes_writeBytes_out k.store b a 32 (leBytes 32 v.toNat) (by rw [leBytes_length]; exact h))

theorem Core.putEntries_concat (k : Core) (n : W48) (d : Desc) (vs : List (BitVec 256)) (v : BitVec 256) :
    k.putEntries n d (vs ++ [v]) = (k.putEntries n d vs).entrySet d (d.entryAt n vs.length) v := by
  unfold Core.putEntries
  rw [List.length_append, List.length_singleton, List.range_succ, List.zip_append (List.length_range ..).symm, List.foldl_append]
  rfl

/-- An entry written reads back. -/
theorem EntryRows.entryGet_putEntries {d : Desc} (h : EntryRows d) (k : Core) (n : W48) {vs : List (BitVec 256)} (hlen : vs.length ≤ d.len1 * d.len0) {i : Nat} {v : BitVec 256} (hi : vs[i]? = some v) :
    (k.putEntries n d vs).entryGet d (d.entryAt n i) = v := by
  induction vs using List.reverseRecOn with
  | nil => exact absurd hi (by simp)
  | append_singleton vs w ih =>
    rw [List.length_append, List.length_singleton] at hlen
    rw [Core.putEntries_concat]
    by_cases hlt : i < vs.length
    · rw [List.getElem?_append_left hlt] at hi
      rw [Core.entryGet_entrySet_other _ _ (.inl (h.entryAt_lt n hlt (by omega)))]
      exact ih (by omega) hi
    · obtain ⟨hlt2, hcb⟩ := List.getElem?_eq_some_iff.1 hi
      rw [List.length_append, List.length_singleton] at hlt2
      obtain rfl : i = vs.length := by omega
      rw [List.getElem_append_right (Nat.le_refl _)] at hcb
      simp only [Nat.sub_self, List.getElem_singleton] at hcb
      rw [hcb]
      exact Core.entryGet_entrySet_same ..

/-- An operand whose entries are all written holds what was written. -/
theorem EntryRows.entries_putEntries {d : Desc} (h : EntryRows d) (k : Core) (n : W48) {vs : List (BitVec 256)} (hlen : vs.length = d.len0 * d.len1) : (k.putEntries n d vs).entries n d = vs := by
  rw [Core.entries_eq]
  rw [Nat.mul_comm] at hlen
  refine List.ext_getElem? fun i => ?_
  rw [List.getElem?_map]
  rcases Nat.lt_or_ge i (d.len1 * d.len0) with hlt | hge
  · have hv : vs[i]? = some vs[i] := List.getElem?_eq_getElem (by omega)
    rw [List.getElem?_range hlt, hv]
    exact congrArg some (h.entryGet_putEntries k n (by omega) hv)
  · rw [List.getElem?_eq_none (by rw [List.length_range]; exact hge), List.getElem?_eq_none (by omega)]
    rfl

/-- Apart from its bytes and its accumulator file the two cores are the same. -/
def Core.sameButEntries (k k' : Core) : Prop := { k' with store := k.store, badStore := k.badStore, arrival := k.arrival, acc := k.acc, badAcc := k.badAcc } = k

theorem Core.putEntries_same (k : Core) (n : W48) (d : Desc) (vs : List (BitVec 256)) : k.sameButEntries (k.putEntries n d vs) := by
  unfold Core.sameButEntries Core.putEntries
  refine foldl_keeps (f := fun (k : Core) (p : BitVec 256 × Nat) => k.putEntry n d p.2 p.1) (fun u : Core => { u with store := k.store, badStore := k.badStore, arrival := k.arrival, acc := k.acc, badAcc := k.badAcc }) (fun u p => ?_) _ k
  rw [Core.putEntry_eq]
  unfold Core.entrySet
  split <;> rfl

/-- Accumulator entries written leave the core store. -/
theorem Core.putEntries_acc {d : Desc} (h9 : d.fmt = 9) (k : Core) (n : W48) (vs : List (BitVec 256)) : { k.putEntries n d vs with acc := k.acc, badAcc := k.badAcc } = k := by
  unfold Core.putEntries
  refine foldl_keeps (f := fun (k : Core) (p : BitVec 256 × Nat) => k.putEntry n d p.2 p.1) (fun u : Core => { u with acc := k.acc, badAcc := k.badAcc }) (fun u p => ?_) _ k
  rw [Core.putEntry_eq]
  unfold Core.entrySet
  rw [if_pos h9]
  rfl

/-- Entries written into the core store leave the accumulator file, and every byte outside. -/
theorem Core.putEntries_bytes {d : Desc} (h9 : d.fmt ≠ 9) (k : Core) (n : W48) (vs : List (BitVec 256)) : k.sameButBytes (k.putEntries n d vs) := by
  unfold Core.putEntries
  refine Core.sameButBytes_foldl (f := fun (k : Core) (p : BitVec 256 × Nat) => k.putEntry n d p.2 p.1) (fun u p => ?_) _ k
  rw [Core.putEntry_eq]
  unfold Core.entrySet
  rw [if_neg h9]
  rfl

theorem EntryRows.putEntries_outside {d : Desc} (h : EntryRows d) (h9 : d.fmt ≠ 9) (k : Core) (n : W48) {vs : List (BitVec 256)} (hlen : vs.length ≤ d.len1 * d.len0) : k.storeOutside (k.putEntries n d vs) n d := by
  intro x hx
  induction vs using List.reverseRecOn with
  | nil => rfl
  | append_singleton vs w ih =>
    rw [List.length_append, List.length_singleton] at hlen
    rw [Core.putEntries_concat]
    have hrow : vs.length / d.len0 < d.len1 := Nat.div_lt_of_lt_mul (by rw [Nat.mul_comm]; omega)
    have h1 := d.rowAt_le_hi n hrow
    have h2 := d.lo_le_rowAt n (vs.length / d.len0)
    have h3 := Nat.mod_lt vs.length h.pos
    have hbytes := h.rowBytes
    have hent : (d.extent n).lo ≤ d.entryAt n vs.length ∧ d.entryAt n vs.length + 32 ≤ (d.extent n).hi := by
      unfold Desc.entryAt
      omega
    unfold Core.entrySet
    rw [if_neg h9]
    exact (memGet_writeBytes_out _ _ _ _ (by rw [leBytes_length]; omega)).trans (ih (by omega))

end Sys2Proof.Machine
end

section
/-! Clearing, storing, loading, adding and reading out accumulator entries (R228, R255, R256). -/
namespace Sys2Proof.Machine

theorem Core.sameButAcc_of_collect {k p : Core} (h : { p with store := k.store, badStore := k.badStore, arrival := k.arrival, acc := k.acc, badAcc := k.badAcc, status := 0, numStat := k.numStat } = { k with status := 0 })
    (fl : List UnitInst) (id : Nat) (pc : W64) (cyc : Nat) : k.sameButAcc { p with status := k.status, numStat := k.numStat, inflight := fl, nextId := id, pc := pc, cyc := cyc } :=
  (congrArg (fun u : Core => { u with status := k.status, eventStat := k.eventStat, inflight := k.inflight, nextId := k.nextId, pc := k.pc, cyc := k.cyc }) h :)

theorem Core.sameButUnit_of_collect {k p : Core} (h : { p with store := k.store, badStore := k.badStore, arrival := k.arrival, status := 0, numStat := k.numStat } = { k with status := 0 })
    (fl : List UnitInst) (id : Nat) (pc : W64) (cyc : Nat) : k.sameButUnit { p with status := k.status, numStat := k.numStat, inflight := fl, nextId := id, pc := pc, cyc := cyc } :=
  (congrArg (fun u : Core => { u with status := k.status, eventStat := k.eventStat, inflight := k.inflight, nextId := k.nextId, pc := k.pc, cyc := k.cyc }) h :)

/-- The core with two of the flags of ARR_NUM_STAT (R214). -/
def Core.numFlags (k : Core) (a b : Bool) (i j : Nat) : Core := (k.flagIf a i).flagIf b j

theorem Core.flagIf_same (k : Core) (b : Bool) {i : Nat} (hi : i < 10) : { k.flagIf b i with status := k.status, numStat := k.numStat } = k := by
  cases b
  · rfl
  · unfold Core.flagIf Core.flag
    rw [if_pos rfl, if_pos hi]

theorem Core.flagIf_status (k : Core) (b : Bool) {i : Nat} (hi : i < 10) : (k.flagIf b i).status = if b then setBit k.status i else k.status := by
  cases b
  · rfl
  · unfold Core.flagIf Core.flag
    rw [if_pos rfl, if_pos hi, if_pos rfl]

theorem Core.flagIf_bit (k : Core) (b : Bool) {i : Nat} (hi : i < 10) (x : Nat) : (k.flagIf b i).status.getLsbD x = (k.status.getLsbD x || (b && decide (x = i))) := by
  rw [Core.flagIf_status k b hi]
  cases b
  · simp
  · rw [if_pos rfl, getLsbD_setBit]
    have : i < 32 := by omega
    simp [this]

theorem Core.numFlags_same (k : Core) (a b : Bool) {i j : Nat} (hi : i < 10) (hj : j < 10) : { k.numFlags a b i j with status := k.status, numStat := k.numStat } = k := by
  have h1 := k.flagIf_same a hi
  have h2 := (k.flagIf a i).flagIf_same b hj
  exact (congrArg (fun u : Core => { u with status := k.status, numStat := k.numStat }) h2 :).trans h1

/-- An instruction that writes entries of an operand, with two flags (R214, R228). -/
theorem unitRuns_entries {i : Instr} {c : CoreId} {g : Guard} {rd : List (Desc × List Nat)} {v : BitVec 128} {fmts : List Nat} {ut : Nat} {s : State} {body : Nat → State → Fire}
    {act : Core → Core} {a b : Bool} {vs : List (BitVec 256)} {eff : Core → Core → W32 → Prop} (he : exec i s = .next (fire c i g body s))
    (hb : body (s.fireAt c i g) s = unitOp c .array rd [(descOf v, fmts)] none (s.fireAt c i g) ut none act s)
    (hfmts : ∀ f ∈ fmts, f ∈ [9, 10]) (hact : act { s.core c with status := 0 } = (Core.numFlags { s.core c with status := 0 } a b 4 5).putEntries s.tick.seq (descOf v) vs)
    (hk : ∀ k, (act k).inflight = k.inflight ∧ (act k).nextId = k.nextId ∧ (act k).pc = k.pc)
    (hlen : vs.length = (descOf v).len0 * (descOf v).len1)
    (heff : ∀ (k' : Core) (fl : W32), (descOf v).fmt ∈ fmts → (∀ x, x ≠ 4 → x ≠ 5 → fl.getLsbD x = false) → (a = false → b = false → fl = 0) → k'.entries s.tick.seq (descOf v) = vs →
      (s.core c).sameButAcc k' → ((descOf v).fmt = 9 → k'.store = (s.core c).store) →
      ((descOf v).fmt ≠ 9 → a = false → b = false → (s.core c).storeOutside k' s.tick.seq (descOf v) ∧ (s.core c).sameButUnit k') → eff (s.core c) k' fl) :
    unitRuns i c g .array rd [(descOf v, fmts)] ut none s eff := by
  intro hr ho
  refine unitRuns_of act he hb hk (fun fl id pc cyc => ?_) hr ho
  have hrows := entryRows_of (ho.writes (descOf v, fmts) List.mem_cons_self) hfmts
  have hfmt := (Core.checkDesc_none (ho.writes (descOf v, fmts) List.mem_cons_self)).1
  have hflags := Core.numFlags_same { s.core c with status := 0 } a b (i := 4) (j := 5) (by decide) (by decide)
  have hbits (x : Nat) : (Core.numFlags { s.core c with status := 0 } a b 4 5).status.getLsbD x = ((a && decide (x = 4)) || (b && decide (x = 5))) := by
    unfold Core.numFlags
    rw [Core.flagIf_bit _ _ (by decide), Core.flagIf_bit _ _ (by decide)]
    simp
  rw [Core.collect_eq, hact]
  have hzero : a = false → b = false → Core.numFlags { s.core c with status := 0 } a b 4 5 = { s.core c with status := 0 } := by
    rintro rfl rfl
    rfl
  generalize Core.numFlags { s.core c with status := 0 } a b 4 5 = p at hflags hbits hzero ⊢
  have hsame := p.putEntries_same s.tick.seq (descOf v) vs
  unfold Core.sameButEntries at hsame
  have hentries := hrows.entries_putEntries p s.tick.seq hlen
  have hstore : (descOf v).fmt = 9 → (p.putEntries s.tick.seq (descOf v) vs).store = p.store := fun h9 => (congrArg Core.store (p.putEntries_acc h9 s.tick.seq vs) :)
  have hout := fun h9 => hrows.putEntries_outside h9 p s.tick.seq (vs := vs) (by rw [hlen, Nat.mul_comm])
  have hbytes : (descOf v).fmt ≠ 9 → p.sameButBytes (p.putEntries s.tick.seq (descOf v) vs) := fun h9 => p.putEntries_bytes h9 s.tick.seq vs
  have hpstore : p.store = (s.core c).store := (congrArg Core.store hflags :)
  dsimp only
  generalize p.putEntries s.tick.seq (descOf v) vs = q at hsame hentries hstore hout hbytes ⊢
  have hst : q.status = p.status := (congrArg Core.status hsame :)
  refine heff _ _ hfmt (fun x h4 h5 => ?_) (fun ha hb => ?_) ?_ ?_ (fun h9 => (hstore h9).trans hpstore) fun h9 ha hb => ⟨?_, ?_⟩
  · rw [hst, hbits]
    simp [h4, h5]
  · rw [hst, hzero ha hb]
  · exact hentries
  · refine Core.sameButAcc_of_collect ?_ _ _ _ _
    exact (congrArg (fun u : Core => { u with store := (s.core c).store, badStore := (s.core c).badStore, arrival := (s.core c).arrival, acc := (s.core c).acc, badAcc := (s.core c).badAcc, status := 0, numStat := (s.core c).numStat }) hsame :).trans
      (congrArg (fun u : Core => { u with store := (s.core c).store, badStore := (s.core c).badStore, arrival := (s.core c).arrival, acc := (s.core c).acc, badAcc := (s.core c).badAcc }) hflags :)
  · intro x hx
    exact (hout h9 x hx).trans (congrArg (fun m => memGet m x) hpstore)
  · have h := hbytes h9
    unfold Core.sameButBytes at h
    refine Core.sameButUnit_of_collect ?_ _ _ _ _
    exact (congrArg (fun u : Core => { u with store := (s.core c).store, badStore := (s.core c).badStore, arrival := (s.core c).arrival, status := 0, numStat := (s.core c).numStat }) h :).trans
      (congrArg (fun u : Core => { u with store := (s.core c).store, badStore := (s.core c).badStore, arrival := (s.core c).arrival }) hflags :)

theorem Core.entries_congr {k k' : Core} (hs : k.store = k'.store) (ha : k.acc = k'.acc) {n : W48} {d : Desc} : k.entries n d = k'.entries n d := by
  rw [Core.entries_eq, Core.entries_eq]
  unfold Core.entryGet Core.accGet
  rw [hs, ha]

theorem Core.putEntries_pipe (k : Core) (n : W48) (d : Desc) (vs : List (BitVec 256)) : (k.putEntries n d vs).inflight = k.inflight ∧ (k.putEntries n d vs).nextId = k.nextId ∧ (k.putEntries n d vs).pc = k.pc := by
  have h := k.putEntries_same n d vs
  exact ⟨(congrArg Core.inflight h :), (congrArg Core.nextId h :), (congrArg Core.pc h :)⟩

/-- Rows cut from a list (R226). -/
theorem chunk_eq_grid {α : Type} {l m : Nat} {vs : List α} (z : α) (h : vs.length = l * m) : chunk l m vs = grid m l fun j i => nth z vs (j * l + i) := by
  unfold chunk grid
  refine List.map_congr_left fun j hj => ?_
  have hlt := List.mem_range.1 hj
  have hfit : j * l + l ≤ vs.length := by
    rw [h, Nat.mul_comm l m, ← Nat.succ_mul]
    exact Nat.mul_le_mul_right _ hlt
  refine List.ext_getElem? fun i => ?_
  rw [List.getElem?_take, List.getElem?_map]
  by_cases hi : i < l
  · rw [if_pos hi, List.getElem?_range hi, List.getElem?_drop, List.getElem?_eq_getElem (by omega)]
    show some vs[j * l + i] = some ((vs[j * l + i]?).getD z)
    rw [List.getElem?_eq_getElem (by omega)]
    rfl
  · rw [if_neg hi, List.getElem?_eq_none (by rw [List.length_range]; omega)]
    rfl

theorem nth_map_of {α β : Type} (f : α → β) (z : α) (l : List α) {i : Nat} (h : i < l.length) (z' : β) : nth z' (l.map f) i = f (nth z l i) := by
  unfold nth
  rw [List.getElem?_map, List.getElem?_eq_getElem h]
  rfl

theorem unitRuns_of_good {i : Instr} {c : CoreId} {g : Guard} {u : UnitKind} {rd wr : List (Desc × List Nat)} {ut : Nat} {sd : Option SReg} {s : State} {eff : Core → Core → W32 → Prop}
    (h : OperandsGood c u rd wr s → unitRuns i c g u rd wr ut sd s eff) : unitRuns i c g u rd wr ut sd s eff := fun hr ho => h ho hr ho

/-- `accrd`: rows of rounded entries (R119, R122, R256). -/
theorem accrd_runs {c : CoreId} {g : Guard} {td ta : TReg} {rsel : BitVec 4} {r : Recipe} {s : State} :
    let k := s.core c
    let n := s.tick.seq
    let dd := descOf (k.treg td)
    let da := descOf (k.treg ta)
    let src := k.entries n da
    dd.len0 * dd.len1 = da.len0 * da.len1 → s.slotRecipe c rsel.toNat = some r → dd.fmt = (if r.fp32Out then 2 else 1) →
    unitRuns (.accrd c g td ta rsel) c g .array [(da, [9, 10])] [(dd, [1, 2])] (6 + ceilDiv (da.len0 * da.len1) 64) none s (fun k k' fl =>
      k'.store = (k.putRows n dd ((List.range dd.len1).map fun j => (List.range dd.len0).map fun i =>
        ((accOf (nth 0 src (j * dd.len0 + i))).output (fmtOf dd.fmt)).1)).store ∧
      (fl.getLsbD 6 = true ↔ ∃ v ∈ src, ((accOf v).output (fmtOf dd.fmt)).2 = true) ∧ (∀ b, b ≠ 6 → fl.getLsbD b = false) ∧
      k.storeOutside k' n dd ∧ k.sameButUnit k') := by
  intro k n dd da src hcnt hrec hfmt
  refine unitRuns_of_good fun ho => unitRuns_of (fun k =>
      let outs := (k.entries n da).map fun v => (accOf v).output (fmtOf dd.fmt)
      (k.flagIf (outs.any Prod.snd) stOutputOvf).putRows n dd (chunk dd.len0 dd.len1 (outs.map Prod.fst))) rfl ?_ (fun k => ?_) (fun fl id pc cyc => ?_)
  · dsimp only
    rw [hrec]
    dsimp only
    rw [if_neg (show ¬ (dd.fmt ≠ (if r.fp32Out then 2 else 1) ∨ dd.count ≠ da.count) from not_or.2 ⟨not_not.2 hfmt, not_not.2 hcnt⟩)]
    rfl
  · have h := (k.flagIf (((k.entries n da).map fun v => (accOf v).output (fmtOf dd.fmt)).any Prod.snd) stOutputOvf).putRows_same n dd
      (chunk dd.len0 dd.len1 (((k.entries n da).map fun v => (accOf v).output (fmtOf dd.fmt)).map Prod.fst))
    have h2 := k.flagIf_same (((k.entries n da).map fun v => (accOf v).output (fmtOf dd.fmt)).any Prod.snd) (i := stOutputOvf) (by decide)
    exact ⟨(congrArg Core.inflight h :).trans (congrArg Core.inflight h2 :), (congrArg Core.nextId h :).trans (congrArg Core.nextId h2 :), (congrArg Core.pc h :).trans (congrArg Core.pc h2 :)⟩
  · have hform : dd.fmt ∈ [1, 2] := (Core.checkDesc_none (ho.writes (dd, [1, 2]) List.mem_cons_self)).1
    have hgrid : chunk dd.len0 dd.len1 ((src.map fun v => (accOf v).output (fmtOf dd.fmt)).map Prod.fst) =
        grid dd.len1 dd.len0 fun j i => ((accOf (nth 0 src (j * dd.len0 + i))).output (fmtOf dd.fmt)).1 := by
      have hsrc : src.length = dd.len0 * dd.len1 := (Core.length_entries ..).trans hcnt.symm
      rw [chunk_eq_grid 0 (by rw [List.length_map, List.length_map, hsrc]), List.map_map]
      refine grid_congr fun j i hj hi => nth_map_of _ _ _ ?_ _
      have : (j + 1) * dd.len0 ≤ dd.len1 * dd.len0 := Nat.mul_le_mul_right _ hj
      rw [Nat.succ_mul, Nat.mul_comm dd.len1] at this
      omega
    rw [Core.collect_eq]
    dsimp only
    rw [Core.entries_congr (k := { s.core c with status := 0 }) (k' := s.core c) rfl rfl]
    rw [hgrid]
    have hany : (src.map fun v => (accOf v).output (fmtOf dd.fmt)).any Prod.snd = true ↔ ∃ v ∈ src, ((accOf v).output (fmtOf dd.fmt)).2 = true := by
      rw [List.any_map, List.any_eq_true]
      rfl
    generalize hb : (src.map fun v => (accOf v).output (fmtOf dd.fmt)).any Prod.snd = b at hany
    have hflag := Core.flagIf_same { s.core c with status := 0 } b (i := stOutputOvf) (by decide)
    have hbit := Core.flagIf_bit { s.core c with status := 0 } b (i := stOutputOvf) (by decide)
    generalize Core.flagIf { s.core c with status := 0 } b stOutputOvf = p at hflag hbit ⊢
    have hrows := p.putRows_same n dd (grid dd.len1 dd.len0 fun j i => ((accOf (nth 0 src (j * dd.len0 + i))).output (fmtOf dd.fmt)).1)
    have hstore : (p.putRows n dd (grid dd.len1 dd.len0 fun j i => ((accOf (nth 0 src (j * dd.len0 + i))).output (fmtOf dd.fmt)).1)).store =
        (k.putRows n dd (grid dd.len1 dd.len0 fun j i => ((accOf (nth 0 src (j * dd.len0 + i))).output (fmtOf dd.fmt)).1)).store := Core.putRows_store_congr (k := p) (k' := k) (congrArg Core.store hflag :) _ _ _
    generalize p.putRows n dd (grid dd.len1 dd.len0 fun j i => ((accOf (nth 0 src (j * dd.len0 + i))).output (fmtOf dd.fmt)).1) = q at hrows hstore ⊢
    have hst : q.status = p.status := (congrArg Core.status hrows :)
    unfold Core.sameButBytes at hrows
    refine ⟨hstore, ?_, fun x hx => ?_, fun x hx => ?_, ?_⟩
    · rw [hst, hbit, ← hany]
      simp [stOutputOvf]
    · rw [hst, hbit]
      simp [stOutputOvf, hx]
    · refine (congrArg (fun m => memGet m x) hstore).trans (Core.putRows_outside (Desc.rowBytes_of hform (by decide)) (fun r hr => length_of_mem_grid hr) ?_ x hx)
      simp [grid]
    · refine Core.sameButUnit_of_collect ?_ _ _ _ _
      exact (congrArg (fun u : Core => { u with store := (s.core c).store, badStore := (s.core c).badStore, arrival := (s.core c).arrival, status := 0, numStat := (s.core c).numStat }) hrows :).trans
        (congrArg (fun u : Core => { u with store := (s.core c).store, badStore := (s.core c).badStore, arrival := (s.core c).arrival }) hflag :)

/-- The sums of an `accadd` (R256). -/
def accSums (ps : List (BitVec 256 × BitVec 256)) : List Acc := ps.map fun p => (accOf p.1).add (accOf p.2)

/-- A sum of an `accadd` rounds below the window (R256). -/
def accUnf (ps : List (BitVec 256 × BitVec 256)) : Bool := ps.any fun p => addRounds (accOf p.1) (accOf p.2)

/-- A sum of an `accadd` leaves the window (R256). -/
def accOvf (ps : List (BitVec 256 × BitVec 256)) : Bool := (ps.zip (accSums ps)).any fun q => q.2.ovf && !(accOf q.1.1).ovf && !(accOf q.1.2).ovf

/-- `accadd` within the row limit (R256). -/
theorem accadd_runs {c : CoreId} {g : Guard} {td ta : TReg} {s : State} :
    let k := s.core c
    let n := s.tick.seq
    let dd := descOf (k.treg td)
    let da := descOf (k.treg ta)
    let src := k.entries n da
    let own := k.entries n dd
    dd.len0 * dd.len1 = da.len0 * da.len1 → (∀ p ∈ own.zip src, (accOf p.1).rows + (accOf p.2).rows ≤ 65536) →
    unitRuns (.accadd c g td ta) c g .array [(dd, [9]), (da, [10])] [(dd, [9])] (6 + ceilDiv (da.len0 * da.len1) 32) none s (fun k k' fl =>
      (∀ b, b ≠ 4 → b ≠ 5 → fl.getLsbD b = false) ∧ k'.entries n dd = (own.zip src).map (fun p => ((accOf p.1).add (accOf p.2)).bits) ∧ k'.store = k.store ∧ k.sameButAcc k') := by
  intro k n dd da src own hcnt hfit
  have hmany : (own.zip src).any (fun p => decide (65536 < (accOf p.1).rows + (accOf p.2).rows)) = false := by
    refine List.any_eq_false.2 fun p hp => ?_
    have := hfit p hp
    simpa using this
  have hsums : (own.zip src).map (fun p => ((accOf p.1).add (accOf p.2)).bits) = (accSums (own.zip src)).map Acc.bits := by
    unfold accSums
    rw [List.map_map]
    rfl
  have hlen : ((accSums (own.zip src)).map Acc.bits).length = dd.len0 * dd.len1 := by
    have h1 : own.length = dd.len0 * dd.len1 := Core.length_entries ..
    have h2 : src.length = dd.len0 * dd.len1 := (Core.length_entries ..).trans hcnt.symm
    simp [accSums, h1, h2]
  rw [hsums]
  refine unitRuns_entries (a := accUnf (own.zip src)) (b := accOvf (own.zip src)) (vs := (accSums (own.zip src)).map Acc.bits)
    (act := fun u => (u.numFlags (accUnf (own.zip src)) (accOvf (own.zip src)) 4 5).putEntries n dd ((accSums (own.zip src)).map Acc.bits)) rfl ?_
    (fun f h => by rw [List.mem_singleton.1 h]; decide) rfl (fun u => ?_) hlen (fun k' fl hf hbits _ hent hacc hstore _ => ⟨hbits, hent, hstore (List.mem_singleton.1 hf), hacc⟩)
  · dsimp only
    rw [if_neg (show ¬ dd.count ≠ da.count from not_not.2 hcnt), hmany]
    split
    case h_1 s' cost next hgo => exact (if_neg (by decide)).trans hgo.symm
    case h_2 => rfl
  · have h := (u.numFlags (accUnf (own.zip src)) (accOvf (own.zip src)) 4 5).putEntries_pipe n dd ((accSums (own.zip src)).map Acc.bits)
    have h2 := u.numFlags_same (accUnf (own.zip src)) (accOvf (own.zip src)) (i := 4) (j := 5) (by decide) (by decide)
    exact ⟨h.1.trans (congrArg Core.inflight h2 :), h.2.1.trans (congrArg Core.nextId h2 :), h.2.2.trans (congrArg Core.pc h2 :)⟩

/-- Settles O12. -/
theorem accumulatorOperations : Obligations.AccumulatorOperations := by
  unfold Obligations.AccumulatorOperations
  intro c g td ta rsel s k n dd da src own count
  refine ⟨?_, fun hcnt => ⟨?_, ?_, fun hfit => ?_, fun r hrec hfmt => accrd_runs hcnt hrec hfmt⟩⟩
  · refine unitRuns_entries (act := fun k => k.putEntries n dd (List.replicate dd.count 0)) (a := false) (b := false) rfl rfl (fun _ h => h) rfl (fun k => k.putEntries_pipe ..) (List.length_replicate ..)
      fun k' fl _ _ hfl hent hacc _ _ => ⟨hfl rfl rfl, hent, hacc⟩
  · refine unitRuns_entries (act := fun k => k.putEntries n dd (k.entries n da)) (a := false) (b := false) (vs := src) rfl ?_ (fun _ h => List.mem_cons_of_mem _ h) ?_ (fun k => k.putEntries_pipe ..) ?_
      fun k' fl hf _ hfl hent hacc _ hout => ?_
    · unfold copyEntries
      rw [if_neg (show ¬ dd.count ≠ da.count from not_not.2 hcnt)]
      rfl
    · exact congrArg _ (Core.entries_congr rfl rfl)
    · exact (Core.length_entries ..).trans hcnt.symm
    · have h9 : dd.fmt ≠ 9 := by
        rw [List.mem_singleton.1 hf]
        decide
      exact ⟨hfl rfl rfl, hent, hout h9 rfl rfl⟩
  · refine unitRuns_entries (act := fun k => k.putEntries n dd (k.entries n da)) (a := false) (b := false) (vs := src) rfl ?_ (fun f h => by rw [List.mem_singleton.1 h]; decide) ?_ (fun k => k.putEntries_pipe ..) ?_
      fun k' fl hf _ hfl hent hacc hstore _ => ⟨hfl rfl rfl, hent, hstore (List.mem_singleton.1 hf), hacc⟩
    · unfold copyEntries
      rw [if_neg (show ¬ dd.count ≠ da.count from not_not.2 hcnt)]
      rfl
    · exact congrArg _ (Core.entries_congr rfl rfl)
    · exact (Core.length_entries ..).trans hcnt.symm
  · exact accadd_runs hcnt hfit

end Sys2Proof.Machine
end

section
/-! The issue gate, and the row limit of `accadd` (R111, R172, R237, R256, R494). -/
namespace Sys2Proof.Machine

/-! ### An issue that may start -/

/-- What an `mvm` asks of its operands, its place and its rows (R117, R226, R254). -/
structure MvmGood (c : CoreId) (o : MvmOp) (s : State) : Prop where
  acc : (s.core c).checkDesc s.tick.seq (descOf ((s.core c).treg o.tacc)) [9] true true = none
  act : (s.core c).checkDesc s.tick.seq (descOf ((s.core c).treg o.tact)) [3, 4, 5] true false = none
  one : (descOf ((s.core c).treg o.tact)).len1 = 1
  fmt : (descOf ((s.core c).treg o.tact)).fmt = 3 + actwCode o.aw
  cols : 256 * o.tile.nspan ≤ (descOf ((s.core c).treg o.tacc)).len0 * (descOf ((s.core c).treg o.tacc)).len1
  elems : (descOf ((s.core c).treg o.tact)).len0 ≤ o.tile.kspan * o.tile.rows
  xlo : -1024 ≤ ((s.core c).sreg o.sx).toInt
  xhi : ((s.core c).sreg o.sx).toInt ≤ 1023
  free : (s.core c).busy .array [(descOf ((s.core c).treg o.tact)).extent s.tick.seq] [(descOf ((s.core c).treg o.tacc)).extent s.tick.seq] o.tile.arrays = false
  arrived : (s.core c).ready2 s.tick.seq (descOf ((s.core c).treg o.tact)) = true
  banks : s.banksReady c o.tile.arrays = true
  rows : ∀ i, i < 256 * o.tile.nspan →
    (accOf (if o.clr then 0 else (s.core c).accGet (entryIndex (descOf ((s.core c).treg o.tacc)).shape i))).rows + o.tile.kspan * o.tile.rows ≤ 65536

theorem MvmGood.noExc {c : CoreId} {o : MvmOp} {s : State} (h : MvmGood c o s) : s.mvmExc c o = none := by
  unfold State.mvmExc
  dsimp only
  have hx : anchorOk ((s.core c).sreg o.sx) = true := decide_eq_true ⟨h.xlo, h.xhi⟩
  have hcols : ¬ (descOf ((s.core c).treg o.tacc)).count < 256 * o.tile.nspan := Nat.not_lt.2 h.cols
  rw [h.acc, h.act, if_neg (by simp [h.one, h.fmt, hcols, h.elems, hx])]
  rfl

theorem MvmGood.noWait {c : CoreId} {o : MvmOp} {s : State} (h : MvmGood c o s) : s.mvmWaits c o = false := by
  unfold State.mvmWaits
  dsimp only
  rw [h.free, h.arrived, h.banks]
  rfl

theorem MvmGood.rowsFit {c : CoreId} {o : MvmOp} {s : State} (h : MvmGood c o s) : tooManyRows o (issueSetup c o s) = false := by
  unfold tooManyRows
  refine List.any_eq_false.2 fun x hx => ?_
  obtain ⟨i, hi, rfl⟩ := List.mem_map.1 hx
  have := h.rows i (List.mem_range.1 hi)
  simpa using this

/-- A ready `mvm` whose operands are good comes to its issue (R254). -/
theorem mvm_issues {c : CoreId} {g : Guard} {o : MvmOp} {faults : List ReadFault} {s : State} (hr : Ready c (.mvm c g o faults) g s) (h : MvmGood c o s) :
    exec (.mvm c g o faults) s = .next (match issueMvm c o faults (s.fireAt c (.mvm c g o faults) g) s with
      | .hold => s
      | .halt code s' => haltCore c code (s.core c).pc (s'.modCore c fun k' => k'.advance k'.pc (s.fireAt c (.mvm c g o faults) g))
      | .go s' cost next => s'.modCore c fun k' => k'.advance (next.getD ((s.core c).pc + 8)) (s.fireAt c (.mvm c g o faults) g + cost)) := by
  have he : exec (.mvm c g o faults) s = execMvm c g o faults s := rfl
  unfold execMvm at he
  rw [fire_ready hr, h.noExc] at he
  dsimp only at he
  rw [if_neg (by rw [h.noWait]; decide)] at he
  exact he

/-- What an overrun leaves (R172). -/
theorem overrun_spec (c : CoreId) (cause : Nat) (s : State) :
    (overrun c cause s).core c = { s.core c with run := false } ∧ (∀ f ∈ (overrun c cause s).flits, f.src = 1000 * s.member + c.val → ∀ i, f.inj = some i → i ≤ (s.core c).cyc) ∧
    (⟨cause, s.member, (dieOf c).val⟩ : Notice) ∈ (overrun c cause s).tick.notices ∧ (overrun c cause s).tick.event.getLsbD 0 = true := by
  have hcore := s.core_modCore_same c fun k => { k with run := false }
  refine ⟨hcore, fun f hf hsrc i hi => ?_, (mem_addNew _ _ _).2 (.inr rfl), (getLsbD_setBit _ _ _).trans (by simp)⟩
  have hkept := (List.mem_filter.1 hf).2
  rw [hsrc, hi, hcore] at hkept
  simpa using hkept

/-- The issue gate (R172, R494). -/
theorem mvm_refused {c : CoreId} {g : Guard} {o : MvmOp} {faults : List ReadFault} {s : State} (hr : Ready c (.mvm c g o faults) g s) (h : MvmGood c o s)
    (hgate : s.gateRefuses c o (s.fireAt c (.mvm c g o faults) g) (issueSetup c o s) = true) :
    ∃ t, exec (.mvm c g o faults) s = .next t ∧ (t.core c).run = false ∧ (t.core c).acc = (s.core c).acc ∧
      (∀ f ∈ t.flits, f.src = 1000 * s.member + c.val → ∀ i, f.inj = some i → i ≤ (s.core c).cyc) ∧
      (t.core c).inflight = (s.core c).inflight ∧ (⟨0, s.member, (dieOf c).val⟩ : Notice) ∈ t.tick.notices ∧ t.tick.event.getLsbD 0 = true := by
  have hissue : issueMvm c o faults (s.fireAt c (.mvm c g o faults) g) s = .go (overrun c 0 s) 0 (some (s.core c).pc) := by
    unfold issueMvm
    dsimp only
    rw [if_neg (by rw [h.rowsFit]; decide), if_pos hgate]
  have he := mvm_issues hr h
  rw [hissue] at he
  obtain ⟨hcore, hflits, hnotice, hevent⟩ := overrun_spec c 0 s
  refine ⟨_, he, ?_, ?_, hflits, ?_, hnotice, hevent⟩ <;> rw [State.core_modCore_same, hcore] <;> rfl

/-! ### The row limit of `accadd` -/

theorem Core.record_keeps (k : Core) (code : Nat) (pc : W64) (tick : W48) : { k.record code pc tick with exc0 := k.exc0, exc1 := k.exc1, excSeen := k.excSeen } = k := by
  unfold Core.record
  split
  · rfl
  · split <;> rfl

/-- The core that continues past the row limit (R237). -/
def Core.limited (k : Core) (tick : W48) : Core := ((k.flag stKLimit).flag stExcCont).record xKLimit k.pc tick

theorem continueExc_eq (c : CoreId) (s : State) : continueExc c s = s.modCore c fun k => k.limited s.tick.count := (rfl)

theorem Core.limited_spec (k : Core) (tick : W48) : (k.limited tick).acc = k.acc ∧ (k.limited tick).store = k.store ∧ (k.limited tick).inflight = k.inflight ∧ (k.limited tick).run = k.run ∧
    (k.limited tick).status.getLsbD 9 = true ∧ (k.limited tick).status.getLsbD 30 = true ∧ (k.limited tick).numStat.getLsbD 9 = true := by
  unfold Core.limited
  have hrec := ((k.flag stKLimit).flag stExcCont).record_keeps xKLimit k.pc tick
  generalize ((k.flag stKLimit).flag stExcCont).record xKLimit k.pc tick = p at hrec
  have hst : p.status = setBit (setBit k.status 9) 30 := (congrArg Core.status hrec :)
  have hnum : p.numStat = setBit k.numStat 9 := (congrArg Core.numStat hrec :)
  refine ⟨(congrArg Core.acc hrec :), (congrArg Core.store hrec :), (congrArg Core.inflight hrec :), (congrArg Core.run hrec :), ?_, ?_, ?_⟩
  · exact (congrArg (fun w => BitVec.getLsbD w 9) hst).trans (by simp [getLsbD_setBit])
  · exact (congrArg (fun w => BitVec.getLsbD w 30) hst).trans (by simp [getLsbD_setBit])
  · exact (congrArg (fun w => BitVec.getLsbD w 9) hnum).trans (by simp [getLsbD_setBit])

/-- `accadd` past the row limit (R111, R237, R256). -/
theorem accadd_limited {c : CoreId} {g : Guard} {td ta : TReg} {s : State} :
    let k := s.core c
    let n := s.tick.seq
    let dd := descOf (k.treg td)
    let da := descOf (k.treg ta)
    Ready c (.accadd c g td ta) g s → OperandsGood c .array [(dd, [9]), (da, [10])] [(dd, [9])] s → dd.len0 * dd.len1 = da.len0 * da.len1 →
    (∃ p ∈ (k.entries n dd).zip (k.entries n da), 65536 < (accOf p.1).rows + (accOf p.2).rows) →
    turnsCore (.accadd c g td ta) c s fun k' =>
      k'.acc = k.acc ∧ k'.store = k.store ∧ k'.inflight = k.inflight ∧ k'.run = true ∧ k'.pc = k.pc + 8 ∧
      k'.status.getLsbD 9 = true ∧ k'.status.getLsbD 30 = true ∧ k'.numStat.getLsbD 9 = true := by
  intro k n dd da hr ho hcnt hmany
  have hany : ((k.entries n dd).zip (k.entries n da)).any (fun p => decide (65536 < (accOf p.1).rows + (accOf p.2).rows)) = true := by
    obtain ⟨p, hp, hrows⟩ := hmany
    exact List.any_eq_true.2 ⟨p, hp, decide_eq_true hrows⟩
  have he : exec (.accadd c g td ta) s = execAccadd c g td ta s := rfl
  unfold execAccadd at he
  rw [fire_ready hr] at he
  dsimp only at he
  rw [if_neg (show ¬ (descOf ((s.core c).treg td)).count ≠ (descOf ((s.core c).treg ta)).count from not_not.2 hcnt), unitOp_good ho] at he
  dsimp only at he
  rw [if_pos hany] at he
  replace he : exec (.accadd c g td ta) s = .next ((continueExc c s).modCore c fun k' => k'.advance ((s.core c).pc + 8) (s.fireAt c (.accadd c g td ta) g + 1)) := he
  rw [continueExc_eq, State.modCore_modCore] at he
  obtain ⟨hacc, hstore, hin, hrun, h9, h30, hn9⟩ := k.limited_spec s.tick.count
  exact ⟨_, he, hacc, hstore, hin, hrun.trans hr.runs, rfl, h9, h30, hn9⟩

/-- Settles O17. -/
theorem arrayLimits : Obligations.ArrayLimits := by
  unfold Obligations.ArrayLimits
  refine ⟨?_, fun c g td ta s => accadd_limited⟩
  intro c g o faults s k n da dx tl outs arrs start x hr hacc hact h1 hf hcols helems hlo hhi hfree harr hbanks hrows hgate
  refine mvm_refused hr ⟨hacc, hact, h1, hf, hcols, helems, hlo, hhi, hfree, harr, hbanks, hrows⟩ ?_
  unfold State.gateRefuses State.ceilingOn
  exact Bool.or_eq_true_iff.2 (hgate.imp decide_eq_true id)

end Sys2Proof.Machine
end

section
/-! The quantiser: the size of a record, and what `qnt` leaves (R96 to R101, R227, R258). -/
namespace Sys2Proof.Machine

/-! ### Lists cut into pieces -/

theorem le_ceilDiv_mul {a b : Nat} (hb : 0 < b) : a ≤ ceilDiv a b * b := by
  unfold ceilDiv
  have h := Nat.div_add_mod (a + b - 1) b
  have hm := Nat.mod_lt (a + b - 1) hb
  rw [Nat.mul_comm] at h
  omega

theorem chunk_succ {α : Type} (n rows : Nat) (l : List α) : chunk n (rows + 1) l = chunk n rows l ++ [(l.drop (rows * n)).take n] := by
  unfold chunk
  rw [List.range_succ, List.map_append, List.map_singleton]

theorem flatten_chunk_take {α : Type} (n rows : Nat) (l : List α) : (chunk n rows l).flatten = l.take (rows * n) := by
  induction rows with
  | zero => rw [Nat.zero_mul, List.take_zero]; rfl
  | succ rows ih => rw [chunk_succ, List.flatten_append, ih, List.flatten_singleton, Nat.succ_mul, List.take_add]

/-- The pieces of a list give it back. -/
theorem flatten_chunk {α : Type} {n : Nat} (hn : 0 < n) (l : List α) : (chunk n (ceilDiv l.length n) l).flatten = l := by
  rw [flatten_chunk_take, List.take_of_length_le (le_ceilDiv_mul hn)]

theorem length_mod_of_mem_chunk {α : Type} {n rows : Nat} {l p : List α} {b : Nat} (hn : n % b = 0) (hl : l.length % b = 0) (hp : p ∈ chunk n rows l) : p.length % b = 0 := by
  obtain ⟨j, -, rfl⟩ := List.mem_map.1 hp
  obtain ⟨x, rfl⟩ := Nat.dvd_of_mod_eq_zero hn
  obtain ⟨y, hy⟩ := Nat.dvd_of_mod_eq_zero hl
  rw [List.length_take, List.length_drop, hy, Nat.mul_left_comm, ← Nat.mul_sub]
  rcases Nat.le_total (b * x) (b * (y - j * x)) with h | h
  · rw [min_eq_left h]
    exact Nat.mul_mod_right ..
  · rw [min_eq_right h]
    exact Nat.mul_mod_right ..

/-- Pieces of a list whose length they divide are whole. -/
theorem length_of_mem_chunk {α : Type} {n : Nat} {l p : List α} (hn : 0 < n) (hl : l.length % n = 0) (hp : p ∈ chunk n (ceilDiv l.length n) l) : p.length = n := by
  obtain ⟨j, hj, rfl⟩ := List.mem_map.1 hp
  obtain ⟨y, hy⟩ := Nat.dvd_of_mod_eq_zero hl
  have hrows : ceilDiv l.length n = y := by
    rw [hy]
    unfold ceilDiv
    rw [Nat.add_sub_assoc hn, Nat.mul_add_div hn, Nat.div_eq_of_lt (by omega), Nat.add_zero]
  have hlt : j + 1 ≤ y := by
    have := List.mem_range.1 hj
    omega
  have hmul := Nat.mul_le_mul_left n hlt
  rw [List.length_take, List.length_drop, hy, Nat.mul_comm j n]
  rw [Nat.mul_succ] at hmul
  omega

/-! ### The size of a quantised row -/

/-- Element codes of a list of blocks. -/
def codesLen (bs : List QBlock) : Nat := (bs.flatMap QBlock.codes).length

theorem codesLen_flatMap {α : Type} {f : α → List QBlock} {len : α → Nat} (h : ∀ a, codesLen (f a) = len a) (l : List α) : codesLen (l.flatMap f) = (l.map len).sum := by
  induction l with
  | nil => rfl
  | cons a l ih =>
    unfold codesLen at ih ⊢
    rw [List.flatMap_cons, List.flatMap_append, List.length_append, ih, List.map_cons, List.sum_cons]
    exact congrArg (· + _) (h a)

theorem quantBlock_codes (aw : ActW) (E : Int) (b : List QElem) : (quantBlock aw E b).codes.length = b.length := by
  unfold quantBlock
  split
  · exact List.length_map ..
  · dsimp only
    rw [List.length_map, List.length_map]

theorem codesLen_map_quantBlock (aw : ActW) (E : Int) (bs : List (List QElem)) : codesLen (bs.map (quantBlock aw E)) = bs.flatten.length := by
  unfold codesLen
  rw [List.flatMap_map, List.length_flatMap, List.length_flatten]
  exact congrArg _ (List.map_congr_left fun b _ => quantBlock_codes aw E b)

theorem flatten_blocksOf32 (g : List QElem) : (blocksOf32 g).flatten = g := flatten_chunk (by decide) g

theorem codesLen_quantGroup (aw : ActW) {r : Recipe} (hr : 0 < r.span) (g : List QElem) : codesLen (quantGroup aw r g) = g.length := by
  unfold quantGroup
  dsimp only
  rw [codesLen_flatMap (len := List.length) (fun sp => (codesLen_map_quantBlock ..).trans (congrArg _ (flatten_blocksOf32 sp))), ← List.length_flatten, flatten_chunk hr]

theorem quantGroup_whole {aw : ActW} {r : Recipe} (hr : r.span % 32 = 0) {g : List QElem} (hg : g.length % 32 = 0) {b : QBlock} (hb : b ∈ quantGroup aw r g) : b.codes.length = 32 := by
  obtain ⟨sp, hsp, hb⟩ := List.mem_flatMap.1 hb
  obtain ⟨e, he, rfl⟩ := List.mem_map.1 hb
  rw [quantBlock_codes]
  exact length_of_mem_chunk (by decide) (length_mod_of_mem_chunk hr hg hsp) he

/-- The elements of a row as `quantRow` sees them (R97). -/
def quantElems (stat : List Nat) (n : Nat) (row : List Nat) : List QElem :=
  (List.range n).map fun i => ⟨i, nth 0 row i, stat.contains i && decide (i < row.length), decide (i < row.length), false⟩

/-- A group with its captured elements marked (R97). -/
def quantMarked (aw : ActW) (r : Recipe) (g : List QElem) : List QElem :=
  g.map fun x => if (captures aw r g).1.any (fun y => y.idx == x.idx) then { x with captured := true } else x

/-- The groups of a row (R97). -/
def quantGroups (stat : List Nat) (n : Nat) (row : List Nat) : List (List QElem) := chunk 1024 (ceilDiv n 1024) (quantElems stat n row)

theorem quantRow_blocks (aw : ActW) (r : Recipe) (stat : List Nat) (n : Nat) (row : List Nat) :
    (quantRow aw r stat n row).blocks = (quantGroups stat n row).flatMap fun g => quantGroup aw r (quantMarked aw r g) := by
  unfold quantRow quantGroups
  dsimp only
  rw [List.flatMap_map]
  rfl

theorem quantRow_lists (aw : ActW) (r : Recipe) (stat : List Nat) (n : Nat) (row : List Nat) : (quantRow aw r stat n row).lists.length = ceilDiv n 1024 := by
  unfold quantRow chunk
  simp

theorem flatten_quantGroups (stat : List Nat) (n : Nat) (row : List Nat) : (quantGroups stat n row).flatten = quantElems stat n row := by
  have hlen : (quantElems stat n row).length = n := by simp [quantElems]
  have h := flatten_chunk (n := 1024) (by decide) (quantElems stat n row)
  rwa [hlen] at h

theorem length_quantMarked (aw : ActW) (r : Recipe) (g : List QElem) : (quantMarked aw r g).length = g.length := List.length_map ..

/-- A quantised row has a code for each element (R97). -/
theorem codesLen_quantRow (aw : ActW) {r : Recipe} (hr : 0 < r.span) (stat : List Nat) (n : Nat) (row : List Nat) : codesLen (quantRow aw r stat n row).blocks = n := by
  rw [quantRow_blocks, codesLen_flatMap (len := List.length) (fun g => (codesLen_quantGroup aw hr _).trans (length_quantMarked aw r g)), ← List.length_flatten, flatten_quantGroups]
  simp [quantElems]

/-- A quantised row has a block for every 32 elements (R97). -/
theorem length_quantRow_blocks (aw : ActW) {r : Recipe} (hr : 0 < r.span) (hr32 : r.span % 32 = 0) (stat : List Nat) {n : Nat} (hn : n % 32 = 0) (row : List Nat) :
    32 * (quantRow aw r stat n row).blocks.length = n := by
  have hwhole : ∀ b ∈ (quantRow aw r stat n row).blocks, b.codes.length = 32 := by
    intro b hb
    rw [quantRow_blocks] at hb
    obtain ⟨g, hg, hb⟩ := List.mem_flatMap.1 hb
    refine quantGroup_whole hr32 ?_ hb
    rw [length_quantMarked]
    exact length_mod_of_mem_chunk (by decide) (by simpa [quantElems] using hn) hg
  have hcodes := codesLen_quantRow aw hr stat n row
  unfold codesLen at hcodes
  rw [List.length_flatMap, List.map_congr_left hwhole, List.map_const', List.sum_replicate] at hcodes
  rw [smul_eq_mul, Nat.mul_comm] at hcodes
  exact hcodes

/-! ### A record written -/

/-- The side array of a record (R96). -/
def QRow.sideBytes (q : QRow) : Bytes := q.blocks.flatMap fun b => leBytes 1 b.scale ++ leBytes 1 b.status

/-- The outlier list of a record (R96). -/
def QRow.listBytes (q : QRow) : Bytes :=
  q.lists.flatMap fun l => (List.range 16).flatMap fun e => match l[e]? with
    | some x => leBytes 2 x.idx ++ leBytes 2 x.code
    | none => leBytes 4 0

theorem QRow.length_sideBytes (q : QRow) : q.sideBytes.length = 2 * q.blocks.length := by
  unfold QRow.sideBytes
  rw [List.length_flatMap]
  simp [Nat.mul_comm]

theorem QRow.length_listBytes (q : QRow) : q.listBytes.length = 64 * q.lists.length := by
  unfold QRow.listBytes
  have hentry (l : List QElem) (e : Nat) : (match l[e]? with
      | some x => leBytes 2 x.idx ++ leBytes 2 x.code
      | none => leBytes 4 0).length = 4 := by
    split <;> simp
  simp only [List.length_flatMap, hentry]
  simp [Nat.mul_comm]

/-- The memory with a record written (R96, R227). -/
def writeRecord (n : W48) (d : Desc) (aw : ActW) (m : List Host.Cell) (j : Nat) (q : QRow) : List Host.Cell :=
  writeBytes (writeBytes (writeBytes m (d.rowAt n j) (packCodes aw (q.blocks.flatMap QBlock.codes))) (d.rowAt n j + mxElems d.fmt d.len0) q.sideBytes)
    (d.rowAt n j + mxElems d.fmt d.len0 + mxSide d.len0) q.listBytes

theorem Core.putRecord_store (k : Core) (n : W48) (d : Desc) (j : Nat) (aw : ActW) (q : QRow) : (k.putRecord n d j aw q).store = writeRecord n d aw k.store j q := (rfl)

/-- A record's writes stand within its row (R227). -/
theorem writeRecord_outside {m : List Host.Cell} {n : W48} {d : Desc} {j : Nat} {aw : ActW} {q : QRow}
    (hcodes : (packCodes aw (q.blocks.flatMap QBlock.codes)).length ≤ mxElems d.fmt d.len0) (hblocks : 2 * q.blocks.length ≤ mxSide d.len0) (hlists : 64 * q.lists.length ≤ mxList d.len0) {x : Nat}
    (hx : x < d.rowAt n j ∨ d.rowAt n j + (mxElems d.fmt d.len0 + mxSide d.len0 + mxList d.len0) ≤ x) : memGet (writeRecord n d aw m j q) x = memGet m x := by
  have h1 := q.length_sideBytes
  have h2 := q.length_listBytes
  unfold writeRecord
  rw [memGet_writeBytes_out _ _ _ _ (by omega), memGet_writeBytes_out _ _ _ _ (by omega), memGet_writeBytes_out _ _ _ _ (by omega)]

theorem le_alignUp64 (a : Nat) : a ≤ alignUp a 64 := le_ceilDiv_mul (by decide)

/-- The packed codes of a record fit (R96, R227). -/
theorem length_packCodes {actFmt n : Nat} (h : actFmt < 3) {codes : List Nat} (hlen : codes.length = n) : (packCodes (actwOfFmt actFmt) codes).length ≤ mxElems (3 + actFmt) n := by
  unfold mxElems
  refine Nat.le_trans ?_ (le_alignUp64 _)
  have hcases : actFmt = 0 ∨ actFmt = 1 ∨ actFmt = 2 := by omega
  rcases hcases with rfl | rfl | rfl <;> simp [actwOfFmt, packCodes, hlen]

/-- The rows of a quantised operand fit their records (R96, R227). -/
theorem quantRow_fits {r : Recipe} (hr : 0 < r.span) (hr32 : r.span % 32 = 0) (hact : r.actFmt < 3) {d : Desc} (hfmt : d.fmt = 3 + r.actFmt) (hn : d.len0 % 32 = 0) (stat row : List Nat) :
    let q := quantRow (actwOfFmt r.actFmt) r stat d.len0 row
    (packCodes (actwOfFmt r.actFmt) (q.blocks.flatMap QBlock.codes)).length ≤ mxElems d.fmt d.len0 ∧ 2 * q.blocks.length ≤ mxSide d.len0 ∧ 64 * q.lists.length ≤ mxList d.len0 := by
  refine ⟨?_, ?_, ?_⟩
  · rw [hfmt]
    exact length_packCodes hact (codesLen_quantRow _ hr stat d.len0 row)
  · have h := length_quantRow_blocks (actwOfFmt r.actFmt) hr hr32 stat hn row
    refine Nat.le_trans ?_ (le_alignUp64 _)
    omega
  · rw [quantRow_lists]
    exact Nat.le_refl _

theorem Core.checkDesc_blocks {k : Core} {n : W48} {d : Desc} {fmts : List Nat} {rd wr : Bool} (h : k.checkDesc n d fmts rd wr = none) (hf : d.fmt = 3 ∨ d.fmt = 4 ∨ d.fmt = 5) : d.len0 % 32 = 0 := by
  unfold Core.checkDesc at h
  dsimp only at h
  generalize (if d.fmt = 9 then 32 else 64) = al at h
  split at h
  · exact absurd h (by simp)
  split at h
  · exact absurd h (by simp)
  rename_i hbad
  by_contra hn
  exact hbad (.inr (.inr (.inr (.inr (.inr (.inr (.inr ⟨hf, hn⟩)))))))

theorem State.slotRecipe_span {s : State} {c : CoreId} {rsel : Nat} {r : Recipe} (h : s.slotRecipe c rsel = some r) : 0 < r.span ∧ r.span % 32 = 0 := by
  unfold State.slotRecipe at h
  split at h
  case h_1 e x _ _ =>
    split at h
    · obtain rfl := Option.some.inj h
      exact ⟨Nat.mul_pos (by decide) (Nat.pow_pos (by decide)), Nat.mul_mod_right ..⟩
    · exact absurd h (by simp)
  case h_2 => exact absurd h (by simp)

/-! ### `qnt` -/

theorem Core.unitWrite_same (k : Core) (a : Nat) (bs : Bytes) : k.sameButBytes (k.unitWrite a bs) := rfl

theorem Core.sameButBytes_trans {k l m : Core} (h : k.sameButBytes l) (h' : l.sameButBytes m) : k.sameButBytes m := by
  unfold Core.sameButBytes at h h' ⊢
  exact (congrArg (fun u : Core => { u with store := k.store, badStore := k.badStore, arrival := k.arrival }) h' :).trans h

theorem Core.putRecord_same (k : Core) (n : W48) (d : Desc) (j : Nat) (aw : ActW) (q : QRow) : k.sameButBytes (k.putRecord n d j aw q) :=
  Core.sameButBytes_trans (Core.sameButBytes_trans (k.unitWrite_same _ _) (Core.unitWrite_same _ _ _)) (Core.unitWrite_same _ _ _)

/-- The records of a quantised operand written (R96). -/
def Core.putRecords (k : Core) (n : W48) (d : Desc) (aw : ActW) (qs : List QRow) : Core := (qs.zip (List.range qs.length)).foldl (fun k p => k.putRecord n d p.2 aw p.1) k

theorem Core.putRecords_same (k : Core) (n : W48) (d : Desc) (aw : ActW) (qs : List QRow) : k.sameButBytes (k.putRecords n d aw qs) :=
  Core.sameButBytes_foldl (f := fun (k : Core) (p : QRow × Nat) => k.putRecord n d p.2 aw p.1) (fun u p => u.putRecord_same n d p.2 aw p.1) _ k

theorem Core.putRecords_store (k : Core) (n : W48) (d : Desc) (aw : ActW) (qs : List QRow) : (k.putRecords n d aw qs).store = (qs.zip (List.range qs.length)).foldl (fun m p => writeRecord n d aw m p.2 p.1) k.store :=
  Core.store_foldl (fun k p => k.putRecord_store n d p.2 aw p.1) _ _

/-- Records written stay within the extent (R227). -/
theorem Core.putRecords_outside {k : Core} {n : W48} {d : Desc} {aw : ActW} {qs : List QRow} (hd : d.rowBytes = mxElems d.fmt d.len0 + mxSide d.len0 + mxList d.len0) (hcnt : qs.length ≤ d.len1)
    (hfits : ∀ q ∈ qs, (packCodes aw (q.blocks.flatMap QBlock.codes)).length ≤ mxElems d.fmt d.len0 ∧ 2 * q.blocks.length ≤ mxSide d.len0 ∧ 64 * q.lists.length ≤ mxList d.len0) :
    k.storeOutside (k.putRecords n d aw qs) n d := by
  intro x hx
  rw [Core.putRecords_store]
  have hall : ∀ p ∈ qs.zip (List.range qs.length), p.1 ∈ qs ∧ p.2 < d.len1 := fun p hp => by
    have h2 := List.mem_range.1 (List.of_mem_zip hp).2
    exact ⟨(List.of_mem_zip hp).1, by omega⟩
  generalize qs.zip (List.range qs.length) = l at hall
  generalize k.store = m
  induction l generalizing m with
  | nil => rfl
  | cons p l ih =>
    obtain ⟨hq, hj⟩ := hall p List.mem_cons_self
    obtain ⟨hcodes, hblocks, hlists⟩ := hfits p.1 hq
    have h1 := d.rowAt_le_hi n hj
    have h2 := d.lo_le_rowAt n p.2
    rw [List.foldl_cons, ih (fun p hp => hall p (List.mem_cons_of_mem _ hp))]
    exact writeRecord_outside hcodes hblocks hlists (by omega)

/-- The flags of a quantised operand (R214, R258). -/
def Core.quantFlags (k : Core) (cl zb ov : Nat) (marked : Bool) : Core := (((k.flagIf (cl != 0) stQclamp).flagIf (zb != 0) stQzero).flagIf marked stQnonfinite).flagIf (ov != 0) stOutlierOvf

theorem Core.quantFlags_same (k : Core) (cl zb ov : Nat) (marked : Bool) : { k.quantFlags cl zb ov marked with status := k.status, numStat := k.numStat } = k := by
  have h1 := k.flagIf_same (cl != 0) (i := stQclamp) (by decide)
  have h2 := (k.flagIf (cl != 0) stQclamp).flagIf_same (zb != 0) (i := stQzero) (by decide)
  have h3 := ((k.flagIf (cl != 0) stQclamp).flagIf (zb != 0) stQzero).flagIf_same marked (i := stQnonfinite) (by decide)
  have h4 := (((k.flagIf (cl != 0) stQclamp).flagIf (zb != 0) stQzero).flagIf marked stQnonfinite).flagIf_same (ov != 0) (i := stOutlierOvf) (by decide)
  have close (u : Core) (v : Core) (h : { u with status := v.status, numStat := v.numStat } = v) : { u with status := k.status, numStat := k.numStat } = { v with status := k.status, numStat := k.numStat } :=
    (congrArg (fun u : Core => { u with status := k.status, numStat := k.numStat }) h :)
  exact (close _ _ h4).trans ((close _ _ h3).trans ((close _ _ h2).trans h1))

theorem Core.quantFlags_bits {k : Core} (h0 : k.status = 0) (cl zb ov : Nat) (marked : Bool) :
    ((k.quantFlags cl zb ov marked).status.getLsbD 0 = true ↔ 0 < cl) ∧ ((k.quantFlags cl zb ov marked).status.getLsbD 1 = true ↔ 0 < zb) ∧ ((k.quantFlags cl zb ov marked).status.getLsbD 3 = true ↔ 0 < ov) := by
  unfold Core.quantFlags
  have hbit (x : Nat) : ((((k.flagIf (cl != 0) stQclamp).flagIf (zb != 0) stQzero).flagIf marked stQnonfinite).flagIf (ov != 0) stOutlierOvf).status.getLsbD x =
      ((((cl != 0 && decide (x = 0)) || (zb != 0 && decide (x = 1))) || (marked && decide (x = 2))) || (ov != 0 && decide (x = 3))) := by
    rw [Core.flagIf_bit _ _ (by decide), Core.flagIf_bit _ _ (by decide), Core.flagIf_bit _ _ (by decide), Core.flagIf_bit _ _ (by decide), h0]
    simp [stQclamp, stQzero, stQnonfinite, stOutlierOvf]
    rfl
  rw [hbit, hbit, hbit]
  simp [Nat.pos_iff_ne_zero]

/-- The counters of a quantised operand (R258). -/
def Core.quantCounts (k : Core) (cl zb ov : Nat) : Core :=
  { k with clamps := satAdd 0x7FFF_FFFF k.clamps cl, zeroBlocks := satAdd 0xFFFF k.zeroBlocks zb, outlierOvf := satAdd 0x7FFF k.outlierOvf ov }

/-- What the rows of a quantised operand leave: records, XTOP, flags, counters (R258). -/
def Core.quantised (k : Core) (n : W48) (d : Desc) (aw : ActW) (sa : SReg) (qs : List QRow) : Core :=
  let bs := qs.flatMap QRow.blocks
  let cl := bs.foldl (fun a b => a + b.clamps) 0
  let zb := (bs.filter QBlock.zero).length
  let ov := qs.foldl (fun a q => a + q.lost) 0
  (((k.putRecords n d aw qs).setS sa (BitVec.ofInt 64 (xtopOf aw (qs.flatMap QRow.tops)))).quantFlags cl zb ov (bs.any QBlock.marked)).quantCounts cl zb ov

/-- Apart from its bytes, scalar registers, flags and counters a core that quantises is as before. -/
def Core.sameButQuant (k k' : Core) : Prop :=
  { k' with sregs := k.sregs, status := k.status, numStat := k.numStat, store := k.store, badStore := k.badStore, arrival := k.arrival, clamps := k.clamps, zeroBlocks := k.zeroBlocks, outlierOvf := k.outlierOvf } = k

/-- Flags and counters after the records and XTOP (R214, R258). -/
theorem Core.quantTail_spec {k a : Core} (ha : k.sameButBytes a) (sa : SReg) (v : W64) (cl zb ov : Nat) (marked : Bool) :
    let p := ((a.setS sa v).quantFlags cl zb ov marked).quantCounts cl zb ov
    p.sregs = (k.setS sa v).sregs ∧ p.store = a.store ∧ p.clamps = min 0x7FFF_FFFF (k.clamps + cl) ∧ p.zeroBlocks = min 0xFFFF (k.zeroBlocks + zb) ∧ p.outlierOvf = min 0x7FFF (k.outlierOvf + ov) ∧
    (k.status = 0 → (p.status.getLsbD 0 = true ↔ 0 < cl) ∧ (p.status.getLsbD 1 = true ↔ 0 < zb) ∧ (p.status.getLsbD 3 = true ↔ 0 < ov)) ∧ k.sameButQuant p := by
  intro p
  unfold Core.sameButBytes at ha
  have hset := a.setS_eq sa v
  have hsregs : (a.setS sa v).sregs = (k.setS sa v).sregs := by
    have hs : a.sregs = k.sregs := (congrArg Core.sregs ha :)
    unfold Core.setS
    split
    · exact hs
    · exact congrArg (fun m => smSet (fun _ => 0) m sa.val v) hs
  have hbits : k.status = 0 → _ := fun h0 => Core.quantFlags_bits ((congrArg Core.status hset).trans ((congrArg Core.status ha :).trans h0)) cl zb ov marked
  have hflags := (a.setS sa v).quantFlags_same cl zb ov marked
  have hp : p = ((a.setS sa v).quantFlags cl zb ov marked).quantCounts cl zb ov := rfl
  clear_value p
  generalize a.setS sa v = b at hset hsregs hbits hflags hp
  generalize b.quantFlags cl zb ov marked = f at hbits hflags hp
  subst hp
  have hcount (g : Core → Nat) (hb : g b = g a) (hk : g a = g k) (hf : g f = g b) : g f = g k := hf.trans (hb.trans hk)
  refine ⟨(congrArg Core.sregs hflags :).trans hsregs, (congrArg Core.store hflags :).trans (congrArg Core.store hset :), ?_, ?_, ?_, hbits, ?_⟩
  · exact congrArg (fun x => min 0x7FFF_FFFF (x + cl)) (hcount Core.clamps (congrArg Core.clamps hset :) (congrArg Core.clamps ha :) (congrArg Core.clamps hflags :))
  · exact congrArg (fun x => min 0xFFFF (x + zb)) (hcount Core.zeroBlocks (congrArg Core.zeroBlocks hset :) (congrArg Core.zeroBlocks ha :) (congrArg Core.zeroBlocks hflags :))
  · exact congrArg (fun x => min 0x7FFF (x + ov)) (hcount Core.outlierOvf (congrArg Core.outlierOvf hset :) (congrArg Core.outlierOvf ha :) (congrArg Core.outlierOvf hflags :))
  · unfold Core.sameButQuant
    have hf := (congrArg (fun u : Core => { u with sregs := k.sregs, status := k.status, numStat := k.numStat, store := k.store, badStore := k.badStore, arrival := k.arrival, clamps := k.clamps, zeroBlocks := k.zeroBlocks, outlierOvf := k.outlierOvf }) hflags :)
    have hb := (congrArg (fun u : Core => { u with sregs := k.sregs, status := k.status, numStat := k.numStat, store := k.store, badStore := k.badStore, arrival := k.arrival, clamps := k.clamps, zeroBlocks := k.zeroBlocks, outlierOvf := k.outlierOvf }) hset :)
    have hk := (congrArg (fun u : Core => { u with sregs := k.sregs, status := k.status, numStat := k.numStat, clamps := k.clamps, zeroBlocks := k.zeroBlocks, outlierOvf := k.outlierOvf }) ha :)
    exact Eq.trans hf (Eq.trans hb hk)

/-- What `quantised` leaves (R96, R214, R258). -/
theorem Core.quantised_spec (k : Core) (n : W48) (d : Desc) (aw : ActW) (sa : SReg) (qs : List QRow) :
    let bs := qs.flatMap QRow.blocks
    let p := k.quantised n d aw sa qs
    p.sregs = (k.setS sa (BitVec.ofInt 64 (xtopOf aw (qs.flatMap QRow.tops)))).sregs ∧ p.store = (k.putRecords n d aw qs).store ∧
    p.clamps = min 0x7FFF_FFFF (k.clamps + bs.foldl (fun a b => a + b.clamps) 0) ∧ p.zeroBlocks = min 0xFFFF (k.zeroBlocks + (bs.filter QBlock.zero).length) ∧
    p.outlierOvf = min 0x7FFF (k.outlierOvf + qs.foldl (fun a q => a + q.lost) 0) ∧
    (k.status = 0 → (p.status.getLsbD 0 = true ↔ 0 < bs.foldl (fun a b => a + b.clamps) 0) ∧ (p.status.getLsbD 1 = true ↔ 0 < (bs.filter QBlock.zero).length) ∧
      (p.status.getLsbD 3 = true ↔ 0 < qs.foldl (fun a q => a + q.lost) 0)) ∧ k.sameButQuant p :=
  Core.quantTail_spec (k.putRecords_same n d aw qs) ..

theorem Core.rows_congr {k k' : Core} (h : k.store = k'.store) {n : W48} {d : Desc} : k.rows n d = k'.rows n d := by
  unfold Core.rows Core.rowElems
  rw [h]

theorem Core.putRecords_store_congr {k k' : Core} (h : k.store = k'.store) (n : W48) (d : Desc) (aw : ActW) (qs : List QRow) : (k.putRecords n d aw qs).store = (k'.putRecords n d aw qs).store := by
  rw [Core.putRecords_store, Core.putRecords_store, h]

theorem Core.sreg_of_sregs {k k' : Core} (h : k.sregs = k'.sregs) (r : SReg) : k.sreg r = k'.sreg r := by
  unfold Core.sreg
  rw [h]

/-- Settles O14. -/
theorem quantiser : Obligations.Quantiser := by
  unfold Obligations.Quantiser
  intro c g td ta sa rsel r s k n dd da aw qs bs hrec hfmt hlen1 hlen0
  obtain ⟨hspan, hspan32⟩ := State.slotRecipe_span hrec
  refine unitRuns_of_good fun ho => unitRuns_of (fun k => k.quantised n dd aw sa ((k.rows n da).map (quantRow aw r (s.staticIndices c rsel.toNat r) dd.len0))) rfl ?_ (fun k => ?_) (fun fl id pc cyc => ?_)
  · dsimp only
    rw [hrec]
    dsimp only
    rw [if_neg (show ¬ (dd.fmt ≠ 3 + r.actFmt ∨ dd.len1 ≠ da.len1 ∨ dd.len0 < da.len0) by omega)]
    rfl
  · obtain ⟨-, -, -, -, -, -, hsame⟩ := k.quantised_spec n dd aw sa ((k.rows n da).map (quantRow aw r (s.staticIndices c rsel.toNat r) dd.len0))
    exact ⟨(congrArg Core.inflight hsame :), (congrArg Core.nextId hsame :), (congrArg Core.pc hsame :)⟩
  · have hfmts : dd.fmt ∈ [3, 4, 5] := (Core.checkDesc_none (ho.writes (dd, [3, 4, 5]) List.mem_cons_self)).1
    have hfmt345 : dd.fmt = 3 ∨ dd.fmt = 4 ∨ dd.fmt = 5 := by simpa using hfmts
    have hblocks := Core.checkDesc_blocks (ho.writes (dd, [3, 4, 5]) List.mem_cons_self) hfmt345
    have hbytes : dd.rowBytes = mxElems dd.fmt dd.len0 + mxSide dd.len0 + mxList dd.len0 := if_pos hfmt345
    have hout : k.storeOutside (k.putRecords n dd aw qs) n dd := by
      refine Core.putRecords_outside hbytes ?_ fun q hq => ?_
      · simp [qs, Core.rows, hlen1]
      · obtain ⟨row, -, rfl⟩ := List.mem_map.1 hq
        exact quantRow_fits hspan hspan32 (by omega) hfmt hblocks _ row
    rw [Core.collect_eq]
    dsimp only
    rw [Core.rows_congr (k := { s.core c with status := 0 }) (k' := s.core c) rfl]
    obtain ⟨hsregs, hstore, hcl, hzb, hov, hbits, hsame⟩ := Core.quantised_spec { s.core c with status := 0 } n dd aw sa qs
    obtain ⟨hb0, hb1, hb3⟩ := hbits rfl
    replace hstore := hstore.trans (Core.putRecords_store_congr (k := { s.core c with status := 0 }) (k' := k) rfl n dd aw qs)
    replace hsregs : _ = (k.setS sa (BitVec.ofInt 64 (xtopOf aw (qs.flatMap QRow.tops)))).sregs := hsregs.trans (by unfold Core.setS; split <;> rfl)
    have hsreg (q : SReg) := Core.sreg_of_sregs hsregs q
    generalize Core.quantised { s.core c with status := 0 } n dd aw sa qs = p at hsregs hstore hcl hzb hov hb0 hb1 hb3 hsame hsreg ⊢
    refine ⟨(hsreg sa).trans (Core.sreg_setS_same ..), fun q hq => (hsreg q).trans (Core.sreg_setS_other _ _ _ _ hq), hstore, hcl, hzb, hb0, hb1.trans ?_, hb3, rfl, hov, fun x hx => ?_, ?_, ?_, ?_, ?_⟩
    · rw [List.length_pos_iff_exists_mem]
      simp [bs]
    · exact (congrArg (fun m => memGet m x) hstore).trans (hout x hx)
    · exact (congrArg Core.acc hsame :)
    · exact (congrArg Core.tregs hsame :)
    · exact (congrArg Core.preds hsame :)
    · exact (congrArg Core.arrays hsame :)

end Sys2Proof.Machine
end

section
/-! The products of the static channels (R115, R255). -/
namespace Sys2Proof.Machine

/-- What the entry of column `i` of the tile becomes under `mvs`, on core `k`. -/
def Core.staticEntry (k : Core) (sh : Nat × Nat × Nat) (t : Tile) (d : LayerDir) (chans : List (Nat × Nat × Nat)) (xs : List Nat) (x : Int) (i : Nat) : BitVec 256 :=
  let ts := staticTerms k t d chans xs (i / 256) (i % 256)
  if ts = [] then k.accGet (entryIndex sh i)
  else (addStatic (accOf (k.accGet (entryIndex sh i))) (x + k.wtop (t.array 0 (i / 256)) (i % 256)) ts).bits

/-- `mvs` at column `i` of the tile. -/
def Core.staticStep (sh : Nat × Nat × Nat) (t : Tile) (d : LayerDir) (chans : List (Nat × Nat × Nat)) (xs : List Nat) (x : Int) (k : Core) (i : Nat) : Core :=
  let cc := i / 256
  let ts := staticTerms k t d chans xs cc (i % 256)
  let e := entryIndex sh i
  let a0 := accOf (k.accGet e)
  let a1 := addStatic a0 (x + k.wtop (t.array 0 cc) (i % 256)) ts
  let h := windowHits a1.a ts
  if ts = [] then k else ((k.flagIf h.1 stWindowUnf).flagIf h.2 stWindowOvf).accSet e a1.bits

/-- The fields that an accumulator instruction with window flags leaves (R214, R228). -/
def Core.sameButWindow (k k' : Core) : Prop :=
  { k' with acc := k.acc, badAcc := k.badAcc, status := k.status, numStat := k.numStat } = k ∧ ∀ b, b ≠ 4 → b ≠ 5 → k'.status.getLsbD b = k.status.getLsbD b

theorem Core.sameButWindow_refl (k : Core) : k.sameButWindow k := ⟨rfl, fun _ _ _ => rfl⟩

theorem Core.sameButWindow.trans {a b c : Core} (h : a.sameButWindow b) (h' : b.sameButWindow c) : a.sameButWindow c :=
  ⟨(congrArg (fun u : Core => { u with acc := a.acc, badAcc := a.badAcc, status := a.status, numStat := a.numStat }) h'.1 :).trans h.1,
    fun x h4 h5 => (h'.2 x h4 h5).trans (h.2 x h4 h5)⟩

theorem Core.sameButWindow_accSet (k : Core) (a b : Bool) (e : Nat) (v : BitVec 256) : k.sameButWindow ((k.numFlags a b 4 5).accSet e v) := by
  have hflags := k.numFlags_same a b (i := 4) (j := 5) (by decide) (by decide)
  refine ⟨(congrArg (fun u : Core => { u with acc := k.acc, badAcc := k.badAcc }) hflags :), fun x h4 h5 => ?_⟩
  show (k.numFlags a b 4 5).status.getLsbD x = _
  unfold Core.numFlags
  rw [Core.flagIf_bit _ _ (by decide), Core.flagIf_bit _ _ (by decide)]
  simp [h4, h5]

theorem Core.accGet_numFlags (k : Core) (a b : Bool) (e : Nat) : (k.numFlags a b 4 5).accGet e = k.accGet e := by
  have hacc : (k.numFlags a b 4 5).acc = k.acc := (congrArg Core.acc (k.numFlags_same a b (i := 4) (j := 5) (by decide) (by decide)) :)
  unfold Core.accGet
  rw [hacc]

section
variable (sh : Nat × Nat × Nat) (t : Tile) (d : LayerDir) (chans : List (Nat × Nat × Nat)) (xs : List Nat) (x : Int)

theorem Core.staticEntry_congr {k k' : Core} (h : k.sameButWindow k') {i : Nat} (hacc : k'.accGet (entryIndex sh i) = k.accGet (entryIndex sh i)) :
    k'.staticEntry sh t d chans xs x i = k.staticEntry sh t d chans xs x i := by
  have hstore : k'.store = k.store := (congrArg Core.store h.1 :)
  have hbase : k'.constBase = k.constBase := (congrArg Core.constBase h.1 :)
  unfold Core.staticEntry staticTerms Core.wtop
  rw [hacc, hstore, hbase]

/-- One column of `mvs`: its entry takes its terms, and nothing else changes but the window flags. -/
theorem Core.staticStep_spec (k : Core) (i : Nat) :
    (k.staticStep sh t d chans xs x i).accGet (entryIndex sh i) = k.staticEntry sh t d chans xs x i ∧
    (∀ e, e ≠ entryIndex sh i → (k.staticStep sh t d chans xs x i).accGet e = k.accGet e) ∧ k.sameButWindow (k.staticStep sh t d chans xs x i) := by
  unfold Core.staticStep Core.staticEntry
  dsimp only
  generalize staticTerms k t d chans xs (i / 256) (i % 256) = ts
  by_cases hts : ts = []
  · rw [if_pos hts, if_pos hts]
    exact ⟨rfl, fun _ _ => rfl, k.sameButWindow_refl⟩
  · rw [if_neg hts, if_neg hts]
    exact ⟨Core.accGet_accSet_same .., fun e he => (Core.accGet_accSet_other _ _ he).trans (k.accGet_numFlags ..), k.sameButWindow_accSet ..⟩

/-- The columns of a tile under `mvs`. -/
def Core.statics (k : Core) (m : Nat) : Core := (List.range m).foldl (Core.staticStep sh t d chans xs x) k

theorem Core.statics_succ (k : Core) (m : Nat) : k.statics sh t d chans xs x (m + 1) = (k.statics sh t d chans xs x m).staticStep sh t d chans xs x m := by
  unfold Core.statics
  rw [List.range_succ, List.foldl_append]
  rfl

theorem Core.statics_spec (k : Core) {m : Nat} (hinj : ∀ i j, i < m → j < m → entryIndex sh i = entryIndex sh j → i = j) :
    (∀ i, i < m → (k.statics sh t d chans xs x m).accGet (entryIndex sh i) = k.staticEntry sh t d chans xs x i) ∧
    (∀ e, (∀ i, i < m → entryIndex sh i ≠ e) → (k.statics sh t d chans xs x m).accGet e = k.accGet e) ∧ k.sameButWindow (k.statics sh t d chans xs x m) := by
  induction m with
  | zero => exact ⟨fun i hi => absurd hi (Nat.not_lt_zero i), fun _ _ => rfl, k.sameButWindow_refl⟩
  | succ m ih =>
    obtain ⟨hin, hout, hsame⟩ := ih fun i j hi hj => hinj i j (by omega) (by omega)
    rw [Core.statics_succ]
    have hown : ∀ i, i < m → entryIndex sh i ≠ entryIndex sh m := fun i hi he => absurd (hinj i m (by omega) (by omega) he) (by omega)
    have hkept := hout (entryIndex sh m) hown
    generalize k.statics sh t d chans xs x m = p at hin hout hsame hkept ⊢
    obtain ⟨hnew, hold, hstep⟩ := p.staticStep_spec sh t d chans xs x m
    refine ⟨fun i hi => ?_, fun e he => ?_, hsame.trans hstep⟩
    · rcases Nat.lt_succ_iff_lt_or_eq.1 hi with hlt | rfl
      · exact (hold _ (hown i hlt)).trans (hin i hlt)
      · exact hnew.trans (Core.staticEntry_congr sh t d chans xs x hsame hkept)
    · exact (hold e (he m (by omega)).symm).trans (hout e fun i hi => he i (by omega))

end

/-- Settles O13. -/
theorem staticChannels : Obligations.StaticChannels := by
  unfold Obligations.StaticChannels
  intro c g td ta sa tile d chans s k n dd da st xs x hst hcols helems hlo hhi
  refine unitRuns_of_good fun ho => unitRuns_of (fun u => u.statics dd.shape tile d st xs x (256 * tile.nspan)) rfl ?_ (fun u => ?_) (fun fl id pc cyc => ?_)
  · dsimp only
    rw [hst]
    dsimp only
    rw [if_neg (show ¬ (dd.count < 256 * tile.nspan ∨ tile.kspan * tile.rows < da.len0 ∨ anchorOk (k.sreg sa) = false) from ?_)]
    · rfl
    · rw [not_or, not_or]
      exact ⟨Nat.not_lt.2 hcols, Nat.not_lt.2 helems, by unfold anchorOk; rw [decide_eq_true (show -1024 ≤ x ∧ x ≤ 1023 from ⟨hlo, hhi⟩)]; decide⟩
  · have h : u.sameButWindow (u.statics dd.shape tile d st xs x (256 * tile.nspan)) := by
      unfold Core.statics
      generalize List.range (256 * tile.nspan) = l
      induction l generalizing u with
      | nil => exact u.sameButWindow_refl
      | cons i l ih => exact (u.staticStep_spec dd.shape tile d st xs x i).2.2.trans (ih _)
    exact ⟨(congrArg Core.inflight h.1 :), (congrArg Core.nextId h.1 :), (congrArg Core.pc h.1 :)⟩
  · have hgood := ho.writes (dd, [9]) List.mem_cons_self
    have hrows := entryRows_of hgood (fun f h => by rw [List.mem_singleton.1 h]; decide)
    have h9 : dd.fmt = 9 := List.mem_singleton.1 (Core.checkDesc_none hgood).1
    have hinj : ∀ i j, i < 256 * tile.nspan → j < 256 * tile.nspan → entryIndex dd.shape i = entryIndex dd.shape j → i = j := fun i j hi hj =>
      hrows.entryIndex_inj h9 ((Nat.lt_of_lt_of_le hi hcols).trans_eq (Nat.mul_comm ..)) ((Nat.lt_of_lt_of_le hj hcols).trans_eq (Nat.mul_comm ..))
    rw [Core.collect_eq]
    dsimp only
    obtain ⟨hin, hout, hsame⟩ := Core.statics_spec dd.shape tile d st xs x { s.core c with status := 0 } hinj
    have hstart (i : Nat) : Core.staticEntry { s.core c with status := 0 } dd.shape tile d st xs x i = k.staticEntry dd.shape tile d st xs x i := (rfl)
    generalize Core.statics dd.shape tile d st xs x { s.core c with status := 0 } (256 * tile.nspan) = p at hin hout hsame ⊢
    obtain ⟨hframe, hbits⟩ := hsame
    refine ⟨fun b h4 h5 => (hbits b h4 h5).trans (BitVec.getLsbD_zero ..), fun i hi => (hin i hi).trans (hstart i), hout, Core.sameButAcc_of_collect ?_ _ _ _ _⟩
    exact (congrArg (fun u : Core => { u with store := k.store, badStore := k.badStore, arrival := k.arrival, acc := k.acc, badAcc := k.badAcc, status := 0, numStat := k.numStat }) hframe :)

end Sys2Proof.Machine
end

section
/-! Verdicts of passes, the re-read ladder and re-read passes (R58, R59, R66 to R68, R84, R86, R174). -/
namespace Sys2Proof.Machine

/-! ### Issues in flight -/

theorem Core.findIssue_iff {k : Core} {id : Nat} {u : UnitInst} {iss : Issue} : k.findIssue id = some (u, iss) ↔ k.inflight.find? (fun u => u.id == id) = some u ∧ u.issue = some iss := by
  unfold Core.findIssue
  cases k.inflight.find? (fun u => u.id == id) with
  | none => simp
  | some v =>
    dsimp only
    cases hi : v.issue with
    | none =>
      refine ⟨fun h => absurd h (by simp), ?_⟩
      rintro ⟨hv, hu⟩
      rw [← Option.some.inj hv, hi] at hu
      exact absurd hu (by simp)
    | some i =>
      refine ⟨fun h => ?_, ?_⟩
      · obtain ⟨rfl, rfl⟩ := Prod.mk.inj (Option.some.inj h)
        exact ⟨rfl, hi⟩
      · rintro ⟨hv, hu⟩
        obtain rfl := Option.some.inj hv
        rw [hi] at hu
        rw [Option.some.inj hu]

theorem Core.findIssue_id {k : Core} {id : Nat} {u : UnitInst} {iss : Issue} (h : k.findIssue id = some (u, iss)) : u.id = id := by
  have := List.find?_some (Core.findIssue_iff.1 h).1
  simpa using this

theorem Core.findIssue_congr {k k' : Core} (h : k'.inflight = k.inflight) (id : Nat) : k'.findIssue id = k.findIssue id := by
  unfold Core.findIssue
  rw [h]

/-- Instructions in flight changed in place. -/
theorem Core.findIssue_map {k k' : Core} {id : Nat} {u : UnitInst} {iss : Issue} (f : UnitInst → UnitInst) (hf : ∀ x, (f x).id = x.id) (hk : k'.inflight = k.inflight.map f)
    (h : k.findIssue id = some (u, iss)) {iss' : Issue} (hi : (f u).issue = some iss') : k'.findIssue id = some (f u, iss') := by
  refine Core.findIssue_iff.2 ⟨?_, hi⟩
  have hcomp : ((fun u : UnitInst => u.id == id) ∘ f) = fun u => u.id == id := funext fun x => congrArg (· == id) (hf x)
  rw [hk, List.find?_map, hcomp, (Core.findIssue_iff.1 h).1]
  rfl

theorem Core.findIssue_setIssue {k : Core} {id : Nat} {u : UnitInst} {iss : Issue} (h : k.findIssue id = some (u, iss)) (done : Nat) (iss' : Issue) :
    (k.setIssue id done iss').findIssue id = some ({ u with done := some done, issue := some iss' }, iss') := by
  have hu : (if u.id = id then { u with done := some done, issue := some iss' } else u) = { u with done := some done, issue := some iss' } := if_pos (Core.findIssue_id h)
  have := Core.findIssue_map (k' := k.setIssue id done iss') (fun x => if x.id = id then { x with done := some done, issue := some iss' } else x) (fun x => by split <;> rfl) rfl h (iss' := iss')
    (congrArg UnitInst.issue hu)
  rwa [hu] at this

theorem Core.findIssue_pend {k : Core} {id : Nat} {u : UnitInst} {iss : Issue} (h : k.findIssue id = some (u, iss)) (b : Nat) :
    (k.pend id b).findIssue id = some ({ u with flags := setBit u.flags b }, iss) := by
  have hu : (if u.id = id then { u with flags := setBit u.flags b } else u) = { u with flags := setBit u.flags b } := if_pos (Core.findIssue_id h)
  have := Core.findIssue_map (k' := k.pend id b) (fun x => if x.id = id then { x with flags := setBit x.flags b } else x) (fun x => by split <;> rfl) rfl h (iss' := iss)
    ((congrArg UnitInst.issue hu).trans (Core.findIssue_iff.1 h).2)
  rwa [hu] at this

/-! ### The first pass of an array -/

theorem Issue.mem_todo_erase {iss : Issue} {p : PassId} (h : iss.nextOf p.array = some p) (q : PassId) :
    q ∈ iss.todo.erase p ↔ q ∈ iss.todo.filter (fun x => x.array != p.array) ∨ q ∈ (iss.todo.filter fun x => x.array == p.array).drop 1 := by
  have hfirst : iss.todo.find? (fun x => x.array == p.array) = some p := (Option.filter_eq_some_iff.1 h).1
  generalize iss.todo = l at hfirst
  clear h
  induction l with
  | nil => exact absurd hfirst (by simp)
  | cons x l ih =>
    by_cases hx : x.array = p.array
    · have hxp : x = p := by
        rw [List.find?_cons_of_pos (by simpa using hx)] at hfirst
        exact Option.some.inj hfirst
      subst hxp
      rw [List.erase_cons_head, List.filter_cons_of_neg (by simp), List.filter_cons_of_pos (by simp), List.drop_one, List.tail_cons, List.mem_filter, List.mem_filter]
      by_cases hq : q.array = x.array <;> simp [hq]
    · have hne : x ≠ p := fun he => hx (by rw [he])
      rw [List.find?_cons_of_neg (by simpa using hx)] at hfirst
      rw [List.erase_cons_tail (by simpa using hne), List.mem_cons, List.filter_cons_of_pos (by simpa using hx), List.filter_cons_of_neg (by simpa using hx), List.mem_cons, or_assoc]
      exact or_congr_right (ih hfirst)

theorem mem_afterFail (iss : Issue) (p q : PassId) (rest : List PassId) : q ∈ afterFail iss p rest ↔ q ∈ rest ∨ q ∈ ladder p := by
  have hrest : q ∈ rest ↔ q ∈ rest.take 1 ∨ q ∈ rest.drop 1 := by
    rw [← List.mem_append, List.take_append_drop]
  unfold afterFail
  rw [hrest]
  simp only [List.mem_append, List.mem_filter, decide_eq_true_eq]
  by_cases hd : q ∈ iss.due <;> by_cases ho : originOf iss q ≤ originOf iss p <;> simp [hd, ho] <;> tauto

theorem Issue.mem_failed_todo {iss : Issue} {p : PassId} (h : iss.nextOf p.array = some p) (q : PassId) : q ∈ (iss.failed p).todo ↔ q ∈ iss.todo.erase p ∨ q ∈ ladder p := by
  unfold Issue.failed
  dsimp only
  rw [List.mem_append, mem_afterFail, Issue.mem_todo_erase h, or_assoc]

/-! ### Verdicts -/

/-- The core once the latches of a pass stand and its conversions at full scale, none of them, are counted (R53, R87). -/
def Core.passRead (k : Core) (phys : Nat) (f : ArrayInfo → ArrayInfo) : Core := { k with fsCount := satAdd 0x7FFF_FFFF k.fsCount 0 }.modArr phys f

theorem Core.passRead_frame {k : Core} (h : k.fsCount < 2 ^ 31) (phys : Nat) (f : ArrayInfo → ArrayInfo) : { k.passRead phys f with arrays := k.arrays } = k := by
  have hcnt : satAdd 0x7FFF_FFFF k.fsCount 0 = k.fsCount := by
    unfold satAdd
    omega
  unfold Core.passRead Core.modArr Core.setArr
  rw [hcnt]

/-- The residues of a pass without reported codes show a failure, where the pass is checked (R57 to R59). -/
def State.residueFails (s : State) (c : CoreId) (iss : Issue) (p : PassId) : Bool :=
  let pl := s.arrPlan c iss.mode iss.rgp p.array
  !((s.core c).checkDis && iss.mode != .reference) && (List.range 8).any fun h => passResidue pl.info pl.fp4 (activeRows iss p) [] h % 31 != 0

theorem passFail_true (pl : ArrPlan) (ck : Bool) (p : PassId) (rows : List Nat) :
    passFail pl ck p rows [] = (⟨false, false, ck && (List.range 8).any fun h => passResidue pl.info pl.fp4 rows [] h % 31 != 0⟩, 0) := by
  unfold passFail
  cases pl.twin <;> rfl

theorem releasePass_nil (k : Core) (id done : Nat) (iss : Issue) (arrs : List ArrPlan) : releasePass k id done iss arrs [] = k.setIssue id done iss := by
  unfold releasePass
  rw [List.append_nil]
  exact if_pos rfl

/-- The verdict of a pass whose reported codes are all true (R58, R66). -/
theorem passVerdict_eq {c : CoreId} {id : Nat} {p : PassId} {u : UnitInst} {iss : Issue} {s : State} (h : (s.core c).findIssue id = some (u, iss)) (hp : iss.nextOf p.array = some p) :
    passVerdict c id p [] s =
      (let pl := s.arrPlan c iss.mode iss.rgp p.array
       let k := (s.core c).passRead pl.phys fun x => x.latched iss pl.g p
       if s.residueFails c iss p then
         let k := k.failedPass s.tick.count pl.phys ⟨false, false, true⟩
         if p.retry then discardIssue c u iss.undo pl.phys 0 (s.setCore c k)
         else s.setCore c (k.setIssue id (issueEnd (iss.failed p).fired (iss.failed p).times) (iss.failed p))
       else
         let k := if !((s.core c).checkDis && iss.mode != .reference) then k else (k.event evUnchecked).pend id stUnchecked
         s.setCore c (k.setIssue id (issueEnd iss.fired iss.times) { iss with todo := iss.todo.erase p })) := by
  have hreads (pl : ArrPlan) : colReads pl.info pl.fp4 pl.twin (activeRows iss p) [] = [] := rfl
  have herrs (i : Issue) (fp4 : Bool) : errTerms i fp4 p [] = [] := by
    unfold errTerms
    split <;> rfl
  unfold passVerdict
  dsimp only
  rw [h]
  dsimp only
  rw [if_neg (not_not.2 hp), hreads, passFail_true, herrs]
  cases hf : s.residueFails c iss p with
  | true =>
    rw [show (!((s.core c).checkDis && iss.mode != .reference) && (List.range 8).any fun h =>
      passResidue (s.arrPlan c iss.mode iss.rgp p.array).info (s.arrPlan c iss.mode iss.rgp p.array).fp4 (activeRows iss p) [] h % 31 != 0) = true from hf]
    rfl
  | false =>
    rw [show (!((s.core c).checkDis && iss.mode != .reference) && (List.range 8).any fun h =>
      passResidue (s.arrPlan c iss.mode iss.rgp p.array).info (s.arrPlan c iss.mode iss.rgp p.array).fp4 (activeRows iss p) [] h % 31 != 0) = false from hf]
    simp only [releasePass_nil, Bool.false_eq_true, if_false]
    unfold Core.passRead
    exact if_neg (show ¬ PassFail.any ⟨false, false, false⟩ = true by decide)

section
variable {c : CoreId} {id : Nat} {p : PassId} {u : UnitInst} {iss : Issue} {s : State}

/-- A pass is checked unless checking is off and its mode is not the reference mode (R59). -/
theorem checked_iff : (!((s.core c).checkDis && iss.mode != .reference)) = true ↔ (s.core c).checkDis = false ∨ iss.mode = .reference := by
  cases (s.core c).checkDis <;> simp

theorem State.residueFails_iff : s.residueFails c iss p = true ↔ ((s.core c).checkDis = false ∨ iss.mode = .reference) ∧
    ∃ h, h < 8 ∧ passResidue (s.arrPlan c iss.mode iss.rgp p.array).info (s.arrPlan c iss.mode iss.rgp p.array).fp4 (activeRows iss p) [] h % 31 ≠ 0 := by
  unfold State.residueFails
  dsimp only
  rw [Bool.and_eq_true, checked_iff]
  refine and_congr_right fun _ => ?_
  simp only [List.any_eq_true, List.mem_range, bne_iff_ne]

/-- A pass that passes releases its counts (R58). -/
theorem passVerdict_released (h : (s.core c).findIssue id = some (u, iss)) (hp : iss.nextOf p.array = some p) (hfs : (s.core c).fsCount < 2 ^ 31) (hf : s.residueFails c iss p = false) :
    let checked : Prop := (s.core c).checkDis = false ∨ iss.mode = .reference
    turnsCore (.passVerdict c id p []) c s fun k' =>
      { k' with inflight := (s.core c).inflight, arrays := (s.core c).arrays, eventStat := (s.core c).eventStat } = s.core c ∧
      (checked → k'.eventStat = (s.core c).eventStat) ∧ (¬ checked → k'.eventStat.getLsbD 7 = true) ∧
      ∃ u', k'.findIssue id = some (u', { iss with todo := iss.todo.erase p }) ∧ (checked → u'.flags = u.flags) ∧ (¬ checked → u'.flags.getLsbD 11 = true) := by
  intro checked
  have he := passVerdict_eq h hp
  rw [hf] at he
  refine ⟨_, congrArg Host.Outcome.next (he.trans (if_neg (by decide))), ?_⟩
  have hframe := Core.passRead_frame hfs (s.arrPlan c iss.mode iss.rgp p.array).phys fun x => x.latched iss (s.arrPlan c iss.mode iss.rgp p.array).g p
  generalize (s.core c).passRead (s.arrPlan c iss.mode iss.rgp p.array).phys (fun x => x.latched iss (s.arrPlan c iss.mode iss.rgp p.array).g p) = k at hframe
  have hevent : k.eventStat = (s.core c).eventStat := (congrArg Core.eventStat hframe :)
  have hfind : k.findIssue id = some (u, iss) := (Core.findIssue_congr (congrArg Core.inflight hframe :) id).trans h
  by_cases hc : checked
  · rw [if_pos (checked_iff.2 hc)]
    refine ⟨?_, fun _ => hevent, fun hn => absurd hc hn, _, Core.findIssue_setIssue hfind _ _, fun _ => rfl, fun hn => absurd hc hn⟩
    exact (congrArg (fun v : Core => { v with inflight := (s.core c).inflight, eventStat := (s.core c).eventStat }) hframe :)
  · rw [if_neg fun hn => hc (checked_iff.1 hn)]
    refine ⟨?_, fun hn => absurd hn hc, fun _ => ?_, _, Core.findIssue_setIssue (Core.findIssue_pend (k := k.event evUnchecked) hfind _) _ _, fun hn => absurd hn hc, fun _ => ?_⟩
    · exact (congrArg (fun v : Core => { v with inflight := (s.core c).inflight, eventStat := (s.core c).eventStat }) hframe :)
    · exact (getLsbD_setBit k.eventStat 7 7).trans (by simp)
    · exact (getLsbD_setBit u.flags 11 11).trans (by simp)

/-- A pass that fails its residue makes the passes of its ladder due (R58, R66, R132). -/
theorem passVerdict_failed (h : (s.core c).findIssue id = some (u, iss)) (hp : iss.nextOf p.array = some p) (hfs : (s.core c).fsCount < 2 ^ 31) (hf : s.residueFails c iss p = true) (hr : p.retry = false) :
    turnsCore (.passVerdict c id p []) c s fun k' =>
      k'.acc = (s.core c).acc ∧ k'.eventStat.getLsbD 0 = true ∧ k'.fails = (s.core c).fails ++ [(s.tick.count, (s.arrPlan c iss.mode iss.rgp p.array).phys)] ∧
      ∃ u', k'.findIssue id = some (u', iss.failed p) := by
  have he := passVerdict_eq h hp
  rw [hf] at he
  refine ⟨_, congrArg Host.Outcome.next ((he.trans (if_pos rfl)).trans (if_neg (by rw [hr]; decide))), ?_⟩
  have hframe := Core.passRead_frame hfs (s.arrPlan c iss.mode iss.rgp p.array).phys fun x => x.latched iss (s.arrPlan c iss.mode iss.rgp p.array).g p
  generalize (s.core c).passRead (s.arrPlan c iss.mode iss.rgp p.array).phys (fun x => x.latched iss (s.arrPlan c iss.mode iss.rgp p.array).g p) = k at hframe
  have hfind : k.findIssue id = some (u, iss) := (Core.findIssue_congr (congrArg Core.inflight hframe :) id).trans h
  have hfails : k.fails = (s.core c).fails := (congrArg Core.fails hframe :)
  refine ⟨(congrArg Core.acc hframe :), ?_, ?_, _, Core.findIssue_setIssue (k := k.failedPass s.tick.count (s.arrPlan c iss.mode iss.rgp p.array).phys ⟨false, false, true⟩) (Eq.trans (Core.findIssue_congr rfl id) hfind) _ _⟩
  · exact (getLsbD_setBit k.eventStat 0 0).trans (by simp)
  · exact congrArg (· ++ [(s.tick.count, (s.arrPlan c iss.mode iss.rgp p.array).phys)]) hfails

/-! ### The end of the ladder -/

/-- Entries put back. -/
theorem Core.accGet_putAccs (k : Core) (es : List (Nat × BitVec 256)) {e : Nat} {v : BitVec 256} (hu : ∀ w, (e, w) ∈ es → w = v) (h : (e, v) ∈ es ∨ k.accGet e = v) : (k.putAccs es).accGet e = v := by
  induction es generalizing k with
  | nil => exact h.resolve_left (List.not_mem_nil)
  | cons x es ih =>
    refine ih (k.accSet x.1 x.2) (fun w hw => hu w (List.mem_cons_of_mem _ hw)) ?_
    by_cases hx : x.1 = e
    · refine .inr ?_
      rw [hx]
      exact (k.accGet_accSet_same e x.2).trans (hu _ (by rw [← hx]; exact List.mem_cons_self))
    · rcases h with hmem | hold
      · refine .inl ((List.mem_cons.1 hmem).resolve_left fun heq => hx ?_)
        rw [← heq]
      · exact .inr ((k.accGet_accSet_other _ (Ne.symm hx)).trans hold)

theorem Core.queueHoliday_frame (k : Core) (p prio reason : Nat) : { k.queueHoliday p prio reason with holidays := k.holidays, holidayQueue := k.holidayQueue } = k := by
  unfold Core.queueHoliday
  split
  · rfl
  · split <;> rfl

/-- What an exhausted ladder leaves in its core (R68, R84, R85). -/
theorem Core.exhausted_spec (k : Core) (phys reason : Nat) (tick : W48) :
    (k.exhausted phys reason tick).eventStat.getLsbD 5 = true ∧ (k.exhausted phys reason tick).status.getLsbD 13 = true ∧ (k.exhausted phys reason tick).acc = k.acc ∧
    (k.exhausted phys reason tick).inflight = k.inflight := by
  unfold Core.exhausted
  dsimp only
  have hinfo (b : Bool) (w : W32) : ∃ fi, (if b then k else { k with faultInfo := w }) = { k with faultInfo := fi } := by
    cases b
    · exact ⟨w, rfl⟩
    · exact ⟨k.faultInfo, rfl⟩
  obtain ⟨fi, hfi⟩ := hinfo (k.eventStat.getLsbD evLadder) (BitVec.ofNat 32 (phys + reason * 2 ^ 13 + tick.toNat % 2 ^ 16 * 2 ^ 16))
  rw [hfi]
  generalize (fun x : ArrayInfo => if x.crit then { x with exhaust := x.exhaust ++ [tick] } else x) = f
  have hframe := (((({ k with faultInfo := fi } : Core).event evLadder).flag stArrayFault).modArr phys f).queueHoliday_frame phys 1 1
  generalize ((((({ k with faultInfo := fi } : Core).event evLadder).flag stArrayFault).modArr phys f).queueHoliday phys 1 1) = q at hframe
  have hev : q.eventStat = setBit k.eventStat 5 := (congrArg Core.eventStat hframe :)
  have hst : q.status = setBit k.status 13 := (congrArg Core.status hframe :)
  refine ⟨?_, ?_, (congrArg Core.acc hframe :), (congrArg Core.inflight hframe :)⟩
  · rw [hev, getLsbD_setBit]
    simp
  · rw [hst, getLsbD_setBit]
    simp

/-- What the halt response leaves in its core, and its notice (R238). -/
theorem haltCore_spec (c : CoreId) (code : Nat) (pc : W64) (s : State) :
    (∃ e0 e1 seen, (haltCore c code pc s).core c = { s.core c with exc0 := e0, exc1 := e1, excSeen := seen, run := false, halted := true }) ∧
    (⟨haltCause code, s.member, (dieOf c).val⟩ : Notice) ∈ (haltCore c code pc s).tick.notices := by
  refine ⟨?_, ?_⟩
  · have hcore : (haltCore c code pc s).core c = { ((s.core c).record code pc s.tick.count) with run := false, halted := true } := by
      rw [State.core_of_cores (haltCore_cores c code pc s), State.core_modCore_same]
    have hrec := (s.core c).record_keeps code pc s.tick.count
    rw [hcore]
    exact ⟨_, _, _, (congrArg (fun v : Core => { v with exc0 := ((s.core c).record code pc s.tick.count).exc0, exc1 := ((s.core c).record code pc s.tick.count).exc1, excSeen := ((s.core c).record code pc s.tick.count).excSeen, run := false, halted := true }) hrec :)⟩
  · rw [haltCore_tick]
    exact (mem_addNew _ _ _).2 (.inr rfl)

/-- A failed retry puts the entries of its issue back and halts the core (R68). -/
theorem discardIssue_spec (c : CoreId) (u : UnitInst) (undo : List (Nat × BitVec 256)) (phys reason : Nat) (s : State) :
    ((discardIssue c u undo phys reason s).core c).run = false ∧ ((discardIssue c u undo phys reason s).core c).halted = true ∧
    ((discardIssue c u undo phys reason s).core c).eventStat.getLsbD 5 = true ∧ ((discardIssue c u undo phys reason s).core c).status.getLsbD 13 = true ∧
    (∀ x ∈ ((discardIssue c u undo phys reason s).core c).inflight, x.id ≠ u.id) ∧
    (∀ e v, (e, v) ∈ undo → (∀ w, (e, w) ∈ undo → w = v) → ((discardIssue c u undo phys reason s).core c).accGet e = v) ∧
    (⟨3, s.member, (dieOf c).val⟩ : Notice) ∈ (discardIssue c u undo phys reason s).tick.notices := by
  unfold discardIssue
  dsimp only
  obtain ⟨hev, hst, hacc, -⟩ := ((s.core c).putAccs undo).exhausted_spec phys reason s.tick.count
  generalize hj : (fun k : Core => { (k.putAccs undo).exhausted phys reason s.tick.count with inflight := ((k.putAccs undo).exhausted phys reason s.tick.count).inflight.filter (·.id != u.id) }) = f
  have hcore : (s.modCore c f).core c = { ((s.core c).putAccs undo).exhausted phys reason s.tick.count with
      inflight := (((s.core c).putAccs undo).exhausted phys reason s.tick.count).inflight.filter (·.id != u.id) } := by
    rw [State.core_modCore_same, ← hj]
  obtain ⟨⟨e0, e1, seen, hhalt⟩, hnotice⟩ := haltCore_spec c xLadder u.pc (s.modCore c f)
  rw [hcore] at hhalt
  have hundo (e : Nat) (v : BitVec 256) (hmem : (e, v) ∈ undo) (hone : ∀ w, (e, w) ∈ undo → w = v) := (s.core c).accGet_putAccs undo hone (.inl hmem)
  generalize (((s.core c).putAccs undo).exhausted phys reason s.tick.count) = k at hev hst hacc hhalt
  rw [hhalt]
  refine ⟨rfl, rfl, hev, hst, fun x hx => ?_, fun e v hmem hone => ?_, hnotice⟩
  · simpa using (List.mem_filter.1 hx).2
  · exact (congrArg (fun a => smGet (fun _ => (0 : BitVec 256)) a e) hacc).trans (hundo e v hmem hone)

/-- A failed retry exhausts the ladder (R68). -/
theorem passVerdict_exhausted (h : (s.core c).findIssue id = some (u, iss)) (hp : iss.nextOf p.array = some p) (hf : s.residueFails c iss p = true) (hr : p.retry = true) :
    ∃ k, passVerdict c id p [] s = discardIssue c u iss.undo (s.arrPlan c iss.mode iss.rgp p.array).phys 0 (s.setCore c k) := by
  have he := passVerdict_eq h hp
  rw [hf] at he
  exact ⟨_, (he.trans (if_pos rfl)).trans (if_pos hr)⟩

/-! ### Re-read passes -/

/-- A re-read pass that begins (R66, R67, R86). -/
theorem rereadPass_spec (h : (s.core c).findIssue id = some (u, iss)) (hp : iss.nextDue = some p) :
    let more := passCycles p.g (settle (s.half c).band) (s.arrPlan c iss.mode iss.rgp p.array).twin (if p.retry then 4 else 0)
    ((rereadPass c id s).core c).rereadCnt = (s.core c).rereadCnt + 1 ∧ ((rereadPass c id s).core c).status = (s.core c).status ∧ ((rereadPass c id s).core c).acc = (s.core c).acc ∧
    ((rereadPass c id s).core c).store = (s.core c).store ∧
    (∃ u' iss', ((rereadPass c id s).core c).findIssue id = some (u', iss') ∧ iss'.due = iss.due.erase p ∧ iss'.todo = iss.todo ∧ u'.flags.getLsbD 12 = true ∧
      iss'.times = iss.times.map fun x => if x.1 = p.array then (x.1, x.2 + more) else x) ∧
    ∀ d, d ≠ c → (rereadPass c id s).core d = s.core d := by
  intro more
  unfold rereadPass
  dsimp only
  rw [h]
  dsimp only
  rw [hp]
  dsimp only
  have hspend : (s.spend c (s.passEnergy p.g (s.arrPlan c iss.mode iss.rgp p.array).twin)).cores = s.cores := rfl
  generalize s.spend c (s.passEnergy p.g (s.arrPlan c iss.mode iss.rgp p.array).twin) = s1 at hspend
  have hfind := Core.findIssue_setIssue (k := { ((s.core c).pend id stReread) with rereadCnt := (s.core c).rereadCnt + 1 }) (Core.findIssue_pend h stReread)
    (issueEnd iss.fired (iss.times.map fun x => if x.1 = p.array then (x.1, x.2 + more) else x))
    { iss with due := iss.due.erase p, times := iss.times.map fun x => if x.1 = p.array then (x.1, x.2 + more) else x }
  refine ⟨?_, ?_, ?_, ?_, ⟨_, _, (congrArg (fun k : Core => k.findIssue id) (State.core_setCore_same ..)).trans hfind, rfl, rfl, ?_, rfl⟩, fun d hd => ?_⟩
  · rw [State.core_setCore_same]
    rfl
  · rw [State.core_setCore_same]
    rfl
  · rw [State.core_setCore_same]
    rfl
  · rw [State.core_setCore_same]
    rfl
  · exact (getLsbD_setBit u.flags 12 12).trans (by simp)
  · rw [State.core_setCore_other _ _ _ _ hd]
    exact State.core_of_cores hspend d

end

theorem ladder_eq (p : PassId) : ladder p = if 16 < p.g then [⟨p.array, p.plane, p.lo, p.g / 2, false⟩, ⟨p.array, p.plane, p.lo + p.g / 2, p.g / 2, false⟩]
    else [⟨p.array, p.plane, p.lo, 16, true⟩] := by
  unfold ladder
  by_cases h : p.g ≤ 16
  · rw [if_pos h, if_neg (Nat.not_lt.2 h)]
  · rw [if_neg h, if_pos (Nat.lt_of_not_le h)]

/-- Settles O16. -/
theorem passVerdicts : Obligations.PassVerdicts := by
  unfold Obligations.PassVerdicts
  refine ⟨?_, ?_⟩
  · intro c id p u iss s k pl residue checked hfind hnext hfs
    refine ⟨fun hgood => ?_, fun hck hbad hr _ => ?_, fun hck hbad hr => ?_⟩
    · refine passVerdict_released hfind hnext hfs (Bool.eq_false_iff.2 fun hf => ?_)
      obtain ⟨hck, h, h8, hres⟩ := State.residueFails_iff.1 hf
      exact hres (hgood hck h h8)
    · obtain ⟨k', he, hacc, hev, hfails, u', hiss⟩ := passVerdict_failed hfind hnext hfs (State.residueFails_iff.2 ⟨hck, hbad⟩) hr
      exact ⟨k', he, hacc, hev, hfails, u', iss.failed p, ladder p, hiss, rfl, Issue.mem_failed_todo hnext, ladder_eq p⟩
    · obtain ⟨k', he⟩ := passVerdict_exhausted hfind hnext (State.residueFails_iff.2 ⟨hck, hbad⟩) hr
      exact ⟨_, congrArg Host.Outcome.next he, discardIssue_spec ..⟩
  · intro c id p u iss s k pl more hfind hdue
    exact ⟨_, rfl, rereadPass_spec hfind hdue⟩

end Sys2Proof.Machine
end

section
/-! The array product: an issue that runs adds its terms to the accumulators of its columns (R28, R105, R108, R109, R116, R156, R254). -/
namespace Sys2Proof.Machine

/-! ### Entries of an issue -/

theorem Core.accGet_putAccs_other (k : Core) (es : List (Nat × BitVec 256)) {e : Nat} (h : ∀ x ∈ es, x.1 ≠ e) : (k.putAccs es).accGet e = k.accGet e := by
  induction es generalizing k with
  | nil => rfl
  | cons x es ih =>
    exact (ih (k.accSet x.1 x.2) fun y hy => h y (List.mem_cons_of_mem _ hy)).trans (k.accGet_accSet_other _ (h x List.mem_cons_self).symm)

theorem zip_range_map {α : Type} (m : Nat) (f : Nat → α) : ((List.range m).map f).zip (List.range ((List.range m).map f).length) = (List.range m).map fun i => (f i, i) := by
  rw [List.length_map, List.length_range, List.zip_eq_zipWith, List.zipWith_map_left, List.zipWith_self]

section
variable (tl : Tile) (aw : ActW) (x : Int) (acts : List Int) (scales : List Nat) (outs : List (Nat × Nat)) (arrs : List ArrPlan)

/-- The accumulator of column `i` of the tile after an issue, from its value `v` at the start (R105, R108, R109, R116). -/
def Core.columnAcc (k : Core) (i : Nat) (v : BitVec 256) : Acc :=
  let a1 := addTerms ((accOf v).anchor (x + k.wtop (tl.array 0 (i / 256)) (i % 256))) (columnTerms tl aw acts scales outs [] (columnArrays tl arrs (i / 256)) (i % 256))
  { a1 with rows := a1.rows + tl.kspan * tl.rows }

theorem issueEntries_range (k : Core) (e : Nat → Nat) (v : Nat → BitVec 256) (m : Nat) :
    issueEntries k tl aw x acts scales outs [] arrs ((List.range m).map fun i => (e i, v i)) = (List.range m).map fun i => (e i, k.columnAcc tl aw x acts scales outs arrs i (v i)) := by
  unfold issueEntries
  rw [zip_range_map, List.map_map]
  rfl

end

/-- The entries of columns written: each holds its column's value, every other entry stays. -/
theorem Core.putAccs_range (k : Core) (e : Nat → Nat) (v : Nat → BitVec 256) {m : Nat} (hinj : ∀ i j, i < m → j < m → e i = e j → i = j) :
    (∀ i, i < m → (k.putAccs ((List.range m).map fun i => (e i, v i))).accGet (e i) = v i) ∧
    ∀ a, (∀ i, i < m → e i ≠ a) → (k.putAccs ((List.range m).map fun i => (e i, v i))).accGet a = k.accGet a := by
  refine ⟨fun i hi => ?_, fun a ha => ?_⟩
  · refine Core.accGet_putAccs k _ (fun w hw => ?_) (.inl (List.mem_map.2 ⟨i, List.mem_range.2 hi, rfl⟩))
    obtain ⟨j, hj, heq⟩ := List.mem_map.1 hw
    obtain ⟨he, rfl⟩ := Prod.mk.inj heq
    rw [hinj j i (List.mem_range.1 hj) hi he]
  · refine Core.accGet_putAccs_other k _ fun x hx => ?_
    obtain ⟨i, hi, rfl⟩ := List.mem_map.1 hx
    exact ha i (List.mem_range.1 hi)

/-! ### What an issue that runs leaves in its core -/

theorem Core.flag_any (k : Core) (i : Nat) : { k.flag i with status := k.status, numStat := k.numStat, eventStat := k.eventStat } = k ∧ (k.flag i).status = setBit k.status i := by
  unfold Core.flag
  dsimp only
  split
  · exact ⟨rfl, rfl⟩
  · split
    · exact ⟨rfl, rfl⟩
    · split <;> exact ⟨rfl, rfl⟩

theorem Core.flagIf_any (k : Core) (b : Bool) (i : Nat) : { k.flagIf b i with status := k.status, numStat := k.numStat, eventStat := k.eventStat } = k ∧
    (k.flagIf b i).status = if b then setBit k.status i else k.status := by
  cases b
  · exact ⟨rfl, rfl⟩
  · exact k.flag_any i

/-- The core that an issue leaves, before its unit takes it (R53, R105 to R109, R214). -/
def Core.issued (k : Core) (demoted unf ovf nan split : Bool) (arrs : List ArrPlan) (f : ArrPlan → ArrayInfo → ArrayInfo) (es : List (Nat × BitVec 256)) : Core :=
  let k := k.flagIf demoted stDemoted
  let k := k.flagIf unf stWindowUnf
  let k := k.flagIf ovf stWindowOvf
  let k := k.flagIf nan stScaleNan
  let k := k.flagIf split stScaleSplit
  let k := arrs.foldl (fun k p => k.modArr p.phys (f p)) k
  k.putAccs es

theorem Core.foldl_modArr_frame (arrs : List ArrPlan) (f : ArrPlan → ArrayInfo → ArrayInfo) (k : Core) : { arrs.foldl (fun (k : Core) p => k.modArr p.phys (f p)) k with arrays := k.arrays } = k :=
  foldl_keeps (f := fun (k : Core) (p : ArrPlan) => k.modArr p.phys (f p)) (fun u => { u with arrays := k.arrays }) (fun _ _ => rfl) arrs k

theorem Core.issued_spec (k : Core) (demoted unf ovf nan split : Bool) (arrs : List ArrPlan) (f : ArrPlan → ArrayInfo → ArrayInfo) (e : Nat → Nat) (v : Nat → BitVec 256) {m : Nat}
    (hinj : ∀ i j, i < m → j < m → e i = e j → i = j) :
    let k' := k.issued demoted unf ovf nan split arrs f ((List.range m).map fun i => (e i, v i))
    { k' with acc := k.acc, badAcc := k.badAcc, status := k.status, numStat := k.numStat, eventStat := k.eventStat, arrays := k.arrays } = k ∧
    (∀ i, i < m → k'.accGet (e i) = v i) ∧ (∀ a, (∀ i, i < m → e i ≠ a) → k'.accGet a = k.accGet a) ∧
    k'.status.getLsbD 10 = (k.status.getLsbD 10 || demoted) := by
  unfold Core.issued
  dsimp only
  obtain ⟨h1, s1⟩ := k.flagIf_any demoted stDemoted
  generalize k.flagIf demoted stDemoted = k1 at h1 s1
  obtain ⟨h2, s2⟩ := k1.flagIf_any unf stWindowUnf
  generalize k1.flagIf unf stWindowUnf = k2 at h2 s2
  obtain ⟨h3, s3⟩ := k2.flagIf_any ovf stWindowOvf
  generalize k2.flagIf ovf stWindowOvf = k3 at h3 s3
  obtain ⟨h4, s4⟩ := k3.flagIf_any nan stScaleNan
  generalize k3.flagIf nan stScaleNan = k4 at h4 s4
  obtain ⟨h5, s5⟩ := k4.flagIf_any split stScaleSplit
  generalize k4.flagIf split stScaleSplit = k5 at h5 s5
  have h6 := Core.foldl_modArr_frame arrs f k5
  generalize arrs.foldl (fun (k : Core) p => k.modArr p.phys (f p)) k5 = k6 at h6
  have h7 := Core.putAccs_frame ((List.range m).map fun i => (e i, v i)) k6
  obtain ⟨hin, hout⟩ := k6.putAccs_range e v hinj
  generalize k6.putAccs ((List.range m).map fun i => (e i, v i)) = k7 at h7 hin hout
  have hframe : { k6 with status := k.status, numStat := k.numStat, eventStat := k.eventStat, arrays := k.arrays } = k := by
    let g : Core → Core := fun u => { u with status := k.status, numStat := k.numStat, eventStat := k.eventStat, arrays := k.arrays }
    exact calc g k6 = g k5 := (congrArg g h6 :)
      _ = g k4 := (congrArg g h5 :)
      _ = g k3 := (congrArg g h4 :)
      _ = g k2 := (congrArg g h3 :)
      _ = g k1 := (congrArg g h2 :)
      _ = g k := (congrArg g h1 :)
  have hacc : k6.acc = k.acc := (congrArg Core.acc hframe :)
  have hst : k7.status = k5.status := (congrArg Core.status h7 :).trans (congrArg Core.status h6 :)
  refine ⟨?_, hin, fun a ha => (hout a ha).trans (congrArg (fun m => smGet (fun _ => (0 : BitVec 256)) m a) hacc), ?_⟩
  · exact (congrArg (fun u : Core => { u with acc := k.acc, badAcc := k.badAcc, status := k.status, numStat := k.numStat, eventStat := k.eventStat, arrays := k.arrays }) h7 :).trans
      (congrArg (fun u : Core => { u with acc := k.acc, badAcc := k.badAcc }) hframe :)
  · have hkeep (b : Bool) (w : W32) {i : Nat} (hi : i ≠ 10) : (if b then setBit w i else w).getLsbD 10 = w.getLsbD 10 := by
      cases b
      · rfl
      · rw [if_pos rfl, getLsbD_setBit]
        simp [hi.symm]
    rw [hst, s5, hkeep _ _ (by decide), s4, hkeep _ _ (by decide), s3, hkeep _ _ (by decide), s2, hkeep _ _ (by decide), s1]
    cases demoted
    · simp
    · rw [if_pos rfl, getLsbD_setBit]
      simp [stDemoted]

/-- The elements that an issue drives (R94). -/
def State.issueActs (s : State) (c : CoreId) (o : MvmOp) (u : IssueSetup) : List Int :=
  (u.recd.codes.zip (List.range u.recd.codes.length)).map fun p => if p.2 ∈ s.maskedElems c o.tile u.outs then 0 else mxInt o.aw p.1

/-- The value of a column's entry after an issue. -/
def State.issueValue (s : State) (c : CoreId) (o : MvmOp) (u : IssueSetup) (i : Nat) (v : BitVec 256) : BitVec 256 :=
  ((s.core c).columnAcc o.tile o.aw ((s.core c).sreg o.sx).toInt (s.issueActs c o u) u.recd.scales u.outs u.arrs i v).bits

theorem State.laggards_cores (s : State) (c : CoreId) (lag : List ArrPlan) : (s.laggards c lag).cores = s.cores := by
  unfold State.laggards
  split <;> rfl

/-- The core whose array unit takes an issue that left `q`. -/
def Core.taken (k q : Core) (done : Nat) (rd wr : List Extent) (arrs : List Nat) (iss : Issue) : Core :=
  Core.dispatch { q with status := k.status, numStat := k.numStat } .array (some done) rd wr none none arrs (some iss) q.status

theorem runIssue_eq {c : CoreId} {o : MvmOp} {faults : List ReadFault} {t : Nat} {u : IssueSetup} {s : State} {e : Nat → Nat} {v : Nat → BitVec 256}
    (hu : u.undo = (List.range (256 * o.tile.nspan)).map fun i => (e i, v i)) :
    ∃ (s' : State) (unf ovf nan split : Bool) (f : ArrPlan → ArrayInfo → ArrayInfo) (done : Nat) (rd wr : List Extent) (arrs : List Nat) (iss : Issue),
      runIssue c o faults t u s = .go (s'.setCore c ((s.core c).taken (Core.issued { s.core c with status := 0 } (u.arrs.any fun p => decide (p.rank < modeRank o.mode)) unf ovf nan split u.arrs f
        ((List.range (256 * o.tile.nspan)).map fun i => (e i, s.issueValue c o u i (v i)))) done rd wr arrs iss)) 1 none ∧ s'.cores = s.cores ∧
      iss.todo = iss.plan ∧ iss.due = [] ∧ iss.undo = u.undo := by
  unfold runIssue
  dsimp only
  rw [hu, issueEntries_range, List.map_map, Core.collect_eq]
  refine ⟨_, _, _, _, _, fun p x => { x with latchCur := (groupsOf o.tile p.g).head?.map (·, p.g), latchNext := none }, _, _, _, _, _, rfl, ?_, ?_, ?_, ?_⟩
  · exact State.laggards_cores ..
  · rfl
  · rfl
  · rfl

/-- An issue that runs (R54, R103 to R109, R254). -/
theorem runIssue_spec {c : CoreId} {o : MvmOp} {faults : List ReadFault} {t : Nat} {u : IssueSetup} {s : State} {e : Nat → Nat} {v : Nat → BitVec 256}
    (hu : u.undo = (List.range (256 * o.tile.nspan)).map fun i => (e i, v i)) (hinj : ∀ i j, i < 256 * o.tile.nspan → j < 256 * o.tile.nspan → e i = e j → i = j) :
    ∃ (s' : State) (k' : Core), runIssue c o faults t u s = .go (s'.setCore c k') 1 none ∧ s'.cores = s.cores ∧
      { k' with acc := (s.core c).acc, badAcc := (s.core c).badAcc, eventStat := (s.core c).eventStat, arrays := (s.core c).arrays, inflight := (s.core c).inflight, nextId := (s.core c).nextId } = s.core c ∧
      (∀ i, i < 256 * o.tile.nspan → k'.accGet (e i) = s.issueValue c o u i (v i)) ∧ (∀ a, (∀ i, i < 256 * o.tile.nspan → e i ≠ a) → k'.accGet a = (s.core c).accGet a) ∧
      ∃ w iss, k'.inflight = (s.core c).inflight ++ [w] ∧ w.unit = .array ∧ w.issue = some iss ∧ iss.todo = iss.plan ∧ iss.due = [] ∧
        w.flags.getLsbD 10 = (u.arrs.any fun p => decide (p.rank < modeRank o.mode)) ∧ iss.undo = u.undo := by
  obtain ⟨s', unf, ovf, nan, split, f, done, rd, wr, arrs, iss, hrun, hcores, htodo, hdue, hundo⟩ := runIssue_eq (faults := faults) (t := t) (s := s) hu
  refine ⟨s', _, hrun, hcores, ?_⟩
  obtain ⟨hframe, hin, hout, hbit⟩ := Core.issued_spec { s.core c with status := 0 } (u.arrs.any fun p => decide (p.rank < modeRank o.mode)) unf ovf nan split u.arrs f e (fun i => s.issueValue c o u i (v i)) hinj
  generalize Core.issued { s.core c with status := 0 } (u.arrs.any fun p => decide (p.rank < modeRank o.mode)) unf ovf nan split u.arrs f
    ((List.range (256 * o.tile.nspan)).map fun i => (e i, s.issueValue c o u i (v i))) = q at hframe hin hout hbit
  have hq : q.inflight = (s.core c).inflight := (congrArg Core.inflight hframe :)
  refine ⟨?_, hin, hout, _, iss, congrArg (· ++ [_]) hq, rfl, rfl, htodo, hdue, ?_, hundo⟩
  · exact (congrArg (fun w : Core => { w with status := (s.core c).status, inflight := (s.core c).inflight, nextId := (s.core c).nextId }) hframe :)
  · rw [hbit]
    simp

/-! ### An issue that starts -/

/-- The core as an issue starts: its entries cleared if so asked, failed reads recorded (R53, R84, R254). -/
def Core.starting (k : Core) (undo : List (Nat × BitVec 256)) (scale row : Bool) : Core :=
  let k := k.putAccs undo
  let k := if scale then k.event evScaleParity else k
  if row then k.event evRowread else k

theorem Core.eventIf_eq (k : Core) (b : Bool) (i : Nat) : (if b then k.event i else k) = { k with eventStat := if b then setBit k.eventStat i else k.eventStat } := by
  cases b <;> rfl

theorem Core.starting_eq (k : Core) (undo : List (Nat × BitVec 256)) (scale row : Bool) : ∃ B E, k.starting undo scale row = { k with acc := (k.putAccs undo).acc, badAcc := B, eventStat := E } := by
  unfold Core.starting
  dsimp only
  have h := Core.putAccs_frame undo k
  generalize k.putAccs undo = q at h
  rw [Core.eventIf_eq q, Core.eventIf_eq]
  exact ⟨q.badAcc, _, (congrArg (fun u : Core => { u with acc := q.acc, badAcc := q.badAcc, eventStat := if row then setBit (if scale then setBit q.eventStat evScaleParity else q.eventStat) evRowread else if scale then setBit q.eventStat evScaleParity else q.eventStat }) h :)⟩

theorem State.issueValue_congr {s s1 : State} {c : CoreId} {A : SMap (BitVec 256)} {B : List Nat} {E : W32} (ha : s1.alm = s.alm) (h : s1.core c = { s.core c with acc := A, badAcc := B, eventStat := E })
    (o : MvmOp) (u : IssueSetup) (i : Nat) (v : BitVec 256) : s1.issueValue c o u i v = s.issueValue c o u i v := by
  unfold State.issueValue State.issueActs State.maskedElems State.staticOf State.coreEnt
  rw [h, ha]
  rfl

/-- What the core of an issue holds once its unit has taken it: the columns' entries at `e` hold `r`, and its issue has entries `undo` to put back. -/
def Core.produced (k k' : Core) (m : Nat) (e : Nat → Nat) (r : Nat → BitVec 256) (demoted : Bool) (undo : List (Nat × BitVec 256)) : Prop :=
  { k' with acc := k.acc, badAcc := k.badAcc, eventStat := k.eventStat, arrays := k.arrays, inflight := k.inflight, nextId := k.nextId } = k ∧
  (∀ i, i < m → k'.accGet (e i) = r i) ∧ (∀ a, (∀ i, i < m → e i ≠ a) → k'.accGet a = k.accGet a) ∧
  ∃ w iss, k'.inflight = k.inflight ++ [w] ∧ w.unit = .array ∧ w.issue = some iss ∧ iss.todo = iss.plan ∧ iss.due = [] ∧ w.flags.getLsbD 10 = demoted ∧ iss.undo = undo

/-- An issue that runs once its entries are cleared and its failed reads recorded. -/
theorem runIssue_started {c : CoreId} {o : MvmOp} {faults : List ReadFault} {t : Nat} {u : IssueSetup} {s s1 : State} {e : Nat → Nat} {v : Nat → BitVec 256} {A : SMap (BitVec 256)} {B : List Nat} {E : W32}
    (hu : u.undo = (List.range (256 * o.tile.nspan)).map fun i => (e i, v i)) (hinj : ∀ i j, i < 256 * o.tile.nspan → j < 256 * o.tile.nspan → e i = e j → i = j)
    (ha : s1.alm = s.alm) (hs1 : s1.core c = { s.core c with acc := A, badAcc := B, eventStat := E })
    (hA : ∀ a, (∀ i, i < 256 * o.tile.nspan → e i ≠ a) → smGet (fun _ => (0 : BitVec 256)) A a = (s.core c).accGet a) :
    ∃ (s' : State) (k' : Core), runIssue c o faults t u s1 = .go (s'.setCore c k') 1 none ∧ s'.cores = s1.cores ∧
      (s.core c).produced k' (256 * o.tile.nspan) e (fun i => s.issueValue c o u i (v i)) (u.arrs.any fun p => decide (p.rank < modeRank o.mode)) u.undo := by
  obtain ⟨s', k', hrun, hcores, hframe, hin, hout, w, iss, hw, hiss⟩ := runIssue_spec (faults := faults) (t := t) (s := s1) hu hinj
  refine ⟨s', k', hrun, hcores, ?_, fun i hi => (hin i hi).trans (State.issueValue_congr ha hs1 o u i (v i)), fun a hx => (hout a hx).trans ?_, w, iss, ?_, hiss⟩
  · rw [hs1] at hframe
    exact (congrArg (fun u : Core => { u with acc := (s.core c).acc, badAcc := (s.core c).badAcc, eventStat := (s.core c).eventStat }) hframe :)
  · rw [hs1]
    exact hA a hx
  · rw [hw, hs1]

/-- Failed reads of the arrays of an issue (R53, R84). -/
def readFailed (arrs : List ArrPlan) (fails : ArrPlan → Nat) : Bool := arrs.any fun p => decide (1 ≤ fails p)

/-- An issue that passes the row limit and the gate, and whose rows can be read, runs (R53, R117, R172, R254). -/
theorem issueMvm_runs {c : CoreId} {o : MvmOp} {faults : List ReadFault} {t : Nat} {s : State} (h : MvmGood c o s) (hgate : s.gateRefuses c o t (issueSetup c o s) = false)
    (hfails : ∀ p ∈ (issueSetup c o s).arrs, scaleFails o.tile faults (issueSetup c o s).outs p ≠ 2 ∧ rowFails o.tile faults (issueSetup c o s).outs p ≠ 2) :
    issueMvm c o faults t s = runIssue c o faults t (issueSetup c o s) (s.modCore c fun k => k.starting (issueSetup c o s).undo
      (readFailed (issueSetup c o s).arrs (scaleFails o.tile faults (issueSetup c o s).outs)) (readFailed (issueSetup c o s).arrs (rowFails o.tile faults (issueSetup c o s).outs))) := by
  unfold issueMvm
  dsimp only
  have hrows := h.rowsFit
  generalize issueSetup c o s = u at hrows hgate hfails ⊢
  have hscale : u.arrs.find? (fun p => scaleFails o.tile faults u.outs p == 2) = none := List.find?_eq_none.2 fun p hp => by simpa using (hfails p hp).1
  have hrow : u.arrs.find? (fun p => rowFails o.tile faults u.outs p == 2) = none := List.find?_eq_none.2 fun p hp => by simpa using (hfails p hp).2
  rw [if_neg (by rw [hrows]; decide), if_neg (by rw [hgate]; decide), hscale, hrow]
  rfl

/-- An `mvm` that may start is in flight, its columns' entries written (R254). -/
theorem issueMvm_produces {c : CoreId} {o : MvmOp} {faults : List ReadFault} {t : Nat} {s : State} (h : MvmGood c o s) (hgate : s.gateRefuses c o t (issueSetup c o s) = false)
    (hfails : ∀ p ∈ (issueSetup c o s).arrs, scaleFails o.tile faults (issueSetup c o s).outs p ≠ 2 ∧ rowFails o.tile faults (issueSetup c o s).outs p ≠ 2)
    {e : Nat → Nat} {v : Nat → BitVec 256} (hu : (issueSetup c o s).undo = (List.range (256 * o.tile.nspan)).map fun i => (e i, v i))
    (hinj : ∀ i j, i < 256 * o.tile.nspan → j < 256 * o.tile.nspan → e i = e j → i = j) :
    ∃ (s' : State) (k' : Core), issueMvm c o faults t s = .go (s'.setCore c k') 1 none ∧ (∀ d, d ≠ c → s'.core d = s.core d) ∧
      (s.core c).produced k' (256 * o.tile.nspan) e (fun i => s.issueValue c o (issueSetup c o s) i (v i)) ((issueSetup c o s).arrs.any fun p => decide (p.rank < modeRank o.mode)) (issueSetup c o s).undo := by
  rw [issueMvm_runs h hgate hfails]
  clear h hgate hfails
  generalize issueSetup c o s = u at hu ⊢
  generalize readFailed u.arrs (scaleFails o.tile faults u.outs) = scale
  generalize readFailed u.arrs (rowFails o.tile faults u.outs) = row
  obtain ⟨B, E, hstart⟩ := (s.core c).starting_eq u.undo scale row
  obtain ⟨s', k', hrun, hcores, hdone⟩ := runIssue_started (faults := faults) (t := t) (s := s) (s1 := s.modCore c fun k => k.starting u.undo scale row) hu hinj rfl
    ((s.core_modCore_same c _).trans hstart) (by rw [hu]; exact ((s.core c).putAccs_range e v hinj).2)
  exact ⟨s', k', hrun, fun d hd => (State.core_of_cores hcores d).trans (State.core_modCore_other _ _ _ _ hd), hdone⟩

/-- Settles O15. -/
theorem arrayProduct : Obligations.ArrayProduct := by
  unfold Obligations.ArrayProduct
  intro c g o faults s k n da dx tl rec0 outs arrs start masked acts x column hr hacc hact h1 hf hcols helems hlo hhi hfree harr hbanks hrows hend hceil hfails
  have hgood : MvmGood c o s := ⟨hacc, hact, h1, hf, hcols, helems, hlo, hhi, hfree, harr, hbanks, hrows⟩
  have hgate : s.gateRefuses c o (s.fireAt c (.mvm c g o faults) g) (issueSetup c o s) = false := by
    unfold State.gateRefuses State.ceilingOn
    rw [hceil, Bool.or_false]
    exact decide_eq_false (Nat.not_lt.2 hend)
  have hent := entryRows_of hacc (fun f h => by rw [List.mem_singleton.1 h]; decide)
  have h9 : da.fmt = 9 := List.mem_singleton.1 (Core.checkDesc_none hacc).1
  obtain ⟨s', k', hrun, hother, hframe, hin, hout, w, iss, hw, hunit, hiss, htodo, hdue, hflag, hundo⟩ := issueMvm_produces hgood hgate hfails (e := fun i => entryIndex da.shape i) (v := start) rfl
    fun i j hi hj => hent.entryIndex_inj h9 ((Nat.lt_of_lt_of_le hi hcols).trans_eq (Nat.mul_comm ..)) ((Nat.lt_of_lt_of_le hj hcols).trans_eq (Nat.mul_comm ..))
  have he := mvm_issues (faults := faults) hr hgood
  rw [hrun] at he
  dsimp only at he
  rw [State.modCore_setCore] at he
  generalize s.fireAt c (.mvm c g o faults) g + 1 = cyc at he
  clear hgood hgate hfails hend hceil hr
  refine ⟨_, he, ?_⟩
  have hcore : (s'.setCore c (k'.advance ((none : Option W64).getD ((s.core c).pc + 8)) cyc)).core c = k'.advance (k.pc + 8) cyc := State.core_setCore_same ..
  have hothers (d : CoreId) (hd : d ≠ c) : (s'.setCore c (k'.advance ((none : Option W64).getD ((s.core c).pc + 8)) cyc)).core d = s.core d := (State.core_setCore_other _ _ _ _ hd).trans (hother d hd)
  generalize s'.setCore c (k'.advance ((none : Option W64).getD ((s.core c).pc + 8)) cyc) = t at hcore hothers
  rw [hcore]
  refine ⟨hin, hout, ⟨w, iss, hw, hunit, hiss, htodo, hdue, ?_, hundo⟩, rfl, (congrArg Core.store hframe :), (congrArg Core.sregs hframe :), (congrArg Core.tregs hframe :), (congrArg Core.preds hframe :),
    (congrArg Core.status hframe :), hothers⟩
  rw [hflag, List.any_eq_true]
  simp only [decide_eq_true_eq]
  rfl

end Sys2Proof.Machine
end

section
/-! Hops of flits and their deliveries (R19, R221, R265, R268, R276, R278, R281, R284, R298 to R300, R413, R416). -/
namespace Sys2Proof.Machine

/-! ### Grants -/

/-- A grant changes its port's arbitration and uses a slot (R284). -/
theorem State.granted_frame {s t : State} {f : Flit} {p : Nat} (h : s.granted f p = some t) : ∃ arb, { t with fab := { t.fab with arb := arb }, free := s.free } = s := by
  unfold State.granted at h
  dsimp only at h
  split at h
  case h_1 w a _ =>
    obtain ⟨arb, ht⟩ : ∃ arb, some { s with free := s.free + 1, fab := { s.fab with arb := arb } } = some t := by
      cases w with
      | none => exact ⟨_, (Option.ite_none_right_eq_some.1 h).2⟩
      | some c => exact ⟨_, (Option.ite_none_right_eq_some.1 h).2⟩
    rw [← Option.some.inj ht]
    exact ⟨s.fab.arb, rfl⟩
  case h_2 => exact absurd h (by simp)

/-- What a grant leaves for the hop. -/
theorem State.granted_keeps {s t : State} {f : Flit} {p : Nat} (h : s.granted f p = some t) :
    t.flits = s.flits ∧ t.cores = s.cores ∧ t.member = s.member ∧ t.fab.frames = s.fab.frames ∧ { t with fab := s.fab, free := s.free } = s := by
  obtain ⟨arb, h⟩ := State.granted_frame h
  exact ⟨(congrArg State.flits h :), (congrArg State.cores h :), (congrArg State.member h :), (congrArg (fun s : State => s.fab.frames) h :), (congrArg (fun u : State => { u with fab := s.fab }) h :)⟩

/-! ### Words received -/

/-- A flit that a hop's words bring, by what the checks of the receiving die `dst` find: `t` is the state with the flit on its way, `u` the one with it dropped, `g` the flit where it comes to
(R299, R300). -/
def received (x : Ecc → Out) (member : Nat) (cores : SMap Core) (t u : State) (g : Flit) (dst : DieId) : Prop :=
  x .clean = .next (t.moveFlit g) ∧
  (∀ n, x (.corrected n) = .next ((t.modDie dst fun y => { y with eccCorr := min 0x7FFF_FFFF (y.eccCorr + n) }).moveFlit g)) ∧
  x .badOnce = .next ((t.modDie dst fun y => { y with eccRetry := min 0x7FFF_FFFF (y.eccRetry + 1) }).moveFlit g) ∧
  (∃ v, x .badTwice = .next v ∧ v.flits = u.flits ∧ (⟨5, member, dst.val⟩ : Notice) ∈ v.tick.notices ∧ (v.die dst).redEvt.getLsbD 7 = true ∧ v.cores = cores)

theorem received_of {x : Ecc → Out} {s t : State} {f g : Flit} {dst : DieId} (hm : t.member = s.member) (hc : t.cores = s.cores)
    (h : ∀ e, x e = .next (receiveWords t dst e f.id fun s => s.moveFlit g)) : received x s.member s.cores t (t.dropFlit f.id) g dst := by
  refine ⟨h .clean, fun n => h (.corrected n), h .badOnce, _, h .badTwice, rfl, ?_, ?_, hc⟩
  · rw [← hm]
    exact (mem_addNew _ _ _).2 (.inr rfl)
  · have hdie := State.die_modDie_same (t.dropFlit f.id) dst fun d => d.retried.red 7
    exact (congrArg (fun d : Die => d.redEvt.getLsbD 7) hdie).trans ((getLsbD_setBit _ _ _).trans (by simp))

/-! ### Hops -/

section
variable {f : Flit} {s : State}

/-- A flit on its way, where its router's network half can be used. -/
structure OnItsWay (f : Flit) (s : State) : Prop where
  there : s.flits.find? (fun g => g.id == f.id) = some f
  moves : s.tick.phase = .work ∨ s.tick.phase = .drain ∨ f.via.isSome = true
  still : f.arrived = false
  net : s.netOn f.die.val f.router = true

theorem OnItsWay.goes (h : OnItsWay f s) : ((!s.running && f.via.isNone) || f.arrived || !s.netOn f.die.val f.router) = false := by
  have hrun : (!s.running && f.via.isNone) = false := by
    rcases h.moves with hp | hp | hv
    · rw [State.running_of (.inl hp)]
      rfl
    · rw [State.running_of (.inr hp)]
      rfl
    · rw [Option.isNone_eq_false_iff.2 hv, Bool.and_false]
  rw [hrun, h.still, h.net]
  rfl

/-- FLIT_HOP_RECEIVE for a flit in the seam's crossing buffer (R19). -/
theorem OnItsWay.seam (h : OnItsWay f s) (hs : f.seam = true) (e : Ecc) : exec (.flitHopReceive f.id e) s =
    .next (if (s.seamBuffer f.die f.router).head?.map Flit.id = some f.id then receiveWords s f.die e f.id fun s => s.moveFlit { f with seam := false } else s) := by
  have he : exec (.flitHopReceive f.id e) s = execFlitHopReceive f.id e s := rfl
  unfold execFlitHopReceive at he
  rw [h.there] at he
  dsimp only at he
  rw [if_neg (by rw [h.goes]; decide), if_pos hs] at he
  rw [he]
  split <;> rfl

/-- FLIT_HOP_RECEIVE by the kind of hop (R278, R413). -/
theorem OnItsWay.hops (h : OnItsWay f s) (hs : f.seam = false) (e : Ecc) : exec (.flitHopReceive f.id e) s = (match s.hop f with
    | .here => .next (if s.firstOf f then s.setFlit { f with arrived := true, inj := none } else s)
    | .nowhere => .next (s.dropFlit f.id)
    | .lane r => .next (s.laneHop f r 4 e)
    | .link p d r => .next (s.linkHop f p d r e)
    | .fabric k => .next (s.fabricHop f k (4 + k / 4))) := by
  have he : exec (.flitHopReceive f.id e) s = execFlitHopReceive f.id e s := rfl
  unfold execFlitHopReceive at he
  rw [h.there] at he
  dsimp only at he
  rw [if_neg (by rw [h.goes]; decide), if_neg (by rw [hs]; decide)] at he
  refine he.trans ?_
  cases s.hop f <;> rfl

/-- A hop over a lane of the die (R19, R278). -/
theorem OnItsWay.lane (h : OnItsWay f s) (hs : f.seam = false) {r : Nat} {t : State} (hop : s.hop f = .lane r) (hr : s.netOn f.die.val r = true) (hg : s.granted f 4 = some t) :
    (r / 2 = f.router / 2 → received (fun e => exec (.flitHopReceive f.id e) s) s.member s.cores t (t.dropFlit f.id) { f with router := r } f.die) ∧
    (r / 2 ≠ f.router / 2 → (s.seamBuffer f.die r).length < 64 → ∀ e, exec (.flitHopReceive f.id e) s = .next (t.moveFlit { f with router := r, seam := true })) ∧
    (r / 2 ≠ f.router / 2 → 64 ≤ (s.seamBuffer f.die r).length → ∀ e, exec (.flitHopReceive f.id e) s = .next s) := by
  obtain ⟨-, hcores, hmember, -, -⟩ := State.granted_keeps hg
  have he (e : Ecc) : exec (.flitHopReceive f.id e) s = .next (s.laneHop f r 4 e) := by rw [h.hops hs e, hop]
  unfold State.laneHop at he
  rw [hr, hg] at he
  refine ⟨fun hrow => received_of hmember hcores fun e => (he e).trans ?_, fun hrow hroom e => (he e).trans ?_, fun hrow hfull e => (he e).trans ?_⟩
  · exact congrArg Host.Outcome.next ((if_neg (by decide)).trans (if_neg (not_not.2 hrow)))
  · exact congrArg Host.Outcome.next ((if_neg (by decide)).trans ((if_pos hrow).trans (if_neg (Nat.not_le.2 hroom))))
  · exact congrArg Host.Outcome.next ((if_neg (by decide)).trans ((if_pos hrow).trans (if_pos hfull)))

/-- A hop over a UCIe link that is up (R278, R300). -/
theorem OnItsWay.link (h : OnItsWay f s) (hs : f.seam = false) {p d r : Nat} {t : State} (hop : s.hop f = .link p d r) (hup : s.portUp f.die.val p = true) (hr : s.netOn d r = true)
    (hg : s.granted f p = some t) : received (fun e => exec (.flitHopReceive f.id e) s) s.member s.cores t (t.dropFlit f.id) { f with die := asDie d, router := r } (asDie d) := by
  obtain ⟨-, hcores, hmember, -, -⟩ := State.granted_keeps hg
  refine received_of hmember hcores fun e => (h.hops hs e).trans ?_
  rw [hop]
  dsimp only
  unfold State.linkHop
  rw [hup, hr, hg]
  rfl

/-- A hop by a fabric link: the flit leaves in a frame (R413, R416). -/
theorem OnItsWay.fabric (h : OnItsWay f s) (hs : f.seam = false) {k : Nat} {t : State} (hop : s.hop f = .fabric k) (hg : s.granted f (4 + k / 4) = some t) :
    ∃ v, exec (.flitHopReceive f.id .clean) s = .next v ∧ v.flits = s.flits.filter (fun g => g.id != f.id) ∧
      (f.via = none → v.fab.frames = extendFrames s.fab.frames (s.frameOf f k)) ∧
      (∀ g, f.via = some g → v.fab.frames = extendTransit s.fab.frames { g with flits := [f.body] }) ∧
      { v with flits := s.flits, fab := s.fab, free := s.free } = s := by
  obtain ⟨hflits, -, -, hframes, hrest⟩ := State.granted_keeps hg
  have he : exec (.flitHopReceive f.id .clean) s = .next (s.fabricHop f k (4 + k / 4)) := by rw [h.hops hs .clean, hop]
  unfold State.fabricHop at he
  rw [hg] at he
  refine ⟨_, he, ?_, fun hv => ?_, fun g hv => ?_, ?_⟩
  · exact congrArg (List.filter fun g : Flit => g.id != f.id) hflits
  · dsimp only
    rw [hv, hframes]
  · dsimp only
    rw [hv, hframes]
  · exact (congrArg (fun u : State => { u with flits := s.flits }) hrest :)

end

/-! ### Deliveries -/

/-- The arrival bit of a line of the data window that a unit writes (R221). -/
theorem Core.arrived_unitWrite (k : Core) {a : Nat} {bs : Bytes} (hlen : bs.length = 64) (ha : a % 64 = 0) (hlo : k.dLo ≤ a) (hhi : a < k.dHi) : (k.unitWrite a bs).arrived a (a + 64) = true := by
  have hone : ceilDiv (a + 64) 64 - a / 64 = 1 := by
    unfold ceilDiv
    omega
  have hwin : k.dLo ≤ 64 * (a / 64 + 0) + 63 ∧ 64 * (a / 64 + 0) < k.dHi := by omega
  have harr : (k.unitWrite a bs).arrival = smSet (fun _ => false) k.arrival (a / 64 + 0) true := by
    unfold Core.unitWrite Core.markLines
    dsimp only
    rw [hlen, hone]
    exact if_pos hwin
  unfold Core.arrived
  rw [hone, harr]
  exact (Bool.and_true _).trans (smGet_smSet_same _ _ _ _)

/-- A flit that has reached its destination, the first of its sender there (R281). -/
structure Delivered (f : Flit) (s : State) : Prop where
  there : s.flits.find? (fun g => g.id == f.id) = some f
  phase : s.tick.phase = .work ∨ s.tick.phase = .drain
  here : f.arrived = true ∨ (f.seam = false ∧ s.hop f = .here)
  first : s.firstOf f = true
  net : s.netOn f.die.val f.router = true

theorem Delivered.goes {f : Flit} {s : State} (h : Delivered f s) (hk : f.body.hdr.kind ≠ 1) :
    ¬ ((!s.running || !(f.arrived || (!f.seam && s.hop f == .here)) || !s.firstOf f || !s.netOn f.die.val f.router || decide (f.body.hdr.kind = 1)) = true) := by
  have hhere : (f.arrived || (!f.seam && s.hop f == .here)) = true := by
    rcases h.here with hh | ⟨hs, hh⟩
    · rw [hh, Bool.true_or]
    · rw [hs, hh]
      exact Bool.or_true _
  rw [State.running_of h.phase, hhere, h.first, h.net, decide_eq_false hk]
  decide

/-- FLIT_DELIVERY of a line of a message (R221, R265). -/
theorem Delivered.line {f : Flit} {s : State} (h : Delivered f s) {c : CoreId} {r : RouteEnt} (hk : f.body.hdr.kind = 0) (hl : s.tick.leap = false)
    (hc : coreAt f.die f.body.hdr.destUnit = some c) (hr : s.route f.body.hdr.route = some r) :
    exec (.flitDelivery f.id) s = .next ((s.modCore c fun k => k.unitWrite (r.bankBase + (fullSeq s.tick.seq f.body.hdr.seq).toNat % 3 * r.bankStride + f.body.hdr.offset) f.body.data).dropFlit f.id) := by
  have he : exec (.flitDelivery f.id) s = execFlitDelivery f.id s := rfl
  unfold execFlitDelivery at he
  rw [h.there] at he
  dsimp only at he
  rw [if_neg (h.goes (by rw [hk]; decide)), if_neg (not_not.2 hk), if_neg (by rw [hl]; decide), hc, hr] at he
  exact he

/-- FLIT_DELIVERY of a flit of a request (R268, R276). -/
theorem Delivered.request {f : Flit} {s : State} (h : Delivered f s) (hk : 2 ≤ f.body.hdr.kind) : exec (.flitDelivery f.id) s = .next (s.requestFlit f) := by
  have he : exec (.flitDelivery f.id) s = execFlitDelivery f.id s := rfl
  unfold execFlitDelivery at he
  rw [h.there] at he
  dsimp only at he
  rw [if_neg (h.goes (by omega)), if_pos (by omega)] at he
  exact he

/-- A flit of a request counts, and the last one brings the request into the die's queue (R268, R276). -/
theorem State.requestFlit_spec {s : State} {f : Flit} {i : Nat} {q : ServeReq} (hf : f.req = some i) (hq : s.wire.find? (fun x => x.id == i) = some q) :
    (s.requestFlit f).flits = s.flits.filter (fun g => g.id != f.id) ∧ { s.requestFlit f with flits := s.flits, wire := s.wire, inbox := s.inbox } = s ∧
    (q.left ≤ 1 → (s.requestFlit f).inbox = s.inbox ++ [{ q with left := 0 }] ∧ (s.requestFlit f).wire = s.wire.filter (fun x => x.id != q.id)) ∧
    (1 < q.left → (s.requestFlit f).inbox = s.inbox ∧ (s.requestFlit f).wire = s.wire.map fun x => if x.id = q.id then { x with left := x.left - 1 } else x) := by
  have hfind : (f.req.bind fun i => (s.dropFlit f.id).wire.find? fun q => q.id == i) = some q := by
    rw [hf]
    exact hq
  unfold State.requestFlit
  dsimp only
  rw [hfind]
  dsimp only
  by_cases hl : q.left ≤ 1
  · rw [if_pos hl]
    exact ⟨rfl, rfl, fun _ => ⟨rfl, rfl⟩, fun hn => absurd hl (Nat.not_le.2 hn)⟩
  · rw [if_neg hl]
    exact ⟨rfl, rfl, fun hn => absurd hn hl, fun _ => ⟨rfl, rfl⟩⟩

/-- Settles O29. -/
theorem flitHops : Obligations.FlitHops := by
  unfold Obligations.FlitHops
  refine ⟨?_, ?_⟩
  · intro f s x ways hthere hmoves hstill hnet
    have h : OnItsWay f s := ⟨hthere, hmoves, hstill, hnet⟩
    refine ⟨fun hs hhead => received_of rfl rfl fun e => (h.seam hs e).trans ?_, fun hs => ⟨fun hop hfirst e => ?_, fun hop hfirst e => ?_, fun hop e => ?_, fun r t hop hr hg => h.lane hs hop hr hg,
      fun p d r t hop hup hr hg => h.link hs hop hup hr hg, fun k t hop hg => h.fabric hs hop hg⟩⟩
    · rw [hhead]
      exact congrArg Host.Outcome.next (if_pos rfl)
    · have he := h.hops hs e
      rw [hop] at he
      exact he.trans (congrArg Host.Outcome.next (if_pos hfirst))
    · have he := h.hops hs e
      rw [hop] at he
      exact he.trans (congrArg Host.Outcome.next (if_neg (by rw [hfirst]; decide)))
    · have he := h.hops hs e
      rw [hop] at he
      exact he
  · intro f s hd n hthere hphase hhere hfirst hnet
    have h : Delivered f s := ⟨hthere, hphase, hhere, hfirst, hnet⟩
    refine ⟨?_, fun i q hk hf hq => ⟨_, h.request hk, State.requestFlit_spec hf hq⟩⟩
    intro c r a hk hl hc hr hlen
    refine ⟨_, h.line hk hl hc hr, ?_⟩
    have hcore : ((s.modCore c fun k => k.unitWrite a f.body.data).dropFlit f.id).core c = (s.core c).unitWrite a f.body.data := s.core_modCore_same c fun k => k.unitWrite a f.body.data
    have hother (d : CoreId) (hd : d ≠ c) : ((s.modCore c fun k => k.unitWrite a f.body.data).dropFlit f.id).core d = s.core d := s.core_modCore_other _ _ (fun k => k.unitWrite a f.body.data) hd
    rw [hcore]
    refine ⟨?_, fun y hy => memGet_writeBytes_out _ _ _ _ (by rw [hlen]; exact hy), fun ha hlo hhi => Core.arrived_unitWrite _ hlen ha hlo hhi, (s.core c).unitWrite_same a f.body.data, hother, rfl, rfl⟩
    have hread := readBytes_writeBytes (s.core c).store a f.body.data
    rwa [hlen] at hread

end Sys2Proof.Machine
end

section
/-! Frames of the fabric and the timing fibre (R413 to R422, R426). -/
namespace Sys2Proof.Machine

/-! ### Flits that a frame brings -/

theorem val_asDie {n : Nat} (h : n < 32) : (asDie n).val = n := Nat.mod_eq_of_lt h

/-- The flits of `s'` are those of `s`, then flits of these bodies at die `d`. -/
def State.bringsFlits (s s' : State) (bs : List FlitBody) (d : DieId) : Prop :=
  { s' with flits := s.flits, nextFlit := s.nextFlit } = s ∧ ∃ l, s'.flits = s.flits ++ l ∧ l.map Flit.body = bs ∧ ∀ g ∈ l, g.die = d ∧ g.arrived = false

theorem State.bringsFlits.append {s s' s'' : State} {bs bs' : List FlitBody} {d : DieId} (h : s.bringsFlits s' bs d) (h' : s'.bringsFlits s'' bs' d) : s.bringsFlits s'' (bs ++ bs') d := by
  obtain ⟨hrest, l, hl, hb, hd⟩ := h
  obtain ⟨hrest', l', hl', hb', hd'⟩ := h'
  refine ⟨(congrArg (fun u : State => { u with flits := s.flits, nextFlit := s.nextFlit }) hrest' :).trans hrest, l ++ l', ?_, ?_, ?_⟩
  · rw [hl', hl, List.append_assoc]
  · rw [List.map_append, hb, hb']
  · exact fun g hg => (List.mem_append.1 hg).elim (hd g) (hd' g)

theorem State.bringsFlits_inject (s : State) (src : Nat) (d : DieId) (b : FlitBody) : s.bringsFlits (s.inject src d 0 none none [b]) [b] d :=
  ⟨rfl, [⟨s.nextFlit + 0, src, b, d, 0, false, false, none, none, none⟩], rfl, rfl, fun g hg => by rw [List.mem_singleton.1 hg]; exact ⟨rfl, rfl⟩⟩

/-- A frame hands its flits to the optical die of its lane (R420). -/
theorem State.bringsFlits_takeFlits (s : State) (f : Frame) : s.bringsFlits (s.takeFlits f) f.flits (asDie (28 + f.link.val % 4)) := by
  unfold State.takeFlits
  generalize f.flits = bs
  generalize asDie (28 + f.link.val % 4) = d
  induction bs generalizing s with
  | nil => exact ⟨rfl, [], (List.append_nil _).symm, rfl, fun g hg => absurd hg List.not_mem_nil⟩
  | cons b bs ih => exact (s.bringsFlits_inject (1000 * b.hdr.srcMember + b.hdr.srcCore) d b).append (ih _)

theorem State.bringsFlits.spec {s s' : State} {bs : List FlitBody} {d : DieId} (h : s.bringsFlits s' bs d) :
    s'.flits.take s.flits.length = s.flits ∧ (s'.flits.drop s.flits.length).map Flit.body = bs ∧ (∀ g ∈ s'.flits.drop s.flits.length, g.die = d ∧ g.arrived = false) ∧
    { s' with flits := s.flits, nextFlit := s.nextFlit } = s := by
  obtain ⟨hrest, l, hl, hb, hd⟩ := h
  rw [hl, List.take_left, List.drop_left]
  exact ⟨rfl, hb, hd, hrest⟩

/-! ### DATA frames -/

/-- DATA_FRAME for this package by a link that is up (R420). -/
theorem dataFrame_arrives {f : Frame} {s : State} (h0 : s.power = 0) (ht : f.typ = 0) (hd : f.dest = s.addr) (hl : s.flink f.link.val = 1 ∨ s.flink f.link.val = 2) (e : Ecc) :
    exec (.dataFrame ⟨f, e⟩) s = .next (checkWords s (asDie (28 + f.link.val % 4)) e fun s => if s.tagIn f.tick = some f.tag then s.takeFlits f else s.grpBit 2) := by
  have hlink : decide (s.flink f.link.val ∈ [1, 2]) = true := decide_eq_true (by simpa using hl)
  refine if_neg ?_
  dsimp only
  rw [h0, ht, hd, hlink]
  simp

theorem dataFrame_spec {f : Frame} {s : State} (h0 : s.power = 0) (ht : f.typ = 0) (hd : f.dest = s.addr) (hl : s.flink f.link.val = 1 ∨ s.flink f.link.val = 2) :
    (s.tagIn f.tick = some f.tag → ∃ t, exec (.dataFrame ⟨f, .clean⟩) s = .next t ∧ t.flits.take s.flits.length = s.flits ∧
      (t.flits.drop s.flits.length).map Flit.body = f.flits ∧ (∀ g ∈ t.flits.drop s.flits.length, g.die.val = 28 + f.link.val % 4 ∧ g.arrived = false) ∧
      { t with flits := s.flits, nextFlit := s.nextFlit } = s) ∧
    (s.tagIn f.tick ≠ some f.tag → exec (.dataFrame ⟨f, .clean⟩) s = .next { s with grp := { s.grp with evt := s.grp.evt ||| 4#32 } }) ∧
    (∃ t, exec (.dataFrame ⟨f, .badTwice⟩) s = .next t ∧ (⟨5, s.member, 28 + f.link.val % 4⟩ : Notice) ∈ t.tick.notices ∧ t.flits = s.flits ∧ t.cores = s.cores) := by
  have he := dataFrame_arrives h0 ht hd hl
  have hval : (asDie (28 + f.link.val % 4)).val = 28 + f.link.val % 4 := val_asDie (by omega)
  refine ⟨fun htag => ?_, fun htag => ?_, ?_⟩
  · obtain ⟨htake, hbody, hdie, hrest⟩ := (s.bringsFlits_takeFlits f).spec
    refine ⟨_, (he .clean).trans (congrArg Host.Outcome.next (if_pos htag)), htake, hbody, fun g hg => ?_, hrest⟩
    obtain ⟨hgd, hga⟩ := hdie g hg
    exact ⟨by rw [hgd, hval], hga⟩
  · exact (he .clean).trans (congrArg Host.Outcome.next (if_neg htag))
  · refine ⟨_, he .badTwice, ?_, rfl, rfl⟩
    refine (mem_addNew _ _ _).2 (.inr ?_)
    exact congrArg (Notice.mk 5 s.member) hval.symm

/-! ### Frames in transit -/

/-- The frame that a frame in transit goes on in, by exit `code` (R415, R416). -/
def State.onward (s : State) (f : Frame) (code : Nat) : Frame :=
  { f with hops := f.hops + 1, link := asLink (exitLink code (f.link.val % 4)), fvc := transitVc s.fab.pos.toNat f.fvc f.link.val code }

/-- TRANSIT_FRAME with a way on (R413 to R416). -/
theorem transitFrame_waits {f : Frame} {s : State} (h0 : s.power = 0) (hd : f.dest ≠ s.addr) (hp : s.fab.present = true) (hc : s.exitCode f.dest < 8)
    (hk : s.flink (4 * s.exitCode f.dest + f.link.val % 4) = 1 ∨ s.flink (4 * s.exitCode f.dest + f.link.val % 4) = 2) (hl : s.flink f.link.val = 1 ∨ s.flink f.link.val = 2)
    (hh : f.hops + 1 < 32) (ht : f.typ ≤ 5) : exec (.transitFrame ⟨f, .clean⟩) s = .next (s.takeTransit (s.onward f (s.exitCode f.dest)) f.link) := by
  have hin : decide (s.flink f.link.val ∈ [1, 2]) = true := decide_eq_true (by simpa using hl)
  have hout : decide (s.flink (exitLink (s.exitCode f.dest) (f.link.val % 4)) ∈ [1, 2]) = true := decide_eq_true (by simpa [exitLink] using hk)
  refine if_neg ?_
  dsimp only
  rw [h0, hp, hin, hout, decide_eq_false hd, decide_eq_false (Nat.not_le.2 hc), decide_eq_false (Nat.not_le.2 hh), decide_eq_false (Nat.not_lt.2 ht)]
  decide

theorem transitVc_eq (pos fvc link code : Nat) : (fvc = 0 → transitVc pos fvc link code = 0) ∧
    (fvc ≠ 0 → transitVc pos fvc link code = (if crossesDateline pos code then 2 else if code < 6 ∧ link / 8 = code / 2 then fvc else 1)) := by
  unfold transitVc
  refine ⟨fun h => if_pos h, fun h => (if_neg h).trans ?_⟩
  have hdiv : link / 4 / 2 = link / 8 := Nat.div_div_eq_div_mul ..
  rw [hdiv]
  simp only [Bool.and_eq_true, decide_eq_true_eq, beq_iff_eq]

/-- A frame in transit waits at the optical die of its lane (R416). -/
theorem transitFrame_spec {f : Frame} {s : State} (h0 : s.power = 0) (hd : f.dest ≠ s.addr) (hp : s.fab.present = true) (hc : s.exitCode f.dest < 8)
    (hk : s.flink (4 * s.exitCode f.dest + f.link.val % 4) = 1 ∨ s.flink (4 * s.exitCode f.dest + f.link.val % 4) = 2) (hl : s.flink f.link.val = 1 ∨ s.flink f.link.val = 2)
    (hh : f.hops + 1 < 32) (ht : f.typ ≤ 5) :
    let code := s.exitCode f.dest
    ∃ t g, exec (.transitFrame ⟨f, .clean⟩) s = .next t ∧ t.flits.take s.flits.length = s.flits ∧ (t.flits.drop s.flits.length).map (fun x => x.body.data) = f.flits.map FlitBody.data ∧
      (∀ x ∈ t.flits.drop s.flits.length, x.via = some g ∧ x.die.val = 28 + f.link.val % 4 ∧ x.arrived = false) ∧ { t with flits := s.flits, nextFlit := s.nextFlit } = s ∧
      g.hops = f.hops + 1 ∧ g.link.val = 4 * code + f.link.val % 4 ∧ { g with hops := f.hops, link := f.link, fvc := f.fvc, flits := f.flits } = f ∧
      (f.fvc = 0 → g.fvc = 0) ∧ (f.fvc ≠ 0 → g.fvc = (if crossesDateline s.fab.pos.toNat code then 2 else if code < 6 ∧ f.link.val / 8 = code / 2 then f.fvc else 1)) := by
  intro code
  have hval : (asDie (28 + f.link.val % 4)).val = 28 + f.link.val % 4 := val_asDie (by omega)
  obtain ⟨hc0, hc1⟩ := transitVc_eq s.fab.pos.toNat f.fvc f.link.val code
  refine ⟨_, { s.onward f code with flits := [] }, transitFrame_waits h0 hd hp hc hk hl hh ht, List.take_left, ?_, fun x hx => ?_, rfl, rfl, ?_, rfl, hc0, hc1⟩
  · have hdrop : (s.takeTransit (s.onward f code) f.link).flits.drop s.flits.length = _ := List.drop_left
    refine (congrArg (List.map fun x : Flit => x.body.data) hdrop).trans ?_
    rw [List.map_map]
    refine Eq.trans ?_ ((congrArg (List.map FlitBody.data) (enum_map_snd ((s.onward f code).flits.map fun b => { b with hdr := { b.hdr with vc := if (s.onward f code).fvc = 0 then 0 else 1 } }))).trans ?_)
    · rw [List.map_map]
      rfl
    · rw [List.map_map]
      rfl
  · have hdrop : (s.takeTransit (s.onward f code) f.link).flits.drop s.flits.length = _ := List.drop_left
    have hx' := hdrop ▸ hx
    obtain ⟨p, -, rfl⟩ := List.mem_map.1 hx'
    exact ⟨rfl, hval, rfl⟩
  · have : (4 * code + f.link.val % 4) % 32 = 4 * code + f.link.val % 4 := Nat.mod_eq_of_lt (by omega)
    exact this

/-- TRANSIT_FRAME without a way on (R413, R416). -/
theorem transitFrame_discards {f : Frame} {s : State} (h : 8 ≤ s.exitCode f.dest ∨ 32 ≤ f.hops + 1) (e : Ecc) : exec (.transitFrame ⟨f, e⟩) s = .next s := by
  refine if_pos ?_
  dsimp only
  rcases h with h | h <;> simp [h]

/-! ### Stamps and the timing fibre -/

/-- STAMP_FRAME from a member whose stamp is not known yet (R421). -/
theorem stampFrame_records {tag : W32} {p : Stamp} {s : State} (h0 : s.power = 0) (hs : s.grp.state ≠ .spare) (hm : p.member ≠ s.member) (hr : p.member < s.grp.record.members)
    (ht : s.tagIn (p.tick.setWidth 16) = some tag) (hk : ∀ q ∈ s.grp.stamps, q.tick = p.tick → q.member ≠ p.member) :
    exec (.stampFrame tag p) s = .next { s with grp := { s.grp with stamps := s.grp.stamps ++ [p] } } := by
  have hknown : (s.grp.stamps.any fun x => x.tick == p.tick && x.member == p.member) = false := by
    refine List.any_eq_false.2 fun q hq => ?_
    simpa using hk q hq
  have hspare : (s.grp.state == .spare) = false := beq_eq_false_iff_ne.2 hs
  refine (if_neg ?_).trans (if_pos ht)
  rw [h0, hspare, hknown, decide_eq_false hm, decide_eq_false (Nat.not_le.2 hr)]
  decide

/-- TIME_MESSAGE (R422, R423). -/
theorem timeMessage_eq {bs : Bytes} {s : State} (h0 : s.power = 0) : exec (.timeMessage bs) s = (match timeCount bs with
    | some t => .next { s with fab := { s.fab with badMsgs := 0, count := if s.fab.lock && s.grp.state == .spare then t + BitVec.ofNat 64 (s.fab.trim.toNat % 2 ^ 16 / 128) else s.fab.count } }
    | none => .next { s with fab := { s.fab with badMsgs := s.fab.badMsgs + 1 } }) := by
  refine (if_neg (not_not.2 h0)).trans ?_
  cases timeCount bs <;> rfl

/-- HOLDOVER (R422, R426). -/
theorem holdover_begins {s : State} (h0 : s.power = 0) (h : 2 ≤ s.fab.badMsgs ∨ 2 ∈ s.fab.optFailed) (hh : s.fab.holdover = false) :
    exec .holdover s = .next { s with fab := { s.fab with holdover := true, lock := false }, grp := { s.grp with evt := s.grp.evt ||| 64#32 } } := by
  refine (if_neg ?_).trans (congrArg Host.Outcome.next (if_neg (by rw [hh]; decide)))
  rcases h with h | h <;> simp [h0, h]

/-- TIMING_LOCK (R422, R426). -/
theorem timingLock_locks {s : State} (h0 : s.power = 0) (ho : 2 ∉ s.fab.optFailed) (w : Bool) :
    (s.fab.holdover = false ∨ w = true → exec (.timingLock w) s = .next { s with fab := { s.fab with lock := true, badMsgs := 0, holdover := false } }) ∧
    (s.fab.holdover = true → w = false → ∃ t, exec (.timingLock w) s = .next t ∧ t.fab = { s.fab with lock := true, badMsgs := 0, stepDue := true } ∧
      2 ∈ t.tick.leapReqs ∧ { t with fab := s.fab, tick := { t.tick with leapReqs := s.tick.leapReqs } } = s) := by
  have he : exec (.timingLock w) s = (if !s.fab.holdover then .next { s with fab := { s.fab with lock := true, badMsgs := 0 } }
      else if w then .next { s with fab := { s.fab with lock := true, badMsgs := 0, holdover := false } }
      else .next ({ s with fab := { s.fab with lock := true, badMsgs := 0, stepDue := true } }.askLeap 2)) := by
    refine if_neg ?_
    simp [h0, ho]
  refine ⟨fun h => he.trans ?_, fun hh hw => ⟨_, (he.trans (if_neg (by rw [hh]; decide))).trans (if_neg (by rw [hw]; decide)), rfl, (mem_addNew _ _ _).2 (.inr rfl), rfl⟩⟩
  cases hh : s.fab.holdover with
  | false =>
    refine (if_pos rfl).trans ?_
    rw [← hh]
  | true =>
    have hw : w = true := h.resolve_left (by rw [hh]; decide)
    exact (if_neg (by decide)).trans (if_pos hw)

/-- Settles O33. -/
theorem fabricFrames : Obligations.FabricFrames := by
  unfold Obligations.FabricFrames
  refine ⟨?_, ?_⟩
  · intro f tag p s code h0
    exact ⟨fun ht hd hl => dataFrame_spec h0 ht hd hl, fun hd hp hc hk hl hh ht => transitFrame_spec h0 hd hp hc hk hl hh ht, fun _ h e => transitFrame_discards h e,
      fun hs hm hr ht hk => stampFrame_records h0 hs hm hr ht hk⟩
  · intro bs v s h0
    refine ⟨fun hv hl hs => ?_, fun hv => ?_, fun h hh => holdover_begins h0 h hh, fun ho w => timingLock_locks h0 ho w⟩
    · rw [timeMessage_eq h0, hv, hl, hs]
      rfl
    · rw [timeMessage_eq h0, hv]

end Sys2Proof.Machine
end

section
/-! Convenings, rulings and their application (R431 to R438, R532). -/
namespace Sys2Proof.Machine

/-! ### CONVENE frames -/

/-- CONVENE_FRAME of the own group from another member: the latest one is kept (R432). -/
theorem conveneFrame_kept {f : Convene} {s : State} (h0 : s.power = 0) (hg : f.groupId = s.grp.record.groupId) (hm : f.member < s.grp.record.members) (ho : f.member ≠ s.member) :
    ∃ t, exec (.conveneFrame f) s = .next t ∧
      (∀ m, m ≠ f.member → t.grp.convenes.filter (fun y => y.member == m) = s.grp.convenes.filter (fun y => y.member == m)) ∧
      t.grp.convenes.filter (fun y => y.member == f.member) = [f] ∧ { t with grp := { t.grp with convenes := s.grp.convenes } } = s := by
  have he : exec (.conveneFrame f) s = .next { s with grp := { s.grp with convenes := keepConvene s.member s.grp.convenes f } } := by
    refine if_neg ?_
    have : s.grp.record.members ≠ 0 := by omega
    simp [h0, hg, hm, ho, this]
  have hkeep : keepConvene s.member s.grp.convenes f = (s.grp.convenes.filter fun x => x.member != f.member) ++ [f] := if_neg ho
  refine ⟨_, he, fun m hmf => ?_, ?_, rfl⟩
  · dsimp only
    rw [hkeep, List.filter_append, List.filter_filter, List.filter_cons_of_neg (by simpa using Ne.symm hmf), List.filter_nil, List.append_nil]
    refine List.filter_congr fun x _ => ?_
    by_cases hx : x.member = m
    · simp [hx, hmf]
    · simp [hx]
  · dsimp only
    rw [hkeep, List.filter_append, List.filter_filter, List.filter_cons_of_pos (by simp), List.filter_nil]
    have hnone : s.grp.convenes.filter (fun x => x.member == f.member && x.member != f.member) = [] := List.filter_eq_nil_iff.2 fun x _ => by simp
    rw [hnone, List.nil_append]

/-! ### Rulings -/

/-- The members marked in a ruling, as a number. -/
def keepMask (l : List Nat) : Nat := l.foldl (fun v m => v + 2 ^ m) 0

/-- A mask of members below n is below 2^n, and shows exactly them. -/
theorem keepMask_range (p : Nat → Bool) (n : Nat) : keepMask ((List.range n).filter p) < 2 ^ n ∧ ∀ m, (keepMask ((List.range n).filter p)).testBit m = (decide (m < n) && p m) := by
  induction n with
  | zero => exact ⟨by simp [keepMask], fun m => by simp [keepMask]⟩
  | succ n ih =>
    obtain ⟨hlt, hbits⟩ := ih
    have hpow : 2 ^ (n + 1) = 2 ^ n + 2 ^ n := by ring
    by_cases hp : p n = true
    · have hstep : keepMask ((List.range (n + 1)).filter p) = 2 ^ n + keepMask ((List.range n).filter p) := by
        unfold keepMask
        rw [List.range_succ, List.filter_append, List.filter_cons_of_pos hp, List.filter_nil, List.foldl_append, Nat.add_comm]
        rfl
      rw [hstep]
      refine ⟨by omega, fun m => ?_⟩
      rcases Nat.lt_trichotomy m n with h | rfl | h
      · rw [Nat.testBit_two_pow_add_gt h, hbits]
        have : m < n + 1 := by omega
        simp [h, this]
      · rw [Nat.testBit_two_pow_add_eq, hbits]
        simp [hp]
      · rw [Nat.testBit_lt_two_pow (Nat.lt_of_lt_of_le (by omega : _ < 2 ^ (n + 1)) (Nat.pow_le_pow_right (by decide) h))]
        have : ¬ m < n + 1 := by omega
        simp [this]
    · have hstep : keepMask ((List.range (n + 1)).filter p) = keepMask ((List.range n).filter p) := by
        rw [List.range_succ, List.filter_append, List.filter_cons_of_neg hp, List.filter_nil, List.append_nil]
      rw [hstep]
      refine ⟨by omega, fun m => ?_⟩
      rw [hbits]
      rcases Nat.lt_trichotomy m n with h | rfl | h
      · have : m < n + 1 := by omega
        simp [h, this]
      · simp [hp]
      · have h1 : ¬ m < n := by omega
        have h2 : ¬ m < n + 1 := by omega
        simp [h1, h2]

theorem State.makeRuling_keep (s : State) (l : List Nat) (t : W48) : (s.makeRuling l t).2.keep = BitVec.ofNat 16 (keepMask l) := (rfl)

/-- A record with members replaced keeps its epoch. -/
theorem State.makeRuling_epoch (s : State) (l : List Nat) (t : W48) : (s.makeRuling l t).2.record.epoch = s.grp.record.epoch + 1 := by
  unfold State.makeRuling
  cases s.grp.newSpares <;> rfl

theorem State.makeRuling_group (s : State) (l : List Nat) (t : W48) : (s.makeRuling l t).2.groupId = s.grp.record.groupId := by
  unfold State.makeRuling
  cases s.grp.newSpares <;> rfl

/-- The members that a leader's ruling marks (R434). -/
theorem State.makeRuling_bits (s : State) (p : Nat → Bool) (n : Nat) (t : W48) {m : Nat} (hm : m < 16) :
    (s.makeRuling ((List.range n).filter p) t).2.keep.getLsbD m = true ↔ m < n ∧ p m = true := by
  rw [State.makeRuling_keep, BitVec.getLsbD_ofNat, (keepMask_range p n).2]
  simp [hm]

/-- CONVENING_RULING with a quorum (R433 to R435). -/
theorem conveningRuling_rules {s : State} (h0 : s.power = 0) (hp : s.tick.phase = .applied) (hc : s.grp.state = .convening)
    (ht : s.tick.count = s.grp.holdFrom + BitVec.ofNat 48 (7 + 16 * s.grp.round)) (hl : roundLeader s.grp.record s.grp.round = s.member) (hf : s.grp.fault = false) (hr : s.fw.sch.runs = true)
    (ho : s.grp.rulingOut = none)
    (hq : s.grp.record.members < 2 * ((List.range s.grp.record.members).filter s.keeps).length ∨
      (s.grp.record.members = 2 * ((List.range s.grp.record.members).filter s.keeps).length ∧ referenceMember s.grp.record = s.member))
    (hpath : pathsOk (s.makeRuling ((List.range s.grp.record.members).filter s.keeps) (s.tick.count + 2)).2.record s.tick.basePeriod = true) :
    let x := s.makeRuling ((List.range s.grp.record.members).filter s.keeps) (s.tick.count + 2)
    exec .conveningRuling s = .next { x.1 with grp := { x.1.grp with rulingOut := some x.2, ruling := some x.2, rulingAt := s.tick.count + 2, newSpares := none } } := by
  intro x
  have hdue : (s.tick.count == s.grp.holdFrom + BitVec.ofNat 48 (7 + 16 * s.grp.round)) = true := beq_iff_eq.2 ht
  refine (if_neg ?_).trans ((if_neg ?_).trans (if_neg ?_))
  · rw [hdue, hc, hl, hf, hr, ho]
    simp [h0, hp]
  · rcases hq with hq | ⟨hq, href⟩
    · have hne : s.grp.record.members ≠ 2 * ((List.range s.grp.record.members).filter s.keeps).length := by omega
      simp [Nat.not_lt.2 hq.le, Ne.symm hne]
    · simp [← hq, href]
  · rw [hpath]
    decide

/-- CONVENING_ROUND_END (R433, R435). -/
theorem conveningRoundEnd_ends {s : State} (h0 : s.power = 0) (hp : s.tick.phase = .applied) (hc : s.grp.state = .convening)
    (ht : s.tick.count = s.grp.holdFrom + BitVec.ofNat 48 (15 + 16 * s.grp.round)) (hr : s.grp.ruling = none) :
    exec .conveningRoundEnd s = .next { s with grp := { s.grp with
      round := if s.grp.round < 15 then s.grp.round + 1 else 0, holdFrom := if s.grp.round < 15 then s.grp.holdFrom else s.tick.count + 1 } } := by
  have hlast : (s.tick.count == s.grp.holdFrom + BitVec.ofNat 48 (15 + 16 * s.grp.round)) = true := beq_iff_eq.2 ht
  refine (if_neg ?_).trans ?_
  · rw [hlast, hc, hr]
    simp [h0, hp]
  · by_cases hlt : s.grp.round < 15
    · rw [if_pos hlt, if_pos hlt]
      exact if_pos (by omega)
    · rw [if_neg hlt, if_neg hlt]
      exact if_neg (by omega)

/-- RULING in a convening (R433). -/
theorem ruling_kept {g : Ruling} {s : State} (h0 : s.power = 0) (hc : s.grp.state = .convening) (hg : g.groupId = s.grp.record.groupId) (hm : 1 ≤ s.grp.record.members) (hs : g.sender = g.leader)
    (hl : g.sender = roundLeader s.grp.record s.grp.round) (hr : g.round = s.grp.round) :
    exec (.ruling g) s = .next { s with grp := { s.grp with ruling := some g, rulingAt := s.grp.holdFrom + BitVec.ofNat 48 (9 + 16 * s.grp.round) } } := by
  refine (if_neg ?_).trans ((if_pos (beq_iff_eq.2 hc)).trans (if_neg (by simp [hl, hr])))
  have : s.grp.record.members ≠ 0 := by omega
  simp [h0, hg, hs, this]

/-! ### Fencing -/

/-- Commands dropped from a queue change the rings alone. -/
theorem State.dropQueue_rings (s : State) : { s.dropQueue with rings := s.rings } = s :=
  foldl_keeps (f := fun (s : State) (e : QCmd) => s.setRing e.set { s.ring e.set with reserved := (s.ring e.set).reserved - 1 }) (fun u : State => { u with rings := s.rings }) (fun _ _ => rfl) (nth [] s.rings.queues 0) s

/-- What a fenced package holds (R437). -/
structure Fenced (s t : State) : Prop where
  spare : t.grp.state = .spare
  fenced : t.grp.fenced = true
  record : t.grp.record = noRecord
  alm : t.alm = none
  gen : t.genActive = 0
  load : t.loadPhase = 0
  reqs : t.srv.reqs = []
  lanes : t.srv.lanes = []
  flits : t.flits = s.flits.filter fun x => x.via.isSome
  evt : t.grp.evt.getLsbD 4 = true
  cores : t.cores = s.cores
  dies : t.dies = s.dies

theorem State.fenced_fence (s : State) : Fenced s s.fence := by
  unfold State.fence
  dsimp only
  have hq := s.dropQueue_rings
  have hflits : s.dropQueue.flits = s.flits := (congrArg State.flits hq :)
  have hcores : s.dropQueue.cores = s.cores := (congrArg State.cores hq :)
  have hdies : s.dropQueue.dies = s.dies := (congrArg State.dies hq :)
  generalize s.dropQueue = u at hflits hcores hdies
  constructor
  · rw [State.post_grp]
    rfl
  · rw [State.post_grp]
    rfl
  · rw [State.post_grp]
    rfl
  · rw [State.post_alm]
    rfl
  · rw [State.post_genActive]
    rfl
  · rw [State.post_loadPhase]
    rfl
  · rw [State.post_srv]
    rfl
  · rw [State.post_srv]
    rfl
  · rw [State.post_flits, ← hflits]
    rfl
  · rw [State.post_grp]
    exact (getLsbD_setBit _ _ _).trans (by simp)
  · rw [State.post_cores, ← hcores]
    rfl
  · rw [State.post_dies, ← hdies]
    rfl

/-- GROUP_SPLIT (R435). -/
theorem groupSplit_fences {s : State} (h0 : s.power = 0) (hc : s.grp.state = .convening) (hh : 80000000 ≤ s.grp.holdSteps) : ∃ t, exec .groupSplit s = .next t ∧
    t.grp.state = .spare ∧ t.grp.fenced = true ∧ t.alm = none ∧ t.genActive = 0 ∧ (∀ x ∈ t.flits, x.via.isSome = true) ∧ t.srv.reqs = [] ∧
    t.grp.evt.getLsbD 4 = true ∧ t.grp.evt.getLsbD 5 = true ∧ t.cores = s.cores ∧ t.dies = s.dies := by
  refine ⟨_, if_neg (by rw [hc]; simp [h0, hh]), ?_⟩
  have hf := s.fenced_fence
  generalize s.fence = u at hf
  rw [State.post_grp, State.post_alm, State.post_genActive, State.post_flits, State.post_srv, State.post_cores, State.post_dies]
  refine ⟨hf.spare, hf.fenced, hf.alm, hf.gen, fun x hx => ?_, hf.reqs, ?_, ?_, hf.cores, hf.dies⟩
  · have hx' : x ∈ u.flits := hx
    rw [hf.flits] at hx'
    exact (List.mem_filter.1 hx').2
  · exact (getLsbD_setBit _ _ _).trans (by rw [hf.evt]; rfl)
  · exact (getLsbD_setBit _ _ _).trans (by simp)

/-! ### A ruling that applies -/

theorem State.patchEnd_rings (s : State) (v : Nat) : { s.patchEnd v with rings := s.rings } = s := State.post_rings ..

/-- The state once a patch is refused, before its end is posted (R532). -/
def State.patchDropped (s : State) : State := { s with tick := { s.tick with patch := none, event := setBit s.tick.event 7 } }

theorem State.refusePatch_eq (s : State) : s.refusePatch = if s.tick.patch.isNone then s else s.patchDropped.patchEnd 1 := (rfl)

theorem State.patchDropped_spec (s : State) : { s.patchDropped with tick := s.tick } = s ∧ s.patchDropped.tick.patch = none ∧ s.patchDropped.tick.count = s.tick.count := ⟨rfl, rfl, rfl⟩

/-- A patch refused changes TICK and the rings (R532). -/
theorem State.refusePatch_spec (s : State) : { s.refusePatch with tick := s.tick, rings := s.rings } = s ∧ s.refusePatch.tick.patch = none ∧ s.refusePatch.tick.count = s.tick.count := by
  rw [State.refusePatch_eq]
  split
  case isTrue h => exact ⟨rfl, Option.isNone_iff_eq_none.1 h, rfl⟩
  case isFalse =>
    obtain ⟨hu, hp, hc⟩ := s.patchDropped_spec
    generalize s.patchDropped = u at hu hp hc
    have hv := u.patchEnd_rings 1
    have ht := u.patchEnd_tick 1
    generalize u.patchEnd 1 = v at hv ht
    rw [ht]
    exact ⟨(congrArg (fun v : State => { v with tick := s.tick, rings := s.rings }) hv :).trans (congrArg (fun v : State => { v with rings := s.rings }) hu :), hp, hc⟩

/-- What R532 discards: the patch and the activation staged, and an armed group change. -/
theorem State.dropStaged_spec (s : State) : { s.dropStaged with tick := s.tick, fw := s.fw, chg := s.chg, rings := s.rings } = s ∧ s.dropStaged.tick.patch = none ∧
    s.dropStaged.tick.count = s.tick.count ∧ s.dropStaged.fw.act = none := by
  unfold State.dropStaged
  dsimp only
  obtain ⟨hu, hp, hc⟩ := s.refusePatch_spec
  generalize s.refusePatch = u at hu hp hc
  have hframe : { u with tick := s.tick, fw := s.fw, chg := s.chg, rings := s.rings } = s := (congrArg (fun v : State => { v with fw := s.fw, chg := s.chg }) hu :)
  split
  · exact ⟨hframe, hp, hc, rfl⟩
  · exact ⟨hframe, hp, hc, rfl⟩

/-- One request reverted by a ruling (R436). -/
def State.revertRequest (t : W48) (s : State) (i : Nat) : State :=
  let n := s.revertNext t i
  let s := [0, 1].foldl (fun s d => s.modSd d fun x => (x.dropFrom i (x.dir i).len).modDir i fun h => { h with pend := 0 }) s
  s.modReq i fun r => { r with next := n, step := none }

theorem State.modSd_serve (s : State) (d : Nat) (f : ServeDie → ServeDie) (m : SMap ServeDie) : { s.modSd d f with serve := m } = { s with serve := m } := rfl

theorem State.revertRequest_frame (t : W48) (s : State) (i : Nat) : { s.revertRequest t i with serve := s.serve, srv := s.srv } = s := by
  unfold State.revertRequest
  dsimp only
  have h := foldl_keeps (f := fun (s : State) d => s.modSd d fun x => (x.dropFrom i (x.dir i).len).modDir i fun h => { h with pend := 0 }) (fun u => { u with serve := s.serve })
    (fun u d => u.modSd_serve d _ s.serve) [0, 1] s
  generalize List.foldl _ s [0, 1] = u at h
  exact (congrArg (fun v : State => { v with srv := s.srv }) h :)

/-- What goes with the requests that revert (R436). -/
theorem State.revertRequests_spec (s : State) (t : W48) : { s.revertRequests t with serve := s.serve, srv := s.srv, cores := s.cores } = s ∧
    (s.revertRequests t).srv.lanes = [] ∧ (s.revertRequests t).srv.draws = [] ∧ (s.revertRequests t).srv.kv = [] ∧ (s.revertRequests t).srv.fills = [] ∧ (s.revertRequests t).srv.ledger = [] ∧
    ∀ c, (s.revertRequests t).core c = { s.core c with fails := [] } := by
  obtain ⟨u, hu, he⟩ : ∃ u : State, { u with serve := s.serve, srv := s.srv } = s ∧ s.revertRequests t =
      { u.eachCore (fun k => { k with fails := [] }) with srv := { u.srv with lanes := [], draws := [], kv := [], refusals := [], kept := [], fills := [], ledger := [] } } :=
    ⟨(s.srv.reqs.map Prod.fst).foldl (State.revertRequest t) s, foldl_keeps (f := State.revertRequest t) (fun u => { u with serve := s.serve, srv := s.srv }) (fun v i =>
      (congrArg (fun v : State => { v with serve := s.serve, srv := s.srv }) (v.revertRequest_frame t i) :)) _ s, rfl⟩
  rw [he]
  have hcores := State.eachCore_frame (fun k => { k with fails := [] }) u
  have hcore (c : CoreId) := State.core_eachCore (f := fun k => { k with fails := [] }) (fun _ => rfl) (fun _ => rfl) u c
  have hsame (c : CoreId) : u.core c = s.core c := State.core_of_cores (congrArg State.cores hu :) c
  generalize u.eachCore (fun k => { k with fails := [] }) = v at hcores hcore
  refine ⟨?_, rfl, rfl, rfl, rfl, rfl, fun c => ?_⟩
  · exact (congrArg (fun w : State => { w with serve := s.serve, srv := s.srv, cores := s.cores }) hcores :).trans (congrArg (fun w : State => { w with cores := s.cores }) hu :)
  · exact (hcore c).trans (congrArg (fun k : Core => { k with fails := [] }) (hsame c))

/-- What the announcement of a failover hold and the messages of its leader and buddies leave (R437 to R440). -/
def State.announced (s t : State) : Prop :=
  { t with rings := s.rings, fab := s.fab, grp := s.grp } = s ∧
  { t.grp with evt := s.grp.evt, escrowMissing := s.grp.escrowMissing, sentJoins := s.grp.sentJoins, unfilled := s.grp.unfilled } = s.grp

theorem State.announced_refl (s : State) : s.announced s := ⟨rfl, rfl⟩

theorem State.announced.trans {s t u : State} (h : s.announced t) (h' : t.announced u) : s.announced u :=
  ⟨(congrArg (fun v : State => { v with rings := s.rings, fab := s.fab, grp := s.grp }) h'.1 :).trans h.1,
    (congrArg (fun g : Group => { g with evt := s.grp.evt, escrowMissing := s.grp.escrowMissing, sentJoins := s.grp.sentJoins, unfilled := s.grp.unfilled }) h'.2 :).trans h.2⟩

theorem State.announced_post (s : State) (code cls die : Nat) (data : Bytes) : s.announced (s.post code cls die data) := by
  have h := s.post_rings code cls die data
  have hg := s.post_grp code cls die data
  generalize s.post code cls die data = t at h hg
  refine ⟨(congrArg (fun v : State => { v with fab := s.fab, grp := s.grp }) h :), ?_⟩
  rw [hg]

theorem State.announced_sendFrames (s : State) (l : List OutFrame) : s.announced (s.sendFrames l) := by
  have h := s.sendFrames_fab l
  refine ⟨(congrArg (fun v : State => { v with rings := s.rings, grp := s.grp }) h :), ?_⟩
  rw [show (s.sendFrames l).grp = s.grp from (congrArg State.grp h :)]

theorem State.announced_sendJoins (s : State) (l : List (Nat × BitVec 16)) : s.announced (s.sendJoins l) := by
  unfold State.sendJoins
  dsimp only
  generalize (l.map fun x : Nat × BitVec 16 => (⟨x.2, s.grp.record, x.1, s.tick.count + 8, s.fab.count + BitVec.ofNat 64 (8 * s.tick.pEff), s.tick.seq⟩ : Join)) = js
  have h := (s.announced_sendFrames (js.map fun j => .join j (s.tick.count.setWidth 16))).1
  generalize s.sendFrames (js.map fun j => .join j (s.tick.count.setWidth 16)) = u at h
  exact ⟨h, rfl⟩

theorem State.announced.sendJoins {s u : State} (h : s.announced u) (l : List (Nat × BitVec 16)) : s.announced (u.sendJoins l) := h.trans (u.announced_sendJoins l)

theorem State.announced_leadFailover (s : State) (f : Ruling) (old : GroupRecord) (fs : List Nat) : s.announced (s.leadFailover f old fs) := by
  unfold State.leadFailover
  split
  · exact s.announced_refl
  · dsimp only
    refine State.announced.sendJoins ?_ _
    exact ⟨rfl, rfl⟩

theorem State.announced_sendRestores (s : State) (old : GroupRecord) (l : List (Nat × BitVec 16)) : s.announced (s.sendRestores old l) := by
  unfold State.sendRestores
  induction l generalizing s with
  | nil => exact s.announced_refl
  | cons x l ih =>
    rw [List.foldl_cons]
    refine State.announced.trans ?_ (ih _)
    split
    · exact s.announced_refl
    · exact s.announced_sendFrames _

/-- The state of a member that a ruling keeps, once its staged effects are gone and its requests reverted: `u` (R436, R438). -/
def State.ruled (u : State) (f : Ruling) (old : GroupRecord) (fs : List Nat) : State :=
  { u with
    flits := u.flits.filter (fun f => f.via.isSome), reducers := [], inbox := [], outbound := [], wire := []
    tick := { u.tick with seq := f.seq, recovery := none, leapNext := fs.isEmpty && !u.grp.inFailover }
    grp := { u.grp with
      record := f.record, ruling := none, rulingOut := none, convenes := [], left := [], newSpares := none
      state := if fs.isEmpty && !u.grp.inFailover then .serving else .failover, inFailover := u.grp.inFailover || !fs.isEmpty
      fencedOut := u.grp.fencedOut ++ fs.filter fun m => !u.grp.fencedOut.contains m, ready := !u.grp.restoring || u.grp.ready
      stamps := u.grp.stamps.filter fun x => !fs.contains x.member
      reqSent := if fs.contains ((u.member + 1) % old.members) then [] else u.grp.reqSent } }

/-- What a failover hold announces (R437, R442). -/
def State.holdBegun (v : State) (f : Ruling) (old : GroupRecord) (fs : List Nat) : State :=
  let s := if v.escrowGone old.members fs then { v.grpBit 9 with grp := { (v.grpBit 9).grp with escrowMissing := true } } else v
  (s.grpBit 7).post 0x07 2 26 (leBytes 1 3 ++ leBytes 4 f.record.epoch.toNat)

theorem State.announced_holdBegun (v : State) (f : Ruling) (old : GroupRecord) (fs : List Nat) : v.announced (v.holdBegun f old fs) := by
  unfold State.holdBegun
  dsimp only
  refine State.announced.trans ?_ (State.announced_post _ _ _ _ _)
  split <;> exact ⟨rfl, rfl⟩

/-- A failover hold announced, with the messages of the leader and the buddies (R437 to R440). -/
def State.holdOpened (v : State) (f : Ruling) (old : GroupRecord) (fs : List Nat) : State := ((v.holdBegun f old fs).leadFailover f old fs).sendRestores old (replaced old f.record)

theorem State.announced_holdOpened (v : State) (f : Ruling) (old : GroupRecord) (fs : List Nat) : v.announced (v.holdOpened f old fs) :=
  ((v.announced_holdBegun f old fs).trans (State.announced_leadFailover _ f old fs)).trans (State.announced_sendRestores _ old (replaced old f.record))

/-- Members of the record that a ruling does not keep. -/
def fencedBy (f : Ruling) (n : Nat) : List Nat := (List.range n).filter fun m => !f.keep.getLsbD m

theorem mem_fencedBy (f : Ruling) (n m : Nat) : m ∈ fencedBy f n ↔ m < n ∧ f.keep.getLsbD m = false := by
  unfold fencedBy
  rw [List.mem_filter, List.mem_range]
  simp

theorem fencedBy_eq_nil (f : Ruling) (n : Nat) : (fencedBy f n).isEmpty = true ↔ ∀ m, m < n → f.keep.getLsbD m = true := by
  rw [List.isEmpty_iff, List.eq_nil_iff_forall_not_mem]
  refine forall_congr' fun m => ?_
  rw [mem_fencedBy]
  simp

theorem execRulingApply_eq {f : Ruling} {s : State} (hr : s.grp.ruling = some f) : execRulingApply s =
    if s.power ≠ 0 || s.tick.phase ≠ .applied || s.tick.count ≠ s.grp.rulingAt then .next s
    else if !f.keep.getLsbD s.member then .next s.fence
    else if (fencedBy f s.grp.record.members).isEmpty then
      .next ((((s.dropStaged.revertRequests f.revert).ruled f s.grp.record (fencedBy f s.grp.record.members))).post 0x07 2 26 (leBytes 1 1 ++ leBytes 4 f.record.epoch.toNat))
    else .next ((((s.dropStaged.revertRequests f.revert).ruled f s.grp.record (fencedBy f s.grp.record.members)).post 0x07 2 26 (leBytes 1 1 ++ leBytes 4 f.record.epoch.toNat)).holdOpened f s.grp.record
      (fencedBy f s.grp.record.members)) := by
  unfold execRulingApply
  rw [hr]
  refine if_congr Iff.rfl rfl (if_congr Iff.rfl rfl (if_congr Iff.rfl ?_ ?_))
  · refine congrArg Host.Outcome.next ?_
    refine congrArg (fun u : State => u.post 0x07 2 26 (leBytes 1 1 ++ leBytes 4 f.record.epoch.toNat)) ?_
    unfold State.ruled
    rfl
  · refine congrArg Host.Outcome.next ?_
    unfold State.holdOpened
    refine congrArg (fun u : State => u.sendRestores s.grp.record (replaced s.grp.record f.record)) ?_
    refine congrArg (fun u : State => u.leadFailover f s.grp.record (fencedBy f s.grp.record.members)) ?_
    unfold State.holdBegun
    refine congrArg (fun u : State => u.post 0x07 2 26 (leBytes 1 3 ++ leBytes 4 f.record.epoch.toNat)) ?_
    refine congrArg (fun v : State => (if v.escrowGone s.grp.record.members (fencedBy f s.grp.record.members) then { v.grpBit 9 with grp := { (v.grpBit 9).grp with escrowMissing := true } } else v).grpBit 7) ?_
    refine congrArg (fun u : State => u.post 0x07 2 26 (leBytes 1 1 ++ leBytes 4 f.record.epoch.toNat)) ?_
    unfold State.ruled
    rfl


/-- RULING_APPLY at its tick (R436 to R438). -/
theorem rulingApply_eq {f : Ruling} {s : State} (h0 : s.power = 0) (hp : s.tick.phase = .applied) (hr : s.grp.ruling = some f) (ht : s.tick.count = s.grp.rulingAt) :
    (f.keep.getLsbD s.member = false → exec .rulingApply s = .next s.fence) ∧
    (f.keep.getLsbD s.member = true → ∃ t, exec .rulingApply s = .next t ∧
      ((s.dropStaged.revertRequests f.revert).ruled f s.grp.record (fencedBy f s.grp.record.members)).announced t) := by
  have he : exec .rulingApply s = execRulingApply s := rfl
  rw [execRulingApply_eq hr, if_neg (by simp [h0, hp, ht])] at he
  refine ⟨fun hk => he.trans (if_pos (by rw [hk]; rfl)), fun hk => ?_⟩
  rw [if_neg (by rw [hk]; decide)] at he
  generalize (s.dropStaged.revertRequests f.revert).ruled f s.grp.record (fencedBy f s.grp.record.members) = v at he ⊢
  have hpost := v.announced_post 0x07 2 26 (leBytes 1 1 ++ leBytes 4 f.record.epoch.toNat)
  generalize v.post 0x07 2 26 (leBytes 1 1 ++ leBytes 4 f.record.epoch.toNat) = w at he hpost
  split at he
  · exact ⟨_, he, hpost⟩
  · exact ⟨_, he, hpost.trans (w.announced_holdOpened ..)⟩

/-- What a member that a ruling keeps holds after it (R436, R438, R532). -/
theorem rulingApply_kept {f : Ruling} {s t : State} (h : ((s.dropStaged.revertRequests f.revert).ruled f s.grp.record (fencedBy f s.grp.record.members)).announced t) :
    let all := ∀ m, m < s.grp.record.members → f.keep.getLsbD m = true
    t.grp.record = f.record ∧ t.tick.seq = f.seq ∧ t.grp.ruling = none ∧ t.grp.convenes = [] ∧ t.tick.patch = none ∧ t.fw.act = none ∧
    (all → s.grp.inFailover = false → t.grp.state = .serving ∧ t.tick.leapNext = true ∧ t.grp.fencedOut = s.grp.fencedOut) ∧
    (¬ all ∨ s.grp.inFailover = true → t.grp.state = .failover ∧ t.tick.leapNext = false ∧ t.grp.inFailover = true) ∧
    (∀ m, m < s.grp.record.members → f.keep.getLsbD m = false → m ∈ t.grp.fencedOut) ∧
    t.srv.lanes = [] ∧ t.srv.draws = [] ∧ t.srv.kv = [] ∧ t.srv.fills = [] ∧ t.srv.ledger = [] ∧ t.flits = s.flits.filter (fun x => x.via.isSome) ∧ t.reducers = [] ∧ t.inbox = [] ∧
    t.alm = s.alm ∧ t.genActive = s.genActive ∧ t.member = s.member ∧ t.tick.count = s.tick.count ∧ ∀ c, t.core c = { s.core c with fails := [] } := by
  intro all
  obtain ⟨hdrop, hpatch, hcount, hact⟩ := s.dropStaged_spec
  generalize s.dropStaged = a at h hdrop hpatch hcount hact
  have hagrp : a.grp = s.grp := (congrArg State.grp hdrop :)
  have haflits : a.flits = s.flits := (congrArg State.flits hdrop :)
  have haalm : a.alm = s.alm := (congrArg State.alm hdrop :)
  have hagen : a.genActive = s.genActive := (congrArg State.genActive hdrop :)
  have hamem : a.member = s.member := (congrArg State.member hdrop :)
  have hacore (c : CoreId) : a.core c = s.core c := State.core_of_cores (congrArg State.cores hdrop :) c
  clear hdrop
  obtain ⟨hrev, hlanes, hdraws, hkv, hfills, hledger, hcore⟩ := a.revertRequests_spec f.revert
  generalize a.revertRequests f.revert = b at h hrev hlanes hdraws hkv hfills hledger hcore
  have hbgrp : b.grp = s.grp := (congrArg State.grp hrev :).trans hagrp
  have hbflits : b.flits = s.flits := (congrArg State.flits hrev :).trans haflits
  have hbtick : b.tick = a.tick := (congrArg State.tick hrev :)
  have hbfw : b.fw = a.fw := (congrArg State.fw hrev :)
  have hbalm : b.alm = s.alm := (congrArg State.alm hrev :).trans haalm
  have hbgen : b.genActive = s.genActive := (congrArg State.genActive hrev :).trans hagen
  have hbmem : b.member = s.member := (congrArg State.member hrev :).trans hamem
  clear hrev
  have hfs := fencedBy_eq_nil f s.grp.record.members
  have hmem := mem_fencedBy f s.grp.record.members
  generalize fencedBy f s.grp.record.members = fs at h hfs hmem
  obtain ⟨hall, hgrp⟩ := h
  have htick : t.tick = (b.ruled f s.grp.record fs).tick := (congrArg State.tick hall :)
  have hsrv : t.srv = b.srv := (congrArg State.srv hall :)
  have hflits : t.flits = b.flits.filter fun x => x.via.isSome := (congrArg State.flits hall :)
  have hstate : t.grp.state = if fs.isEmpty && !b.grp.inFailover then .serving else .failover := (congrArg Group.state hgrp :)
  have hout : t.grp.fencedOut = b.grp.fencedOut ++ fs.filter fun m => !b.grp.fencedOut.contains m := (congrArg Group.fencedOut hgrp :)
  have hin : t.grp.inFailover = (b.grp.inFailover || !fs.isEmpty) := (congrArg Group.inFailover hgrp :)
  have hleap : t.tick.leapNext = (fs.isEmpty && !b.grp.inFailover) := (congrArg Tick.leapNext htick :)
  rw [hbgrp] at hstate hout hin hleap
  refine ⟨(congrArg Group.record hgrp :), (congrArg Tick.seq htick :), (congrArg Group.ruling hgrp :), (congrArg Group.convenes hgrp :), ?_, ?_, fun ha hi => ?_, fun ha => ?_, fun m hm hk => ?_, ?_, ?_, ?_, ?_, ?_, ?_,
    (congrArg State.reducers hall :), (congrArg State.inbox hall :), (congrArg State.alm hall :).trans hbalm, (congrArg State.genActive hall :).trans hbgen, (congrArg State.member hall :).trans hbmem, ?_, fun c => ?_⟩
  · rw [htick]
    exact (congrArg Tick.patch hbtick).trans hpatch
  · exact (congrArg (fun u : State => u.fw.act) hall :).trans ((congrArg Firmware.act hbfw).trans hact)
  · have he : fs.isEmpty = true := hfs.2 ha
    rw [hstate, hleap, hout, he, hi, List.isEmpty_iff.1 he]
    exact ⟨rfl, rfl, List.append_nil _⟩
  · have he : (fs.isEmpty && !s.grp.inFailover) = false := by
      rcases ha with ha | hi
      · rw [Bool.eq_false_iff.2 fun he => ha (hfs.1 he)]
        rfl
      · rw [hi]
        exact Bool.and_false _
    rw [hstate, hleap, hin, he]
    refine ⟨rfl, rfl, ?_⟩
    cases hf : fs.isEmpty <;> cases hi : s.grp.inFailover <;> simp_all
  · rw [hout, List.mem_append, List.mem_filter]
    by_cases hx : m ∈ s.grp.fencedOut
    · exact .inl hx
    · exact .inr ⟨(hmem m).2 ⟨hm, hk⟩, by simpa using hx⟩
  · rw [hsrv, hlanes]
  · rw [hsrv, hdraws]
  · rw [hsrv, hkv]
  · rw [hsrv, hfills]
  · rw [hsrv, hledger]
  · rw [hflits, hbflits]
  · rw [htick]
    exact (congrArg Tick.count hbtick).trans hcount
  · have hcores : t.cores = b.cores := (congrArg State.cores hall :)
    exact ((State.core_of_cores hcores c).trans (hcore c)).trans (congrArg (fun k : Core => { k with fails := [] }) (hacore c))

/-- Settles O34. -/
theorem convenings : Obligations.Convenings := by
  unfold Obligations.Convenings
  refine ⟨?_, ?_⟩
  · intro f g s r keep x h0
    refine ⟨fun hg hm ho => conveneFrame_kept h0 hg hm ho, fun hp hc => ⟨fun ht hl hf hr ho hq hpath => ?_, fun ht hr => conveningRoundEnd_ends h0 hp hc ht hr⟩,
      fun hc hg hm hs hl hr => ruling_kept h0 hc hg hm hs hl hr, fun hc hh => groupSplit_fences h0 hc hh⟩
    exact ⟨conveningRuling_rules h0 hp hc ht hl hf hr ho hq hpath, s.makeRuling_group keep _, s.makeRuling_epoch keep _, rfl, rfl, fun m hm => s.makeRuling_bits s.keeps r.members _ hm⟩
  · intro f s h0 hp hr ht
    obtain ⟨hfence, hkeep⟩ := rulingApply_eq h0 hp hr ht
    refine ⟨fun hk => ⟨_, hfence hk, ?_⟩, fun hk => ?_⟩
    · have hf := s.fenced_fence
      exact ⟨hf.spare, hf.fenced, hf.record, hf.alm, hf.gen, hf.load, hf.reqs, hf.lanes, hf.flits, hf.evt, hf.cores⟩
    · obtain ⟨t, he, ht⟩ := hkeep hk
      exact ⟨t, he, rulingApply_kept ht⟩

end Sys2Proof.Machine
end

section
/-! Joining, restoring from the escrow, the end of the failover hold, and leaving (R438, R439, R441, R442, R445). -/
namespace Sys2Proof.Machine

/-! ### Joining -/

/-- The model dropped: rings, cores and the fabric stay (R437). -/
theorem State.dropModel_keeps (s : State) : s.dropModel.rings = s.rings ∧ s.dropModel.cores = s.cores ∧ s.dropModel.alm = none ∧ s.dropModel.srv.reqs = [] := ⟨rfl, rfl, rfl, rfl⟩

/-- A spare that a JOIN names takes its place (R438). -/
theorem State.takeJoin_spec {f : Join} {u : State} (hj : u.grp.joining = some f) (hs : u.grp.state = .spare) (hd : f.dest = u.addr) :
    let t := u.takeJoin
    t.member = f.member ∧ t.tick.count = f.n0 - 1 ∧ t.tick.seq = f.seq ∧ t.grp.record = f.record ∧
    t.grp.state = .failover ∧ t.grp.restoring = true ∧ t.grp.fenced = false ∧ t.grp.ready = false ∧ t.grp.joining = none ∧ t.alm = none ∧ t.srv.reqs = [] ∧ t.cores = u.cores ∧ t.rings = u.rings := by
  unfold State.takeJoin
  rw [hj]
  dsimp only
  obtain ⟨hrings, hcores, halm, hreqs⟩ := u.dropModel_keeps
  generalize u.dropModel = v at hrings hcores halm hreqs
  rw [if_neg (by simp [hd, hs])]
  exact ⟨rfl, rfl, rfl, rfl, rfl, rfl, rfl, rfl, rfl, halm, hreqs, hcores, hrings⟩

/-- JOIN at this spare's address (R438). -/
theorem join_taken {f : Join} {s : State} (h0 : s.power = 0) (hs : s.grp.state = .spare) (hd : f.dest = s.addr) (hr : s.fab.rack ≠ 1023) :
    (s.tick.phase = .applied → ∃ t, exec (.join f) s = .next t ∧ t.member = f.member ∧ t.tick.count = f.n0 - 1 ∧ t.tick.seq = f.seq ∧ t.grp.record = f.record ∧
      t.grp.state = .failover ∧ t.grp.restoring = true ∧ t.grp.fenced = false ∧ t.grp.ready = false ∧ t.grp.joining = none ∧ t.alm = none ∧ t.srv.reqs = [] ∧ t.cores = s.cores ∧ t.rings = s.rings) ∧
    (s.tick.phase ≠ .applied → exec (.join f) s = .next { s with grp := { s.grp with joining := some f } }) := by
  have he : exec (.join f) s = .next (if s.tick.phase = .applied then { s with grp := { s.grp with joining := some f } }.takeJoin else { s with grp := { s.grp with joining := some f } }) := by
    have hrack : (s.fab.rack == 1023) = false := beq_eq_false_iff_ne.2 hr
    refine if_neg ?_
    rw [hrack]
    simp [h0, hs, hd]
  refine ⟨fun hp => ⟨_, he.trans (congrArg Host.Outcome.next (if_pos hp)), ?_⟩, fun hp => he.trans (congrArg Host.Outcome.next (if_neg hp))⟩
  exact State.takeJoin_spec (u := { s with grp := { s.grp with joining := some f } }) rfl hs hd

/-- Rings aside, a record with members replaced leaves the state as it was, but for NO_SPARE (R438). -/
theorem State.replaceMembers_frame (s : State) (r : GroupRecord) (ms : List Nat) : { (s.replaceMembers r ms).1 with grp := { (s.replaceMembers r ms).1.grp with evt := s.grp.evt } } = s := by
  unfold State.replaceMembers
  refine foldl_keeps (f := fun (x : State × GroupRecord) m => match x.1.pickSpare (nth 0xFFFF x.2.memberPos m) x.2.sparePos with
    | some a =>
      let l := x.2.sparePos.erase a
      (x.1, { x.2 with memberPos := x.2.memberPos.set m a, sparePos := l ++ List.replicate (4 - l.length) 0xFFFF })
    | none => (x.1.grpBit 8, x.2)) (fun x => { x.1 with grp := { x.1.grp with evt := s.grp.evt } }) (fun x m => ?_) ms (s, r)
  split <;> rfl

theorem State.makeRuling_frame (s : State) (l : List Nat) (t : W48) : { (s.makeRuling l t).1 with grp := { (s.makeRuling l t).1.grp with evt := s.grp.evt } } = s :=
  State.replaceMembers_frame ..

/-- The member of an overdue JOIN (R438). -/
theorem State.overdue_of {s : State} {f : Join} (hn : s.tick.count = f.n0 ∨ laterThan s.tick.count f.n0 = true) (hs : ∀ p ∈ s.grp.stamps, p.member = f.member → p.tick ≠ f.n0 ∧ laterThan p.tick f.n0 = false) :
    s.overdue f = true := by
  unfold State.overdue
  have hnone : (s.grp.stamps.any fun x => x.member == f.member && (x.tick == f.n0 || laterThan x.tick f.n0)) = false := by
    refine List.any_eq_false.2 fun p hp => ?_
    by_cases hm : p.member = f.member
    · obtain ⟨h1, h2⟩ := hs p hp hm
      simp [h1, h2]
    · simp [hm]
  rw [hnone]
  rcases hn with h | h <;> simp [h]

/-- JOIN_TIMEOUT (R438). -/
theorem joinTimeout_rules {f : Join} {s : State} (h0 : s.power = 0) (hp : s.tick.phase = .applied) (hs : s.grp.state = .failover) (hf : f ∈ s.grp.sentJoins)
    (hn : s.tick.count = f.n0 ∨ laterThan s.tick.count f.n0 = true) (hst : ∀ p ∈ s.grp.stamps, p.member = f.member → p.tick ≠ f.n0 ∧ laterThan p.tick f.n0 = false)
    (ho : s.grp.rulingOut = none) (hr : s.grp.ruling = none) (hsch : s.fw.sch.runs = true) :
    ∃ t, exec .joinTimeout s = .next t ∧
      (∃ g, t.grp.rulingOut = some g ∧ t.grp.ruling = some g ∧ g.leader = s.member ∧ g.record.epoch = s.grp.record.epoch + 1 ∧
        (f.member < 16 → g.keep.getLsbD f.member = false)) ∧ t.grp.rulingAt = s.tick.count + 2 ∧ t.grp.sentJoins = s.grp.sentJoins ∧ t.cores = s.cores ∧ t.tick = s.tick := by
  have hlate : f.member ∈ (s.grp.sentJoins.filter s.overdue).map Join.member := List.mem_map_of_mem (List.mem_filter.2 ⟨hf, State.overdue_of hn hst⟩)
  have hne : ((s.grp.sentJoins.filter s.overdue).map Join.member).isEmpty = false := List.isEmpty_eq_false_iff_exists_mem.2 ⟨_, hlate⟩
  have he : exec .joinTimeout s = execJoinTimeout s := rfl
  unfold execJoinTimeout at he
  generalize (s.grp.sentJoins.filter s.overdue).map Join.member = late at hlate hne he
  dsimp only at he
  rw [if_neg (by rw [hne, ho, hr, hsch, hs]; simp [h0, hp])] at he
  have hframe := s.makeRuling_frame ((List.range s.grp.record.members).filter fun m => !late.contains m) (s.tick.count + 2)
  have hepoch := s.makeRuling_epoch ((List.range s.grp.record.members).filter fun m => !late.contains m) (s.tick.count + 2)
  have hbits := fun hm : f.member < 16 => s.makeRuling_bits (fun m => !late.contains m) s.grp.record.members (s.tick.count + 2) hm
  have hleader : (s.makeRuling ((List.range s.grp.record.members).filter fun m => !late.contains m) (s.tick.count + 2)).2.leader = s.member := rfl
  generalize s.makeRuling ((List.range s.grp.record.members).filter fun m => !late.contains m) (s.tick.count + 2) = x at he hframe hepoch hbits hleader
  refine ⟨_, he, ⟨x.2, rfl, rfl, hleader, hepoch, fun hm => Bool.eq_false_iff.2 fun hk => ?_⟩, rfl, (congrArg (fun u : State => u.grp.sentJoins) hframe :), (congrArg State.cores hframe :), (congrArg State.tick hframe :)⟩
  have := ((hbits hm).1 hk).2
  simp [hlate] at this

/-! ### Sections of the escrow -/

/-- ESCROW_BANK_ARRIVAL of the metadata region (R439). -/
theorem escrowBankArrival_metadata {i : Nat} {bs : Bytes} {s : State} (h0 : s.power = 0) (hr : s.grp.restoring = true) (hn : s.grp.ready = false) (hl : s.loadPhase = 0) (hm : s.load.metadata = [])
    (hf : formatOk bs = true) (hg : imgGen bs = s.grp.record.generation) :
    exec (.escrowBankArrival i bs) s = .next { s with load := { s.load with metadata := bs, own := [], fed := [], bankDone := [], resident := [] } } := by
  refine (if_neg ?_).trans ((if_pos ?_).trans (if_pos ?_))
  · simp [h0, hr, hn, hl]
  · rw [hm]
    rfl
  · simp [hf, hg]

/-- What the end of a section's arrival leaves of what has arrived. -/
def State.holdsLoad (s t : State) : Prop := { t.load with evt := s.load.evt } = s.load ∧ t.aux = s.aux

theorem State.holdsLoad_refl (s : State) : s.holdsLoad s := ⟨rfl, rfl⟩

theorem State.holdsLoad.trans {s t u : State} (h : s.holdsLoad t) (k : t.holdsLoad u) : s.holdsLoad u :=
  ⟨(congrArg (fun l : Load => { l with evt := s.load.evt }) k.1 :).trans h.1, k.2.trans h.2⟩

theorem State.holdsLoad_replaceBad (s : State) : s.holdsLoad s.replaceBad := by
  unfold State.replaceBad
  generalize s.badWritten = l
  induction l generalizing s with
  | nil => exact s.holdsLoad_refl
  | cons x l ih =>
    rw [List.foldl_cons]
    refine State.holdsLoad.trans ?_ (ih _)
    dsimp only
    split
    · exact ⟨rfl, rfl⟩
    · split
      · exact ⟨rfl, rfl⟩
      · unfold State.packageFault
        refine ⟨?_, ?_⟩
        · rw [State.post_load]
          rfl
        · rw [State.post_aux]
          rfl

/-- A section whose digest holds, taken (R439). -/
def State.sectionTaken (s : State) (i : Nat) (bs : Bytes) : State := { s with load := { s.load with own := smSet (fun _ => []) s.load.own i bs, fed := s.load.fed ++ [i] } }

/-- A section placed: a bank written, or an auxiliary section kept (R439). -/
def State.sectionPlaced (s : State) (e : SecEnt) (bs : Bytes) : State :=
  if e.shard then s.writeBank (asCore e.unit) e.kind e bs else { s with aux := s.aux ++ [(⟨e.kind, e.unit, e.load, bs⟩ : AuxSec)] }

/-- The end of a section's arrival: written arrays that fail are replaced, and the replacement is READY once all is there (R439). -/
def State.arrivalDone (s : State) : State := if s.badWritten.isEmpty then (if s.restored then { s with grp := { s.grp with ready := true } } else s) else s.replaceBad

theorem State.holdsLoad_arrivalDone (s : State) : s.holdsLoad s.arrivalDone := by
  unfold State.arrivalDone
  split
  · split <;> exact ⟨rfl, rfl⟩
  · exact s.holdsLoad_replaceBad

theorem State.spendWrites_load (s : State) (c : CoreId) (n : Nat) : ((s.spendWrites c n).load, (s.spendWrites c n).aux) = (s.load, s.aux) := rfl

/-- A bank written is done, and leaves the rest of the load (R439). -/
theorem State.writeBank_load (s : State) (c : CoreId) (b : Nat) (e : SecEnt) (bs : Bytes) :
    { (s.writeBank c b e bs).load with written := s.load.written } = { s.load with bankDone := s.load.bankDone ++ [64 * c.val + b] } ∧ (s.writeBank c b e bs).aux = s.aux := by
  unfold State.writeBank
  dsimp only
  generalize List.range 64 = l
  have h := foldl_keeps (f := fun (u : State) i => u.writeArray c (u.phys c (64 * b + i)) (64 * b + i) e bs) (fun u => (u.load, u.aux)) (fun _ _ => rfl) l s
  generalize l.foldl (fun u i => u.writeArray c (u.phys c (64 * b + i)) (64 * b + i) e bs) s = u at h
  generalize 64 * 1120 = n
  have hs := u.spendWrites_load c n
  generalize u.spendWrites c n = v at hs
  obtain ⟨hl, ha⟩ := Prod.mk.inj (hs.trans h)
  refine ⟨?_, ha⟩
  rw [hl]

/-- What a section placed leaves of the load, and where it stands (R439). -/
theorem State.sectionPlaced_spec (s : State) (e : SecEnt) (bs : Bytes) :
    (s.sectionPlaced e bs).load.fed = s.load.fed ∧ (s.sectionPlaced e bs).load.own = s.load.own ∧ (s.sectionPlaced e bs).load.metadata = s.load.metadata ∧
    (e.shard = false → (⟨e.kind, e.unit, e.load, bs⟩ : AuxSec) ∈ (s.sectionPlaced e bs).aux) ∧ (e.shard = true → 64 * (asCore e.unit).val + e.kind ∈ (s.sectionPlaced e bs).load.bankDone) := by
  unfold State.sectionPlaced
  cases he : e.shard with
  | true =>
    rw [if_pos rfl]
    obtain ⟨hl, -⟩ := s.writeBank_load (asCore e.unit) e.kind e bs
    generalize s.writeBank (asCore e.unit) e.kind e bs = u at hl
    have hdone : u.load.bankDone = s.load.bankDone ++ [64 * (asCore e.unit).val + e.kind] := (congrArg Load.bankDone hl :)
    refine ⟨(congrArg Load.fed hl :), (congrArg Load.own hl :), (congrArg Load.metadata hl :), fun h => absurd h (by decide), fun _ => ?_⟩
    rw [hdone]
    exact List.mem_append_right _ (List.mem_singleton.2 rfl)
  | false =>
    rw [if_neg (by decide)]
    exact ⟨rfl, rfl, rfl, fun _ => List.mem_append_right _ (List.mem_singleton.2 rfl), fun h => absurd h (by decide)⟩

/-- ESCROW_BANK_ARRIVAL of a section whose digest holds (R439). -/
theorem escrowBankArrival_eq {i : Nat} {bs : Bytes} {e : SecEnt} {s : State} (h0 : s.power = 0) (hr : s.grp.restoring = true) (hn : s.grp.ready = false) (hl : s.loadPhase = 0) (hm : s.load.metadata ≠ [])
    (he : s.section? i = some e) (hem : e.member = s.member) (hi : i ∉ s.load.fed) (hlen : bs.length = e.len) (hd : digest bs = e.digest) :
    exec (.escrowBankArrival i bs) s = if e.shard && s.critical (asCore e.unit) then .next (s.modCore (asCore e.unit) fun k => k.marginEvent 4)
      else .next ((s.sectionTaken i bs).sectionPlaced e bs).arrivalDone := by
  have hrun : exec (.escrowBankArrival i bs) s = execEscrowBankArrival i bs s := rfl
  unfold execEscrowBankArrival at hrun
  have hnone : s.load.metadata.isEmpty = false := by simpa using hm
  rw [if_neg (by simp [h0, hr, hn, hl]), if_neg (by rw [hnone]; decide), he] at hrun
  dsimp only at hrun
  rw [if_neg (by simp [hem, hi, hlen, hd])] at hrun
  exact hrun

theorem escrowBankArrival_section {i : Nat} {bs : Bytes} {e : SecEnt} {s : State} (h0 : s.power = 0) (hr : s.grp.restoring = true) (hn : s.grp.ready = false) (hl : s.loadPhase = 0) (hm : s.load.metadata ≠ [])
    (he : s.section? i = some e) (hem : e.member = s.member) (hi : i ∉ s.load.fed) (hlen : bs.length = e.len) (hd : digest bs = e.digest) :
    (e.shard = true → s.critical (asCore e.unit) = true → exec (.escrowBankArrival i bs) s = .next (s.modCore (asCore e.unit) fun k => k.marginEvent 4)) ∧
    (e.shard = false ∨ s.critical (asCore e.unit) = false → ∃ t, exec (.escrowBankArrival i bs) s = .next t ∧
      i ∈ t.load.fed ∧ smGet (fun _ => []) t.load.own i = bs ∧ t.load.metadata = s.load.metadata ∧
      (e.shard = false → (⟨e.kind, e.unit, e.load, bs⟩ : AuxSec) ∈ t.aux) ∧ (e.shard = true → 64 * (asCore e.unit).val + e.kind ∈ t.load.bankDone)) := by
  have hrun := escrowBankArrival_eq h0 hr hn hl hm he hem hi hlen hd
  refine ⟨fun hsh hc => hrun.trans (if_pos (by rw [hsh, hc]; rfl)), fun h => ⟨_, hrun.trans (if_neg ?_), ?_⟩⟩
  · rcases h with h | h <;> simp [h]
  · obtain ⟨hfed, hown, hmeta, haux, hbank⟩ := (s.sectionTaken i bs).sectionPlaced_spec e bs
    generalize (s.sectionTaken i bs).sectionPlaced e bs = u at hfed hown hmeta haux hbank
    obtain ⟨hload, hauxs⟩ := u.holdsLoad_arrivalDone
    generalize u.arrivalDone = t at hload hauxs
    have htfed : t.load.fed = s.load.fed ++ [i] := (congrArg Load.fed hload :).trans hfed
    have htown : t.load.own = smSet (fun _ => []) s.load.own i bs := (congrArg Load.own hload :).trans hown
    have htbank : t.load.bankDone = u.load.bankDone := (congrArg Load.bankDone hload :)
    rw [htfed, htown, htbank, hauxs]
    exact ⟨List.mem_append_right _ (List.mem_singleton.2 rfl), smGet_smSet_same _ _ _ _, (congrArg Load.metadata hload :).trans hmeta, haux, hbank⟩

/-! ### The end of the failover hold -/

/-- Steps that leave the count and the record. -/
def State.sameTime (s t : State) : Prop := t.tick.count = s.tick.count ∧ t.grp.record = s.grp.record

theorem State.sameTime.trans {s t u : State} (h : s.sameTime t) (k : t.sameTime u) : s.sameTime u := ⟨k.1.trans h.1, k.2.trans h.2⟩

theorem State.sameTime_foldl {α : Type} {f : State → α → State} (h : ∀ (s : State) x, s.sameTime (f s x)) (l : List α) (s : State) : s.sameTime (l.foldl f s) := by
  induction l generalizing s with
  | nil => exact ⟨rfl, rfl⟩
  | cons x l ih => exact (h s x).trans (ih _)

theorem State.sameTime_installAlmanac (s : State) (a : Almanac) (aux : List AuxSec) : s.sameTime (s.installAlmanac a aux) := by
  unfold State.installAlmanac
  refine (State.sameTime_foldl (f := fun (s : State) e => s.placeCore a aux e) (fun _ _ => ⟨rfl, rfl⟩) a.cores s).trans ?_
  dsimp only
  generalize a.cores.foldl (fun s e => s.placeCore a aux e) s = u
  exact ⟨rfl, rfl⟩

theorem State.sameTime_enterService (s : State) : s.sameTime s.enterService := by
  unfold State.enterService
  split
  · exact ⟨rfl, rfl⟩
  · split
    · exact ⟨rfl, rfl⟩
    · exact s.sameTime_installAlmanac _ _

theorem State.sameTime_moveRequest (s : State) (i : Nat) (r : Req) : s.sameTime (s.moveRequest i r) := by
  unfold State.moveRequest
  split
  · exact ⟨rfl, rfl⟩
  · unfold State.sameTime
    dsimp only
    rw [State.post_tick, State.post_grp]
    split
    · exact ⟨rfl, rfl⟩
    · split <;> exact ⟨rfl, rfl⟩

theorem State.sameTime_takeRequests (s : State) : s.sameTime s.takeRequests := by
  unfold State.takeRequests
  split
  · exact ⟨rfl, rfl⟩
  · exact State.sameTime_foldl (f := fun (s : State) (e : Nat × Req) => s.moveRequest e.1 e.2) (fun s e => s.sameTime_moveRequest e.1 e.2) _ s

theorem State.sameTime_orderRebuilds (s : State) : s.sameTime s.orderRebuilds := by
  unfold State.orderRebuilds
  dsimp only
  generalize (if s.grp.restoring then [s.member] else s.grp.fencedOut) = lost
  split
  · exact ⟨rfl, rfl⟩
  · refine State.sameTime_foldl (fun s i => ?_) _ s
    split <;> exact ⟨rfl, rfl⟩

/-- FAILOVER_HOLD_END once every stamp carries READY (R439 to R441). -/
theorem failoverHoldEnd_ends {s : State} (h0 : s.power = 0) (hp : s.tick.phase = .applied) (hs : s.grp.state = .failover)
    (hready : ∀ j, j < s.grp.record.members → ∃ p, s.stampOf (s.tick.count - 1) j = some p ∧ p.ready = true) :
    ∃ t, exec .failoverHoldEnd s = .next t ∧ t.grp.state = .serving ∧ t.grp.fencedOut = [] ∧ t.grp.inFailover = false ∧ t.grp.restoring = false ∧ t.grp.sentJoins = [] ∧ t.tick.leapNext = true ∧
      t.tick.count = s.tick.count ∧ t.grp.record = s.grp.record := by
  refine ⟨_, if_neg fun hc => ?_, ?_⟩
  · rcases (Bool.or_eq_true _ _).mp hc with hc | hc
    · rw [hs] at hc
      simp [h0, hp] at hc
    · rw [Bool.not_eq_true', List.all_eq_false] at hc
      obtain ⟨m, hm, hx⟩ := hc
      obtain ⟨p, hst, hr⟩ := hready m (List.mem_range.1 hm)
      rw [hst] at hx
      exact hx hr
  · have h := (s.sameTime_enterService.trans (State.sameTime_takeRequests _)).trans (State.sameTime_orderRebuilds _)
    generalize s.enterService.takeRequests.orderRebuilds = u at h
    obtain ⟨hc, hr⟩ := h
    rw [State.post_grp, State.post_tick]
    exact ⟨rfl, rfl, rfl, rfl, rfl, rfl, hc, hr⟩

/-! ### The escrow filled again, and leaving -/

/-- Sections put under their numbers, each with a content that its number alone gives. -/
theorem smGet_foldl_sections {α : Type} (g : Nat → Bytes) (es : List (Nat × α)) (m : SMap Bytes) {i : Nat} (h : (∃ e, (i, e) ∈ es) ∨ smGet (fun _ => []) m i = g i) :
    smGet (fun _ => []) (es.foldl (fun m x => smSet (fun _ => []) m x.1 (g x.1)) m) i = g i := by
  induction es generalizing m with
  | nil => exact h.resolve_left fun ⟨e, he⟩ => List.not_mem_nil he
  | cons x es ih =>
    refine ih _ ?_
    by_cases hx : i = x.1
    · right
      rw [hx]
      exact smGet_smSet_same _ _ _ _
    · refine h.imp (fun ⟨e, he⟩ => ⟨e, (List.mem_cons.1 he).resolve_left fun heq => hx ?_⟩) fun hold => (smGet_smSet_other _ _ _ _ _ hx).trans hold
      rw [← heq]

/-- ESCROW_REFILL (R442). -/
theorem escrowRefill_fills {i : Nat} {s : State} (h0 : s.power = 0) (hs : s.grp.state = .serving) (hm : s.load.oldMeta ≠ []) (he : s.load.oldEscrow = []) :
    ∃ m, exec .escrowRefill s = .next { s with load := { s.load with oldEscrow := m } } ∧
      (∀ e, (sectionsOf s.load.oldMeta)[i]? = some e → s.serves e.member = true → smGet (fun _ => []) m i = Config.peerSection s.genActive i) := by
  refine ⟨_, if_neg ?_, fun e hi hserves => ?_⟩
  · rw [hs, he]
    simp [h0, hm]
  · exact smGet_foldl_sections (fun i => Config.peerSection s.genActive i) _ _ (.inl ⟨e, List.mem_filter.2 ⟨(mem_enum (sectionsOf s.load.oldMeta) i e).2 hi, hserves⟩⟩)

/-- LEAVE of another member (R445). -/
theorem leave_noted {m : Nat} {s : State} (h0 : s.power = 0) (hs : s.grp.state ≠ .spare) (hm : m < s.grp.record.members) (ho : m ≠ s.member) (hl : m ∉ s.grp.left) :
    exec (.leave s.grp.record.groupId m) s = .next { s with grp := { s.grp with left := s.grp.left ++ [m] } } := by
  have hadd : addNew s.grp.left m = s.grp.left ++ [m] := if_neg hl
  rw [← hadd]
  refine if_neg ?_
  have hspare : (s.grp.state == .spare) = false := beq_eq_false_iff_ne.2 hs
  rw [hspare]
  simp [h0, ho, Nat.not_le.2 hm]

/-- PRESENCE_BREAK (R445, R576). -/
theorem presenceBreak_leaves {s : State} (h0 : s.power = 0) (hp : s.fab.present = true) : ∃ t, exec .presenceBreak s = .next t ∧ t.fab.present = false ∧
    t.fab.frames = s.fab.frames ++ (s.others.filterMap fun j => (s.ownLink (s.memberAddr j)).map fun k =>
      (k, OutFrame.leave (s.memberAddr j) s.grp.record.groupId s.member (s.tick.count.setWidth 16))) ∧ { t with fab := s.fab } = s := by
  refine ⟨_, if_neg (by simp [h0, hp]), rfl, ?_, ?_⟩
  · unfold State.sendLeave State.sendFrames
    rw [if_pos hp]
    dsimp only
    rw [List.filterMap_map]
    rfl
  · exact s.sendFrames_fab _

/-- Settles O35. -/
theorem failover : Obligations.Failover := by
  unfold Obligations.Failover
  intro f i m bs s h0 at2
  exact ⟨fun hs hd hr => join_taken h0 hs hd hr, fun hp hs hf hn hst ho hr hsch => joinTimeout_rules h0 hp hs hf hn hst ho hr hsch,
    fun hr hn hl hm hf hg => escrowBankArrival_metadata h0 hr hn hl hm hf hg, fun hr hn hl hm e he hem hi hlen hd => escrowBankArrival_section h0 hr hn hl hm he hem hi hlen hd,
    fun hp hs hready => failoverHoldEnd_ends h0 hp hs hready, fun hs hm he => escrowRefill_fills h0 hs hm he, fun hs hm ho hl => leave_noted h0 hs hm ho hl, fun hp => presenceBreak_leaves h0 hp⟩

end Sys2Proof.Machine
end

section
/-!
The canonical form of the addressed memories under every command. Each helper of the model that yields a state gets one lemma (`_canonical`): an `↔` where
it writes no memory, an implication where it does.
-/
namespace Sys2Proof.Machine

/-- An outcome whose next state, if it has one, is canonical. -/
def OutCanonical : Out → Prop
  | .next t => t.canonical
  | _ => True

/-- What firing comes to is canonical. -/
def FireCanonical : Fire → Prop
  | .hold => True
  | .halt _ t => t.canonical
  | .go t _ _ => t.canonical

@[simp] theorem outCanonical_next (t : State) : OutCanonical (.next t) ↔ t.canonical := Iff.rfl

@[simp] theorem outCanonical_ite (p : Prop) [Decidable p] (a b : Out) :
    OutCanonical (if p then a else b) ↔ if p then OutCanonical a else OutCanonical b := by split <;> rfl

@[simp] theorem fireCanonical_hold : FireCanonical .hold := trivial

@[simp] theorem fireCanonical_halt (t : State) (n : Nat) : FireCanonical (.halt n t) ↔ t.canonical := Iff.rfl

@[simp] theorem fireCanonical_go (t : State) (n : Nat) (p : Option W64) : FireCanonical (.go t n p) ↔ t.canonical := Iff.rfl

@[simp] theorem fireCanonical_ite (p : Prop) [Decidable p] (a b : Fire) :
    FireCanonical (if p then a else b) ↔ if p then FireCanonical a else FireCanonical b := by split <;> rfl

/-! ### Updates of the state -/

/-- An update of the state that leaves the cores, the serving dies and the rings. -/
@[simp] theorem State.canonical_mk (s : State) (pending fab grp free fuses dies tick alm member flits nextFlit reducers inbox wire outbound nextReq srv fw
    loadPhase aux genActive genStaged chg regs pow load power) :
    (State.mk pending fab grp free fuses s.cores dies tick alm member flits nextFlit reducers inbox wire outbound nextReq s.serve srv s.rings fw
      loadPhase aux genActive genStaged chg regs pow load power).canonical ↔ s.canonical := Iff.rfl

/-- An update of the rings that leaves the carve-outs. -/
@[simp] theorem State.canonical_mk_rings (s : State) (pending fab grp free fuses dies tick alm member flits nextFlit reducers inbox wire outbound nextReq srv fw
    loadPhase aux genActive genStaged chg regs pow load power) (sets queues begun carveSize carveAt ringTab0 ringTab1 ringAdmin fwEvt stopped) :
    (State.mk pending fab grp free fuses s.cores dies tick alm member flits nextFlit reducers inbox wire outbound nextReq s.serve srv
      (HostIf.mk sets queues begun s.rings.carve0 s.rings.carve1 carveSize carveAt ringTab0 ringTab1 ringAdmin fwEvt stopped) fw
      loadPhase aux genActive genStaged chg regs pow load power).canonical ↔ s.canonical := Iff.rfl

@[simp] theorem Memory.wf_core {s : State} (h : s.canonical) (c : CoreId) : Memory.wf (s.core c).store = true := h.1 c
@[simp] theorem Memory.wf_sd {s : State} (h : s.canonical) (n : Nat) : Memory.wf (s.sd n).dram = true := h.2.1 n
@[simp] theorem Memory.wf_carve {s : State} (h : s.canonical) (n : Nat) : Memory.wf (s.carve n) = true := by
  unfold State.carve
  split
  · exact h.2.2.1
  · exact h.2.2.2

/-- A core whose store is in canonical form. -/
@[simp] theorem State.setCore_canonical {s : State} (h : s.canonical) (c : CoreId) {k : Core} (hk : Memory.wf k.store = true) : (s.setCore c k).canonical := by
  refine ⟨fun d => ?_, h.2⟩
  rcases eq_or_ne d c with rfl | hd
  · simpa using hk
  · rw [State.core_setCore_other _ _ _ _ hd]
    exact h.1 d

@[simp] theorem State.setCore_canonical_iff (s : State) (c : CoreId) {k : Core} (hk : k.store = (s.core c).store) :
    (s.setCore c k).canonical ↔ s.canonical := by
  refine ⟨fun h => ⟨fun d => ?_, h.2⟩, fun h => s.setCore_canonical h c (hk ▸ h.1 c)⟩
  rcases eq_or_ne d c with rfl | hd
  · have := h.1 d
    rwa [State.core_setCore_same, hk] at this
  · have := h.1 d
    rwa [State.core_setCore_other _ _ _ _ hd] at this

@[simp] theorem State.modCore_canonical_iff (s : State) (c : CoreId) {f : Core → Core} (hf : (f (s.core c)).store = (s.core c).store) :
    (s.modCore c f).canonical ↔ s.canonical := s.setCore_canonical_iff c hf

@[simp] theorem State.modCore_canonical {s : State} (h : s.canonical) (c : CoreId) {f : Core → Core} (hf : ∀ k, Memory.wf k.store = true → Memory.wf (f k).store = true) :
    (s.modCore c f).canonical := s.setCore_canonical h c (hf _ (h.1 c))

@[simp] theorem State.setDie_canonical (s : State) (d : DieId) (x : Die) : (s.setDie d x).canonical ↔ s.canonical := Iff.rfl
@[simp] theorem State.modDie_canonical (s : State) (d : DieId) (f : Die → Die) : (s.modDie d f).canonical ↔ s.canonical := Iff.rfl

@[simp] theorem State.setRing_canonical (s : State) (i : Nat) (r : RingSet) : (s.setRing i r).canonical ↔ s.canonical := Iff.rfl
@[simp] theorem State.lose_canonical (s : State) (i : Nat) (r : Nat) : (s.lose i r).canonical ↔ s.canonical := Iff.rfl

/-! ### The core store under the named updates of a core -/

@[simp] theorem Core.ite_store (p : Prop) [Decidable p] (a b : Core) : (if p then a else b).store = if p then a.store else b.store := apply_ite Core.store p a b

@[simp] theorem Core.flag_store (k : Core) (i : Nat) : (k.flag i).store = k.store := by
  simp only [Core.flag]
  split_ifs <;> rfl
@[simp] theorem Core.flagIf_store (k : Core) (b : Bool) (i : Nat) : (k.flagIf b i).store = k.store := by
  cases b <;> simp [Core.flagIf]
@[simp] theorem Core.marginEvent_store (k : Core) (i : Nat) : (k.marginEvent i).store = k.store := (rfl)
@[simp] theorem Core.record_store (k : Core) (code : Nat) (pc : W64) (t : W48) : (k.record code pc t).store = k.store := by
  unfold Core.record
  split_ifs <;> rfl
@[simp] theorem Core.dispatch_store (k : Core) (u : UnitKind) (done : Option Nat) (re we : List Extent) (sd : Option SReg) (pd : Option PReg)
    (arrs : List Nat) (iss : Option Issue) (fl : W32) : (k.dispatch u done re we sd pd arrs iss fl).store = k.store := rfl
@[simp] theorem Core.pendIf_store (k : Core) (b : Bool) (id i : Nat) : (k.pendIf b id i).store = k.store := by
  cases b <;> rfl
@[simp] theorem Core.setArr_store (k : Core) (p : Nat) (x : ArrayInfo) : (k.setArr p x).store = k.store := (rfl)
@[simp] theorem Core.modArr_store (k : Core) (p : Nat) (f : ArrayInfo → ArrayInfo) : (k.modArr p f).store = k.store := (rfl)
/-- A fold of core updates that leave the store. -/
theorem Core.foldl_store {α : Type} {f : Core → α → Core} (hf : ∀ k x, (f k x).store = k.store) (l : List α) (k : Core) : (l.foldl f k).store = k.store := by
  induction l generalizing k with
  | nil => rfl
  | cons x l ih => rw [List.foldl_cons, ih, hf]
@[simp] theorem Core.putAccs_store (k : Core) (es : List (Nat × BitVec 256)) : (k.putAccs es).store = k.store :=
  Core.foldl_store (by intros; rfl) es k
@[simp] theorem Core.queueHoliday_store (k : Core) (p prio reason : Nat) : (k.queueHoliday p prio reason).store = k.store := by
  unfold Core.queueHoliday
  split_ifs <;> rfl
@[simp] theorem Core.exhausted_store (k : Core) (phys reason : Nat) (t : W48) : (k.exhausted phys reason t).store = k.store := by
  simp only [Core.exhausted, Core.queueHoliday_store, Core.modArr_store, Core.flag_store, Core.event_store]
  split <;> rfl
@[simp] theorem Core.noteReads_store (k : Core) (x : ArrayInfo) (fp4 : Bool) (p : Nat) (rows : List Nat) (faults : List ReadFault) :
    (k.noteReads x fp4 p rows faults).store = k.store := by
  simp only [Core.noteReads]
  split_ifs <;> rfl
@[simp] theorem Core.setIssue_store (k : Core) (id done : Nat) (iss : Issue) : (k.setIssue id done iss).store = k.store := (rfl)
@[simp] theorem Core.failedPass_store (k : Core) (t : W48) (phys : Nat) (f : PassFail) : (k.failedPass t phys f).store = k.store := by
  simp only [Core.failedPass]
  split_ifs <;> rfl
@[simp] theorem Core.dropFails_store (k : Core) (t : W48) : (k.dropFails t).store = k.store := (rfl)
@[simp] theorem Core.countFails_store (k : Core) (t now : W48) : (k.countFails t now).store = k.store :=
  Core.foldl_store (by intros; rfl) _ _
@[simp] theorem releasePass_store (k : Core) (id done : Nat) (iss : Issue) (arrs : List ArrPlan) (ts : List ErrTerm) :
    (releasePass k id done iss arrs ts).store = k.store := by
  simp only [releasePass]
  split <;> simp
@[simp] theorem Core.rewrite_store (k : Core) : k.rewrite.store = k.store := (rfl)
@[simp] theorem Core.hstate_store (k : Core) (p : Nat) (h : HState) : (k.hstate p h).store = k.store := (rfl)
@[simp] theorem Core.beginHoliday_store (k : Core) (h : Holiday) (q : HolidayReq) : (k.beginHoliday h q).store = k.store := (rfl)
@[simp] theorem Core.dropHoliday_store (k : Core) (h : Holiday) : (k.dropHoliday h).store = k.store := (rfl)
@[simp] theorem Core.holidayStep_store (k : Core) (orig : Nat) (f : Holiday → Holiday) : (k.holidayStep orig f).store = k.store := (rfl)
@[simp] theorem Core.collect_store (k : Core) (act : Core → Core) : (k.collect act).1.store = (act { k with status := 0 }).store := (rfl)
@[simp] theorem Core.foldl_pend_store {α : Type} (f : α → Nat) (id : Nat) (l : List α) (k : Core) : (l.foldl (fun k x => k.pend id (f x)) k).store = k.store :=
  Core.foldl_store (f := fun k x => k.pend id (f x)) (fun _ _ => rfl) l k
@[simp] theorem Core.foldl_modArr_store {α : Type} (p : α → Nat) (f : α → ArrayInfo → ArrayInfo) (l : List α) (k : Core) :
    (l.foldl (fun k x => k.modArr (p x) (f x)) k).store = k.store :=
  Core.foldl_store (f := fun k x => k.modArr (p x) (f x)) (fun _ _ => rfl) l k
@[simp] theorem Core.gradeEve_store (k : Core) : k.gradeEve.store = k.store := Core.foldl_store (by intros; rfl) _ _
@[simp] theorem Core.swept_store (k : Core) (t n : Nat) : (k.swept t n).store = k.store := (rfl)
@[simp] theorem Core.stop_store (k : Core) : k.stop.store = k.store := (rfl)
@[simp] theorem Core.lockCheck_store (k : Core) : k.lockCheck.store = k.store := (rfl)
@[simp] theorem Core.clearEvents_store (k : Core) (v : W32) : (k.clearEvents v).store = k.store := (rfl)
@[simp] theorem Core.clearExc_store (k : Core) : k.clearExc.store = k.store := (rfl)
@[simp] theorem Core.applyReg_store (k : Core) (off : Nat) (v : W32) : (k.applyReg off v).store = k.store := by
  unfold Core.applyReg
  split <;> simp [apply_ite Core.store]
@[simp] theorem Core.usableFrom_store (k : Core) (lo hi t n : Nat) : (k.usableFrom lo hi t n).store = k.store := (rfl)
@[simp] theorem Core.startSlot_store (k : Core) (c n slot : Nat) (entry : Option Nat) : (k.startSlot c n slot entry).store = k.store := by
  have h := Core.foldl_store (f := fun (k : Core) e => k.markLines (e.1 + n % 3 * e.2) (e.1 + n % 3 * e.2 + e.2) false) (fun _ _ => rfl) k.recvMap k
  simp only [Core.startSlot]
  cases entry <;> simpa using h
@[simp] theorem Core.newTick_store (k : Core) : k.newTick.store = k.store := (rfl)
theorem coreReset_store (c : CoreId) (k : Core) : (coreReset c k).store = [] := rfl
theorem Core.afterReset_store (f : Fuses) (c : Nat) (k : Core) : (k.afterReset f c).store = [] := rfl

/-! ### Core updates that write the store -/

@[simp] theorem Core.storeAt_wf (k : Core) (a : Nat) (bs : Bytes) (h : Memory.wf k.store = true) : Memory.wf (k.storeAt a bs).store = true :=
  writeBytes_wf _ _ _ h
@[simp] theorem Core.unitWrite_wf (k : Core) (a : Nat) (bs : Bytes) (h : Memory.wf k.store = true) : Memory.wf (k.unitWrite a bs).store = true :=
  writeBytes_wf _ _ _ h
/-- A fold of core updates that keep the canonical form of the store. -/
theorem Core.foldl_wf {α : Type} {f : Core → α → Core} (hf : ∀ k x, Memory.wf k.store = true → Memory.wf (f k x).store = true) (l : List α) {k : Core}
    (h : Memory.wf k.store = true) : Memory.wf (l.foldl f k).store = true := by
  induction l generalizing k with
  | nil => exact h
  | cons x l ih => exact ih (hf k x h)
@[simp] theorem Core.putRow_wf (k : Core) (n : W48) (d : Desc) (j : Nat) (xs : List Nat) (h : Memory.wf k.store = true) :
    Memory.wf (k.putRow n d j xs).store = true := k.unitWrite_wf _ _ h
@[simp] theorem Core.putRows_wf (k : Core) (n : W48) (d : Desc) (rs : List (List Nat)) (h : Memory.wf k.store = true) :
    Memory.wf (k.putRows n d rs).store = true := Core.foldl_wf (fun k _ => k.putRow_wf _ _ _ _) _ h
@[simp] theorem Core.putEntry_wf (k : Core) (n : W48) (d : Desc) (i : Nat) (v : BitVec 256) (h : Memory.wf k.store = true) :
    Memory.wf (k.putEntry n d i v).store = true := by
  simp only [Core.putEntry]
  split
  · exact h
  · exact k.unitWrite_wf _ _ h
@[simp] theorem Core.putEntries_wf (k : Core) (n : W48) (d : Desc) (vs : List (BitVec 256)) (h : Memory.wf k.store = true) :
    Memory.wf (k.putEntries n d vs).store = true := Core.foldl_wf (fun k _ => k.putEntry_wf _ _ _ _) _ h
@[simp] theorem Core.putResults_wf (k : Core) (n : W48) (d : Desc) (rs : List (List (Nat × Bool × Bool))) (h : Memory.wf k.store = true) :
    Memory.wf (k.putResults n d rs).store = true := by simp [Core.putResults, h]
@[simp] theorem Core.putRaw_wf (k : Core) (n : W48) (d : Desc) (j : Nat) (bs : Bytes) (h : Memory.wf k.store = true) :
    Memory.wf (k.putRaw n d j bs).store = true := k.unitWrite_wf _ _ h
@[simp] theorem Core.putRaws_wf (k : Core) (n : W48) (d : Desc) (rs : List Bytes) (h : Memory.wf k.store = true) :
    Memory.wf (k.putRaws n d rs).store = true := Core.foldl_wf (fun k _ => k.putRaw_wf _ _ _ _) _ h
@[simp] theorem writeAnswer_wf (q : ServeReq) (rows : List (List Nat)) (k : Core) (h : Memory.wf k.store = true) :
    Memory.wf (writeAnswer q rows k).store = true := Core.foldl_wf (fun k _ => k.unitWrite_wf _ _) _ h
@[simp] theorem Core.putRecord_wf (k : Core) (n : W48) (d : Desc) (j : Nat) (aw : ActW) (q : QRow) (h : Memory.wf k.store = true) :
    Memory.wf (k.putRecord n d j aw q).store = true :=
  Core.unitWrite_wf _ _ _ (Core.unitWrite_wf _ _ _ (k.unitWrite_wf _ _ h))

/-! ### Branches and folds -/

@[simp] theorem State.ite_canonical (p : Prop) [Decidable p] (a b : State) : (if p then a else b).canonical ↔ if p then a.canonical else b.canonical := by
  split <;> rfl

@[simp] theorem State.ite_fst_canonical {β : Type} (p : Prop) [Decidable p] (a b : State × β) :
    (if p then a else b).1.canonical ↔ if p then a.1.canonical else b.1.canonical := by split <;> rfl

@[simp] theorem State.foldl_canonical {α : Type} {f : State → α → State} (hf : ∀ s x, s.canonical → (f s x).canonical) (l : List α) {s : State} (h : s.canonical) :
    (l.foldl f s).canonical := by
  induction l generalizing s with
  | nil => exact h
  | cons x l ih => exact ih (hf s x h)

/-- A fold over pairs of a state and a result. -/
theorem foldl_fst_canonical {α β : Type} {f : State × β → α → State × β} (hf : ∀ x a, x.1.canonical → (f x a).1.canonical) (l : List α) {x : State × β}
    (h : x.1.canonical) : (l.foldl f x).1.canonical := by
  induction l generalizing x with
  | nil => exact h
  | cons a l ih => exact ih (hf x a h)

/-- A chain of steps that each may stop, each of which keeps the canonical form of the state it carries. -/
theorem foldlM_canonical {σ α : Type} (st : σ → State) {f : σ → α → Option σ} (hf : ∀ r p x, f r p = some x → (st r).canonical → (st x).canonical)
    {l : List α} {r x : σ} (hx : l.foldlM f r = some x) (h : (st r).canonical) : (st x).canonical := by
  induction l generalizing r with
  | nil => cases hx; exact h
  | cons p l ih =>
    obtain ⟨y, hy, hx⟩ := Option.bind_eq_some_iff.1 hx
    exact ih hx (hf r p y hy h)

/-! ### Machine/Events -/

@[simp] theorem State.writeCarve_canonical (s : State) (owner a : Nat) (bs : Bytes) (h : s.canonical) : (s.writeCarve owner a bs).canonical := by
  unfold State.writeCarve
  split
  · exact ⟨h.1, h.2.1, writeBytes_wf _ _ _ h.2.2.1, h.2.2.2⟩
  · exact ⟨h.1, h.2.1, h.2.2.1, writeBytes_wf _ _ _ h.2.2.2⟩
@[simp] theorem State.writeIndices_canonical (s : State) (i : Nat)  (h : s.canonical)  : (s.writeIndices i).canonical := by
  simp [State.writeIndices, h]

@[simp] theorem State.putEvent_canonical (s : State) (i code cls die : Nat) (data : Bytes)  (h : s.canonical) : (s.putEvent i code cls die data).canonical := by
  simp [State.putEvent, h]

@[simp] theorem State.flushLost_canonical (s : State) (i : Nat) (h : s.canonical)  : (s.flushLost i).canonical := by
  simp [State.flushLost, h]

@[simp] theorem State.postTo_canonical (s : State) (code cls die : Nat) (data : Bytes) (i : Nat)  (h : s.canonical)  : (s.postTo code cls die data i).canonical := by
  have h2 := State.flushLost_canonical s i h
  simp [State.postTo, h, h2]
@[simp] theorem State.post_canonical (s : State) (code cls die : Nat) (data : Bytes) (h : s.canonical) : (s.post code cls die data).canonical :=
  State.foldl_canonical (fun s _ => s.postTo_canonical _ _ _ _ _) _ h

@[simp] theorem State.packageFault_canonical (s : State) (cause : Nat) (h : s.canonical) : (s.packageFault cause).canonical := by
  simp [h, State.packageFault]

@[simp] theorem State.patchEnd_canonical (s : State) (v : Nat) (h : s.canonical) : (s.patchEnd v).canonical := by
  simp [h, State.patchEnd]

@[simp] theorem State.refusePatch_canonical (s : State) (h : s.canonical) : s.refusePatch.canonical := by
  simp [h, State.refusePatch]

@[simp] theorem State.boundHit_canonical (s : State) (bound : Nat) (h : s.canonical) : (s.boundHit bound).canonical := by
  simp [h, State.boundHit]

@[simp] theorem State.putCompletion_canonical (s : State) (i : Nat) (tag : W32) (opcode status : Nat) (result : Bytes) (fin : Bool) (tick : W48) (h : s.canonical) :
    (s.putCompletion i tag opcode status result fin tick).canonical := by
  simp [h, State.putCompletion]

@[simp] theorem State.begins_canonical (s : State) (h : HostCmd) (opcode : Nat) : (s.begins h opcode).canonical ↔ s.canonical := by
  simp [State.begins]

@[simp] theorem State.completeCmd_canonical (s : State) (cmd : HostCmd) (opcode status : Nat) (result : Bytes) (h : s.canonical) :
    (s.completeCmd cmd opcode status result).canonical := by
  simp [State.completeCmd, h]

/-! ### Machine/Sequencer -/

@[simp] theorem State.quiet_canonical (s : State) (c : CoreId) : (s.quiet c).canonical ↔ s.canonical := by
  simp [State.quiet]

@[simp] theorem haltCore_canonical (c : CoreId) (code : Nat) (pc : W64) (s : State) (h : s.canonical) : (haltCore c code pc s).canonical := by
  simp [h, haltCore]

@[simp] theorem overrun_canonical (c : CoreId) (cause : Nat) (s : State) : (overrun c cause s).canonical ↔ s.canonical := by
  simp [overrun]

@[simp] theorem continueExc_canonical (c : CoreId) (s : State) : (continueExc c s).canonical ↔ s.canonical := by
  simp [continueExc]

/-- Firing keeps the canonical form where the body does. -/
theorem fire_canonical {c : CoreId} {i : Instr} {g : Guard} {body : Nat → State → Fire} {s : State} (h : s.canonical)
    (hb : ∀ t, FireCanonical (body t s)) : OutCanonical (.next (fire c i g body s)) := by
  rw [outCanonical_next]
  rcases fire_cases c i g body s with e | ⟨code, e⟩ | ⟨n, e⟩ | ⟨t, code, s', hs, e⟩ | ⟨t, s', cost, next, hs, e⟩
  · rwa [e]
  · simp [e, h]
  · rw [e]
    exact State.modCore_canonical h c fun _ hk => hk
  · have hs' := hb t
    rw [hs, fireCanonical_halt] at hs'
    rw [e]
    exact haltCore_canonical _ _ _ _ (State.modCore_canonical hs' c fun _ hk => hk)
  · have hs' := hb t
    rw [hs, fireCanonical_go] at hs'
    rw [e]
    exact State.modCore_canonical hs' c fun _ hk => hk

@[simp] theorem onCore_canonical (c : CoreId) {f : Core → Core} {s : State} (h : s.canonical) (hf : ∀ k, (f k).store = k.store) :
    FireCanonical (onCore c f s) := by
  simp [onCore, h, hf]

@[simp] theorem unitOp_canonical (c : CoreId) (u : UnitKind) (rd wr : List (Desc × List Nat)) (bad : Option Nat) (t ut : Nat) (sd : Option SReg)
    {act : Core → Core} {s : State} (h : s.canonical) (ha : ∀ k, Memory.wf k.store = true → Memory.wf (act k).store = true) :
    FireCanonical (unitOp c u rd wr bad t ut sd act s) := by
  simp only [unitOp]
  split
  · exact h
  split
  · trivial
  · exact State.setCore_canonical h c (ha _ (h.1 c))

/-! ### Machine/Arrays -/

@[simp] theorem State.spend_canonical (s : State) (c : CoreId) (n : Nat) : (s.spend c n).canonical ↔ s.canonical := by
  simp [State.spend]

@[simp] theorem discardIssue_canonical (c : CoreId) (u : UnitInst) (undo : List (Nat × BitVec 256)) (phys reason : Nat) (s : State) (h : s.canonical) :
    (discardIssue c u undo phys reason s).canonical := by
  simp [h, discardIssue]

/-! ### Machine/ArrayOps -/

@[simp] theorem State.laggards_canonical (s : State) (c : CoreId) (lag : List ArrPlan) : (s.laggards c lag).canonical ↔ s.canonical := by
  simp [State.laggards]

@[simp] theorem runIssue_canonical (c : CoreId) (o : MvmOp) (faults : List ReadFault) (t : Nat) (u : IssueSetup) (s : State) (h : s.canonical) :
    FireCanonical (runIssue c o faults t u s) := by
  simp [h, runIssue]

@[simp] theorem issueMvm_canonical (c : CoreId) (o : MvmOp) (faults : List ReadFault) (t : Nat) (s : State) (h : s.canonical) :
    FireCanonical (issueMvm c o faults t s) := by
  simp only [issueMvm]
  split
  · simp [h]
  split
  · simp [h]
  split <;> simp [h]

@[simp] theorem passVerdict_canonical (c : CoreId) (id : Nat) (p : PassId) (codes : List CodeErr) (s : State) (h : s.canonical) :
    (passVerdict c id p codes s).canonical := by
  simp only [passVerdict]
  split <;> simp [h]

@[simp] theorem execPassVerdict_canonical (c : CoreId) (issue : Nat) (p : PassId) (codes : List CodeErr) (s : State) (h : s.canonical) :
    OutCanonical (execPassVerdict c issue p codes s) := by
  simp [h, execPassVerdict]

@[simp] theorem rereadPass_canonical (c : CoreId) (id : Nat) (s : State) (h : s.canonical) : (rereadPass c id s).canonical := by
  simp only [rereadPass]
  split
  · exact h
  split <;> simp [h]

@[simp] theorem execRereadPass_canonical (c : CoreId) (issue : Nat) (s : State) (h : s.canonical) : OutCanonical (execRereadPass c issue s) := by
  simp [h, execRereadPass]

@[simp] theorem copyEntries_canonical (c : CoreId) (dd da : Desc) (fd fa : List Nat) (t : Nat) (s : State) (h : s.canonical) :
    FireCanonical (copyEntries c dd da fd fa t s) := by
  simp +contextual [h, copyEntries]

/-! ### Machine/Vector -/

@[simp] theorem vbin_canonical (c : CoreId) (td ta tb : TReg) (f : Fp → Fp → Fp) (t : Nat) (s : State) (h : s.canonical) :
    FireCanonical (vbin c td ta tb f t s) := by
  simp +contextual [h, vbin]

@[simp] theorem vun_canonical (c : CoreId) (td ta : TReg) (ut : Desc → Nat) (f : Fp → Nat) (more : List Fp) (t : Nat) (s : State) (h : s.canonical) :
    FireCanonical (vun c td ta ut f more t s) := by
  simp +contextual [h, vun]

@[simp] theorem vred_canonical (c : CoreId) (td ta : TReg) (f : List Fp → Fp) (t : Nat) (s : State) (h : s.canonical) : FireCanonical (vred c td ta f t s) := by
  simp +contextual [h, vred]

/-! ### Machine/NetPort -/

@[simp] theorem State.inject_canonical (s : State) (src : Nat) (die : DieId) (router : Nat) (inj : Option Nat) (req : Option Nat) (fs : List FlitBody) :
    (s.inject src die router inj req fs).canonical ↔ s.canonical := by
  simp [State.inject]

@[simp] theorem State.injectVia_canonical (s : State) (src : Nat) (die : DieId) (fs : List FlitBody) (g : Frame) :
    (s.injectVia src die fs g).canonical ↔ s.canonical := by
  simp [State.injectVia]

@[simp] theorem State.sendFrom_canonical (s : State) (c : CoreId) (t : Nat) (req : Option Nat) (fs : List FlitBody) :
    (s.sendFrom c t req fs).canonical ↔ s.canonical := by
  simp [State.sendFrom]

@[simp] theorem thenInject_canonical (c : CoreId) (t : Nat) (fs : List FlitBody) (x : Fire) : FireCanonical (thenInject c t fs x) ↔ FireCanonical x := by
  cases x <;> simp [thenInject]

/-! ### Machine/ServePort -/

@[simp] theorem State.request_canonical (s : State) (member : Nat) (r : ServeReq) : (s.request member r).canonical ↔ s.canonical := by
  simp [State.request]

@[simp] theorem State.requestBy_canonical (s : State) (c : CoreId) (t : Nat) (e : RouteEnt) (r : ServeReq) (bs : Bytes) :
    (s.requestBy c t e r bs).canonical ↔ s.canonical := by
  simp [State.requestBy]

@[simp] theorem serveOp_canonical (c : CoreId) (rd wr : List (Desc × List Nat)) (bad : Option Nat) (t : Nat) (idle : Bool) (pd : Option PReg)
    {act : Core → Core} {after : State → State} {s : State} (h : s.canonical) (ha : ∀ k, Memory.wf k.store = true → Memory.wf (act k).store = true)
    (hs : ∀ s, s.canonical → (after s).canonical) : FireCanonical (serveOp c rd wr bad t idle pd act after s) := by
  simp only [serveOp]
  split
  · exact h
  split
  · trivial
  · exact hs _ (State.setCore_canonical h c (ha _ (h.1 c)))

@[simp] theorem sendRequest_canonical (c : CoreId) (t : Nat) (r : Except Nat RouteEnt) (idle : Bool) (q : RouteEnt → ServeReq) (bs : Bytes) (s : State) :
    (sendRequest c t r idle q bs s).canonical ↔ s.canonical := by
  unfold sendRequest
  split <;> simp

@[simp] theorem execUnitInstructionComplete_canonical (c : CoreId) (id : Nat) (s : State) (h : s.canonical) :
    OutCanonical (execUnitInstructionComplete c id s) := by
  simp only [execUnitInstructionComplete]
  split
  · exact h
  split <;> simp [h]

end Sys2Proof.Machine
end

section
/-!
The canonical form of the addressed memories, continued: the network, the reducers, the serving dies and the requests' life.
-/
namespace Sys2Proof.Machine

/-! ### Machine/Network -/

theorem State.granted_canonical {s t : State} {f : Flit} {p : Nat} (h : s.granted f p = some t) : t.canonical ↔ s.canonical := by
  unfold State.granted at h
  extract_lets at h
  split at h
  · simp only [Option.ite_none_right_eq_some, Option.some.injEq] at h
    obtain ⟨-, rfl⟩ := h
    rfl
  · cases h

@[simp] theorem State.dropFlit_canonical (s : State) (id : Nat) : (s.dropFlit id).canonical ↔ s.canonical := by
  simp [State.dropFlit]

@[simp] theorem State.setFlit_canonical (s : State) (f : Flit) : (s.setFlit f).canonical ↔ s.canonical := by
  simp [State.setFlit]

@[simp] theorem State.moveFlit_canonical (s : State) (f : Flit) : (s.moveFlit f).canonical ↔ s.canonical := by
  simp [State.moveFlit]

@[simp] theorem State.sendFrames_canonical (s : State) (l : List OutFrame) : (s.sendFrames l).canonical ↔ s.canonical := by
  simp [State.sendFrames]

theorem checkWords_canonical {s : State} (h : s.canonical) (dst : DieId) (e : Ecc) {keep : State → State} (hk : ∀ s, s.canonical → (keep s).canonical) :
    (checkWords s dst e keep).canonical := by
  cases e <;> simp [checkWords, h, hk]

theorem receiveWords_canonical {s : State} (h : s.canonical) (dst : DieId) (e : Ecc) (id : Nat) {keep : State → State}
    (hk : ∀ s, s.canonical → (keep s).canonical) : (receiveWords s dst e id keep).canonical := by
  unfold receiveWords
  split
  · exact checkWords_canonical ((State.dropFlit_canonical ..).2 h) _ _ hk
  · exact checkWords_canonical h _ _ hk

/-! ### Machine/Reducers -/

@[simp] theorem State.laneHop_canonical (s : State) (f : Flit) (r p : Nat) (e : Ecc) (h : s.canonical) : (s.laneHop f r p e).canonical := by
  unfold State.laneHop
  cases hg : s.granted f p with
  | none => simp [h]
  | some t => simp [h, State.granted_canonical hg, receiveWords_canonical]

@[simp] theorem State.linkHop_canonical (s : State) (f : Flit) (p d r : Nat) (e : Ecc) (h : s.canonical) : (s.linkHop f p d r e).canonical := by
  unfold State.linkHop
  cases hg : s.granted f p with
  | none => simp [h]
  | some t => simp [h, State.granted_canonical hg, receiveWords_canonical]

@[simp] theorem State.fabricHop_canonical (s : State) (f : Flit) (k p : Nat) : (s.fabricHop f k p).canonical ↔ s.canonical := by
  unfold State.fabricHop
  cases hg : s.granted f p with
  | none => rfl
  | some t => simp [State.granted_canonical hg]

@[simp] theorem execFlitHopReceive_canonical (id : Nat) (e : Ecc) (s : State) (h : s.canonical) : OutCanonical (execFlitHopReceive id e s) := by
  unfold execFlitHopReceive
  split
  · simp [h]
  split
  · simp [h]
  split
  · simp [h, receiveWords_canonical]
  split <;> simp [h]

@[simp] theorem State.requestFlit_canonical (s : State) (f : Flit) : (s.requestFlit f).canonical ↔ s.canonical := by
  simp only [State.requestFlit]
  split <;> simp

@[simp] theorem execFlitDelivery_canonical (id : Nat) (s : State) (h : s.canonical) : OutCanonical (execFlitDelivery id s) := by
  unfold execFlitDelivery
  split
  · simp +contextual [h]
  dsimp only
  split
  · simp +contextual [h]
  split
  · simp +contextual [h]
  split
  · simp +contextual [h]
  split <;> simp +contextual [h]

@[simp] theorem State.setReducer_canonical (s : State) (d u : Nat) (r : Reducer) : (s.setReducer d u r).canonical ↔ s.canonical := by
  simp [State.setReducer]

@[simp] theorem execReducerCombine_canonical (id : Nat) (s : State) (h : s.canonical) : OutCanonical (execReducerCombine id s) := by
  unfold execReducerCombine
  split <;> simp [h]

@[simp] theorem execReducerDelivery_canonical (d : DieId) (unit : Fin 16) (s : State) (h : s.canonical) : OutCanonical (execReducerDelivery d unit s) := by
  simp only [execReducerDelivery]
  split <;> simp [h]

@[simp] theorem execScrub_canonical (d : DieId) (w : ScrubWord) (uncorrectable : Bool) (s : State) (h : s.canonical) :
    OutCanonical (execScrub d w uncorrectable s) := by
  unfold execScrub
  split
  · simp [h]
  split <;> simp [h]

@[simp] theorem State.setPort_canonical (s : State) (d : DieId) (p v : Nat) : (s.setPort d p v).canonical ↔ s.canonical := by
  simp [State.setPort]

@[simp] theorem State.startTraining_canonical (s : State) (d : Nat) (ps : List Nat) (h : s.canonical) : (s.startTraining d ps).canonical := by
  simp [h, State.startTraining]

@[simp] theorem execLinkTraining_canonical (d : DieId) (port : Fin 6) (r : LinkResult) (s : State) (h : s.canonical) : OutCanonical (execLinkTraining d port r s) := by
  simp [h, execLinkTraining]

@[simp] theorem execLinkDegrade_canonical (d : DieId) (port : Fin 6) (down : Bool) (s : State) (h : s.canonical) : OutCanonical (execLinkDegrade d port down s) := by
  simp [h, execLinkDegrade]

/-! ### Serving dies -/

@[simp] theorem ServeDie.ite_dram (p : Prop) [Decidable p] (a b : ServeDie) : (if p then a else b).dram = if p then a.dram else b.dram :=
  apply_ite ServeDie.dram p a b
@[simp] theorem ServeDie.attnBit_dram (x : ServeDie) (i : Nat) : (x.attnBit i).dram = x.dram := (rfl)
@[simp] theorem ServeDie.serveBit_dram (x : ServeDie) (i : Nat) : (x.serveBit i).dram = x.dram := (rfl)
@[simp] theorem ServeDie.setOwn_dram (x : ServeDie) (r : Nat) (l : List (Nat × Nat)) : (x.setOwn r l).dram = x.dram := (rfl)
@[simp] theorem ServeDie.setPage_dram (x : ServeDie) (r layer i : Nat) (p : PageEnt) : (x.setPage r layer i p).dram = x.dram := (rfl)
@[simp] theorem ServeDie.modDir_dram (x : ServeDie) (r : Nat) (f : Dir → Dir) : (x.modDir r f).dram = x.dram := (rfl)
@[simp] theorem ServeDie.release_dram (x : ServeDie) (r a : Nat) (back : Bool) : (x.release r a back).dram = x.dram := by
  cases back <;> rfl
@[simp] theorem ServeDie.causeEvt_dram (x : ServeDie) (c : Nat) : (x.causeEvt c).dram = x.dram := by
  unfold ServeDie.causeEvt
  split
  · rfl
  split <;> rfl
@[simp] theorem ServeDie.endEvt_dram (x : ServeDie) (c : EndCause) : (x.endEvt c).dram = x.dram := by
  cases c <;> rfl
@[simp] theorem ServeDie.dropFrom_dram (x : ServeDie) (r n : Nat) : (x.dropFrom r n).dram = x.dram := (rfl)
@[simp] theorem ServeDie.freeReq_dram (x : ServeDie) (r : Req) (i : Nat) (home : Bool) : (x.freeReq r i home).dram = x.dram := (rfl)
theorem ServeDie.take_dram {x y : ServeDie} {r n u a : Nat} {own : Bool} (h : x.take r n u = some (a, y, own)) : y.dram = x.dram := by
  unfold ServeDie.take at h
  split at h
  · cases h
    rfl
  · obtain ⟨b, -, h⟩ := Option.map_eq_some_iff.1 h
    cases h
    rfl

@[simp] theorem State.setSd_canonical_iff (s : State) (d : Nat) {x : ServeDie} (hx : x.dram = (s.sd d).dram) : (s.setSd d x).canonical ↔ s.canonical := by
  have same (n : Nat) : ((s.setSd d x).sd n).dram = (s.sd n).dram := by
    rw [State.sd_setSd]
    split
    · rw [hx, ‹n = d›]
    · rfl
  exact and_congr_right fun _ => and_congr_left fun _ => forall_congr' fun n => by rw [same]
@[simp] theorem State.modSd_canonical_iff (s : State) (d : Nat) {f : ServeDie → ServeDie} (hf : (f (s.sd d)).dram = (s.sd d).dram) :
    (s.modSd d f).canonical ↔ s.canonical := s.setSd_canonical_iff d hf
@[simp] theorem State.setSd_canonical {s : State} (h : s.canonical) (d : Nat) {x : ServeDie} (hx : Memory.wf x.dram = true) : (s.setSd d x).canonical := by
  refine ⟨h.1, fun n => ?_, h.2.2⟩
  rw [State.sd_setSd]
  split
  · exact hx
  · exact h.2.1 n
@[simp] theorem State.modSd_canonical {s : State} (h : s.canonical) (d : Nat) {f : ServeDie → ServeDie}
    (hf : ∀ x, Memory.wf x.dram = true → Memory.wf (f x).dram = true) : (s.modSd d f).canonical := s.setSd_canonical h d (hf _ (h.2.1 d))

/-! ### Machine/KvStore -/

@[simp] theorem State.setReq_canonical (s : State) (r : Nat) (x : Req) : (s.setReq r x).canonical ↔ s.canonical := by
  simp [State.setReq]

@[simp] theorem State.modReq_canonical (s : State) (r : Nat) (f : Req → Req) : (s.modReq r f).canonical ↔ s.canonical := by
  simp [State.modReq]

/-! ### Machine/Attention -/

@[simp] theorem State.answer_canonical {s : State} (h : s.canonical) (q : ServeReq) (flags : List Nat) {act : Core → Core}
    (ha : ∀ k, Memory.wf k.store = true → Memory.wf (act k).store = true) : (s.answer q flags act).canonical :=
  State.modCore_canonical h _ fun k hk => ha _ (by simpa using hk)

@[simp] theorem State.refuse_canonical (s : State) (d : Nat) (q : ServeReq) (cause : Nat) (flags : List Nat) (h : s.canonical) :
    (s.refuse d q cause flags).canonical := by
  refine State.modSd_canonical (State.answer_canonical h _ _ fun k hk => ?_) _ fun _ hx => hx
  split
  · exact writeAnswer_wf _ _ _ hk
  · exact hk

@[simp] theorem State.takeServe_canonical (s : State) (id : Nat) : (s.takeServe id).canonical ↔ s.canonical := by
  simp [State.takeServe]

@[simp] theorem execAttentionRequest_canonical (sv : ServeId) (s : State) (h : s.canonical) : OutCanonical (execAttentionRequest sv s) := by
  unfold execAttentionRequest
  dsimp only
  split
  · simp [h]
  split
  · simp [h]
  split <;> simp [h]

@[simp] theorem State.losePage_canonical (s : State) (d r layer i : Nat) (h : s.canonical) : (s.losePage d r layer i).canonical := by
  simp [h, State.losePage]

@[simp] theorem execPageTask_canonical (sv : ServeId) (_engine : Fin 24) (wordFailsTwice : Bool) (s : State) (h : s.canonical) :
    OutCanonical (execPageTask sv _engine wordFailsTwice s) := by
  simp only [execPageTask]
  split
  · exact h
  split
  · split
    · exact h
    split
    · exact State.refuse_canonical _ _ _ _ _ (State.losePage_canonical _ _ _ _ _ (State.modSd_canonical h _ fun _ hx => hx))
    · exact State.modSd_canonical h _ fun _ hx => by simpa using hx
  · exact h

@[simp] theorem execAttentionAnswer_canonical (sv : ServeId) (id : Nat) (s : State) (h : s.canonical) : OutCanonical (execAttentionAnswer sv id s) := by
  simp only [execAttentionAnswer]
  split
  · exact h
  split
  · exact h
  · exact State.answer_canonical (State.modSd_canonical h _ fun _ hx => by simpa using hx) _ _ fun _ hk => writeAnswer_wf _ _ _ hk

@[simp] theorem execKvWrite_canonical (sv : ServeId) (s : State) (h : s.canonical) : OutCanonical (execKvWrite sv s) := by
  unfold execKvWrite
  dsimp only
  split
  · exact h
  split
  · exact h
  split
  · simp [h]
  · simp [h]
  split
  · simp [h]
  split
  · simp [h]
  split
  · simp [h]
  next x hx =>
    refine State.answer_canonical ?_ _ _ fun _ hk => hk
    have hd : Memory.wf x.dram = true := (ServeDie.framed_dram hx).1 ▸ h.2.1 sv.val
    exact State.setSd_canonical h sv.val (by simpa using hd)

theorem putKvRow_wf {m : List Host.Cell} (h : Memory.wf m = true) (l : LayerRec) (fmt frame : Nat) (v : Bool) (hd sl : Nat) (codes scales : List Nat) :
    Memory.wf (putKvRow m l fmt frame v hd sl codes scales) = true := by
  unfold putKvRow
  dsimp only
  split
  · exact writeBytes_wf _ _ _ (writeBytes_wf _ _ _ h)
  · exact writeBytes_wf _ _ _ h

/-- A fold over pairs of a memory and a result. -/
theorem Memory.foldl_fst_wf {α β : Type} {f : List Host.Cell × β → α → List Host.Cell × β} (hf : ∀ x a, Memory.wf x.1 = true → Memory.wf (f x a).1 = true)
    (l : List α) {x : List Host.Cell × β} (h : Memory.wf x.1 = true) : Memory.wf (l.foldl f x).1 = true := by
  induction l generalizing x with
  | nil => exact h
  | cons a l ih => exact ih (hf x a h)

theorem reencode_wf {m : List Host.Cell} (h : Memory.wf m = true) (l : LayerRec) (a b : Nat) : Memory.wf (reencode m l a b).1 = true :=
  Memory.foldl_fst_wf (fun _ _ hx => Memory.foldl_fst_wf (fun _ _ hy => putKvRow_wf hy ..) _ hx) _ h

@[simp] theorem execPageAgeing_canonical (sv : ServeId) (req layer page : Nat) (wordFailsTwice : Bool) (s : State) (h : s.canonical) :
    OutCanonical (execPageAgeing sv req layer page wordFailsTwice s) := by
  unfold execPageAgeing
  dsimp only
  split
  · exact h
  split
  · exact h
  split
  · simp [h]
  split
  · exact h
  next a y own hy =>
    have hd : Memory.wf y.dram = true := by simpa [ServeDie.take_dram hy] using h.2.1 sv.val
    exact State.setSd_canonical h sv.val (by simpa using reencode_wf hd ..)

/-! ### Machine/Sampler -/

@[simp] theorem execSampling_canonical (sv : ServeId) (s : State) (h : s.canonical) : OutCanonical (execSampling sv s) := by
  simp only [execSampling]
  split <;> simp [h]

@[simp] theorem execGenerationFenceQuery_canonical (sv : ServeId) (s : State) (h : s.canonical) : OutCanonical (execGenerationFenceQuery sv s) := by
  have hput (q : ServeReq) (b : Bool) (k : Core) (hk : Memory.wf k.store = true) :
      Memory.wf (match q.pd with | some p => k.setP p b | none => k).store = true := by
    split <;> simpa using hk
  simp only [execGenerationFenceQuery]
  split
  · exact h
  split
  · exact h
  split
  · exact State.modSd_canonical (State.answer_canonical (s := State.takeServe ..) h _ _ (hput _ true)) _ fun _ hx => hx
  · exact State.answer_canonical (s := State.takeServe ..) h _ _ (hput _ false)

@[simp] theorem execRefusalReport_canonical (sv : ServeId) (s : State) (h : s.canonical) : OutCanonical (execRefusalReport sv s) := by
  unfold execRefusalReport
  split <;> simp [h]

/-! ### Machine/Requests -/

@[simp] theorem State.begun_canonical (s : State) (n : Nat) : (s.begun n).canonical ↔ s.canonical := by
  simp [State.begun]

@[simp] theorem State.ringPut_canonical (s : State) (i : Nat) (e : TokEnt) (h : s.canonical) : (s.ringPut i e).canonical := by
  simp [h, State.ringPut]

@[simp] theorem State.emitToken_canonical (s : State) (i : Nat) (d : Draw) (draft last : Bool) (h : s.canonical) : (s.emitToken i d draft last).canonical := by
  simp [h, State.emitToken]

/-- A fold of writes of KV rows. -/
theorem foldl_putKvRow_wf {α : Type} (l : LayerRec) (fmt frame sl : Nat) (v : Bool) (h : α → Nat) (codes scales : α → List Nat) (es : List α) {m : List Host.Cell}
    (hm : Memory.wf m = true) : Memory.wf (es.foldl (fun m e => putKvRow m l fmt frame v (h e) sl (codes e) (scales e)) m) = true := by
  induction es generalizing m with
  | nil => exact hm
  | cons e es ih => exact ih (putKvRow_wf hm ..)

@[simp] theorem State.commitKv_canonical (s : State) (w : KvStage) (h : s.canonical) : (s.commitKv w).canonical := by
  simp only [State.commitKv]
  split
  · exact h
  refine State.modSd_canonical h _ fun x hx => ?_
  split
  · exact hx
  · simp only [ServeDie.modDir_dram, ServeDie.setPage_dram, ServeDie.ite_dram, ServeDie.attnBit_dram, ite_self]
    exact foldl_putKvRow_wf _ _ _ _ _ _ _ _ _ (foldl_putKvRow_wf _ _ _ _ _ _ _ _ _ hx)

@[simp] theorem State.settleKv_canonical (s : State) (r n : Nat) (h : s.canonical) : (s.settleKv r n).canonical := by
  simp [h, State.settleKv]

@[simp] theorem State.finish_canonical (s : State) (i : Nat) (c : EndCause) : (s.finish i c).canonical ↔ s.canonical := by
  simp [State.finish]

@[simp] theorem State.decideStep_canonical (s : State) (i : Nat) (st : Step) (ys : List Draw) (h : s.canonical) : (s.decideStep i st ys).canonical := by
  have hs (s : State) (x : Nat × Draw) (a n : Nat) (h : s.canonical) :
      (if (s.req i).final.isSome then s else s.emitToken i x.2 (decide (x.1 < a)) (x.1 + 1 == n)).canonical := by
    split
    · exact h
    · exact State.emitToken_canonical _ _ _ _ _ h
  unfold State.decideStep
  extract_lets r a n out s1 s2 s3 s4
  have h1 : s1.canonical := State.foldl_canonical (fun s x => hs s x a out.length) _ h
  have h4 : s4.canonical := State.modSd_canonical ((State.modReq_canonical ..).2 (State.settleKv_canonical _ _ _ h1)) _ fun _ hx => hx
  clear_value s4
  split
  · exact (State.finish_canonical ..).2 h4
  · exact h4

@[simp] theorem State.commitDraw_canonical (s : State) (d : Draw) (h : s.canonical) : (s.commitDraw d).canonical := by
  cases hs : (s.req d.tag.req).step <;> simp [h, State.commitDraw, hs]

@[simp] theorem State.postRefusals_canonical (s : State) (i : Nat) (ps : List Report) (h : s.canonical) : (s.postRefusals i ps).canonical := by
  simp +contextual [h, State.postRefusals]

@[simp] theorem State.withdraw_canonical (s : State) (i : Nat) (ps : List Report) (h : s.canonical) : (s.withdraw i ps).canonical := by
  simp only [State.withdraw]
  split <;> simp [h]

@[simp] theorem State.eachCore_canonical (s : State) (f : Core → Core) (h : s.canonical) (hf : ∀ k, Memory.wf k.store = true → Memory.wf (f k).store = true) :
    (s.eachCore f).canonical := State.foldl_canonical (fun _ _ h => State.modCore_canonical h _ hf) _ h

@[simp] theorem State.commitTick_canonical (s : State) (t : W48) (h : s.canonical) : (s.commitTick t).canonical := by
  unfold State.commitTick
  refine State.eachCore_canonical _ _ ?_ fun _ hk => by rwa [Core.countFails_store]
  refine State.foldl_canonical State.commitDraw_canonical _ ((State.canonical_mk ..).2 ?_)
  refine State.foldl_canonical State.commitKv_canonical _ ((State.canonical_mk ..).2 ?_)
  exact State.foldl_canonical (fun s i => s.withdraw_canonical i _) _ h

@[simp] theorem State.discardTick_canonical (s : State) (t : W48) (h : s.canonical) : (s.discardTick t).canonical := by
  simp [h, State.discardTick]

@[simp] theorem State.freeReq_canonical (s : State) (i status : Nat) (h : s.canonical) : (s.freeReq i status).canonical := by
  unfold State.freeReq
  extract_lets r s1 s2 g s3 s4
  have h1 : s1.canonical := State.foldl_canonical (fun _ _ h => by exact State.modSd_canonical h _ fun _ hx => hx) _ h
  have h2 : s2.canonical := by
    unfold s2
    split
    · exact State.completeCmd_canonical _ _ _ _ _ h1
    · exact h1
  have h3 : s3.canonical := by
    unfold s3
    split
    · exact h2
    · exact h2
  exact h3

@[simp] theorem State.noTokenEnd_canonical (s : State) (i : Nat) (c : EndCause) (h : s.canonical) : (s.noTokenEnd i c).canonical := by
  simp [h, State.noTokenEnd]

@[simp] theorem execRequestEnd_canonical (i : Nat) (s : State) (h : s.canonical) : OutCanonical (execRequestEnd i s) := by
  simp only [execRequestEnd]
  split
  · exact h
  split <;> simp [h]

@[simp] theorem execRequestFaultEnd_canonical (i : Nat) (s : State) (h : s.canonical) : OutCanonical (execRequestFaultEnd i s) := by
  simp [h, execRequestFaultEnd]

@[simp] theorem execHeldExit_canonical (i : Nat) (s : State) (h : s.canonical) : OutCanonical (execHeldExit i s) := by
  simp [h, execHeldExit]

theorem State.reframe_dram {s : State} {i d : Nat} {x : ServeDie} (h : s.reframe i d = some x) : x.dram = (s.sd d).dram := by
  unfold State.reframe at h
  revert x
  refine List.foldlRecOn (motive := fun o => ∀ {x : ServeDie}, o = some x → x.dram = (s.sd d).dram) _ _ (fun h => by cases h; rfl) fun o ih p _ x h => ?_
  cases o with
  | none => cases h
  | some y =>
    have hy := ih rfl
    dsimp only at h
    split at h
    · cases h
      exact hy
    split at h
    · cases h
      exact hy
    split at h
    next hz =>
      cases h
      simpa [ServeDie.take_dram hz] using hy
    next => cases h

/-- The same update of both serving dies, where it leaves their DRAM. -/
theorem State.foldl_modSd_canonical {s : State} (h : s.canonical) (ds : List Nat) {f : ServeDie → ServeDie} (hf : ∀ x, (f x).dram = x.dram) :
    (ds.foldl (fun s d => s.modSd d f) s).canonical :=
  State.foldl_canonical (fun _ _ h => State.modSd_canonical h _ fun _ hx => by rwa [hf]) _ h

@[simp] theorem execRebuildStart_canonical (i : Nat) (s : State) (h : s.canonical) : OutCanonical (execRebuildStart i s) := by
  unfold execRebuildStart
  extract_lets r
  split
  · exact h
  split
  next p x0 x1 hp h0 h1 =>
    extract_lets u u1 u2 u3
    have hu : u.canonical :=
      (State.begun_canonical ..).2 (State.setSd_canonical (State.setSd_canonical h _ (State.reframe_dram h0 ▸ h.2.1 0)) _ (State.reframe_dram h1 ▸ h.2.1 1))
    have hu1 : u1.canonical := by
      unfold u1
      split
      · exact State.foldl_modSd_canonical hu _ fun _ => rfl
      · exact hu
    have hu2 : u2.canonical := State.foldl_modSd_canonical hu1 _ fun _ => rfl
    have hu3 : u3.canonical := (State.modReq_canonical ..).2 hu2
    exact State.modSd_canonical hu3 _ fun _ hx => hx
  · simp [h]
  · exact h

@[simp] theorem execHideApply_canonical (i : Nat) (s : State) (h : s.canonical) : OutCanonical (execHideApply i s) := by
  unfold execHideApply
  split
  · exact h
  split
  · exact h
  · exact State.completeCmd_canonical _ _ _ _ _ ((State.modReq_canonical ..).2
      (State.foldl_canonical (fun _ _ h => by exact State.modSd_canonical h _ fun _ hx => hx) _ ((State.begun_canonical ..).2 h)))

@[simp] theorem execEndingCompletion_canonical (s : State) (h : s.canonical) : OutCanonical (execEndingCompletion s) := by
  unfold execEndingCompletion
  split
  · simp [h]
  split <;> simp [h]

/-! ### Machine/Entry -/

theorem Filling.place_canonical {f : Filling} (h : f.s.canonical) (slot cap : Nat) (e : W48) (budget : Nat → Nat) (t : LaneTag) :
    (f.place slot cap e budget t).s.canonical := by
  have hgo (r : Req) : (Filling.place.go f slot e budget t f.s r).s.canonical := by
    unfold Filling.place.go
    extract_lets cost
    split
    · split
      · exact (State.modReq_canonical ..).2 h
      · refine (State.finish_canonical ..).2 ?_
        split
        · exact State.modSd_canonical h _ fun _ hx => hx
        · exact h
    rename_i u1 u2 _ _
    split
    · exact h
    · have hu1 : u1.canonical := (State.modReq_canonical ..).2 h
      clear_value u1
      show u2.canonical
      unfold u2
      split
      · exact State.modSd_canonical hu1 _ fun _ hx => hx
      · exact hu1
  unfold Filling.place
  split
  · exact h
  dsimp only
  split
  · split
    · exact State.modSd_canonical h _ fun _ hx => hx
    · exact hgo _
  split
  · exact h
  · exact hgo _

theorem Filling.foldl_place_canonical (l : List LaneTag) {f : Filling} (h : f.s.canonical) (slot cap : Nat) (e : W48) (budget : Nat → Nat) :
    (l.foldl (fun (f : Filling) t => f.place slot cap e budget t) f).s.canonical := by
  induction l generalizing f with
  | nil => exact h
  | cons t l ih => exact ih (Filling.place_canonical h ..)

@[simp] theorem fillSlot_canonical (s : State) (slot cap : Nat) (e : W48) (budget : Nat → Nat) (h : s.canonical) :
    (fillSlot s slot cap e budget).1.canonical :=
  Filling.foldl_place_canonical _ (Filling.foldl_place_canonical _ h ..) ..

@[simp] theorem State.deliverLanes_canonical (s : State) (n : W48) (cap : Nat) (lanes : List LaneTag) (h : s.canonical) : (s.deliverLanes n cap lanes).canonical := by
  unfold State.deliverLanes
  split <;> simp [h]

@[simp] theorem State.slotLanes_canonical (s : State) (n e : W48) (slot cap : Nat) (budget : Nat → Nat) (h : s.canonical) :
    (s.slotLanes n e slot cap budget).1.canonical := by
  unfold State.slotLanes
  split <;> simp [h]

@[simp] theorem State.enterLanes_canonical (s : State) (n e : W48) (assign : Bool) (budget : Nat → Nat) (h : s.canonical) :
    (s.enterLanes n e assign budget).canonical := by
  unfold State.enterLanes
  dsimp only
  split
  · exact h
  split
  · exact h
  split
  · exact h
  · cases assign <;> simp [h]

end Sys2Proof.Machine
end

section
/-!
The canonical form of the addressed memories, continued: the host's commands, the rings, the almanac, margin and wear, the housekeeping converters.
-/
namespace Sys2Proof.Machine

/-! ### Machine/HostReq -/

@[simp] theorem execAdmitReq_canonical (h : HostCmd) (recordAddr : W64) (s : State) (hs : s.canonical) : OutCanonical (execAdmitReq h recordAddr s) := by
  simp [hs, execAdmitReq]

theorem ServeDie.reserveAll_dram {x y : ServeDie} {i : Nat} {us : List Nat} (h : x.reserveAll i us = some y) : y.dram = x.dram := by
  induction us generalizing x with
  | nil =>
    cases h
    rfl
  | cons n us ih =>
    unfold ServeDie.reserveAll at h
    split at h
    · exact (ih h).trans (ServeDie.setOwn_dram ..)
    · cases h

theorem State.reserve_dram {s : State} {d i : Nat} {r : Req} {x : ServeDie × Nat} (h : s.reserve d i r = some x) : x.1.dram = (s.sd d).dram := by
  unfold State.reserve at h
  split at h
  · cases h
  next y hy =>
    split at h
    · cases h
      exact ServeDie.reserveAll_dram hy
    · obtain ⟨a, -, rfl⟩ := Option.map_eq_some_iff.1 h
      exact (ServeDie.reserveAll_dram hy :)

@[simp] theorem execQueueDeparture_canonical (s : State) (h : s.canonical) : OutCanonical (execQueueDeparture s) := by
  unfold execQueueDeparture
  split
  · exact h
  extract_lets r
  split
  · exact h
  split
  next x0 x1 h0 h1 =>
    exact (State.modReq_canonical ..).2 ((State.begun_canonical ..).2 (State.setSd_canonical
      (State.setSd_canonical h _ (State.reserve_dram h0 ▸ h.2.1 0)) _ (State.reserve_dram h1 ▸ h.2.1 1)))
  · exact h

@[simp] theorem execCancel_canonical (h : HostCmd) (req : BitVec 16) (ticket : W32) (s : State) (hs : s.canonical) : OutCanonical (execCancel h req ticket s) := by
  unfold execCancel
  split
  · simp [hs]
  split <;> simp [hs]

@[simp] theorem execDraft_canonical (h : HostCmd) (req : BitVec 16) (ticket base : W32) (idsAddr : W64) (s : State) (hs : s.canonical) :
    OutCanonical (execDraft h req ticket base idsAddr s) := by
  unfold execDraft
  split
  · simp [hs]
  split
  · simp [hs]
  split <;> simp [hs]

@[simp] theorem execHide_canonical (h : HostCmd) (req : BitVec 16) (ticket lo hi : W32) (s : State) (hs : s.canonical) :
    OutCanonical (execHide h req ticket lo hi s) := by
  unfold execHide
  split
  · simp [hs]
  split <;> simp [hs]

/-! ### Machine/Rings -/

@[simp] theorem execCommandTake_canonical (set : Fin 16) (s : State) (h : s.canonical) : OutCanonical (execCommandTake set s) := by
  simp only [execCommandTake]
  split
  · simp [h]
  split <;> simp [h]

@[simp] theorem execEventsLost_canonical (set : Fin 16) (s : State) (h : s.canonical) : OutCanonical (execEventsLost set s) := by
  simp [h, execEventsLost]

@[simp] theorem State.dbInvalid_canonical (s : State) (set ring : Nat) (index : BitVec 16) (h : s.canonical) : (s.dbInvalid set ring index).canonical := by
  simp [h, State.dbInvalid]

@[simp] theorem execDbCommandTail_canonical (set : Fin 16) (index : BitVec 16) (s : State) (h : s.canonical) : OutCanonical (execDbCommandTail set index s) := by
  simp [h, execDbCommandTail]

@[simp] theorem execDbCompletionConsumed_canonical (set : Fin 16) (index : BitVec 16) (s : State) (h : s.canonical) :
    OutCanonical (execDbCompletionConsumed set index s) := by
  simp [h, execDbCompletionConsumed]

@[simp] theorem execDbEventConsumed_canonical (set : Fin 16) (index : BitVec 16) (s : State) (h : s.canonical) : OutCanonical (execDbEventConsumed set index s) := by
  simp [h, execDbEventConsumed]

@[simp] theorem execCmdNop_canonical (h : HostCmd) (s : State) (hs : s.canonical) : OutCanonical (execCmdNop h s) := by
  simp [hs, execCmdNop]

@[simp] theorem State.applyRings_canonical (s : State) (h : s.canonical) : s.applyRings.canonical := by
  simp [h, State.applyRings]

/-! ### Machine/Almanac -/

@[simp] theorem State.placeCore_canonical (s : State) (a : Almanac) (aux : List AuxSec) (e : CoreEnt) (h : s.canonical) : (s.placeCore a aux e).canonical := by
  refine State.modCore_canonical h _ fun k hk => ?_
  extract_lets k1 k2 k3 c d
  have h1 : Memory.wf k1.store = true := by
    unfold k1
    split
    · exact Core.storeAt_wf _ _ _ hk
    · exact hk
  have h2 : Memory.wf k2.store = true := by
    unfold k2
    split
    · exact Core.storeAt_wf _ _ _ h1
    · exact h1
  have h3 : Memory.wf k3.store = true := by
    unfold k3
    split
    · exact Core.storeAt_wf _ _ _ h2
    · exact h2
  exact h3

@[simp] theorem State.setBudgets_canonical (s : State) : s.setBudgets.canonical ↔ s.canonical := by
  simp [State.setBudgets]

@[simp] theorem State.installAlmanac_canonical (s : State) (a : Almanac) (aux : List AuxSec) (h : s.canonical) : (s.installAlmanac a aux).canonical := by
  simp +contextual [h, State.installAlmanac]

@[simp] theorem execAlmLoad_canonical (h : HostCmd) (addr : W64) (len : W32) (s : State) (hs : s.canonical) : OutCanonical (execAlmLoad h addr len s) := by
  simp [hs, execAlmLoad]

/-! ### Machine/Margin -/

@[simp] theorem State.modArr_canonical (s : State) (c : CoreId) (p : Nat) (f : ArrayInfo → ArrayInfo) : (s.modArr c p f).canonical ↔ s.canonical := by
  simp [State.modArr]

@[simp] theorem State.spendReads_canonical (s : State) (c : CoreId) (n : Nat) : (s.spendReads c n).canonical ↔ s.canonical := by
  simp [State.spendReads]

@[simp] theorem State.spendWrites_canonical (s : State) (c : CoreId) (n : Nat) : (s.spendWrites c n).canonical ↔ s.canonical := by
  simp [State.spendWrites]

@[simp] theorem State.markLost_canonical (s : State) (c : CoreId) (p : Nat) : (s.markLost c p).canonical ↔ s.canonical := by
  unfold State.markLost
  split <;> simp

@[simp] theorem State.arrayFault_canonical (s : State) (c : CoreId) (p : Nat) (h : s.canonical) : (s.arrayFault c p).canonical := by
  simp [h, State.arrayFault]

@[simp] theorem State.putGrade_canonical (s : State) (c : CoreId) (p : Nat) (g : Grade) (crit : Bool) : (s.putGrade c p g crit).canonical ↔ s.canonical := by
  simp [State.putGrade]

@[simp] theorem State.recordGrade_canonical (s : State) (c : CoreId) (p : Nat) (g : Grade) (h : s.canonical) : (s.recordGrade c p g).canonical := by
  simp [h, State.recordGrade]

@[simp] theorem State.critArray_canonical (s : State) (c : CoreId) (p : Nat) (h : s.canonical) : (s.critArray c p).canonical := by
  simp [h, State.critArray]

@[simp] theorem State.critEve_canonical (s : State) (c : CoreId) (h : s.canonical) : (s.critEve c).canonical := by
  simp +contextual [h, State.critEve]

@[simp] theorem State.queueFor_canonical (s : State) (c : CoreId) (p : Nat) : (s.queueFor c p).canonical ↔ s.canonical := by
  simp [State.queueFor]

@[simp] theorem State.scanArray_canonical (s : State) (c : CoreId) (p : Nat) (l : List RowEdges) (h : s.canonical) : (s.scanArray c p l).canonical := by
  simp [h, State.scanArray]

@[simp] theorem execMarginScan_canonical (c : CoreId) (array : Nat) (e : List RowEdges) (s : State) (h : s.canonical) : OutCanonical (execMarginScan c array e s) := by
  simp [h, execMarginScan]

@[simp] theorem execScanLate_canonical (c : CoreId) (array : Nat) (s : State) (h : s.canonical) : OutCanonical (execScanLate c array s) := by
  unfold execScanLate
  split
  · exact h
  · have hs : (s.modCore c fun k => k.marginEvent 0).canonical := State.modCore_canonical h _ fun _ hk => hk
    dsimp only
    split
    · exact hs
    · exact hs

@[simp] theorem execFailureCountLimit_canonical (c : CoreId) (array : Nat) (s : State) (h : s.canonical) : OutCanonical (execFailureCountLimit c array s) := by
  simp [h, execFailureCountLimit]

@[simp] theorem execFailureWindowRestart_canonical (s : State) (h : s.canonical) : OutCanonical (execFailureWindowRestart s) := by
  simp [h, execFailureWindowRestart]

@[simp] theorem execHolidayStart_canonical (c : CoreId) (s : State) (h : s.canonical) : OutCanonical (execHolidayStart c s) := by
  unfold execHolidayStart
  split
  · simp [h]
  split
  · simp [h]
  split
  · simp [h]
  split <;> simp [h]

@[simp] theorem State.abandon_canonical (s : State) (c : CoreId) (h : Holiday) : (s.abandon c h).canonical ↔ s.canonical := by
  simp [State.abandon]

@[simp] theorem State.abandonAgain_canonical (s : State) (c : CoreId) (h : Holiday) : (s.abandonAgain c h).canonical ↔ s.canonical := by
  simp [State.abandonAgain]

@[simp] theorem State.failSpare_canonical (s : State) (c : CoreId) (h : Holiday) : (s.failSpare c h).canonical ↔ s.canonical := by
  simp [State.failSpare]

@[simp] theorem State.copyInto_canonical (s : State) (c : CoreId) (o : ArrayInfo) (sp : Nat) (e : List RowEdges) :
    (s.copyInto c o sp e).canonical ↔ s.canonical := by
  simp [State.copyInto]

@[simp] theorem execHolidayCopyDone_canonical (c : CoreId) (orig : Nat) (r : StepRead) (unrepairable : Bool) (s : State) (h : s.canonical) :
    OutCanonical (execHolidayCopyDone c orig r unrepairable s) := by
  unfold execHolidayCopyDone
  split <;> simp [h]

@[simp] theorem execHolidayServiceDone_canonical (c : CoreId) (orig : Nat) (rd : StepRead) (cal : List ConvCal) (s : State) (h : s.canonical) :
    OutCanonical (execHolidayServiceDone c orig rd cal s) := by
  unfold execHolidayServiceDone
  split
  · exact h
  split
  · exact h
  split
  · exact State.modCore_canonical h _ fun _ hk => hk
  extract_lets o sp fp4 own fails s1 s2 full pow s3 s4 s5
  have h1 : s1.canonical := by
    unfold s1
    split
    · exact State.modCore_canonical h _ fun _ hk => by rwa [Core.noteReads_store, Core.noteReads_store]
    · exact h
  have h2 : s2.canonical := by
    unfold s2
    split
    · simp [h1]
    · exact h1
  have h3 : s3.canonical := by
    unfold s3
    split
    · exact h2
    · exact h2
  have h4 : s4.canonical := by
    unfold s4
    split
    · simp [h3]
    split
    · simp [h3]
    · exact h3
  have h5 : s5.canonical := by simp [s5, h4]
  exact State.modCore_canonical (State.scanArray_canonical _ _ _ _ h5) _ fun _ hk => hk

@[simp] theorem State.testedArray_canonical (s : State) (c : CoreId) (p reason : Nat) : (s.testedArray c p reason).canonical ↔ s.canonical := by
  simp [State.testedArray]

@[simp] theorem State.recompare_canonical (s : State) (c : CoreId) (a : Nat) : (s.recompare c a).canonical ↔ s.canonical := by
  simp [State.recompare]

@[simp] theorem State.holidayTurn_canonical (s : State) (c : CoreId) (h : Holiday) : (s.holidayTurn c h).canonical ↔ s.canonical := by
  unfold State.holidayTurn
  split
  · split <;> simp
  · simp
  · simp
  · split
    · rfl
    split <;> simp
  · rfl

@[simp] theorem State.holidayEve_canonical (s : State) (c : CoreId) (h : s.canonical) : (s.holidayEve c).canonical := by
  simp [h, State.holidayEve]

@[simp] theorem State.takeMaps_canonical (s : State) (c : CoreId) : (s.takeMaps c).canonical ↔ s.canonical := by
  simp [State.takeMaps]

@[simp] theorem State.restartHolidays_canonical (s : State) (c : CoreId) (h : s.canonical) : (s.restartHolidays c).canonical := by
  refine State.foldl_canonical (fun s x h => ?_) _ h
  cases x.step <;> simp [h]

@[simp] theorem State.abandonCopies_canonical (s : State) (c : CoreId) (h : s.canonical) : (s.abandonCopies c).canonical := by
  refine State.foldl_canonical (fun s x h => ?_) _ h
  cases x.step <;> simp [h]

@[simp] theorem execLadderRepeatFault_canonical (c : CoreId) (array : Nat) (s : State) (h : s.canonical) : OutCanonical (execLadderRepeatFault c array s) := by
  simp [h, execLadderRepeatFault]

@[simp] theorem State.saveWear_canonical (s : State) (c : CoreId) (p : Nat) : (s.saveWear c p).canonical ↔ s.canonical := by
  simp [State.saveWear]

@[simp] theorem execWearWriteback_canonical (c : CoreId) (array : Nat) (s : State) (h : s.canonical) : OutCanonical (execWearWriteback c array s) := by
  simp [h, execWearWriteback]

@[simp] theorem State.loadWear_canonical (s : State) (c : CoreId) (ps : List Nat) (h : s.canonical) : (s.loadWear c ps).canonical := by
  simp [h, State.loadWear]

@[simp] theorem State.sweepScan_canonical (s : State) (c : CoreId) (p : Nat) (e : List RowEdges) (fresh : Bool) :
    (s.sweepScan c p e fresh).canonical ↔ s.canonical := by
  simp [State.sweepScan]

@[simp] theorem State.sweepRead_canonical (s : State) (c : CoreId) (p : Nat) (faults : List ReadFault) : (s.sweepRead c p faults).canonical ↔ s.canonical := by
  simp [State.sweepRead]

@[simp] theorem sweepRefresh_canonical (c : CoreId) (faults : List ReadFault) (r : State × List Nat) (p : Nat) :
    (sweepRefresh c faults r p).1.canonical ↔ r.1.canonical := by
  simp only [sweepRefresh]
  split <;> simp

theorem foldl_sweepRefresh_canonical (c : CoreId) (faults : List ReadFault) (l : List Nat) (r : State × List Nat) :
    (l.foldl (sweepRefresh c faults) r).1.canonical ↔ r.1.canonical := by
  induction l generalizing r with
  | nil => rfl
  | cons p l ih => rw [List.foldl_cons, ih, sweepRefresh_canonical]

/-- The recursion is laid open by hand: deriving the equations of `sweepMove` would evaluate the search for a spare over all 4,224 arrays. -/
theorem sweepMove_canonical {c : CoreId} {p a : Nat} {rescans : List (Nat × List RowEdges)} (fuel : Nat) {r x : State × List Nat}
    (h : sweepMove c p a rescans fuel r = some x) : x.1.canonical ↔ r.1.canonical := by
  delta sweepMove sweepMove._f Nat.brecOn Nat.brecOn.go at h
  induction fuel generalizing r with
  | zero => rw [Option.some.inj (show some r = some x from h)]
  | succ fuel ih =>
    dsimp only at h ih
    split at h
    · rw [Option.some.inj h]
    split at h
    · cases h
    split at h
    · simpa using ih h
    · simp [← Option.some.inj h]

theorem sweepRepair_canonical {c : CoreId} {faults : List ReadFault} {rescans : List (Nat × List RowEdges)} {r : State × List Nat} {p : Nat}
    {x : State × List Nat} (h : sweepRepair c faults rescans r p = some x) : x.1.canonical ↔ r.1.canonical := by
  unfold sweepRepair at h
  split at h
  · split at h
    · rw [sweepMove_canonical _ h]; simp
    · cases h; rfl
  · cases h; rfl

theorem sweepRescan_canonical {c : CoreId} {rescans : List (Nat × List RowEdges)} {s t : State} {p : Nat}
    (h : sweepRescan c rescans s p = some t) : t.canonical ↔ s.canonical := by
  unfold sweepRescan at h
  split at h
  · cases h; simp
  · cases h

@[simp] theorem State.takeBand_canonical (s : State) (c : CoreId) : (s.takeBand c).canonical ↔ s.canonical := by
  simp [State.takeBand]

theorem State.sweepOver_canonical {s : State} {c : CoreId} {scans rescans : List (Nat × List RowEdges)} {faults : List ReadFault}
    {x : State × List Nat} (hx : s.sweepOver c scans rescans faults = some x) (h : s.canonical) : x.1.canonical := by
  simp only [State.sweepOver] at hx
  split at hx
  · cases hx
  rename_i r hr
  split at hx
  · cases hx
  rename_i t ht
  cases hx
  have hscan : (scans.foldl (fun s x => s.sweepScan c x.1 x.2 true) s).canonical :=
    State.foldl_canonical (fun _ _ => (State.sweepScan_canonical ..).2) _ h
  have hrepair : r.1.canonical := foldlM_canonical Prod.fst (fun _ _ _ hy => (sweepRepair_canonical hy).2) hr ((foldl_sweepRefresh_canonical ..).2 hscan)
  have hrescan : t.canonical := foldlM_canonical id (fun _ _ _ hy => (sweepRescan_canonical hy).2) ht hrepair
  exact State.critEve_canonical _ _ hrescan

/-- Both serving dies rewritten with their DRAM as it was. -/
theorem foldl_smSet_serve_wf {f : Nat → ServeDie → ServeDie} (hf : ∀ d x, (f d x).dram = x.dram) (ds : List Nat) {m : SMap ServeDie}
    (hm : ∀ n, Memory.wf (smGet serveDefault m n).dram = true) (n : Nat) :
    Memory.wf (smGet serveDefault (ds.foldl (fun m d => smSet serveDefault m d (f d (smGet serveDefault m d))) m) n).dram = true := by
  induction ds generalizing m with
  | nil => exact hm n
  | cons d ds ih =>
    refine ih fun n => ?_
    rw [smGet_smSet]
    split
    · rw [hf]
      exact hm d
    · exact hm n

@[simp] theorem State.bootEnd_canonical (s : State) (h : s.canonical) : s.bootEnd.canonical := by
  unfold State.bootEnd
  split
  · exact h
  · exact State.post_canonical _ _ _ _ _ ⟨h.1, fun n => foldl_smSet_serve_wf (f := fun d x => { x with
      reqBase := Config.reqBase d, poolLo := (Config.kvPool s.fw.cfg d).1, poolUnits := (Config.kvPool s.fw.cfg d).2 }) (fun _ _ => rfl) _ h.2.1 n, h.2.2⟩

theorem State.sweepWrites_canonical {s : State} (h : s.canonical) {c : CoreId} {r : Sweep} {f : State × List Nat → State}
    (hf : ∀ x, r = some x → (f x).canonical) : (s.sweepWrites c r f).canonical := by
  cases r with
  | none => exact h
  | some x => simp [State.sweepWrites, hf x rfl, h]

@[simp] theorem execNewYearSweep_canonical (c : CoreId) (scans : SweepRead) (rescans : List (Nat × List RowEdges)) (time100us : Nat) (s : State) (h : s.canonical) :
    OutCanonical (execNewYearSweep c scans rescans time100us s) := by
  unfold execNewYearSweep
  split
  · exact h
  · have hb : (s.takeBand c).canonical := (State.takeBand_canonical ..).2 h
    refine State.sweepWrites_canonical hb fun x hx => State.bootEnd_canonical _ ?_
    exact (State.modDie_canonical ..).2 (State.modCore_canonical (State.sweepOver_canonical hx (State.loadWear_canonical _ _ _ hb)) _ fun _ hk => hk)

@[simp] theorem execQuarterScan_canonical (c : CoreId) (quarter : Fin 4) (scans : SweepRead) (rescans : List (Nat × List RowEdges)) (s : State) (h : s.canonical) :
    OutCanonical (execQuarterScan c quarter scans rescans s) := by
  unfold execQuarterScan
  extract_lets bit d
  split
  · exact h
  · exact State.sweepWrites_canonical h fun x hx =>
      State.modCore_canonical ((State.modDie_canonical ..).2 (State.sweepOver_canonical hx h)) _ fun _ hk => hk

/-! ### Machine/Registers -/

@[simp] theorem State.setSel_canonical (s : State) (p : Path) (k : Nat) (v : W32) : (s.setSel p k v).canonical ↔ s.canonical := by
  simp [State.setSel]

@[simp] theorem State.latch_canonical (s : State) (p : Path) (a : Nat) (h : s.canonical) : (s.latch p a).canonical := by
  simp [h, State.latch]

@[simp] theorem execLowWordRead_canonical (p : Path) (addr : Nat) (s : State) (h : s.canonical) : OutCanonical (execLowWordRead p addr s) := by
  simp [h, execLowWordRead]

/-! ### Machine/Housekeeping -/

@[simp] theorem State.shutdown_canonical (s : State) (h : s.canonical) : s.shutdown.canonical := by
  simp [h, State.shutdown]

@[simp] theorem State.tmonBit_canonical (s : State) (i : Nat) : (s.tmonBit i).canonical ↔ s.canonical := by
  simp [State.tmonBit]

@[simp] theorem State.takeReadings_canonical (s : State) (rs : List Reading) (h : s.canonical) : (s.takeReadings rs).canonical := by
  simp [h, State.takeReadings]

@[simp] theorem State.crossChecks_canonical (s : State) (rs : List Reading) (h : s.canonical) : (s.crossChecks rs).canonical := by
  simp [h, State.crossChecks]

@[simp] theorem State.showHalf_canonical (s : State) (d : DieId) (east : Bool) (n : Nat) : (s.showHalf d east n).canonical ↔ s.canonical := by
  simp [State.showHalf]

@[simp] theorem State.setHot_canonical (s : State) (d : DieId) : (s.setHot d).canonical ↔ s.canonical := by
  simp [State.setHot]

@[simp] theorem State.countHot_canonical (s : State) (r : Reading) : (s.countHot r).canonical ↔ s.canonical := by
  simp [State.countHot]

@[simp] theorem State.tripOutput_canonical (s : State) : s.tripOutput.canonical ↔ s.canonical := by
  simp [State.tripOutput]

@[simp] theorem State.latchCheck_canonical (s : State) (ds : List DieId) (h : s.canonical) : (s.latchCheck ds).canonical := by
  simp [h, State.latchCheck]

@[simp] theorem execSensorSample_canonical (readings : List Reading) (s : State) (h : s.canonical) : OutCanonical (execSensorSample readings s) := by
  unfold execSensorSample
  split
  · exact h
  extract_lets ds old u n pow u1 u2 few u3 u4
  have hu : u.canonical := by simp [u, h]
  have hu2 : u2.canonical := State.foldl_canonical (fun s d h => by simp [h]) _ (s := u1) hu
  have hu3 : u3.canonical := by
    unfold u3
    split
    · simp [hu2]
    · exact hu2
  have hu4 : u4.canonical := State.foldl_canonical (f := State.countHot) (fun s d h => by simp [h]) _ hu3
  rw [outCanonical_next]
  simp [hu4]

@[simp] theorem execReadmissionRequest_canonical (_p : Path) (d : DieId) (sensor : Fin 36) (s : State) (h : s.canonical) :
    OutCanonical (execReadmissionRequest _p d sensor s) := by
  simp [h, execReadmissionRequest]

@[simp] theorem execSensorReadmission_canonical (d : DieId) (sensor : Fin 36) (s : State) (h : s.canonical) : OutCanonical (execSensorReadmission d sensor s) := by
  simp [h, execSensorReadmission]

@[simp] theorem execHskRequest_canonical (_p : Path) (d : DieId) (r : HskReq) (s : State) (h : s.canonical) : OutCanonical (execHskRequest _p d r s) := by
  simp [h, execHskRequest]

@[simp] theorem execHskUrgentRequest_canonical (_p : Path) (d : DieId) (r : HskReq) (s : State) (h : s.canonical) : OutCanonical (execHskUrgentRequest _p d r s) := by
  simp [h, execHskUrgentRequest]

@[simp] theorem execConversionDone_canonical (d : DieId) (east : Bool) (sense : HskSense) (s : State) (h : s.canonical) :
    OutCanonical (execConversionDone d east sense s) := by
  simp only [execConversionDone]
  split <;> simp [h]

@[simp] theorem execIdleBandgapConversion_canonical (d : DieId) (east : Bool) (sense : HskSense) (s : State) (h : s.canonical) :
    OutCanonical (execIdleBandgapConversion d east sense s) := by
  simp [h, execIdleBandgapConversion]

@[simp] theorem execConverterRetire_canonical (d : DieId) (refWest refEast : Nat) (s : State) (h : s.canonical) :
    OutCanonical (execConverterRetire d refWest refEast s) := by
  simp [h, execConverterRetire]

@[simp] theorem State.calDone_canonical (s : State) (key : Nat) : (s.calDone key).canonical ↔ s.canonical := by
  simp [State.calDone]

@[simp] theorem State.stageTrim_canonical (s : State) (key : Nat) (v : Int) : (s.stageTrim key v).canonical ↔ s.canonical := by
  simp [State.stageTrim]

@[simp] theorem State.refCheck_canonical (s : State) (h : s.canonical) : s.refCheck.canonical := by
  simp [h, State.refCheck]

@[simp] theorem execReferenceConversion_canonical (d : DieId) (east : Bool) (refCode gndCode bandgap : Nat) (s : State) (h : s.canonical) :
    OutCanonical (execReferenceConversion d east refCode gndCode bandgap s) := by
  simp [h, execReferenceConversion]

@[simp] theorem execCalibration_canonical (d : DieId) (block core index : Nat) (trim : Int) (s : State) (h : s.canonical) :
    OutCanonical (execCalibration d block core index trim s) := by
  simp [h, execCalibration]

@[simp] theorem execLightCheck_canonical (c : CoreId) (array : Nat) (errorMilli : Nat) (s : State) (h : s.canonical) :
    OutCanonical (execLightCheck c array errorMilli s) := by
  simp [h, execLightCheck]

@[simp] theorem State.applyTrims_canonical (s : State) (h : s.canonical) : s.applyTrims.canonical := by
  simp [h, State.applyTrims]

end Sys2Proof.Machine
end

section
/-!
The canonical form of the addressed memories, continued: register writes, changes, loads and power.
-/
namespace Sys2Proof.Machine

/-! ### Machine/RegWrite -/

@[simp] theorem State.bufferWrite_canonical (s : State) (p : Path) (a : Nat) (v : W32) : (s.bufferWrite p a v).canonical ↔ s.canonical := by
  simp only [State.bufferWrite]
  split <;> simp

@[simp] theorem State.strobeGroups_canonical (s : State) (d : DieId) (groups drops : BitVec 16) : (s.strobeGroups d groups drops).canonical ↔ s.canonical := by
  simp [State.strobeGroups]

@[simp] theorem State.dropGroups_canonical (s : State) (d : DieId) (groups : BitVec 16) : (s.dropGroups d groups).canonical ↔ s.canonical := by
  simp [State.dropGroups]

@[simp] theorem State.setHold_canonical (s : State) (b : Bool) : (s.setHold b).canonical ↔ s.canonical := by
  simp [State.setHold]

@[simp] theorem State.armChange_canonical (s : State) : s.armChange.canonical ↔ s.canonical := by
  simp [State.armChange]

@[simp] theorem State.discardChange_canonical (s : State) : s.discardChange.canonical ↔ s.canonical := by
  simp [State.discardChange]

@[simp] theorem State.writeChgCtrl_canonical (s : State) (v : W32) : (s.writeChgCtrl v).canonical ↔ s.canonical := by
  simp [State.writeChgCtrl]

@[simp] theorem State.askLeap_canonical (s : State) (src : Nat) : (s.askLeap src).canonical ↔ s.canonical := by
  simp [State.askLeap]

@[simp] theorem State.doorbell_canonical (s : State) (v : W32) (h : s.canonical) : (s.doorbell v).canonical := by
  have taken (o : Out) (ho : OutCanonical o) : (match o with | .next t => t | _ => s).canonical := by
    cases o with
    | next t => exact ho
    | fault r => exact h
    | refused r => exact h
  unfold State.doorbell
  refine taken _ ?_
  split <;> simp [h]

@[simp] theorem State.pkgNow_canonical (s : State) (p : Path) (off : Nat) (v : W32) (h : s.canonical) : (s.pkgNow p off v).canonical := by
  unfold State.pkgNow
  split <;> simp [h]

@[simp] theorem State.dieNow_canonical (s : State) (d : DieId) (off : Nat) (v : W32) : (s.dieNow d off v).canonical ↔ s.canonical := by
  unfold State.dieNow
  split <;> simp

@[simp] theorem State.coreNow_canonical (s : State) (c : CoreId) (off : Nat) (v : W32) (h : s.canonical) : (s.coreNow c off v).canonical := by
  refine State.modCore_canonical h _ fun k hk => ?_
  repeat' split
  all_goals exact hk

theorem State.regWrite_canonical {s t : State} {p : Path} {a : Nat} {v : W32} (h : s.regWrite p a v = some t) (hs : s.canonical) : t.canonical := by
  unfold State.regWrite at h
  split at h
  · cases h
  dsimp only at h
  split at h <;> cases h <;> simp [hs]

@[simp] theorem execRegisterWrite_canonical (p : Path) (addr : Nat) (v : W32) (s : State) (h : s.canonical) : OutCanonical (execRegisterWrite p addr v s) := by
  unfold execRegisterWrite
  cases hw : s.regWrite p addr v with
  | none => simp [h]
  | some t => simp [h, State.regWrite_canonical hw]

@[simp] theorem execLeapReq_canonical (_p : Path) (s : State) (h : s.canonical) : OutCanonical (execLeapReq _p s) := by
  simp [h, execLeapReq]

@[simp] theorem execHold_canonical (_p : Path) (on : Bool) (s : State) (h : s.canonical) : OutCanonical (execHold _p on s) := by
  simp [h, execHold]

@[simp] theorem execArm_canonical (_p : Path) (s : State) (h : s.canonical) : OutCanonical (execArm _p s) := by
  simp [h, execArm]

@[simp] theorem execDiscard_canonical (_p : Path) (s : State) (h : s.canonical) : OutCanonical (execDiscard _p s) := by
  simp [h, execDiscard]

@[simp] theorem execStrobe_canonical (_p : Path) (d : DieId) (groups : BitVec 16) (s : State) (h : s.canonical) : OutCanonical (execStrobe _p d groups s) := by
  simp [h, execStrobe]

@[simp] theorem execDrop_canonical (_p : Path) (d : DieId) (groups : BitVec 16) (s : State) (h : s.canonical) : OutCanonical (execDrop _p d groups s) := by
  simp [h, execDrop]

theorem State.atCore_canonical {s : State} (h : s.canonical) (c : CoreId) {f : Core → Core} (hf : ∀ k, (f k).store = k.store) : (s.atCore c f).canonical := by
  unfold State.atCore
  split
  · exact State.modCore_canonical h _ fun k hk => by rwa [hf]
  · exact h

@[simp] theorem execCheckLock_canonical (_p : Path) (c : CoreId) (s : State) (h : s.canonical) : OutCanonical (execCheckLock _p c s) :=
  State.atCore_canonical h _ fun _ => rfl

@[simp] theorem execLadderExhaustedClear_canonical (_p : Path) (c : CoreId) (s : State) (h : s.canonical) : OutCanonical (execLadderExhaustedClear _p c s) :=
  State.atCore_canonical h _ fun _ => rfl

@[simp] theorem execExceptionRecordClear_canonical (_p : Path) (c : CoreId) (s : State) (h : s.canonical) : OutCanonical (execExceptionRecordClear _p c s) :=
  State.atCore_canonical h _ fun _ => rfl

@[simp] theorem execConfigFaultClear_canonical (_p : Path) (d : DieId) (s : State) (h : s.canonical) : OutCanonical (execConfigFaultClear _p d s) := by
  simp [h, execConfigFaultClear]

@[simp] theorem execFsCountClear_canonical (_p : Path) (c : CoreId) (s : State) (h : s.canonical) : OutCanonical (execFsCountClear _p c s) :=
  State.atCore_canonical h _ fun _ => rfl

@[simp] theorem execClampsClear_canonical (_p : Path) (c : CoreId) (s : State) (h : s.canonical) : OutCanonical (execClampsClear _p c s) :=
  State.atCore_canonical h _ fun _ => rfl

@[simp] theorem execQeventClear_canonical (_p : Path) (c : CoreId) (s : State) (h : s.canonical) : OutCanonical (execQeventClear _p c s) :=
  State.atCore_canonical h _ fun _ => rfl

@[simp] theorem execLossesClear_canonical (_p : Path) (s : State) (h : s.canonical) : OutCanonical (execLossesClear _p s) := by
  simp [h, execLossesClear]

@[simp] theorem execCorrectedClear_canonical (_p : Path) (d : DieId) (s : State) (h : s.canonical) : OutCanonical (execCorrectedClear _p d s) := by
  simp [h, execCorrectedClear]

@[simp] theorem execRetriesClear_canonical (_p : Path) (d : DieId) (s : State) (h : s.canonical) : OutCanonical (execRetriesClear _p d s) := by
  simp [h, execRetriesClear]

@[simp] theorem execDraftsClear_canonical (_p : Path) (sv : ServeId) (s : State) (h : s.canonical) : OutCanonical (execDraftsClear _p sv s) := by
  simp [h, execDraftsClear]

@[simp] theorem execRailReading_canonical (baseWatts : Nat) (s : State) (h : s.canonical) : OutCanonical (execRailReading baseWatts s) := by
  simp [h, execRailReading]

@[simp] theorem State.enterHoldover_canonical (s : State) : s.enterHoldover.canonical ↔ s.canonical := by
  simp [State.enterHoldover]

@[simp] theorem State.safeState_canonical (s : State) (p : Path) (a : Place) : (s.safeState p a).canonical ↔ s.canonical := by
  unfold State.safeState
  split <;> simp

@[simp] theorem execConfigParityCheck_canonical (p : Path) (addr : Nat) (s : State) (h : s.canonical) : OutCanonical (execConfigParityCheck p addr s) := by
  unfold execConfigParityCheck
  dsimp only
  split <;> simp [h]

@[simp] theorem State.respond_canonical (s : State) (m : MgmtMsg) (status index : Nat) (words : List W32) :
    (s.respond m status index words).canonical ↔ s.canonical := by
  simp [State.respond]

@[simp] theorem State.resend_canonical (s : State) (k : Kept) : (s.resend k).canonical ↔ s.canonical := by
  simp [State.resend]

@[simp] theorem readWords_canonical (s : State) (a n : Nat) (h : s.canonical) : (readWords s a n).1.canonical := by
  induction n generalizing s a with
  | zero => exact h
  | succ n ih =>
    unfold readWords
    split <;> simp [h, ih]

@[simp] theorem writeWords_canonical (s : State) (a : Nat) (l : List W32) (h : s.canonical) : (writeWords s a l).1.canonical := by
  induction l generalizing s a with
  | nil => exact h
  | cons v l ih =>
    unfold writeWords
    cases hw : s.regWrite .mgmt a v with
    | none => exact h
    | some t => simp [h, ih, State.regWrite_canonical hw]

@[simp] theorem execMgmtRead_canonical (m : MgmtMsg) (s : State) (h : s.canonical) : OutCanonical (execMgmtRead m s) := by
  unfold execMgmtRead
  cases s.keptFor m <;> simp [h]

@[simp] theorem execMgmtWrite_canonical (m : MgmtMsg) (words : List W32) (s : State) (h : s.canonical) : OutCanonical (execMgmtWrite m words s) := by
  unfold execMgmtWrite
  cases s.keptFor m <;> simp [h]

/-! ### Machine/Change -/

@[simp] theorem State.clearBlock_canonical (s : State) (c : CoreId) : (s.clearBlock c).canonical ↔ s.canonical := by
  simp [State.clearBlock]

@[simp] theorem State.halfOff_canonical (s : State) (d : DieId) (east : Bool) : (s.halfOff d east).canonical ↔ s.canonical := by
  simp [State.halfOff]

/-- A fold of updates that each may be left out. -/
theorem State.foldl_ite_canonical {α : Type} (p : α → Prop) [DecidablePred p] {f : State → α → State} (hf : ∀ s x, s.canonical → (f s x).canonical) (l : List α)
    {s : State} (h : s.canonical) : (l.foldl (fun s x => if p x then f s x else s) s).canonical :=
  State.foldl_canonical (fun s x h => by
    split
    · exact hf s x h
    · exact h) _ h

@[simp] theorem State.applyDomains_canonical (s : State) (d : DieId) (v : W32) (h : s.canonical) : (s.applyDomains d v).canonical := by
  unfold State.applyDomains
  extract_lets old off on s1 s2 s3 s4 s5
  have h1 : s1.canonical := (State.modDie_canonical ..).2 h
  have h2 : s2.canonical := State.foldl_ite_canonical _ (f := fun s i => s.setPort d i 0) (fun _ _ => (State.setPort_canonical ..).2) _ h1
  have h3 : s3.canonical := State.startTraining_canonical _ _ _ h2
  have h4 : s4.canonical := State.foldl_ite_canonical _ (f := fun s c => (s.modCore (asCore (4 * d.val + c)) (coreReset (asCore (4 * d.val + c)))).clearBlock (asCore (4 * d.val + c)))
    (fun _ _ h => (State.clearBlock_canonical ..).2 (State.modCore_canonical h _ fun _ _ => rfl)) _ h3
  have h5 : s5.canonical := by simp [s5, h4]
  simp [h5]

@[simp] theorem State.useReady_canonical (s : State) (h : s.canonical) : s.useReady.canonical := by
  simp [h, State.useReady]

@[simp] theorem execDomainReady_canonical (d : DieId) (bit : Fin 26) (s : State) (h : s.canonical) : OutCanonical (execDomainReady d bit s) := by
  simp [h, execDomainReady]

@[simp] theorem State.applyPkg_canonical (s : State) (off entry : Nat) (v : W32) (h : s.canonical) : (s.applyPkg off entry v).canonical := by
  unfold State.applyPkg
  split <;> simp [h]

@[simp] theorem State.applyWrite_canonical (s : State) (w : BufWrite) (h : s.canonical) : (s.applyWrite w).canonical := by
  unfold State.applyWrite
  split <;> simp [h]

@[simp] theorem State.domainEve_canonical (s : State) (ws : List BufWrite) (h : s.canonical) : (s.domainEve ws).canonical := by
  refine State.useReady_canonical _ (State.foldl_canonical (fun s w h => ?_) _ h)
  cases w.domains
  · exact h
  · exact State.applyDomains_canonical _ _ _ h

theorem State.refusedBy_canonical {s t : State} {ws together : List BufWrite} (hr : s.refusedBy ws together = some t) (h : s.canonical) : t.canonical := by
  unfold State.refusedBy at hr
  extract_lets sh dm s1 s2 at hr
  have h1 : s1.canonical := State.foldl_canonical (fun _ _ => by exact (State.modDie_canonical ..).2) _ h
  have h2 : s2.canonical := by
    unfold s2
    split
    · exact State.boundHit_canonical _ _ h1
    · exact h1
  clear_value s2
  split at hr
  · cases hr
  · cases hr
    exact State.foldl_canonical (fun _ _ => by exact (State.modDie_canonical ..).2) _ h2

@[simp] theorem execChangeReport_canonical (s : State) (h : s.canonical) : OutCanonical (execChangeReport s) := by
  simp [h, execChangeReport]

@[simp] theorem State.refuseChanges_canonical (s : State) (h : s.canonical) : s.refuseChanges.canonical := by
  unfold State.refuseChanges
  extract_lets now u
  have hu : u.canonical := by
    unfold u
    split
    · exact h
    split
    next t ht => exact (State.refusedBy_canonical ht h :)
    next => exact h
  clear_value u
  split
  · exact hu
  dsimp only
  split
  next t ht => exact (State.refusedBy_canonical ht hu :)
  next => exact hu

@[simp] theorem State.applyPending_canonical (s : State) (h : s.canonical) : s.applyPending.1.canonical := by
  simp +contextual [h, State.applyPending]

@[simp] theorem State.applyArmed_canonical (s : State) (h : s.canonical) : s.applyArmed.1.canonical := by
  unfold State.applyArmed
  dsimp only
  split <;> simp +contextual [h]

@[simp] theorem State.joinLate_canonical (s : State) : s.joinLate.canonical ↔ s.canonical := by
  simp [State.joinLate]

@[simp] theorem execChangeRollback_canonical (s : State) (h : s.canonical) : OutCanonical (execChangeRollback s) := by
  simp [h, execChangeRollback]

/-! ### Machine/Load -/

@[simp] theorem State.loadBit_canonical (s : State) (i : Nat) : (s.loadBit i).canonical ↔ s.canonical := by
  simp [State.loadBit]

@[simp] theorem State.tellPeers_canonical (s : State) (msg : LoadMsg) : (s.tellPeers msg).canonical ↔ s.canonical := by
  simp [State.tellPeers]

@[simp] theorem State.tellReader_canonical (s : State) (msg : LoadMsg) : (s.tellReader msg).canonical ↔ s.canonical := by
  simp [State.tellReader]

@[simp] theorem State.answerAll_canonical (s : State) (st : Nat) (h : s.canonical) : (s.answerAll st).canonical := by
  unfold State.answerAll
  extract_lets s1 s2 s3
  have h1 : s1.canonical := by
    unfold s1
    split
    · exact State.completeCmd_canonical _ _ _ _ _ h
    · exact h
  have h2 : s2.canonical := by
    unfold s2
    split
    · exact State.completeCmd_canonical _ _ _ _ _ h1
    · exact h1
  have h3 : s3.canonical := State.foldl_canonical (fun s f h => State.completeCmd_canonical _ _ _ _ _ h) _ h2
  exact h3

@[simp] theorem State.endLoad_canonical (s : State) (st : Nat) (h : s.canonical) : (s.endLoad st).canonical := by
  simp [h, State.endLoad]

@[simp] theorem State.endQueued_canonical (s : State) (g : W32) (h : s.canonical) : (s.endQueued g).canonical := by
  simp +contextual [h, State.endQueued]

@[simp] theorem State.peerEnded_canonical (s : State) (h : s.canonical) : s.peerEnded.canonical := by
  simp [h, State.peerEnded]

@[simp] theorem execLoadAbandon_canonical (s : State) (h : s.canonical) : OutCanonical (execLoadAbandon s) := by
  simp [h, execLoadAbandon]

@[simp] theorem State.startLoad_canonical (s : State) (reader : Bool) (readerMember : Nat) (m : Bytes) (drain : Nat) (escrowPos : Nat) :
    (s.startLoad reader readerMember m drain escrowPos).canonical ↔ s.canonical := by
  simp [State.startLoad]

@[simp] theorem execImgBegin_canonical (h : HostCmd) (descAddr : W64) (metaLen drainTicks : W32) (escrowPos : BitVec 16) (s : State) (hs : s.canonical) :
    OutCanonical (execImgBegin h descAddr metaLen drainTicks escrowPos s) := by
  simp [hs, execImgBegin]

@[simp] theorem State.takeAnswers_canonical (s : State) (h : s.canonical) : s.takeAnswers.canonical := by
  unfold State.takeAnswers
  split
  · exact h
  dsimp only
  split
  · split <;> simp [h]
  · exact h

@[simp] theorem State.takeMetadata_canonical (s : State) (reader : Nat) (image : Bytes) (drain : Nat) :
    (s.takeMetadata reader image drain).canonical ↔ s.canonical := by
  simp [State.takeMetadata]

@[simp] theorem execMetadataCheck_canonical (member peerStatus : Nat) (image : Bytes) (drainTicks : W32) (s : State) (h : s.canonical) :
    OutCanonical (execMetadataCheck member peerStatus image drainTicks s) := by
  simp [h, execMetadataCheck]

@[simp] theorem execMemberAnswerTimeout_canonical (member : Nat) (s : State) (h : s.canonical) : OutCanonical (execMemberAnswerTimeout member s) := by
  simp [h, execMemberAnswerTimeout]

@[simp] theorem State.takeEnd_canonical (s : State) (h : s.canonical) : s.takeEnd.canonical := by
  unfold State.takeEnd
  split <;> simp [h]

@[simp] theorem State.sendSection_canonical (s : State) (f : Feed) : (s.sendSection f).canonical ↔ s.canonical := by
  unfold State.sendSection
  split <;> simp

@[simp] theorem State.sectionFails_canonical (s : State) (f : Feed) (h : s.canonical) : (s.sectionFails f).canonical := by
  simp [h, State.sectionFails]

@[simp] theorem State.sectionAcked_canonical (s : State) (f : Feed) (e : SecEnt) (holder : Nat) (h : s.canonical) : (s.sectionAcked f e holder).canonical := by
  unfold State.sectionAcked
  extract_lets acks s1
  have h1 : s1.canonical := State.completeCmd_canonical _ _ _ _ _ h
  split
  · exact State.takeEnd_canonical _ h1
  · exact h

@[simp] theorem execImgFeed_canonical (h : HostCmd) (index : W32) (addr : W64) (s : State) (hs : s.canonical) : OutCanonical (execImgFeed h index addr s) := by
  unfold execImgFeed
  split
  · simp [hs]
  split
  · simp [hs]
  split <;> simp [hs]

theorem State.stageSection_canonical {s t : State} {i : Nat} {e : SecEnt} {content : Bytes} (h : s.stageSection i e content = some t) :
    t.canonical ↔ s.canonical := by
  unfold State.stageSection at h
  split at h
  · cases h
  split at h <;> cases h <;> rfl

@[simp] theorem State.holdSection_canonical (s : State) (i : Nat) (e : SecEnt) (content : Bytes) (h : s.canonical) : (s.holdSection i e content).canonical := by
  unfold State.holdSection
  cases hs : s.stageSection i e content with
  | none => simp [h]
  | some t => simp [h, State.stageSection_canonical hs]

@[simp] theorem execSectionArrival_canonical (index holder : Nat) (content : Bytes) (peerAck : Bool) (s : State) (h : s.canonical) :
    OutCanonical (execSectionArrival index holder content peerAck s) := by
  unfold execSectionArrival
  split
  · simp [h]
  rename_i e _
  dsimp only
  cases hs : s.stageSection index e content with
  | none => cases s.load.feeds.find? _ <;> simp [h]
  | some t => cases s.load.feeds.find? _ <;> simp [h, State.stageSection_canonical hs]

@[simp] theorem execSectionTimeout_canonical (index holder : Nat) (s : State) (h : s.canonical) : OutCanonical (execSectionTimeout index holder s) := by
  unfold execSectionTimeout
  split <;> simp [h]

@[simp] theorem execImgEnd_canonical (h : HostCmd) (s : State) (hs : s.canonical) : OutCanonical (execImgEnd h s) := by
  unfold execImgEnd
  split
  · exact hs
  split
  · exact State.completeCmd_canonical _ _ _ _ _ hs
  · refine State.takeEnd_canonical _ (State.foldl_canonical (fun s f h => State.sectionFails_canonical _ _ h) _ ?_)
    exact (State.begins_canonical ..).2 hs

@[simp] theorem execImgAbort_canonical (h : HostCmd) (s : State) (hs : s.canonical) : OutCanonical (execImgAbort h s) := by
  simp [hs, execImgAbort]

@[simp] theorem execEscFeed_canonical (h : HostCmd) (index : W32) (addr : W64) (s : State) (hs : s.canonical) : OutCanonical (execEscFeed h index addr s) := by
  unfold execEscFeed
  cases (sectionsOf s.load.oldMeta)[index.toNat]? <;> simp [hs]

@[simp] theorem execDramScrub_canonical (sv : ServeId) (addr : Nat) (uncorrectable : Bool) (s : State) (h : s.canonical) :
    OutCanonical (execDramScrub sv addr uncorrectable s) := by
  unfold execDramScrub
  split
  · simp [h]
  split
  · simp [h]
  split <;> simp [h]

@[simp] theorem State.compareArray_canonical (s : State) (c : CoreId) (faults : List ReadFault) (a : Nat) :
    (s.compareArray c faults a).1.canonical ↔ s.canonical := by
  simp [State.compareArray]

theorem foldl_compareArray_canonical (c : CoreId) (faults : List ReadFault) (base : Nat) (l : List Nat) {x : State × Bool} (h : x.1.canonical) :
    (l.foldl (fun (r : State × Bool) i => let t := r.1.compareArray c faults (base + i); (t.1, t.2 && r.2)) x).1.canonical :=
  foldl_fst_canonical (fun r i hr => by simpa using hr) l h

@[simp] theorem execBankCompare_canonical (c : CoreId) (b : BankRead) (s : State) (h : s.canonical) : OutCanonical (execBankCompare c b s) := by
  unfold execBankCompare
  extract_lets key
  split
  · exact h
  split
  · exact h
  · exact (State.canonical_mk ..).2 (foldl_compareArray_canonical _ _ _ _ ((State.spendReads_canonical ..).2 h))

@[simp] theorem State.writeArray_canonical (s : State) (c : CoreId) (p a : Nat) (e : SecEnt) (content : Bytes) :
    (s.writeArray c p a e content).canonical ↔ s.canonical := by
  simp [State.writeArray]

@[simp] theorem State.writeBank_canonical (s : State) (c : CoreId) (b : Nat) (e : SecEnt) (content : Bytes) (h : s.canonical) :
    (s.writeBank c b e content).canonical := by
  simp [h, State.writeBank]

@[simp] theorem State.writeBanks_canonical (s : State) (h : s.canonical) : s.writeBanks.canonical := by
  simp +contextual [h, State.writeBanks]

@[simp] theorem execRowWrite_canonical (c : CoreId) (array row : Nat) (content : List Bool) (failing : List Nat) (s : State) (h : s.canonical) :
    OutCanonical (execRowWrite c array row content failing s) := by
  simp [h, execRowWrite]

@[simp] theorem execDraining_canonical (s : State) (h : s.canonical) : OutCanonical (execDraining s) := by
  simp [h, execDraining]

@[simp] theorem execMigrate_canonical (s : State) (h : s.canonical) : OutCanonical (execMigrate s) := by
  simp [h, execMigrate]

@[simp] theorem execWriting_canonical (s : State) (h : s.canonical) : OutCanonical (execWriting s) := by
  unfold execWriting
  generalize List.range 96 = cs
  split
  · exact h
  · extract_lets s1 s2 s3 load s4
    have h1 : s1.canonical := State.refusePatch_canonical _ h
    have h2 : s2.canonical := State.endQueued_canonical _ _ h1
    have h3 : s3.canonical := State.foldl_canonical (fun s i h => by exact State.abandonCopies_canonical s (asCore i) h) cs h2
    exact State.writeBanks_canonical s4 h3

@[simp] theorem State.replaceBad_canonical (s : State) (h : s.canonical) : s.replaceBad.canonical := by
  refine State.foldl_canonical (fun s x h => ?_) _ h
  dsimp only
  split
  · exact State.modCore_canonical h _ fun _ hk => hk
  split
  · exact State.modCore_canonical ((State.spendWrites_canonical ..).2 ((State.writeArray_canonical ..).2 h)) _ fun _ hk => hk
  · simp [h]

@[simp] theorem execMemberWritten_canonical (s : State) (h : s.canonical) : OutCanonical (execMemberWritten s) := by
  simp [h, execMemberWritten]

@[simp] theorem State.keepEscrow_canonical (s : State) : s.keepEscrow.canonical ↔ s.canonical := by
  simp [State.keepEscrow]

@[simp] theorem execCommitted_canonical (s : State) (h : s.canonical) : OutCanonical (execCommitted s) := by
  unfold execCommitted
  split
  · exact h
  split
  · simp [h]
  split
  · exact h
  split
  · exact h
  next x _ =>
    extract_lets m s1 s2 s3
    have h1 : s1.canonical := by
      unfold s1
      split
      · simp [h]
      · exact h
    have h2 : s2.canonical := State.foldl_canonical (fun s i h => by exact State.modCore_canonical ((State.takeMaps_canonical ..).2 h) _ fun _ hk => hk) _ h1
    have h3 : s3.canonical := State.installAlmanac_canonical _ _ _ h2
    exact State.post_canonical _ _ _ _ _ h3

/-! ### Machine/Power -/

@[simp] theorem State.emergUpdate_canonical (s : State) (h : s.canonical) : s.emergUpdate.canonical := by
  simp [h, State.emergUpdate]

@[simp] theorem State.powBit_canonical (s : State) (i : Nat) : (s.powBit i).canonical ↔ s.canonical := by
  simp [State.powBit]

@[simp] theorem execPmbusWarn_canonical (on : Bool) (s : State) (h : s.canonical) : OutCanonical (execPmbusWarn on s) := by
  simp [h, execPmbusWarn]

@[simp] theorem execPmbusFault_canonical (s : State) (h : s.canonical) : OutCanonical (execPmbusFault s) := by
  simp [h, execPmbusFault]

@[simp] theorem execRailShutdown_canonical (_r : Rail) (s : State) (h : s.canonical) : OutCanonical (execRailShutdown _r s) := by
  simp [h, execRailShutdown]

@[simp] theorem execCeilingTrip_canonical (s : State) (h : s.canonical) : OutCanonical (execCeilingTrip s) := by
  simp [h, execCeilingTrip]

@[simp] theorem execLimitHoldEmergency_canonical (s : State) (h : s.canonical) : OutCanonical (execLimitHoldEmergency s) := by
  simp [h, execLimitHoldEmergency]

@[simp] theorem State.endTest_canonical (s : State) (h : HostCmd) (st detail : Nat) (hs : s.canonical) : (s.endTest h st detail).canonical := by
  simp [hs, State.endTest]

@[simp] theorem State.queueTest_canonical (s : State) (t : SelfTest) (h : s.canonical) : (s.queueTest t).canonical := by
  unfold State.queueTest
  split <;> simp [h]

@[simp] theorem State.cancelTests_canonical (s : State) (h : HostCmd) (u : W32) (hs : s.canonical) : (s.cancelTests h u).canonical := by
  unfold State.cancelTests
  refine State.endTest_canonical _ _ _ _ (State.foldl_canonical (fun s t h => ?_) _ hs)
  have he := State.endTest_canonical s t.cmd 2 0 h
  dsimp only
  split
  · split
    · exact State.modCore_canonical he _ fun _ hk => hk
    · exact he
  · exact he

@[simp] theorem execSelftest_canonical (h : HostCmd) (unit : W32) (kind : BitVec 16) (s : State) (hs : s.canonical) : OutCanonical (execSelftest h unit kind s) := by
  simp [hs, execSelftest]

@[simp] theorem execSelftestCancel_canonical (h : HostCmd) (unit : W32) (s : State) (hs : s.canonical) : OutCanonical (execSelftestCancel h unit s) := by
  simp [hs, execSelftestCancel]

@[simp] theorem execSelftestRun_canonical (passed : Bool) (detail : BitVec 16) (s : State) (h : s.canonical) : OutCanonical (execSelftestRun passed detail s) := by
  unfold execSelftestRun
  split
  · exact h
  · extract_lets s1
    have h1 : s1.canonical := State.foldl_canonical (fun s t => State.queueTest_canonical _ _) _ h
    clear_value s1
    dsimp only
    split
    · exact h1
    split
    · exact h1
    · exact State.endTest_canonical _ _ _ _ h1

end Sys2Proof.Machine
end

section
/-!
The canonical form of the addressed memories, continued: the fabric, patches, groups and the firmware.
-/
namespace Sys2Proof.Machine

/-! ### Machine/Fabric -/

@[simp] theorem State.grpBit_canonical (s : State) (i : Nat) : (s.grpBit i).canonical ↔ s.canonical := by
  simp [State.grpBit]

@[simp] theorem State.setLink_canonical (s : State) (k v : Nat) : (s.setLink k v).canonical ↔ s.canonical := by
  simp [State.setLink]

@[simp] theorem execFabricLinkTraining_canonical (k : Fin 32) (r : LaneResult) (peer : Option Peer) (s : State) (h : s.canonical) :
    OutCanonical (execFabricLinkTraining k r peer s) := by
  unfold execFabricLinkTraining
  split
  · simp [h]
  split <;> simp [h]

@[simp] theorem State.linkLoss_canonical (s : State) (k v : Nat) (h : s.canonical) : (s.linkLoss k v).canonical := by
  simp [h, State.linkLoss]

@[simp] theorem execFabricLaneFail_canonical (k : Fin 32) (fourLeft : Bool) (s : State) (h : s.canonical) : OutCanonical (execFabricLaneFail k fourLeft s) := by
  simp [h, execFabricLaneFail]

@[simp] theorem execEyeSafetyDisable_canonical (o : Fin 4) (port : Nat) (s : State) (h : s.canonical) : OutCanonical (execEyeSafetyDisable o port s) := by
  simp [h, execEyeSafetyDisable]

@[simp] theorem execOpticalDieFail_canonical (o : Fin 4) (s : State) (h : s.canonical) : OutCanonical (execOpticalDieFail o s) := by
  simp +contextual [h, execOpticalDieFail]

@[simp] theorem State.takeFlits_canonical (s : State) (f : Frame) (h : s.canonical) : (s.takeFlits f).canonical := by
  simp [h, State.takeFlits]

@[simp] theorem execDataFrame_canonical (i : FrameIn) (s : State) (h : s.canonical) : OutCanonical (execDataFrame i s) := by
  unfold execDataFrame
  extract_lets f
  split
  · exact h
  · refine checkWords_canonical h _ _ fun s h => ?_
    split <;> simp [h]

@[simp] theorem State.takeTransit_canonical (s : State) (g : Frame) (arrival : Fin 32) : (s.takeTransit g arrival).canonical ↔ s.canonical := by
  simp [State.takeTransit]

@[simp] theorem execTransitFrame_canonical (i : FrameIn) (s : State) (h : s.canonical) : OutCanonical (execTransitFrame i s) := by
  unfold execTransitFrame
  extract_lets f code k
  split
  · exact h
  · exact checkWords_canonical h _ _ fun s => (State.takeTransit_canonical ..).2

@[simp] theorem execStampFrame_canonical (tag : W32) (p : Stamp) (s : State) (h : s.canonical) : OutCanonical (execStampFrame tag p s) := by
  simp [h, execStampFrame]

@[simp] theorem execTimeMessage_canonical (bytes : Bytes) (s : State) (h : s.canonical) : OutCanonical (execTimeMessage bytes s) := by
  unfold execTimeMessage
  split
  · simp [h]
  split <;> simp [h]

@[simp] theorem execTimingLock_canonical (within50ns : Bool) (s : State) (h : s.canonical) : OutCanonical (execTimingLock within50ns s) := by
  simp [h, execTimingLock]

@[simp] theorem execHoldover_canonical (s : State) (h : s.canonical) : OutCanonical (execHoldover s) := by
  simp [h, execHoldover]

/-! ### Machine/Patch -/

@[simp] theorem State.patchStores_canonical (s : State) (a : Almanac) (ws : List (Nat × Nat × Bytes)) (h : s.canonical) : (s.patchStores a ws).canonical :=
  State.foldl_canonical (fun _ _ h => by exact State.modCore_canonical h _ fun _ => Core.storeAt_wf _ _ _) _ ((State.canonical_mk ..).2 h)

@[simp] theorem execAlmPatch_canonical (h : HostCmd) (addr : W64) (len : W32) (target : W48) (s : State) (hs : s.canonical) :
    OutCanonical (execAlmPatch h addr len target s) := by
  unfold execAlmPatch
  split
  · simp [hs]
  split
  · simp [hs]
  split
  · simp [hs]
  split <;> simp [hs]

@[simp] theorem State.applyPatch_canonical (s : State) (p : Patch) (h : s.canonical) : (s.applyPatch p).canonical := by
  unfold State.applyPatch
  split
  next a b _ _ =>
    extract_lets raw b s1 s2 newP grp record tick s3 s4
    have h1 : s1.canonical := State.patchStores_canonical _ _ _ h
    have h2 : s2.canonical := by
      unfold s2
      split
      · exact State.foldl_canonical (fun s e h => by exact State.placeCore_canonical _ _ _ _ h) _ h1
      · exact h1
    clear_value s2
    have h3 : s3.canonical := (State.canonical_mk ..).2 h2
    clear_value s3
    have h4 : s4.canonical := by
      unfold s4
      split
      · refine State.foldl_canonical (fun s d h => ?_) _ h3
        split
        · exact h
        · exact State.modSd_canonical h _ fun _ hx => hx
      · exact h3
    exact State.patchEnd_canonical _ _ h4
  · exact h

@[simp] theorem State.patchStep_canonical (s : State) (ms : List Nat) (h : s.canonical) : (s.patchStep ms).canonical := by
  unfold State.patchStep
  split <;> simp [h]

@[simp] theorem execStructuralPatchApply_canonical (s : State) (h : s.canonical) : OutCanonical (execStructuralPatchApply s) := by
  unfold execStructuralPatchApply
  split <;> simp [h]

@[simp] theorem execPatchRollback_canonical (s : State) (h : s.canonical) : OutCanonical (execPatchRollback s) := by
  unfold execPatchRollback
  split
  · simp [h]
  split <;> simp [h]

/-! ### Machine/Group -/

@[simp] theorem State.slew_canonical (s : State) (t : W48) : (s.slew t).canonical ↔ s.canonical := by
  unfold State.slew
  split <;> simp

@[simp] theorem State.callConvening_canonical (s : State) (h : s.canonical) : s.callConvening.canonical := by
  unfold State.callConvening
  split <;> simp [h]

@[simp] theorem State.sendConvene_canonical (s : State) : s.sendConvene.canonical ↔ s.canonical := by
  simp [State.sendConvene]

@[simp] theorem execConveneFrame_canonical (f : Convene) (s : State) (h : s.canonical) : OutCanonical (execConveneFrame f s) := by
  simp [h, execConveneFrame]

@[simp] theorem State.replaceMembers_canonical (s : State) (r : GroupRecord) (ms : List Nat) (h : s.canonical) : (s.replaceMembers r ms).1.canonical := by
  refine foldl_fst_canonical (fun x m hx => ?_) _ h
  dsimp only
  split
  · exact hx
  · simpa using hx

@[simp] theorem State.makeRuling_canonical (s : State) (keep : List Nat) (at_ : W48) (h : s.canonical) : (s.makeRuling keep at_).1.canonical := by
  simp [h, State.makeRuling]

@[simp] theorem execConveningRuling_canonical (s : State) (h : s.canonical) : OutCanonical (execConveningRuling s) := by
  simp [h, execConveningRuling]

@[simp] theorem execRuling_canonical (f : Ruling) (s : State) (h : s.canonical) : OutCanonical (execRuling f s) := by
  simp [h, execRuling]

@[simp] theorem State.sendRuling_canonical (s : State) : s.sendRuling.canonical ↔ s.canonical := by
  unfold State.sendRuling
  split <;> simp

@[simp] theorem execConveningRoundEnd_canonical (s : State) (h : s.canonical) : OutCanonical (execConveningRoundEnd s) := by
  simp [h, execConveningRoundEnd]

@[simp] theorem State.dropQueue_canonical (s : State) (h : s.canonical) : s.dropQueue.canonical := by
  unfold State.dropQueue
  extract_lets q s1
  have h1 : s1.canonical := State.foldl_canonical (fun _ _ h => by exact (State.setRing_canonical ..).2 h) _ h
  exact h1

@[simp] theorem State.dropModel_canonical (s : State) : s.dropModel.canonical ↔ s.canonical := by
  simp [State.dropModel]

@[simp] theorem State.fence_canonical (s : State) (h : s.canonical) : s.fence.canonical := by
  simp [h, State.fence]

@[simp] theorem execGroupSplit_canonical (s : State) (h : s.canonical) : OutCanonical (execGroupSplit s) := by
  simp [h, execGroupSplit]

@[simp] theorem State.revertRequests_canonical (s : State) (t : W48) (h : s.canonical) : (s.revertRequests t).canonical := by
  unfold State.revertRequests
  extract_lets s1
  have h1 : s1.canonical := State.foldl_canonical (fun s i h => by
    exact (State.modReq_canonical ..).2 (State.foldl_canonical (fun _ _ h => by exact State.modSd_canonical h _ fun _ hx => hx) _ h)) _ h
  have h2 := State.eachCore_canonical s1 (fun k => { k with fails := [] }) h1 fun _ hk => hk
  exact h2

@[simp] theorem State.dropStaged_canonical (s : State) (h : s.canonical) : s.dropStaged.canonical := by
  simp [h, State.dropStaged]

@[simp] theorem State.sendJoins_canonical (s : State) (l : List (Nat × BitVec 16)) : (s.sendJoins l).canonical ↔ s.canonical := by
  simp [State.sendJoins]

@[simp] theorem State.leadFailover_canonical (s : State) (f : Ruling) (old : GroupRecord) (fs : List Nat) :
    (s.leadFailover f old fs).canonical ↔ s.canonical := by
  simp [State.leadFailover]

@[simp] theorem State.rejoinFenced_canonical (s : State) : s.rejoinFenced.canonical ↔ s.canonical := by
  simp [State.rejoinFenced]

@[simp] theorem State.sendRestores_canonical (s : State) (old : GroupRecord) (l : List (Nat × BitVec 16)) (h : s.canonical) : (s.sendRestores old l).canonical := by
  simp [h, State.sendRestores]

@[simp] theorem State.requestEscrow_canonical (s : State) : s.requestEscrow.canonical ↔ s.canonical := by
  simp [State.requestEscrow]

@[simp] theorem execRulingApply_canonical (s : State) (h : s.canonical) : OutCanonical (execRulingApply s) := by
  unfold execRulingApply
  split
  · exact h
  next f _ =>
    split
    · exact h
    split
    · exact State.fence_canonical _ h
    extract_lets old fs s1 grp tick s2 s3 u grp9 s4 s5
    have h1 : s1.canonical := State.revertRequests_canonical _ _ (State.dropStaged_canonical _ h)
    clear_value s1
    have h2 : s2.canonical := h1
    clear_value s2
    have h3 : s3.canonical := State.post_canonical _ _ _ _ _ h2
    clear_value s3
    split
    · exact h3
    · have h4 : s4.canonical := by
        unfold s4
        split
        · exact (State.grpBit_canonical s3 9).2 h3
        · exact h3
      have h5 : s5.canonical := State.post_canonical _ _ _ _ _ ((State.grpBit_canonical ..).2 h4)
      exact State.sendRestores_canonical _ _ _ ((State.leadFailover_canonical ..).2 h5)

@[simp] theorem State.takeJoin_canonical (s : State) : s.takeJoin.canonical ↔ s.canonical := by
  unfold State.takeJoin
  split <;> simp

@[simp] theorem execJoin_canonical (f : Join) (s : State) (h : s.canonical) : OutCanonical (execJoin f s) := by
  simp [h, execJoin]

@[simp] theorem execJoinTimeout_canonical (s : State) (h : s.canonical) : OutCanonical (execJoinTimeout s) := by
  simp [h, execJoinTimeout]

@[simp] theorem execEscrowBankArrival_canonical (index : Nat) (content : Bytes) (s : State) (h : s.canonical) :
    OutCanonical (execEscrowBankArrival index content s) := by
  unfold execEscrowBankArrival
  split
  · simp [h]
  split
  · simp [h]
  dsimp only
  split <;> simp [h]

@[simp] theorem State.orderRebuilds_canonical (s : State) (h : s.canonical) : s.orderRebuilds.canonical := by
  simp [h, State.orderRebuilds]

@[simp] theorem State.enterService_canonical (s : State) (h : s.canonical) : s.enterService.canonical := by
  unfold State.enterService
  split
  · simp [h]
  split <;> simp [h]

@[simp] theorem State.moveRequest_canonical (s : State) (i : Nat) (r : Req) (h : s.canonical) : (s.moveRequest i r).canonical := by
  unfold State.moveRequest
  split
  · exact h
  · extract_lets s1 s2
    have h1 : s1.canonical := (State.setReq_canonical ..).2 h
    have h2 : s2.canonical := by
      unfold s2
      split
      · exact h1
      split
      next x0 x1 e0 e1 =>
        exact (State.modReq_canonical ..).2 (State.setSd_canonical (State.setSd_canonical h1 _ (State.reserve_dram e0 ▸ h1.2.1 0)) _ (State.reserve_dram e1 ▸ h1.2.1 1))
      · exact h1
    exact State.post_canonical _ _ _ _ _ h2

@[simp] theorem State.takeRequests_canonical (s : State) (h : s.canonical) : s.takeRequests.canonical := by
  simp +contextual [h, State.takeRequests]

@[simp] theorem execFailoverHoldEnd_canonical (s : State) (h : s.canonical) : OutCanonical (execFailoverHoldEnd s) := by
  unfold execFailoverHoldEnd
  extract_lets ready
  split
  · exact h
  · rename_i s1 _ _ s2 _
    have h1 : s1.canonical := State.orderRebuilds_canonical _ (State.takeRequests_canonical _ (State.enterService_canonical _ h))
    exact State.post_canonical s2 _ _ _ _ h1

@[simp] theorem execEscrowRefill_canonical (s : State) (h : s.canonical) : OutCanonical (execEscrowRefill s) := by
  simp [h, execEscrowRefill]

@[simp] theorem State.sendLeave_canonical (s : State) : s.sendLeave.canonical ↔ s.canonical := by
  simp [State.sendLeave]

@[simp] theorem execLeave_canonical (groupId : BitVec 16) (member : Nat) (s : State) (h : s.canonical) : OutCanonical (execLeave groupId member s) := by
  simp [h, execLeave]

@[simp] theorem execPresenceBreak_canonical (s : State) (h : s.canonical) : OutCanonical (execPresenceBreak s) := by
  simp [h, execPresenceBreak]

@[simp] theorem execGroupLeave_canonical (h : HostCmd) (s : State) (hs : s.canonical) : OutCanonical (execGroupLeave h s) := by
  simp [hs, execGroupLeave]

@[simp] theorem execGroupForm_canonical (h : HostCmd) (recordAddr : W64) (s : State) (hs : s.canonical) : OutCanonical (execGroupForm h recordAddr s) := by
  simp [hs, execGroupForm]

/-! ### Machine/Firmware -/

/-- A table written anew: what holds of the defaults and of what is written holds of every entry. -/
theorem forall_smGet_foldl_smSet {α : Type} [DecidableEq α] (d f : Nat → α) {P : α → Prop} (hf : ∀ i, P (f i)) (l : List Nat) {m : SMap α} (hm : ∀ i, P (smGet d m i))
    (i : Nat) : P (smGet d (l.foldl (fun m i => smSet d m i (f i)) m) i) := by
  induction l generalizing m with
  | nil => exact hm i
  | cons k l ih =>
    refine ih fun i => ?_
    rw [smGet_smSet]
    split
    · exact hf k
    · exact hm i

/-- A table whose entries are each mapped by a function that keeps `P`. -/
theorem smGet_map_of_keeps {α : Type} (d : Nat → α) {f : α → α} {P : α → Prop} (hd : ∀ i, P (d i)) (hf : ∀ x, P x → P (f x)) {m : SMap α} {i : Nat}
    (h : P (smGet d m i)) : P (smGet d (m.map fun e => (e.1, f e.2)) i) := by
  induction m with
  | nil => exact hd i
  | cons e m ih =>
    obtain ⟨j, x⟩ := e
    simp only [List.map_cons, smGet] at h ⊢
    split
    · exact hf _ (by simpa [*] using h)
    · exact ih (by simpa [*] using h)

@[simp] theorem State.packageReset_canonical (s : State) (h : s.canonical) : s.packageReset.canonical :=
  ⟨fun c => forall_smGet_foldl_smSet coreDefault (fun i => (smGet coreDefault s.cores i).afterReset s.fuses i) (P := fun k => Memory.wf k.store = true)
      (fun _ => rfl) _ (fun _ => rfl) c.val,
    fun n => forall_smGet_foldl_smSet serveDefault (fun i => { serveDefault i with dram := (smGet serveDefault s.serve i).dram }) (P := fun x => Memory.wf x.dram = true)
      (fun i => h.2.1 i) [0, 1] (fun _ => rfl) n, h.2.2⟩

@[simp] theorem execPowerOnReset_canonical (s : State) (h : s.canonical) : OutCanonical (execPowerOnReset s) := by
  unfold execPowerOnReset
  extract_lets p
  have hp : p.canonical := State.packageReset_canonical _ h
  refine ⟨fun c => ?_, fun _ => rfl, rfl, rfl⟩
  exact smGet_map_of_keeps coreDefault (f := fun k => { k with arrays := k.arrays.map fun a => (a.1, { a.2 with wear := 0, wearSince := 0 }) })
    (P := fun k => Memory.wf k.store = true) (fun _ => rfl) (fun _ hk => hk) (hp.1 c)

@[simp] theorem execOrderlyPowerDown_canonical (s : State) (h : s.canonical) : OutCanonical (execOrderlyPowerDown s) := by
  unfold execOrderlyPowerDown
  split
  · exact h
  · extract_lets s1 p
    have h1 : s1.canonical := State.foldl_canonical (fun s e h => by
      exact State.foldl_canonical (fun s a h => by exact (State.saveWear_canonical ..).2 h) _ h) _ h
    have hp : p.canonical := State.packageReset_canonical _ h1
    exact hp

@[simp] theorem execUnplannedPowerLoss_canonical (s : State) (h : s.canonical) : OutCanonical (execUnplannedPowerLoss s) := by
  simp [h, execUnplannedPowerLoss]

@[simp] theorem State.stageBundle_canonical (s : State) (h : HostCmd) (raw : Bytes) (hs : s.canonical) : (s.stageBundle h raw).canonical := by
  simp [hs, State.stageBundle]

@[simp] theorem State.bootBundle_canonical (s : State) (b : Bundle) (fallback : Bool) : (s.bootBundle b fallback).canonical ↔ s.canonical := by
  simp [State.bootBundle]

@[simp] theorem State.bootLastGood_canonical (s : State) : s.bootLastGood.canonical ↔ s.canonical := by
  unfold State.bootLastGood
  split <;> simp

@[simp] theorem State.bootPower_canonical (s : State) (h : s.canonical) : s.bootPower.canonical := by
  simp [h, State.bootPower]

@[simp] theorem State.sendMgmt_canonical (s : State) (m : MgmtOut) : (s.sendMgmt m).canonical ↔ s.canonical := by
  simp [State.sendMgmt]

@[simp] theorem State.trainAtReset_canonical (s : State) (h : s.canonical) : s.trainAtReset.canonical := by
  simp +contextual [h, State.trainAtReset]

@[simp] theorem State.setFetch_canonical (s : State) (f : Fetch) : (s.setFetch f).canonical ↔ s.canonical := by
  simp [State.setFetch]

@[simp] theorem execSolicit_canonical (s : State) (h : s.canonical) : OutCanonical (execSolicit s) := by
  unfold execSolicit
  split <;> simp [h]

@[simp] theorem State.issueReads_canonical (s : State) (f : Fetch) (h : s.canonical) : (s.issueReads f).canonical := by
  unfold State.issueReads
  extract_lets one x
  have hx : x.1.canonical := foldl_fst_canonical (fun y _ hy => by
    show (one y).1.canonical
    unfold one
    dsimp only
    split
    · exact hy
    · simpa using hy) _ h
  simpa using hx

@[simp] theorem State.fetched_canonical (s : State) (f : Fetch) (h : s.canonical) : (s.fetched f).canonical := by
  unfold State.fetched
  dsimp only
  split
  · split <;> simp [h]
  · simp [h]

@[simp] theorem execOffer_canonical (object : Byte) (length : W32) (s : State) (h : s.canonical) : OutCanonical (execOffer object length s) := by
  unfold execOffer
  split <;> simp [h]

@[simp] theorem execData_canonical (offset : W32) (bytes : Bytes) (s : State) (h : s.canonical) : OutCanonical (execData offset bytes s) := by
  unfold execData
  split
  · simp [h]
  split <;> simp [h]

@[simp] theorem execReadRetry_canonical (offset : W32) (s : State) (h : s.canonical) : OutCanonical (execReadRetry offset s) := by
  unfold execReadRetry
  split
  · simp [h]
  split <;> simp [h]

@[simp] theorem execFetchTimeout_canonical (s : State) (h : s.canonical) : OutCanonical (execFetchTimeout s) := by
  unfold execFetchTimeout
  split <;> simp [h]

@[simp] theorem execFwStage_canonical (h : HostCmd) (src : Byte) (addr : W64) (len : W32) (s : State) (hs : s.canonical) :
    OutCanonical (execFwStage h src addr len s) := by
  simp [hs, execFwStage]

@[simp] theorem State.actRefused_canonical (s : State) : s.actRefused.canonical ↔ s.canonical := by
  simp [State.actRefused]

@[simp] theorem execFwActivate_canonical (h : HostCmd) (target : W48) (auto : Byte) (s : State) (hs : s.canonical) : OutCanonical (execFwActivate h target auto s) := by
  simp [hs, execFwActivate]

@[simp] theorem execAutoActivation_canonical (s : State) (h : s.canonical) : OutCanonical (execAutoActivation s) := by
  simp [h, execAutoActivation]

@[simp] theorem State.setProc_canonical (s : State) (p : Proc) (x : ProcState) : (s.setProc p x).canonical ↔ s.canonical := by
  cases p <;> rfl

@[simp] theorem State.applyActivation_canonical (s : State) (h : s.canonical) : s.applyActivation.canonical := by
  unfold State.applyActivation
  split
  · exact h
  · refine State.patchEnd_canonical _ _ (State.post_canonical _ _ _ _ _ (State.foldl_canonical (fun s p h => ?_) _ ((State.canonical_mk ..).2 h)))
    split
    · exact h
    · exact (State.setProc_canonical ..).2 h

@[simp] theorem State.actStep_canonical (s : State) (ms : List Nat) (h : s.canonical) : (s.actStep ms).canonical := by
  unfold State.actStep
  split <;> simp [h]

@[simp] theorem State.restarted_canonical (s : State) (p : Proc) (cause : RestartCause) (h : s.canonical) : (s.restarted p cause).canonical := by
  simp [h, State.restarted]

@[simp] theorem State.startProc_canonical (s : State) (p : Proc) (h : s.canonical) : (s.startProc p).canonical := by
  cases p <;> simp [h, State.startProc]

@[simp] theorem execWatchdog_canonical (p : Proc) (s : State) (h : s.canonical) : OutCanonical (execWatchdog p s) := by
  simp [h, execWatchdog]

@[simp] theorem execFwRestart_canonical (p : Proc) (cause : RestartCause) (s : State) (h : s.canonical) : OutCanonical (execFwRestart p cause s) := by
  simp [h, execFwRestart]

@[simp] theorem execTakeover_canonical (p : Proc) (s : State) (h : s.canonical) : OutCanonical (execTakeover p s) := by
  cases p <;> simp [h, execTakeover]

@[simp] theorem execLastGoodBundle_canonical (s : State) (h : s.canonical) : OutCanonical (execLastGoodBundle s) := by
  unfold execLastGoodBundle
  split <;> simp [h]

@[simp] theorem execCommandDieFail_canonical (_east : Bool) (s : State) (h : s.canonical) : OutCanonical (execCommandDieFail _east s) := by
  simp [h, execCommandDieFail]

@[simp] theorem execAttest_canonical (h : HostCmd) (nonceAddr outAddr : W64) (s : State) (hs : s.canonical) : OutCanonical (execAttest h nonceAddr outAddr s) := by
  simp [hs, execAttest]

@[simp] theorem execOwnerKeyAdd_canonical (h : HostCmd) (modelId : BitVec 128) (keyAddr : W64) (require : Byte) (s : State) (hs : s.canonical) :
    OutCanonical (execOwnerKeyAdd h modelId keyAddr require s) := by
  simp [hs, execOwnerKeyAdd]

@[simp] theorem execOwnerKeyDelete_canonical (h : HostCmd) (modelId : BitVec 128) (s : State) (hs : s.canonical) : OutCanonical (execOwnerKeyDelete h modelId s) := by
  simp [hs, execOwnerKeyDelete]

@[simp] theorem execBootCfg_canonical (h : HostCmd) (cfgAddr : W64) (s : State) (hs : s.canonical) : OutCanonical (execBootCfg h cfgAddr s) := by
  simp [hs, execBootCfg]

end Sys2Proof.Machine
end

section
/-!
The canonical form of the addressed memories, continued: the tick, and every command.
-/
namespace Sys2Proof.Machine

/-! ### Machine/Scalar -/

@[simp] theorem alu_canonical (c : CoreId) (rd ra rb : SReg) (imm : W32) (lat : Nat) (f : W64 → W64 → W64) (t : Nat) {s : State} (h : s.canonical) :
    FireCanonical (alu c rd ra rb imm lat f t s) :=
  onCore_canonical c h fun _ => by simp

@[simp] theorem loadOp_canonical (c : CoreId) (ra : SReg) (imm : W32) (n : Nat) {put : Core → Nat → Core} {s : State} (h : s.canonical)
    (hp : ∀ k v, (put k v).store = k.store) : FireCanonical (loadOp c ra imm n put s) := by
  unfold loadOp
  extract_lets k a
  split
  · exact h
  split
  · exact h
  split
  · exact h
  split
  · trivial
  · exact State.setCore_canonical h c (by rw [hp]; exact h.1 c)

@[simp] theorem storeOp_canonical (c : CoreId) (ra : SReg) (imm : W32) (bs : Core → Bytes) (t : Nat) {s : State} (h : s.canonical) :
    FireCanonical (storeOp c ra imm bs t s) := by
  unfold storeOp
  extract_lets k a n
  split
  · exact h
  split
  · exact h
  split
  · trivial
  · exact State.setCore_canonical h c (Core.storeAt_wf _ _ _ (h.1 c))

@[simp] theorem putP_canonical (c : CoreId) (pd : PReg) (f : Core → Bool) (t : Nat) {s : State} (h : s.canonical) : FireCanonical (putP c pd f t s) :=
  onCore_canonical c h fun _ => by simp

/-! ### Machine/Tick -/

@[simp] theorem State.startSlots_canonical (s : State) (a : Almanac) (h : s.canonical) : (s.startSlots a).canonical := by
  simp [h, State.startSlots]

@[simp] theorem State.startLanes_canonical (s : State) (a : Almanac) (h : s.canonical) : (s.startLanes a).canonical := by
  simp only [State.startLanes]
  split <;> simp [h]

@[simp] theorem State.startGroup_canonical (s : State) (leap : Bool) (elapsed : Nat) : (s.startGroup leap elapsed).canonical ↔ s.canonical := by
  simp [State.startGroup]

@[simp] theorem State.prepare_canonical (s : State) (h : s.canonical) : s.prepare.canonical := by
  unfold State.prepare
  split
  · exact h
  split
  · exact h
  · refine State.enterLanes_canonical _ _ _ _ _ (State.foldl_canonical (fun s i h => ?_) _ ((State.canonical_mk ..).2 h))
    split
    · split
      · exact (State.setReducer_canonical ..).2 h
      · exact h
    · exact h

@[simp] theorem State.openTick_canonical (s : State) (h : s.canonical) : s.openTick.canonical := by
  simp [h, State.openTick]

@[simp] theorem execTickStart_canonical (s : State) (h : s.canonical) : OutCanonical (execTickStart s) := by
  simp only [execTickStart]
  split
  · simp [h]
  split <;> simp [h]

/-- The undoing of late issues touches accumulators alone. -/
theorem Core.foldl_undo_store (us : List UnitInst) (k : Core) :
    (us.foldl (fun (k : Core) u => match u.issue with | some i => k.putAccs i.undo | none => k) k).store = k.store :=
  Core.foldl_store (fun k u => by cases u.issue <;> simp) us k

@[simp] theorem State.coreDeadline_canonical (s : State) (c : CoreId) (h : s.canonical) : (s.coreDeadline c).canonical := by
  unfold State.coreDeadline
  extract_lets k dln lates cause s1 s2
  have h1 : s1.canonical := State.modCore_canonical h _ fun k hk => (Core.foldl_undo_store _ k).symm ▸ hk
  have h2 : s2.canonical := by
    unfold s2
    split
    · exact h
    · exact (overrun_canonical ..).2 h1
  split
  · exact (overrun_canonical ..).2 (State.modCore_canonical h2 _ fun _ hk => hk)
  · exact h2

@[simp] theorem execIssueDeadline_canonical (s : State) (h : s.canonical) : OutCanonical (execIssueDeadline s) := by
  simp +contextual [h, execIssueDeadline]

/-- Completion flags touch STATUS alone. -/
theorem Core.foldl_showFlags_store (p : UnitInst → Bool) (us : List UnitInst) (k : Core) :
    (us.foldl (fun k u => if p u then k.showFlags u.flags else k) k).store = k.store :=
  Core.foldl_store (fun k u => by split <;> rfl) us k

@[simp] theorem State.unitsDeadline_canonical (s : State) (c : CoreId) (h : s.canonical) : (s.unitsDeadline c).canonical := by
  unfold State.unitsDeadline
  extract_lets k w open9 s1
  have h1 : s1.canonical := by
    unfold s1
    split
    · exact (State.lose_canonical ..).2 h
    · exact h
  split
  · exact h1
  · exact State.modCore_canonical h1 _ fun k hk => (Core.foldl_showFlags_store _ _ k).symm ▸ hk

@[simp] theorem State.flitsDeadline_canonical (s : State) (h : s.canonical) : s.flitsDeadline.canonical := by
  unfold State.flitsDeadline
  extract_lets cur s1
  have h1 : s1.canonical := State.foldl_canonical (fun _ _ h => by exact (State.modDie_canonical ..).2 ((State.lose_canonical ..).2 h)) _ h
  exact h1

@[simp] theorem State.reducersDeadline_canonical (s : State) (h : s.canonical) : s.reducersDeadline.canonical := by
  simp [h, State.reducersDeadline]

@[simp] theorem State.servesDeadline_canonical (s : State) (h : s.canonical) : s.servesDeadline.canonical := by
  unfold State.servesDeadline
  extract_lets late s1 s2 s3
  have hlate (s : State) (d : Nat) (h : s.canonical) : (late s d).canonical := State.modSd_canonical ((State.lose_canonical ..).2 h) _ fun _ hx => hx
  have h1 : s1.canonical := State.foldl_canonical (fun s q => by exact hlate s _) _ h
  have h2 : s2.canonical := State.foldl_canonical (fun s d h => by
    split
    · exact h
    · exact State.modSd_canonical (hlate _ _ h) _ fun _ hx => hx) _ h1
  have h3 : s3.canonical := State.foldl_canonical (fun _ _ h => by exact (State.lose_canonical ..).2 h) _ h2
  exact h3

@[simp] theorem State.powerEstimate_canonical (s : State) (h : s.canonical) : s.powerEstimate.canonical := by
  simp [h, State.powerEstimate]

@[simp] theorem State.thermalRequest_canonical (s : State) (h : s.canonical) : s.thermalRequest.canonical := by
  unfold State.thermalRequest
  split
  · exact h
  · extract_lets x m
    have hx : x.1.canonical := foldl_fst_canonical (fun _ _ hy => by exact hy) _ h
    clear_value x
    exact (State.canonical_mk ..).2 hx

@[simp] theorem State.sendStamps_canonical (s : State) : s.sendStamps.canonical ↔ s.canonical := by
  simp [State.sendStamps]

@[simp] theorem execWorkDeadline_canonical (s : State) (h : s.canonical) : OutCanonical (execWorkDeadline s) := by
  unfold execWorkDeadline
  split
  · exact h
  · extract_lets s1 s2 s3
    have h1 : s1.canonical := State.foldl_canonical (fun s i h => by exact State.unitsDeadline_canonical _ _ h) _ h
    clear_value s1
    have h2 : s2.canonical := State.servesDeadline_canonical _ (State.reducersDeadline_canonical _ (State.flitsDeadline_canonical _ h1))
    have h3 : s3.canonical := (State.sendStamps_canonical _).2 (State.thermalRequest_canonical _ (State.powerEstimate_canonical _ h2))
    clear_value s3
    exact h3

@[simp] theorem State.loseTick_canonical (s : State) (t q : W48) (ns : List Notice) (h : s.canonical) : (s.loseTick t q ns).canonical := by
  simp [h, State.loseTick]

@[simp] theorem State.verdict_canonical (s : State) (h : s.canonical) : s.verdict.canonical := by
  simp only [State.verdict]
  split <;> simp [h]

@[simp] theorem State.groupStretch_canonical (s : State) : s.groupStretch.canonical ↔ s.canonical := by
  simp [State.groupStretch]

@[simp] theorem State.leapSchedule_canonical (s : State) : s.leapSchedule.canonical ↔ s.canonical := by
  simp [State.leapSchedule]

@[simp] theorem State.coreEve_canonical (s : State) (c : CoreId) (h : s.canonical) : (s.coreEve c).canonical := by
  simp [h, State.coreEve]

@[simp] theorem State.bandEve_canonical (s : State) (h : s.canonical) : s.bandEve.canonical := by
  simp [h, State.bandEve]

@[simp] theorem State.clockEve_canonical (s : State) (h : s.canonical) : s.clockEve.canonical := by
  simp [h, State.clockEve]

@[simp] theorem State.applyVerdict_canonical (s : State) (h : s.canonical) : s.applyVerdict.canonical := by
  simp [h, State.applyVerdict]

@[simp] theorem State.applyChanges_canonical (s : State) (h : s.canonical) : s.applyChanges.1.canonical := by
  have h1 : ((s.refuseChanges.patchStep s.stampers).actStep s.stampers).canonical :=
    State.actStep_canonical _ _ (State.patchStep_canonical _ _ (State.refuseChanges_canonical _ h))
  exact (State.joinLate_canonical _).2 (State.applyArmed_canonical _ (State.applyPending_canonical _ h1))

@[simp] theorem State.applyCores_canonical {r : State × List BufWrite} (h : r.1.canonical) : (State.applyCores r).canonical := by
  unfold State.applyCores
  extract_lets s1
  have h1 : s1.canonical := State.foldl_canonical (fun s i h => by exact State.coreEve_canonical _ _ h) _ h
  exact State.clockEve_canonical _ (State.applyTrims_canonical _ (State.domainEve_canonical _ _ (State.bandEve_canonical _ h1)))

@[simp] theorem State.applyGroup_canonical (s : State) (h : s.canonical) : s.applyGroup.canonical := by
  simp [h, State.applyGroup]

@[simp] theorem State.readCons_canonical (s : State) (h : s.canonical) : s.readCons.canonical := by
  simp [h, State.readCons]

@[simp] theorem State.applyHost_canonical (s : State) (h : s.canonical) : s.applyHost.canonical := by
  have h1 : s.requestEscrow.readCons.applyRings.canonical := State.applyRings_canonical _ (State.readCons_canonical _ ((State.requestEscrow_canonical _).2 h))
  unfold State.applyHost
  generalize List.range 16 = is
  extract_lets s1 fw s2
  have hs1 : s1.canonical := State.foldl_canonical State.flushLost_canonical _ h1
  clear_value s1
  have hs2 : s2.canonical := hs1
  exact State.emergUpdate_canonical _ hs2

@[simp] theorem execApplyPoint_canonical (s : State) (h : s.canonical) : OutCanonical (execApplyPoint s) := by
  unfold execApplyPoint
  split
  · exact h
  · extract_lets s1 tick s2
    have h1 : s1.canonical :=
      State.applyHost_canonical _ (State.applyGroup_canonical _ (State.applyCores_canonical (State.applyChanges_canonical _ (State.applyVerdict_canonical _ h))))
    clear_value s1
    have h2 : s2.canonical := h1
    exact (State.takeJoin_canonical _).2 h2

@[simp] theorem execEmergencyStretch_canonical (s : State) (h : s.canonical) : OutCanonical (execEmergencyStretch s) := by
  simp [h, execEmergencyStretch]

@[simp] theorem execEmergencyStretchEnd_canonical (s : State) (h : s.canonical) : OutCanonical (execEmergencyStretchEnd s) := by
  unfold execEmergencyStretchEnd
  split <;> simp [h]

@[simp] theorem execRepeatLossFault_canonical (s : State) (h : s.canonical) : OutCanonical (execRepeatLossFault s) := by
  simp [h, execRepeatLossFault]

@[simp] theorem execRecoveryHoldEnd_canonical (s : State) (h : s.canonical) : OutCanonical (execRecoveryHoldEnd s) := by
  unfold execRecoveryHoldEnd
  split <;> simp [h]

@[simp] theorem execRecoveryHoldTimeout_canonical (s : State) (h : s.canonical) : OutCanonical (execRecoveryHoldTimeout s) := by
  unfold execRecoveryHoldTimeout
  split <;> simp [h]

@[simp] theorem execBoot_canonical (straps : Straps) (fuseError : Bool) (s : State) (h : s.canonical) : OutCanonical (execBoot straps fuseError s) := by
  unfold execBoot
  split
  · exact h
  · extract_lets p fuses fab fw q
    have hp : p.canonical := State.packageReset_canonical _ h
    have hq : q.canonical := State.trainAtReset_canonical _ ((State.canonical_mk ..).2 hp)
    clear_value q
    rw [outCanonical_next]
    split
    · simpa using hq
    · exact hq

/-! ### Every command, and every step -/

/-! A slot program's instructions: each fires with a body that keeps the canonical form. -/

theorem execDset_canonical (c : CoreId) (g : Guard) (td : TReg) (fld : DField) (ra : SReg) (imm : W32) {s : State} (h : s.canonical) :
    OutCanonical (execDset c g td fld ra imm s) := fire_canonical h fun _ => onCore_canonical _ h fun _ => rfl

theorem execClst_canonical (c : CoreId) (g : Guard) (imm : W32) {s : State} (h : s.canonical) : OutCanonical (execClst c g imm s) :=
  fire_canonical h fun _ => onCore_canonical _ h fun _ => rfl

theorem execLdx_canonical (c : CoreId) (g : Guard) (rd : SReg) (ta : TReg) (imm : W32) {s : State} (h : s.canonical) : OutCanonical (execLdx c g rd ta imm s) := by
  refine fire_canonical h fun _ => ?_
  dsimp only
  split
  · exact h
  split
  · exact h
  split
  · exact h
  split
  · exact h
  split
  · exact h
  split
  · trivial
  split
  · trivial
  · exact State.setCore_canonical h _ (by simpa using h.1 c)

theorem Core.staticStep_store (sh : Nat × Nat × Nat) (t : Tile) (d : LayerDir) (chans : List (Nat × Nat × Nat)) (xs : List Nat) (x : Int) (k : Core) (i : Nat) :
    (k.staticStep sh t d chans xs x i).store = k.store := (congrArg Core.store (Core.staticStep_spec sh t d chans xs x k i).2.2.1 :)

theorem execMvs_canonical (c : CoreId) (g : Guard) (td ta : TReg) (sa : SReg) (tile : Tile) {s : State} (h : s.canonical) :
    OutCanonical (execMvs c g td ta sa tile s) := by
  refine fire_canonical h fun _ => ?_
  extract_lets k dd da st bad xs x
  clear_value st bad xs x
  refine unitOp_canonical _ _ _ _ _ _ _ _ h fun k hk => ?_
  generalize List.range (256 * tile.nspan) = is
  exact (Core.foldl_store (f := Core.staticStep dd.shape tile st.1 st.2 xs x) (Core.staticStep_store _ _ _ _ _ _) is k).symm ▸ hk

theorem execAccadd_canonical (c : CoreId) (g : Guard) (td ta : TReg) {s : State} (h : s.canonical) : OutCanonical (execAccadd c g td ta s) := by
  refine fire_canonical h fun _ => ?_
  dsimp only
  split
  next s' cost next hu =>
    have hs' : FireCanonical (.go s' cost next) := hu ▸ unitOp_canonical _ _ _ _ _ _ _ _ h (by simp +contextual)
    split
    · simp [h]
    · exact hs'
  next => exact unitOp_canonical _ _ _ _ _ _ _ _ h (by simp +contextual)

theorem execQnt_canonical (c : CoreId) (g : Guard) (td ta : TReg) (sa : SReg) (rsel : BitVec 4) {s : State} (h : s.canonical) :
    OutCanonical (execQnt c g td ta sa rsel s) := by
  refine fire_canonical h fun _ => ?_
  dsimp only
  split
  · split <;> exact h
  · refine unitOp_canonical _ _ _ _ _ _ _ _ h fun k hk => ?_
    simp only [Core.flagIf_store, Core.setS_store]
    exact Core.foldl_wf (fun k _ => k.putRecord_wf _ _ _ _ _) _ hk

theorem execAttn_canonical (c : CoreId) (g : Guard) (ta tb : TReg) (route : BitVec 16) (sa : SReg) (layer : BitVec 10) {s : State} (h : s.canonical) :
    OutCanonical (execAttn c g ta tb route sa layer s) := by
  refine fire_canonical h fun _ => serveOp_canonical _ _ _ _ _ _ _ h (fun k hk => ?_) fun _ => by simp
  dsimp only
  split
  · exact Core.putRows_wf _ _ _ _ hk
  · exact hk

theorem execMvm_canonical (c : CoreId) (g : Guard) (o : MvmOp) (faults : List ReadFault) {s : State} (h : s.canonical) :
    OutCanonical (execMvm c g o faults s) := fire_canonical h fun _ => by split <;> simp [h]

theorem execLdd_canonical (c : CoreId) (g : Guard) (td : TReg) (ra : SReg) (imm : W32) {s : State} (h : s.canonical) : OutCanonical (execLdd c g td ra imm s) :=
  fire_canonical h fun _ => loadOp_canonical _ _ _ _ h fun _ _ => rfl

/-- An instruction of a core's slot program fires with a body that keeps the canonical form. -/
theorem exec_canonical_of_core {i : Instr} {s : State} (h : s.canonical) (hi : (coreOf i).isSome) : OutCanonical (exec i s) := by
  cases i
  case nop => exact fire_canonical h fun _ => h
  case ldd => exact execLdd_canonical _ _ _ _ _ h
  case ldx => exact execLdx_canonical _ _ _ _ _ h
  case dset => exact execDset_canonical _ _ _ _ _ _ h
  case clst => exact execClst_canonical _ _ _ h
  case mvm => exact execMvm_canonical _ _ _ _ h
  case mvs => exact execMvs_canonical _ _ _ _ _ _ h
  case accadd => exact execAccadd_canonical _ _ _ _ h
  case qnt => exact execQnt_canonical _ _ _ _ _ _ h
  case attn => exact execAttn_canonical _ _ _ _ _ _ _ h
  case kvw | samp | gfence =>
    exact fire_canonical h fun _ => serveOp_canonical _ _ _ _ _ _ _ h (by simp) fun _ => by simp
  case ret | waitd | send | red =>
    exact fire_canonical h fun _ => by dsimp only; split <;> simp [h]
  case br | call | endProg | rds | wait | add | sub | mul | divu | remu | divs | rems | and | or | xor | shl | shr | sra | min | max | movhi
      | ld | st | ldw | stw | std | pcmp | pand | por | pxor | pnot | pset | tst | rdst | accclr | accrd | accst | accld
      | vadd | vsub | vmul | vfma | vmax | vmin | vscl | vcvt | vsum | vmaxr | vnorm | vexp | vrcp | vrsqrt | vsilu | vgelu | vtanh | vsigm | vrope
      | mov | mfill | mgath =>
    exact fire_canonical h fun _ => by simp +contextual [h]
  all_goals cases hi

/-- Every command keeps the canonical form of the addressed memories. -/
theorem exec_canonical (i : Instr) {s : State} (h : s.canonical) : OutCanonical (exec i s) := by
  by_cases hi : (coreOf i).isSome
  · exact exec_canonical_of_core h hi
  cases i
  all_goals simp [exec, coreOf, h] at hi ⊢

/-- Settles O59: by the lemmas of the commands; a step runs one command on the state with the queue's rest, or idles. -/
theorem canonicalMemories : Obligations.CanonicalMemories := by
  intro s t h ht
  unfold step at ht
  split at ht
  · cases ht
    exact h
  next c rest _ =>
    have hc := exec_canonical c (s := { s with pending := rest }) h
    rwa [ht] at hc

end Sys2Proof.Machine
end
